-- ==== Sys2Proof/Word.lean ====
section
/-! DEFINITION. The plain words of the U3264 model: bytes, device time and numbers of instances. -/

namespace Sys2Proof

/-- One byte as a buffer of the frame store holds it (R193). -/
abbrev Byte := BitVec 8

/-- Device time, an unsigned count of nanoseconds (R19). -/
abbrev Time := Nat

/-- One microsecond of device time. -/
abbrev us : Nat := 1000

/-- One millisecond of device time. -/
abbrev ms : Nat := 1000000

/-- One second of device time. -/
abbrev sec : Nat := 1000000000

end Sys2Proof
end

