-- ==== Sys2Proof/Syntax.lean ====
section
/-! DEFINITION. The commands of the U3264: one constructor per row of the table of operations and events. Every
command carries first the device time, in nanoseconds, at which it comes about (R19). A command of the host then
names its source; a received folio its lane and body; a happening its instance and what the outside decided. -/

namespace Sys2Proof

/-- A requester: one sender on a control path (R461). `id` is the HOST field on CAN, IPv4 address × 65,536 + UDP
port on Ethernet, and 0 on a lane. -/
structure Requester where
  path : Nat
  id : Nat
  deriving DecidableEq, Repr

/-- Where a write comes from: its requester, and whether an open session authenticated it (R464, R479). -/
structure Src where
  who : Requester
  auth : Bool
  deriving DecidableEq, Repr

/-- The authentication trailer of a DAP message (R479). -/
structure Trailer where
  session : Nat
  seq : Nat
  mac : Nat
  deriving DecidableEq, Repr

/-- A DAP message as reassembled: the header fields of R469, the data bytes and the trailer when AUTH is set. -/
structure Msg where
  tag : Nat
  op : Nat
  index : Nat
  sub : Nat
  flags : Nat
  offset : Nat
  rev : Nat
  length : Nat
  data : List Nat
  trailer : Option Trailer
  deriving DecidableEq, Repr

/-- A CAN frame: FD format or not, 29-bit identifier or not, the identifier, and the data bytes (R483, R484). -/
structure CanFrame where
  fd : Bool
  ext : Bool
  ident : Nat
  data : List Nat
  deriving DecidableEq, Repr

/-- A burst that hung, as the matrix saw it (R592, R606). -/
structure Hang where
  master : Nat
  target : Nat
  reason : Nat
  beat : Nat
  address : Nat
  dt : Nat
  deriving DecidableEq, Repr
/-- What a flit of the shared plane serves (R116, R117): the data of a route, a burst of a route's frame that is written to a
buffer, another memory request of a route, DAP traffic, an asset upload or diagnostics; requests with their tags. -/
inductive FlitUse where
  | data (route : Nat)
  | write (route handle offset tag : Nat)
  | memory (route tag : Nat)
  | dap (tag : Nat)
  | upload (tag : Nat)
  | diagnostics (tag : Nat)
  deriving DecidableEq, Repr

/-- A flit that an ingress of the shared plane offers (R116): its ports, POS, what it serves, its payload, and the bits of
header (31 to 0) and payload (from 32) that are inverted on the way. -/
structure Flit where
  ingress : Nat
  dest : Nat
  pos : Nat
  use : FlitUse
  payload : Nat
  flips : Nat
  deriving DecidableEq, Repr

/-- A transfer that an ingress of the Spine plane offers (R102, R112, R113): the port in the order of R101, the slot, the payload and
the CRC-8 as they arrive, the route, the core latency in units of 100 ps, and whether the slot has already opened. -/
structure Transfer where
  ingress : Nat
  slot : Nat
  payload : Nat
  crc : Nat
  route : Nat
  latency : Nat
  late : Bool
  deriving DecidableEq, Repr

/-- One read of a DRAM burst (R47, R181, R199): the bits of the 64 bytes (from bit 0) and of their CRC-16 (from bit 512) that come
inverted, the address of the burst that came XOR the one asked for, and the ns that the access took. -/
structure BurstRead where
  flips : Nat
  stray : Nat
  time : Nat
  deriving DecidableEq, Repr

/-- What a DRAM burst read serves (R199, R327, R233): a block of a buffer, a delay line of an output channel, a block
for the decoder of a compression engine, or an asset kept in DRAM copy. -/
inductive BurstUse where
  | video (handle offset : Nat)
  | delay (out : Nat)
  | asset (id : Nat)
  deriving DecidableEq, Repr

/-- Whose frame boundary or first line it is (R85): an output, an output stream fed by a route, or a rolling window
(whose boundary is the frame start of its source, log entry 15). -/
inductive Bnd where
  | output (n : Nat)
  | stream (k : Nat)
  | window (w : Nat)
  deriving DecidableEq, Repr

/-- The commands, in the order of the table; each names the rule that governs it. -/
inductive Instr where
  /-- R464 -/
  | registerWrite (t : Nat) (src : Src) (index sub : Nat) (data : List Nat)
  /-- R471; the message's OP is READ -/
  | dapRead (t : Nat) (who : Requester) (m : Msg)
  /-- R466; `ok`: the NVM write or retest that the write calls for succeeds -/
  | dapWrite (t : Nat) (who : Requester) (m : Msg) (ok : Bool)
  /-- R471 -/
  | dapHello (t : Nat) (who : Requester) (m : Msg)
  /-- R467 -/
  | dapSave (t : Nat) (who : Requester) (m : Msg)
  /-- R467; `ok`: the NVM took the image and its commit word -/
  | saveCommitWord (t : Nat) (ok : Bool)
  /-- R468 -/
  | restoreDefaults (t : Nat) (who : Requester) (m : Msg)
  /-- R478 -/
  | sessionOpen (t : Nat) (who : Requester) (m : Msg)
  /-- R478 -/
  | sessionProve (t : Nat) (who : Requester) (m : Msg)
  /-- R478 -/
  | sessionClose (t : Nat) (who : Requester) (m : Msg)
  /-- R473 -/
  | dapAbort (t : Nat) (who : Requester) (m : Msg)
  /-- R473 -/
  | stagedWriteTimeout (t : Nat) (who : Requester)
  /-- R478 -/
  | sessionIdleTimeout (t session : Nat)
  /-- R481 -/
  | dapLockWrite (t : Nat) (src : Src) (value : Nat)
  /-- R481 -/
  | lockTimeoutExpired (t : Nat)
  /-- R474 -/
  | snapshotDiscard (t : Nat) (who : Requester)
  /-- R476 -/
  | keptResponseExpiry (t : Nat) (who : Requester)
  /-- R480 -/
  | proofLockoutEnd (t path : Nat)
  /-- R487; a subscription place, 0 to 3 -/
  | subscriptionExpiry (t place : Nat)
  /-- R487; `n` records go in one message -/
  | notifySend (t : Nat) (who : Requester) (n : Nat)
  /-- R484 -/
  | canSegment (t port : Nat) (frame : CanFrame) (ok : Bool)
  /-- R484 -/
  | canReassemblyAbort (t port : Nat) (frame : CanFrame)
  /-- R484 -/
  | canReassemblyTimeout (t port host : Nat)
  /-- R485; the payload bytes of the datagram, segment header first -/
  | netDatagram (t : Nat) (who : Requester) (data : List Nat) (ok : Bool)
  /-- R485 -/
  | netReassemblyTimeout (t : Nat) (who : Requester)
  /-- R485 -/
  | arpRequest (t target senderIp senderMac : Nat)
  /-- R485 -/
  | icmpEcho (t source dest : Nat) (data : List Nat)
  /-- R486; the 120-bit body of the DAP folio, R398 -/
  | laneDapSegment (t lane body : Nat) (ok : Bool)
  /-- R492 -/
  | canApplySetup (t : Nat) (src : Src) (port : Nat)
  /-- R490 -/
  | canLeaveBusOff (t : Nat) (src : Src) (port : Nat)
  /-- R492 -/
  | netApplySetup (t : Nat) (src : Src)
  /-- R490 -/
  | netRestartPhy (t : Nat) (src : Src)
  /-- R490 -/
  | dapStatsClear (t : Nat) (src : Src)
  /-- R504 -/
  | evtStatusClear (t : Nat) (src : Src) (w value : Nat)
  /-- R505 -/
  | evtEnableWrite (t : Nat) (src : Src) (w value : Nat)
  /-- R506 -/
  | evtSeverityWrite (t : Nat) (src : Src) (w value : Nat)
  /-- R507 -/
  | evtClearAll (t : Nat) (src : Src)
  /-- R507 -/
  | evtClearId (t : Nat) (src : Src) (id : Nat)
  /-- R509 -/
  | evtTest (t : Nat) (src : Src) (id : Nat)
  /-- R507 -/
  | evtDefaults (t : Nat) (src : Src)
  /-- R488 -/
  | safeMinLowExpiry (t : Nat)
  /-- R410; the body of an ANNOUNCE endpoint record -/
  | endpointRecord (t lane body : Nat)
  /-- R409; the body of an ANNOUNCE stream record -/
  | streamRecord (t lane body : Nat)
  /-- R412 -/
  | withdrawFolio (t lane body : Nat)
  /-- R411 -/
  | heartbeatFolio (t lane body : Nat)
  /-- R411; the window of one endpoint index ends -/
  | heartbeatWindowEnd (t ep : Nat)
  /-- R411 -/
  | deviceHeartbeatSend (t : Nat)
  /-- R409 -/
  | streamRecordRepeat (t : Nat)
  /-- R52 -/
  | stallTimeout (t stream : Nat)
  /-- R53 -/
  | inputFrameStart (t stream : Nat)
  /-- R387; a data folio in a slot of the receive calendar -/
  | dataFolio (t lane slot payload : Nat)
  /-- R391 -/
  | lineCheckFolio (t lane body : Nat)
  /-- R391 -/
  | poisonFolio (t lane body : Nat)
  /-- R394 -/
  | tagFolio (t lane body : Nat)
  /-- R393 -/
  | audioFolio (t lane body : Nat)
  /-- R62 -/
  | strCommit (t : Nat) (src : Src)
  /-- R95 -/
  | stvClear (t : Nat) (src : Src)
  /-- R83; the bytes written -/
  | takeGroup (t : Nat) (src : Src) (data : List Nat)
  /-- R88 -/
  | takeCancel (t : Nat) (src : Src) (id : Nat)
  /-- R86; the GROUP_ID -/
  | takeEffectiveDt (t id : Nat)
  /-- R87; the GROUP_ID and the route -/
  | c0TakeOverdue (t id route : Nat)
  /-- R96 -/
  | takeStatsClear (t : Nat) (src : Src)
  /-- R69 -/
  | holdExpired (t route : Nat)
  /-- R69 -/
  | restoreDelayExpired (t route : Nat)
  /-- R90; `ok`: the NVM took the image -/
  | safeSetCommit (t : Nat) (src : Src) (ok : Bool)
  /-- R85 -/
  | outputFrameBoundary (t : Nat) (b : Bnd)
  /-- R306 -/
  | firstActiveLine (t : Nat) (b : Bnd)
  /-- R258; output, its line period, and the layers whose data for the line is incomplete at its blend start (engine
  layers 0 to 15, Spine layers 16 to 23) or, for the line's conversion, at its deadline -/
  | outputLineStart (t n line : Nat) (late : List Nat)
  /-- R294 -/
  | pushDone (t n : Nat)
  /-- R290 -/
  | syncEvent (t n : Nat)
  /-- R290 -/
  | syncTimeout (t n : Nat)
  /-- R302 -/
  | outCommit (t : Nat) (src : Src) (n : Nat)
  /-- R313 -/
  | rasterClearLate (t : Nat) (src : Src) (n : Nat)
  /-- R313 -/
  | rasterClearCounts (t : Nat) (src : Src) (n : Nat)
  /-- R313 -/
  | rasterResetRegions (t : Nat) (src : Src) (n : Nat)
  /-- R278 -/
  | outCompDisable (t : Nat) (src : Src) (n : Nat)
  /-- R277 -/
  | outCompEnable (t : Nat) (src : Src) (n : Nat)
  /-- R277; `pass`: the retest of R128 passes -/
  | outCompRetest (t : Nat) (src : Src) (n : Nat) (pass : Bool)
  /-- R280 -/
  | outCompClearCounters (t : Nat) (src : Src) (n : Nat)
  /-- R128; `pass`: the loopback pattern of the retest comes back -/
  | fabPortRestore (t : Nat) (src : Src) (pass : Bool)
  /-- R130 -/
  | fabStatsClear (t : Nat) (src : Src)
  /-- R118, R119, R127; the flits that ingress ports offer, and the egress port that then serves its next flit -/
  | sharedFlitArrival (t port : Nat) (offers : List Flit)
  /-- R102, R104; the transfers that ingress ports offer to an egress in the order of R101, which then serves its next one -/
  | spineTransfer (t egress : Nat) (offers : List Transfer)
  /-- R127; on the Spine plane (ports as in R101, egress ports from 128) or the shared plane -/
  | handshakeTimeout (t : Nat) (spine : Bool) (port : Nat)
  /-- R127 -/
  | egressStall (t port : Nat)
  /-- R123, R124; the four reporters in ps -/
  | fabSpeedUpdate (t : Nat) (speeds : List Nat)
  /-- R170 -/
  | convApply (t : Nat) (src : Src) (unit : Nat)
  /-- R171 -/
  | convDisable (t : Nat) (src : Src) (unit : Nat)
  /-- R171 -/
  | convEnable (t : Nat) (src : Src) (unit : Nat)
  /-- R172; `pass`: the retest of R128 passes -/
  | convRetest (t : Nat) (src : Src) (unit : Nat) (pass : Bool)
  /-- R177 -/
  | convClearCounts (t : Nat) (src : Src) (unit : Nat)
  /-- R156; the twelve cluster reporters in ps -/
  | convSpeedUpdate (t : Nat) (speeds : List Nat)
  /-- R184 -/
  | fsPoolCommit (t : Nat) (src : Src)
  /-- R193; the 64-bit command -/
  | fsAlloc (t : Nat) (src : Src) (cmd : Nat)
  /-- R191 -/
  | fsFree (t : Nat) (src : Src) (cmd : Nat)
  /-- R193 -/
  | fsCancelQueued (t : Nat) (src : Src) (cmd : Nat)
  /-- R192; the 128-bit header and the data bytes -/
  | fsBufWrite (t : Nat) (src : Src) (header : Nat) (data : List Nat)
  /-- R190 -/
  | fsBufRead (t : Nat) (who : Requester)
  /-- R192 -/
  | queuedWriteTimeout (t handle : Nat)
  /-- R205 -/
  | fsChRetire (t : Nat) (src : Src) (k : Nat)
  /-- R205 -/
  | fsChRestore (t : Nat) (src : Src) (k : Nat)
  /-- R202 -/
  | fsChSweep (t : Nat) (src : Src) (k : Nat)
  /-- R202; FS_LOAD as it reads -/
  | marginSweepStart (t load : Nat)
  /-- R364; the worst margin of the part swept, % -/
  | sweepPartDone (t margin : Nat)
  /-- R203 -/
  | evacuationDone (t k : Nat)
  /-- R204 -/
  | evacuationRetry (t k : Nat)
  /-- R204; whether training succeeded, at which rate, and the margin found -/
  | channelRetrainDone (t k : Nat) (trained slow : Bool) (margin : Nat)
  /-- R47, R181, R199; the read and its re-reads, and whether they are fetches of class C0 -/
  | dramBurstRead (t k : Nat) (use : BurstUse) (c0 : Bool) (reads : List BurstRead)
  /-- R207 -/
  | fsWinCommit (t : Nat) (src : Src)
  /-- R209 -/
  | fsWinTrigger (t : Nat) (src : Src) (w : Nat)
  /-- R209 -/
  | fsWinRelease (t : Nat) (src : Src) (w : Nat)
  /-- R209 -/
  | fsWinRestart (t : Nat) (src : Src) (w : Nat)
  /-- R209 -/
  | windowPostExpiry (t w : Nat)
  /-- R215 -/
  | fsStatsClear (t : Nat) (src : Src)
  /-- R239 -/
  | cmpApply (t : Nat) (src : Src) (engine : Nat)
  /-- R240 -/
  | cmpDisable (t : Nat) (src : Src) (engine : Nat)
  /-- R240 -/
  | cmpEnable (t : Nat) (src : Src) (engine : Nat)
  /-- R241; `pass`: the retest of R128 passes -/
  | cmpRetest (t : Nat) (src : Src) (engine : Nat) (pass : Bool)
  /-- R242 -/
  | cmpClearCounters (t : Nat) (src : Src) (engine : Nat)
  /-- R242 -/
  | cmpStatsClear (t : Nat) (src : Src)
  /-- R328 -/
  | audCommit (t : Nat) (src : Src)
  /-- R328; `clipped`: output channel and clipped samples of the block (R322); `readings`: measured entries (R335) -/
  | audioBlockBoundary (t : Nat) (clipped readings : List (Nat × Nat))
  /-- R330; `late`: µs from the trigger to the first sample (R332) -/
  | chimeStart (t : Nat) (src : Src) (g latency : Nat)
  /-- R330 -/
  | chimeStop (t : Nat) (src : Src) (g : Nat)
  /-- R330 -/
  | chimeStopAll (t : Nat) (src : Src)
  /-- R330 -/
  | chimePatternStep (t g : Nat)
  /-- R320; the frame rate measured, mHz -/
  | tdmFrame (t port rate : Nat)
  /-- R320 -/
  | tdmClockTimeout (t port : Nat)
  /-- R335 -/
  | tdmClearCounts (t : Nat) (src : Src) (port : Nat)
  /-- R335 -/
  | tdmResync (t : Nat) (src : Src) (port : Nat)
  /-- R335 -/
  | audMuteAll (t : Nat) (src : Src) (value : Nat)
  /-- R335 -/
  | audStatsClear (t : Nat) (src : Src)
  /-- R333 -/
  | soundWrite (t : Nat) (src : Src) (data : List Nat) (ok : Bool)
  /-- R333 -/
  | soundDelete (t : Nat) (src : Src) (id : Nat)
  /-- R371 -/
  | phyApply (t : Nat) (src : Src) (lane : Nat)
  /-- R366 -/
  | phyRetrain (t : Nat) (src : Src) (lane : Nat)
  /-- R356 -/
  | phyQuiet (t : Nat) (src : Src) (lane : Nat)
  /-- R356 -/
  | phyDormant (t : Nat) (src : Src) (lane : Nat)
  /-- R358 -/
  | phyWake (t : Nat) (src : Src) (lane : Nat)
  /-- R362 -/
  | phyLoopStart (t : Nat) (src : Src) (lane : Nat)
  /-- R354 -/
  | phyLoopStop (t : Nat) (src : Src) (lane : Nat)
  /-- R364 -/
  | phySweep (t : Nat) (src : Src) (lane : Nat)
  /-- R370 -/
  | phyClearCounts (t : Nat) (src : Src) (lane : Nat)
  /-- R354 -/
  | calibrationDone (t lane : Nat)
  /-- R355; `converged`: PLL and CDR locked and adaptation converged; `residue`: residual ISI at positions 7 to 40
  (R346) -/
  | trainingDone (t lane : Nat) (converged : Bool) (residue : List Nat)
  /-- R354 -/
  | noSignalTimeout (t lane : Nat)
  /-- R354 -/
  | signalLoss (t lane : Nat)
  /-- R354; `locked`: a fast relock or a full training reached lock; `full`: it was a full training;
  `signal`: signal stands at the lands -/
  | relockDone (t lane : Nat) (locked full signal : Bool)
  /-- R354 -/
  | failedRetry (t lane : Nat)
  /-- R356 -/
  | quietDelayExpiry (t lane : Nat)
  /-- R356 -/
  | dormantDelayExpiry (t lane : Nat)
  /-- R358 -/
  | wakeBurst (t lane : Nat)
  /-- R359; `exit`: ns from the first edge of the burst to READY -/
  | wakeDone (t lane exit : Nat)
  /-- R354 -/
  | loopDurationExpiry (t lane bits errors : Nat)
  /-- R361 -/
  | loopSyncTimeout (t lane : Nat)
  /-- R348; the share of each level in 0.1 % -/
  | histogramWindow (t lane : Nat) (levels : List Nat)
  /-- R348 -/
  | idleRun (t lane : Nat)
  /-- R338 -/
  | phyrefLoss (t : Nat)
  /-- R380; `skew`: folios from the earliest member of the bond (R417); `symbols`: the levels of the symbols that came since the
  TURN before, through this one's (R377) -/
  | turnFolio (t lane skew : Nat) (symbols : List Int)
  /-- R382 -/
  | skipFolio (t lane : Nat)
  /-- R381; in which slot it came -/
  | idleFolio (t lane slot : Nat)
  /-- R379; in which slot it came -/
  | invalidHeader (t lane slot : Nat)
  /-- R380 -/
  | txTurnStart (t lane : Nat)
  /-- R415 -/
  | calendarSegment (t lane body : Nat)
  /-- R415 -/
  | calendarCommit (t lane body : Nat)
  /-- R415 -/
  | calendarAck (t lane body : Nat)
  /-- R415 -/
  | calendarRefuse (t lane body : Nat)
  /-- R402 -/
  | colophonPart0 (t lane body : Nat)
  /-- R407 -/
  | colophonPart1 (t lane body : Nat)
  /-- R406 -/
  | colophonPart2 (t lane body : Nat)
  /-- R406; parts 3 and 4 -/
  | colophonResponse (t lane part3 part4 : Nat)
  /-- R407 -/
  | colophonTimeout (t lane : Nat)
  /-- R406 -/
  | authTimeout (t lane : Nat)
  /-- R407 -/
  | resumeTimeout (t lane : Nat)
  /-- R420 -/
  | rateRequestFolio (t lane body : Nat)
  /-- R420 -/
  | rateAcceptFolio (t lane body : Nat)
  /-- R420 -/
  | rateRefuseFolio (t lane body : Nat)
  /-- R421 -/
  | quietRequestFolio (t lane : Nat)
  /-- R421 -/
  | dormantRequestFolio (t lane : Nat)
  /-- R421 -/
  | lpAcceptFolio (t lane : Nat)
  /-- R421 -/
  | lpRefuseFolio (t lane : Nat)
  /-- R363 -/
  | loopRequestFolio (t lane body : Nat)
  /-- R363 -/
  | loopAcceptFolio (t lane : Nat)
  /-- R363 -/
  | loopRefuseFolio (t lane : Nat)
  /-- R363 -/
  | loopEndFolio (t lane : Nat)
  /-- R418; BOND with OP 0 on the lane -/
  | bondMemberLost (t lane body : Nat)
  /-- R418; BOND with OP 1 -/
  | bondMemberWithdrawn (t lane body : Nat)
  /-- R419; BOND with OP 2 -/
  | bondMemberReady (t lane body : Nat)
  /-- R424 -/
  | lnkApplySetup (t : Nat) (src : Src) (lane : Nat)
  /-- R415 -/
  | lnkAnnounceCalendar (t : Nat) (src : Src) (lane : Nat)
  /-- R407 -/
  | lnkRenegotiate (t : Nat) (src : Src) (lane : Nat)
  /-- R415 -/
  | lnkCancelCalendar (t : Nat) (src : Src) (lane : Nat)
  /-- R423 -/
  | lnkClearCounts (t : Nat) (src : Src) (lane : Nat)
  /-- R420 -/
  | lnkRateRequest (t : Nat) (src : Src) (lane rate : Nat)
  /-- R426 -/
  | lnkStatsClear (t : Nat) (src : Src)
  /-- R529 -/
  | epochAdvance (t lane : Nat)
  /-- R536; a lane, or 32 + the number of a DAP session -/
  | orphanEpochEnd (t who : Nat)
  /-- R537 -/
  | reauthRetry (t lane : Nat)
  /-- R430 -/
  | refApply (t : Nat) (src : Src) (n : Nat)
  /-- R435 -/
  | refRequalify (t : Nat) (src : Src) (n : Nat)
  /-- R456 -/
  | refClearCounts (t : Nat) (src : Src) (n : Nat)
  /-- R439; `build`: per domain the phase in ps of the source that it is switched to, against its own output (R442) -/
  | domApply (t : Nat) (src : Src) (n : Nat) (build : List (Nat × Int))
  /-- R443 -/
  | domClearHistory (t : Nat) (src : Src) (n : Nat)
  /-- R457 -/
  | domClearCounts (t : Nat) (src : Src) (n : Nat)
  /-- R458 -/
  | refStatsClear (t : Nat) (src : Src)
  /-- R432 -/
  | refActivityTimeout (t n : Nat)
  /-- R432; an active edge of a pulse source -/
  | refPulseEdge (t n : Nat)
  /-- R433; the mean offset of the window against XO in ppb; per domain its frequency in ppb and phase error in ps -/
  | refWindowEnd (t n : Nat) (offset : Int) (doms : List (Nat × Int × Int))
  /-- R435 -/
  | refQualTimeExpiry (t n : Nat)
  /-- R441; `build` as for domApply -/
  | selectionEval (t : Nat) (build : List (Nat × Int))
  /-- R443; per domain its mean frequency over the second, ppb -/
  | historyTick (t : Nat) (freqs : List (Nat × Int))
  /-- R445 -/
  | domFramePulse (t n : Nat)
  /-- R446 -/
  | dtDomainWrite (t : Nat) (src : Src) (value : Nat)
  /-- R448; a Sync message: the clock identity of the grandmaster and the mean path delay in ns -/
  | gptpSync (t gm delay : Nat)
  /-- R449; the gPTP time of this instant -/
  | netMapLatch (t seconds nanos : Nat)
  /-- R451; `phyref`: PHYREF is good -/
  | xoLoss (t : Nat) (phyref : Bool)
  /-- R531; `ok`: the NVM took the shadow and the commit word -/
  | secUpdate (t : Nat) (src : Src) (data : List Nat) (ok : Bool)
  /-- R527 -/
  | secChallenge (t : Nat) (src : Src) (data : List Nat)
  /-- R542 -/
  | secStatsClear (t : Nat) (src : Src)
  /-- R539; the source: 0 TAMPER_N, 1 mesh, 2 voltage, 3 temperature -/
  | tamperTrip (t source : Nat)
  /-- R521 -/
  | remaskTick (t slot : Nat)
  /-- R575; the key shifted in through boundary scan -/
  | transportKeyLoad (t : Nat) (key : List Nat)
  /-- R575 -/
  | recoveryWaitEnd (t : Nat)
  /-- R545; a rail in the order of PWR_GOOD and its reading in mV -/
  | railGood (t rail mv : Nat)
  /-- R547; a rail of 0 to 5 -/
  | keeperRailFail (t rail mv : Nat)
  /-- R546; a rail of 6 to 9 -/
  | bulkRailFail (t rail mv : Nat)
  /-- R545 -/
  | railHigh (t rail mv : Nat)
  /-- R546 -/
  | mainQualified (t : Nat)
  /-- R547 -/
  | sideAQualified (t : Nat)
  /-- R550; A and B fail together -/
  | holdupEntry (t : Nat)
  /-- R549; HOLD_IN in mV -/
  | holdupIndicatorTick (t mv : Nat)
  /-- R554; the eight sensors in 0.1 °C -/
  | thermalTrip (t : Nat) (sensors : List Int)
  /-- R554 -/
  | thermalReturn (t : Nat) (sensors : List Int)
  /-- R554 -/
  | tjRangeCrossing (t : Nat) (sensors : List Int)
  /-- R558 -/
  | govApply (t : Nat) (src : Src)
  /-- R557 -/
  | govPause (t : Nat) (src : Src)
  /-- R557 -/
  | govResume (t : Nat) (src : Src)
  /-- R557 -/
  | govClearFault (t : Nat) (src : Src)
  /-- R556 -/
  | govInterval (t : Nat)
  /-- R557 -/
  | govWaitTimeout (t : Nat)
  /-- R557; the voltage read in mV, none when the transaction stays without an answer -/
  | avsTransactionDone (t : Nat) (read : Option Nat)
  /-- R577 -/
  | pwrStatsClear (t : Nat) (src : Src)
  /-- R559; the rails good as in PWR_GOOD, and the straps as in ID_STRAPS. DT starts at 0 whatever `t` is (R446) -/
  | powerOn (t good straps : Nat)
  /-- R560 -/
  | resetNAssert (t : Nat)
  /-- R560; the straps -/
  | resetNRelease (t straps : Nat)
  /-- R559 -/
  | rstCold (t : Nat) (src : Src)
  /-- R559 -/
  | rstWarm (t : Nat) (src : Src)
  /-- R559 -/
  | rstProcRestart (t : Nat) (src : Src)
  /-- R562; `pass`: the retest of R128 passes -/
  | rstSubsystem (t : Nat) (src : Src) (value : Nat) (pass : Bool)
  /-- R561 -/
  | rstProceed (t : Nat) (src : Src)
  /-- R561 -/
  | warmHoldExpiry (t : Nat)
  /-- R578 -/
  | startFailedClear (t : Nat) (src : Src)
  /-- R564; the rails good, and their readings in mV -/
  | startS0Supply (t good : Nat) (mv : List Nat)
  /-- R564, R451 -/
  | startS1Osc (t : Nat) (xo phyref : Bool)
  /-- R564; the NVM mounts within three attempts -/
  | startS2Nvm (t : Nat) (ok : Bool)
  /-- R514; the stored root passes its check, and the PUF root regenerates -/
  | startS3Root (t : Nat) (root puf : Bool)
  /-- R564; which of the banks A and B verify -/
  | startS4Firmware (t : Nat) (a b : Bool)
  /-- R564; the mask of blocks that fail, and the assets and sounds whose CRC fails twice (R270, R333). A later issue
  ends the step -/
  | startS5Keeper (t failed : Nat) (assets sounds : List Nat)
  /-- R92, R565; a first issue installs the image, a later one ends the step when its condition holds -/
  | startS6Firstlight (t : Nat)
  /-- R201; per channel 0 not trained, 1 at 8533 MT/s, 2 at 6400 MT/s, with its margin -/
  | startS7DramTrain (t : Nat) (results : List (Nat × Nat))
  /-- R211; the mask of channels that fail -/
  | startS8DramWipe (t failed : Nat)
  /-- R355; a first issue begins the step, a later one ends it -/
  | startS9Lanes (t : Nat)
  /-- R468; the stored image reads well -/
  | startS10Config (t : Nat) (ok : Bool)
  /-- R94; a first issue begins the step, a later one ends it -/
  | startS11Routes (t : Nat)
  /-- R573; `ok`: the NVM took the change and its commit word -/
  | lcRequest (t : Nat) (src : Src) (data : List Nat) (ok : Bool)
  /-- R584; `ok`: the NVM took the record within three attempts -/
  | cbCommit (t : Nat) (ok : Bool)
  /-- R582 -/
  | cbNote (t : Nat) (src : Src) (text : List Nat)
  /-- R604 -/
  | cbStatsClear (t : Nat) (src : Src)
  /-- R582 -/
  | cbDigestTick (t : Nat)
  /-- R586 -/
  | cbNvmRetry (t : Nat) (ok : Bool)
  /-- R588; `damaged`: the SEQs whose stored copy fails its CRC-32C at this read -/
  | cbRead (t : Nat) (who : Requester) (damaged : List Nat)
  /-- R592 -/
  | busWatchdogExpiry (t : Nat) (hang : Hang)
  /-- R602 -/
  | assetWrite (t : Nat) (src : Src) (data : List Nat) (ok : Bool)
  /-- R271 -/
  | assetDelete (t : Nat) (src : Src) (id : Nat)
  /-- R603; a write when `data` is given -/
  | svcWindowAccess (t : Nat) (src : Src) (data : Option (List Nat))
  /-- R597 -/
  | fwImageWrite (t : Nat) (src : Src) (image : List Nat) (ok : Bool)
  /-- R598 -/
  | fwTrial (t : Nat) (src : Src)
  /-- R598 -/
  | fwConfirm (t : Nat) (src : Src)
  /-- R598 -/
  | fwRevert (t : Nat) (src : Src)
  /-- R598 -/
  | fwConfirmTimeout (t : Nat)
  /-- R599 -/
  | procWatchdogExpiry (t : Nat)
  /-- R595; kind as QS_SELECT -/
  | drainDone (t kind inst : Nat)
  /-- R595; `lost`: lines, blocks or samples left unfinished -/
  | drainLimit (t kind inst lost : Nat)
  /-- R605 -/
  | busStatsClear (t : Nat) (src : Src)
  /-- R432 -/
  | clockSourceActive (t n : Nat)
  /-- R545 -/
  | holdInFail (t mv : Nat)
  /-- R550 -/
  | holdupStoreExhausted (t : Nat)
  /-- R321; the ratio error in 0.01 ppm as 32 bits two's complement, on output channel `out` -/
  | asrcUnlock (t input out ratio : Nat)
  /-- R462, R491 -/
  | netLinkChange (t : Nat) (up : Bool)
  /-- R483: the counters after the error, as ISO 11898-1 leaves them -/
  | canBusError (t port tec rec : Nat)
  /-- R483 -/
  | canBusOffRecovery (t port : Nat)
  /-- R616; VDDQ and VDD2 in mV -/
  | vddqAboveVdd2 (t vddq vdd2 : Nat)
  /-- R396; in which slot it came, and its TYPE -/
  | unknownControlFolio (t lane slot ctype : Nat)
  deriving DecidableEq, Repr

end Sys2Proof
end

