-- ==== Sys2Proof/Machine/Operands.lean ====
section
/-! DEFINITION. Operand forms of the commands and entries: bit fields of carried numbers, two's complement,
byte order (R9), and lists as the tables of the dictionary hold them (R463). -/

namespace Sys2Proof.Machine

/-- Field [hi:lo] of a carried number, bit 0 the least significant (R6). -/
def fld (x hi lo : Nat) : Nat := x / 2 ^ lo % 2 ^ (hi + 1 - lo)

/-- Bit i of a number. -/
def bit (x i : Nat) : Bool := x / 2 ^ i % 2 == 1

/-- A Bool as the bit that carries it. -/
def ofBool (b : Bool) : Nat := if b then 1 else 0

/-- The number with bit i set. -/
def setBit (x i : Nat) : Nat := x ||| 2 ^ i

/-- The number with bit i cleared. -/
def clrBit (x i : Nat) : Nat := x ^^^ (x &&& 2 ^ i)

/-- The number with bit i given. -/
def putBit (x i : Nat) (b : Bool) : Nat := if b then setBit x i else clrBit x i

/-- The number with field [hi:lo] replaced by v. -/
def putFld (x hi lo v : Nat) : Nat :=
  x / 2 ^ (hi + 1) * 2 ^ (hi + 1) + v % 2 ^ (hi + 1 - lo) * 2 ^ lo + x % 2 ^ lo

/-- Fields in the order of a field map, highest bits first (R7), each as (bits, value). -/
def pack (fs : List (Nat × Nat)) : Nat := fs.foldl (fun a f => a * 2 ^ f.1 + f.2 % 2 ^ f.1) 0

/-- The bits of x that are set in m, cleared. -/
def clearMask (x m : Nat) : Nat := x ^^^ (x &&& m)

/-- How many of the lowest n bits of x are set. -/
def popCount (n x : Nat) : Nat := ((List.range n).filter (bit x)).length

/-- The value of a w-bit two's complement number. -/
def toInt (w v : Nat) : Int :=
  if v % 2 ^ w < 2 ^ (w - 1) then (v % 2 ^ w : Nat) else (v % 2 ^ w : Nat) - (2 ^ w : Nat)

/-- The w-bit two's complement number of a value. -/
def ofInt (w : Nat) (i : Int) : Nat := (i % (2 ^ w : Nat)).toNat

def sumInt (l : List Int) : Int := l.foldl (· + ·) 0

/-- The n bytes of a number, least significant first (R9). -/
def leBytes : Nat → Nat → List Nat
  | 0, _ => []
  | n + 1, v => v % 256 :: leBytes n (v / 256)

/-- The number that bytes carry, least significant first (R9). -/
def leNat : List Nat → Nat
  | [] => 0
  | b :: bs => b % 256 + 256 * leNat bs

/-- The n bytes of a number, most significant first (UDP and IP headers of R485). -/
def beBytes (n v : Nat) : List Nat := (leBytes n v).reverse

/-- The number that bytes carry, most significant first. -/
def beNat (bs : List Nat) : Nat := leNat bs.reverse

/-- Record k of a table of records of w bits carried one after another from bit `base` (R463). -/
def record (table base w k : Nat) : Nat := table / 2 ^ (base + w * k) % 2 ^ w

/-- Records in order, as the table carries them (R463). -/
def packRecords (w : Nat) : List Nat → Nat
  | [] => 0
  | r :: rs => r % 2 ^ w + 2 ^ w * packRecords w rs

/-- The lowest number below n that satisfies p. -/
def lowest (n : Nat) (p : Nat → Bool) : Option Nat := (List.range n).find? p

/-- The sum of a list. -/
def sumOf (l : List Nat) : Nat := l.foldl (· + ·) 0

/-- a / b rounded up. -/
def divUp (a b : Nat) : Nat := (a + b - 1) / b

/-- The element at position i, or d. -/
def nth {α : Type} (l : List α) (i : Nat) (d : α) : α := (l[i]?).getD d

/-- Bytes that continue a UTF-8 character, n of them left, and the least and greatest value of the next; none once the text
is no UTF-8 (RFC 3629). -/
def utf8Step : Option (Nat × Nat × Nat) → Nat → Option (Nat × Nat × Nat)
  | none, _ => none
  | some (0, _, _), b =>
    if b < 0x80 then some (0, 0, 0)
    else if 0xC2 ≤ b ∧ b ≤ 0xDF then some (1, 0x80, 0xBF)
    else if b = 0xE0 then some (2, 0xA0, 0xBF)
    else if b = 0xED then some (2, 0x80, 0x9F)
    else if 0xE1 ≤ b ∧ b ≤ 0xEF then some (2, 0x80, 0xBF)
    else if b = 0xF0 then some (3, 0x90, 0xBF)
    else if 0xF1 ≤ b ∧ b ≤ 0xF3 then some (3, 0x80, 0xBF)
    else if b = 0xF4 then some (3, 0x80, 0x8F)
    else none
  | some (n + 1, lo, hi), b => if lo ≤ b ∧ b ≤ hi then some (n, 0x80, 0xBF) else none

/-- A text is UTF-8 (R463). -/
def utf8Ok (text : List Nat) : Bool :=
  match text.foldl utf8Step (some (0, 0, 0)) with
  | some (0, _, _) => true
  | _ => false

end Sys2Proof.Machine
end

