-- ==== Sys2Proof/Machine/Formats.lean ====
section
/-! DEFINITION. Stream formats: the fields of a stream descriptor (R54), the accepted formats (R55), lines and folios
(R183, R387), and the slots that a flow needs (R383, R414). -/

namespace Sys2Proof.Machine

/-! Fields of the descriptor record of R54, shared by input and output streams (R57). -/

def dState (d : Nat) : Nat := fld d 127 125
def dMedia (d : Nat) : Nat := fld d 124 124
def dEndpoint (d : Nat) : Nat := fld d 123 114
def dLane (d : Nat) : Nat := fld d 113 109
def dBond (d : Nat) : Nat := fld d 108 106
def dAuth (d : Nat) : Bool := bit d 105
def dInterlaced (d : Nat) : Bool := bit d 104
def dWidth (d : Nat) : Nat := fld d 103 90
def dHeight (d : Nat) : Nat := fld d 89 76
def dTotal (d : Nat) : Nat := fld d 75 62
def dRate (d : Nat) : Nat := fld d 61 46
def dChroma (d : Nat) : Nat := fld d 45 44
def dDepth (d : Nat) : Nat := fld d 43 42
def dEncoding (d : Nat) : Nat := fld d 41 40
def dPrimaries (d : Nat) : Nat := fld d 39 38
def dTransfer (d : Nat) : Nat := fld d 37 36
def dCompressed (d : Nat) : Bool := bit d 35
def dAudioCh (d : Nat) : Nat := fld d 22 17
def dAudioRate (d : Nat) : Nat := fld d 16 15
/-- SOURCE of an output stream: driven by an output engine (R57). -/
def dEngineDriven (d : Nat) : Bool := bit d 14
def dEngine (d : Nat) : Nat := fld d 13 8

/-- The fields that make the format: MEDIA and everything from INTERLACED to COMPRESSED, AUDIO_CH and AUDIO_RATE. -/
def dFormat (d : Nat) : Nat := pack [(1, fld d 124 124), (70, fld d 104 35), (8, fld d 22 15)]

/-- The picture format: CHROMA, DEPTH, ENCODING, PRIMARIES, TRANSFER. -/
def dColour (d : Nat) : Nat := fld d 45 36

/-- WIDTH, HEIGHT, TOTAL_LINES and RATE. -/
def dGeometry (d : Nat) : Nat := fld d 103 46

/-- Audio rates in Hz (R54). -/
def audioHz (code : Nat) : Nat := nth [32000, 44100, 48000, 96000] code 48000

/-- Samples per pixel, doubled: 6, 4, 3 for 4:4:4, 4:2:2, 4:2:0 (R183). -/
def samples2 (chroma : Nat) : Nat := nth [6, 4, 3] chroma 6

/-- Bits per sample (R54). -/
def depthBits (depth : Nat) : Nat := nth [8, 10, 12] depth 8

/-- Bytes per stored sample (R183). -/
def storeBytes (depth : Nat) : Nat := if depth = 0 then 1 else 2

/-- The lines of a frame or field that compression takes (R222). -/
def codedHeightOk (h chroma : Nat) : Bool := h % 2 == 0 && (chroma != 2 || h % 4 == 0)

/-- A format whose lines, those of each field of an interlaced one, compression takes (R222). -/
def codedOk (d : Nat) : Bool := codedHeightOk (if dInterlaced d then dHeight d / 2 else dHeight d) (dChroma d)

/-- A format within the accepted formats (R55). -/
def formatAccepted (d : Nat) : Bool :=
  let w := dWidth d
  let h := dHeight d
  let audio := decide (dMedia d = 0 ∨ 1 ≤ dAudioCh d)
  let values := decide (dChroma d < 3 ∧ dDepth d < 3 ∧ dEncoding d < 2 ∧ dPrimaries d < 2 ∧ dTransfer d < 3 ∧ dBond d < 6)
  let video :=
    decide (64 ≤ w ∧ w ≤ 7680 ∧ 64 ≤ h ∧ h ≤ 4320 ∧ 100 ≤ dRate d ∧ dRate d ≤ 24000 ∧
      w * h * dRate d ≤ 2400000000 * 100) &&
    (dChroma d == 0 || w % 2 == 0) && (!(dChroma d == 2 || dInterlaced d) || h % 2 == 0) &&
    (!dInterlaced d || decide (h ≤ 1080)) && (dChroma d == 0 || dEncoding d == 1)
  audio && values && (dMedia d == 1 || video)

/-- Bytes of a stored uncompressed line, rounded up to 256 (R183). -/
def lineBytes (width chroma depth : Nat) : Nat := divUp (width * samples2 chroma * storeBytes depth) 512 * 256

/-- Data folios of an uncompressed line (R387). -/
def lineFolios (width chroma depth : Nat) : Nat := divUp (width * samples2 chroma * depthBits depth) 256

/-- N_b: blocks of a block row (R223). -/
def blocksPerRow (width chroma : Nat) : Nat :=
  match chroma with
  | 0 => 3 * divUp width 64
  | 1 => divUp width 64 + 2 * divUp width 128
  | _ => divUp width 64 + divUp width 128

/-- Data folios of a link-compressed line, whose half of a block row has N_b × B / 2 bytes in blocks of B = 4 × `words`
bytes (R234; R387 rounds up to folios of 16 bytes). -/
def codedFolios (width chroma words : Nat) : Nat := divUp (blocksPerRow width chroma * (words * 4)) 32

/-- Rate codes of R371 in Mbit/s. -/
def rateMbit (code : Nat) : Nat := nth [112000, 56000, 28000, 14000, 7000, 3500] code 3500

/-- PAM4 is used at 112 and 56 Gbit/s (R337). -/
def ratePam4 (code : Nat) : Bool := decide (code < 2)

/-- The demand D of a flow in folios per 100 s (R414): F the folios of a line, t 1 on an authenticated link. -/
def flowDemand (d folios : Nat) (auth : Bool) : Nat :=
  (if dMedia d = 1 then 0 else (folios + 1) * dTotal d * dRate d) +
    100 * divUp (dAudioCh d) 4 * audioHz (dAudioRate d) + (if auth && dMedia d == 0 then dRate d else 0)

/-- Slots on each of m lanes at a rate that a demand needs (R414), with f_slot of R383. -/
def slotsNeeded (demand m rate : Nat) : Nat :=
  divUp (demand * (130 * 512) * 1025) (100 * m * rateMbit rate * 1000000 * 1024)

end Sys2Proof.Machine
end

