-- ==== Sys2Proof/Machine/Codec.lean ====
section
/-! DEFINITION. Lines of samples: packing into folios (R387), component lines, and the block codec of the compression
engines (R222 to R234). -/

namespace Sys2Proof.Machine

/-! Samples and folios (R387). -/

/-- Samples of a line. -/
def lineCount (width chroma : Nat) : Nat := width * samples2 chroma / 2

/-- n samples of d bits from a carried number, the lowest first. -/
def unpackBits (d n x : Nat) : List Nat := (List.range n).map fun j => x / 2 ^ (d * j) % 2 ^ d

/-- The number that carries samples of d bits, the first lowest. -/
def packBits (d : Nat) (xs : List Nat) : Nat := packRecords d xs

/-- The samples of a line from its folio payloads. -/
def unpackLine (width chroma depth : Nat) (payloads : List Nat) : List Nat :=
  unpackBits (depthBits depth) (lineCount width chroma) (packRecords 128 payloads)

/-- The folio payloads of a line. -/
def packLine (depth : Nat) (xs : List Nat) : List Nat :=
  let d := depthBits depth
  let x := packBits d xs
  (List.range (divUp (xs.length * d) 128)).map fun i => record x 0 128 i

/-- Every k-th element from position i. -/
def every (k i : Nat) (xs : List Nat) : List Nat :=
  (List.range ((xs.length + k - 1 - i) / k)).map fun j => nth xs (k * j + i) 0

/-- Two lists of the same length, interleaved. -/
def interleave (xs ys : List Nat) : List Nat := (xs.zip ys).flatMap fun p => [p.1, p.2]

/-- The component lines that a line carries (R387): three for 4:4:4 and 4:2:2, the luma and one chroma line for 4:2:0. -/
def components (chroma : Nat) (xs : List Nat) : List (List Nat) :=
  match chroma with
  | 0 => [every 3 0 xs, every 3 1 xs, every 3 2 xs]
  | 1 => [every 2 1 xs, every 4 0 xs, every 4 2 xs]
  | _ => [interleave (every 3 0 xs) (every 3 1 xs), every 3 2 xs]

/-- A line from its component lines. -/
def fromComponents (chroma : Nat) (cs : List (List Nat)) : List Nat :=
  let c (i : Nat) : List Nat := nth cs i []
  match chroma with
  | 0 => (List.range (c 0).length).flatMap fun i => [nth (c 0) i 0, nth (c 1) i 0, nth (c 2) i 0]
  | 1 => (List.range (c 1).length).flatMap fun i =>
      [nth (c 1) i 0, nth (c 0) (2 * i) 0, nth (c 2) i 0, nth (c 0) (2 * i + 1) 0]
  | _ => (List.range (c 1).length).flatMap fun i => [nth (c 0) (2 * i) 0, nth (c 0) (2 * i + 1) 0, nth (c 1) i 0]

/-! Prediction and quantisation (R226, R227). Reconstructed samples are held newest first. -/

def median3 (a b c : Int) : Int := max (min a b) (min (max a b) c)

/-- The prediction of the next sample from the samples before it. -/
def predict (d : Nat) (r : List Nat) : Int :=
  let at_ (i : Nat) : Int := (nth r i 0 : Nat)
  if r.length = 0 then ((2 ^ (d - 1) : Nat) : Int)
  else if r.length < 64 then at_ 0
  else if r.length = 64 then at_ 63
  else median3 (at_ 0) (at_ 63) (at_ 0 + at_ 63 - at_ 64)

/-- Q of a residue. -/
def quantise (e : Int) (q : Nat) : Int :=
  let h := if q = 0 then 0 else 2 ^ (q - 1)
  let m : Nat := (e.natAbs + h) / 2 ^ q
  if e < 0 then -(m : Int) else (m : Int)

/-- The reconstructed sample. -/
def rebuild (d q : Nat) (p v : Int) : Nat := (min (max (p + v * ((2 ^ q : Nat) : Int)) 0) (((2 ^ d - 1) : Nat) : Int)).toNat

/-! The residue code (R228, R229). -/

def mapQ (v : Int) : Nat := if 0 ≤ v then 2 * v.toNat else 2 * v.natAbs - 1
def unmapQ (m : Nat) : Int := if m % 2 = 0 then ((m / 2 : Nat) : Int) else -(((m + 1) / 2 : Nat) : Int)

/-- n bits of a number, most significant first. -/
def bitsDown (n x : Nat) : List Bool := (List.range n).map fun i => bit x (n - 1 - i)

def codeWord (d k m : Nat) : List Bool :=
  let u := m / 2 ^ k
  if u < 16 then List.replicate u true ++ [false] ++ bitsDown k m
  else List.replicate 16 true ++ bitsDown (d + 1) m

def adaptK (d k m : Nat) : Nat :=
  if 1 < m / 2 ^ k then min (k + 1) d
  else if 0 < k ∧ m < 2 ^ (k - 1) then k - 1
  else k

/-! Coding a block (R230 to R232). -/

/-- Code words of the samples that are left; none when one does not fit in `room` bits. The bits and the final k. -/
def codeSamples (d q : Nat) : List Nat → List Nat → Nat → Nat → Option (List Bool × Nat)
  | [], _, k, _ => some ([], k)
  | x :: xs, r, k, room =>
    let p := predict d r
    let v := quantise ((x : Int) - p) q
    let m := mapQ v
    let w := codeWord d k m
    if room < w.length then none
    else match codeSamples d q xs (rebuild d q p v :: r) (adaptK d k m) (room - w.length) with
      | some (bs, kf) => some (w ++ bs, kf)
      | none => none

/-- The number whose bits, the first highest, are given. -/
def bitsNat (bs : List Bool) : Nat := bs.foldl (fun a b => 2 * a + ofBool b) 0

/-- n bytes from bits, bit 7 of byte 0 first, filled out with zeros. -/
def bitBytes (n : Nat) (bs : List Bool) : List Nat :=
  beBytes n (bitsNat (bs ++ List.replicate (8 * n - bs.length) false))

/-- The truncated raw form. -/
def rawBlock (d bytes : Nat) (xs : List Nat) : List Nat :=
  let n := min d ((8 * bytes - 8) / 128)
  bitBytes bytes (bitsDown 8 0x80 ++ xs.flatMap fun x => bitsDown n (x / 2 ^ (d - n)))

/-- A coded block. -/
structure Coded where
  data : List Nat
  /-- final k, and 2 after a raw block, for the block to the right -/
  k : Nat
  raw : Bool
  /-- q above 0 -/
  lossy : Bool
  deriving DecidableEq, Repr

/-- A block of 128 samples coded in `bytes` bytes with q from `q` on while `left` values remain. -/
def encodeFrom (d bytes k0 : Nat) (xs : List Nat) : Nat → Nat → Coded
  | 0, _ => ⟨rawBlock d bytes xs, 2, true, false⟩
  | left + 1, q =>
    match codeSamples d q xs [] k0 (8 * bytes - 8) with
    | some (bs, k) => ⟨bitBytes bytes (bitsDown 8 (q * 16 + k0) ++ bs), k, false, decide (q ≠ 0)⟩
    | none => encodeFrom d bytes k0 xs left (q + 1)

def encodeBlock (d bytes qmax k0 : Nat) (xs : List Nat) : Coded := encodeFrom d bytes k0 xs (qmax + 1) 0

/-! Decoding (R233). -/

/-- The ones at the front of the bits, at most 16, and what follows. -/
def ones : Nat → List Bool → Nat × List Bool
  | n + 1, true :: bs => let r := ones n bs; (r.1 + 1, r.2)
  | _, bs => (0, bs)

/-- One code word: m and the bits after it; none when it runs past the block or its escape is too large. -/
def readWord (d k : Nat) (bs : List Bool) : Option (Nat × List Bool) :=
  let r := ones 16 bs
  if r.1 = 16 then
    let m := bitsNat (r.2.take (d + 1))
    if r.2.length < d + 1 ∨ 2 ^ (d + 1) - 2 < m then none else some (m, r.2.drop (d + 1))
  else
    match r.2 with
    | false :: rest =>
      if rest.length < k then none else some (r.1 * 2 ^ k + bitsNat (rest.take k), rest.drop k)
    | _ => none

/-- The samples of a coded block, newest first; n are left. -/
def readSamples (d q : Nat) : Nat → List Nat → Nat → List Bool → Option (List Nat)
  | 0, r, _, _ => some r
  | n + 1, r, k, bs =>
    match readWord d k bs with
    | some (m, rest) => readSamples d q n (rebuild d q (predict d r) (unmapQ m) :: r) (adaptK d k m) rest
    | none => none

/-- A block decoded to its 128 samples; none for an invalid block. -/
def decodeBlock (d : Nat) (data : List Nat) : Option (List Nat) :=
  let h := nth data 0 0
  let q := fld h 6 4
  let k := fld h 3 0
  let bs := (data.drop 1).flatMap (bitsDown 8)
  if bit h 7 then
    if q ≠ 0 ∨ k ≠ 0 then none
    else
      let n := min d ((8 * data.length - 8) / 128)
      some ((List.range 128).map fun i =>
        let v := bitsNat ((bs.drop (n * i)).take n)
        if n = d then v else v * 2 ^ (d - n) + 2 ^ (d - n - 1))
  else if 4 < q ∨ d < k then none
  else (readSamples d q 128 [] k bs).map List.reverse

/-! Block rows (R222, R223). -/

/-- A component line filled out to whole blocks by its last sample. -/
def padLine (xs : List Nat) : List Nat := xs ++ List.replicate ((64 - xs.length % 64) % 64) (xs.getLastD 0)

/-- The blocks of two lines of a component. -/
def blocksOf (a b : List Nat) : List (List Nat) :=
  let x := padLine a
  let y := padLine b
  (List.range (x.length / 64)).map fun j => (x.drop (64 * j)).take 64 ++ (y.drop (64 * j)).take 64

/-- The two lines of a component of n samples from its blocks. -/
def linesOf (n : Nat) (bs : List (List Nat)) : List Nat × List Nat :=
  ((bs.flatMap fun b => b.take 64).take n, (bs.flatMap fun b => b.drop 64).take n)

/-- The components of block row r from the lines of a frame or field, each as its two lines. -/
def rowPlanes (chroma r : Nat) (lines : List (List Nat)) : List (List Nat × List Nat) :=
  let at_ (i : Nat) : List (List Nat) := components chroma (nth lines i [])
  let y := (nth (at_ (2 * r)) 0 [], nth (at_ (2 * r + 1)) 0 [])
  if chroma = 2 then
    let c := if r % 2 = 0 then (nth (at_ (2 * r)) 1 [], nth (at_ (2 * r + 2)) 1 [])
      else (nth (at_ (2 * r - 1)) 1 [], nth (at_ (2 * r + 1)) 1 [])
    [y, c]
  else [y, (nth (at_ (2 * r)) 1 [], nth (at_ (2 * r + 1)) 1 []), (nth (at_ (2 * r)) 2 [], nth (at_ (2 * r + 1)) 2 [])]

/-- The blocks of one component coded left to right (R229). -/
def encodeRun (d bytes qmax : Nat) : Nat → List (List Nat) → List Coded
  | _, [] => []
  | k, b :: bs => let c := encodeBlock d bytes qmax k b; c :: encodeRun d bytes qmax c.k bs

/-- A block row coded. -/
def encodeRow (d bytes qmax chroma r : Nat) (lines : List (List Nat)) : List Coded :=
  (rowPlanes chroma r lines).flatMap fun p => encodeRun d bytes qmax 2 (blocksOf p.1 p.2)

/-- Widths of the components of a block row. -/
def planeWidths (width chroma : Nat) : List Nat :=
  match chroma with
  | 0 => [width, width, width]
  | 1 => [width, width / 2, width / 2]
  | _ => [width, width / 2]

/-- A list cut into pieces of the lengths given. -/
def cut {α : Type} : List Nat → List α → List (List α)
  | [], _ => []
  | n :: ns, xs => xs.take n :: cut ns (xs.drop n)

/-- Decoded blocks of a block row as the two lines of each component. -/
def rowLines (width chroma : Nat) (bs : List (List Nat)) : List (List Nat × List Nat) :=
  let ws := planeWidths width chroma
  (ws.zip (cut (ws.map fun w => divUp w 64) bs)).map fun p => linesOf p.1 p.2

/-- The lines of two block rows 2j and 2j + 1 (one row unless 4:2:0 asks for two), in stream order. `rows` are their
components. -/
def streamLines (chroma : Nat) (rows : List (List (List Nat × List Nat))) : List (List Nat) :=
  let c (r i : Nat) : List Nat × List Nat := nth (nth rows r []) i ([], [])
  if chroma = 2 then
    [fromComponents 2 [(c 0 0).1, (c 0 1).1], fromComponents 2 [(c 0 0).2, (c 1 1).1],
      fromComponents 2 [(c 1 0).1, (c 0 1).2], fromComponents 2 [(c 1 0).2, (c 1 1).2]]
  else rows.flatMap fun r =>
    [fromComponents chroma (r.map (·.1)), fromComponents chroma (r.map (·.2))]

/-- Block rows that are coded and decoded together. -/
def rowGroup (chroma : Nat) : Nat := if chroma = 2 then 2 else 1

end Sys2Proof.Machine
end

