-- ==== Sys2Proof/Config.lean ====
section
/-! DEFINITION. What one part or one implementation fixes, and the values that the spec leaves open. Every constant here
is opaque: nothing in Lean can evaluate it or prove a value of it, so a claim holds whatever it is. -/

namespace Sys2Proof

/-- A free value: the n-th value that the spec leaves open in a run (log entry 5). -/
opaque Config.freeValue : Nat → Nat

/-- The last value that a measured entry of a bulk function had before a reserve entry, by reserve entry and entry (R24). -/
opaque Config.lastMeasured : Nat → Nat → Nat

/-- What a count entry shows once it has passed the largest number its width holds, where the spec states neither a
modulus nor a holding value: (bits, count) (log entry 11). -/
opaque Config.countPast : Nat → Nat → Nat

/-- ID_DEVICE of the part (R489). -/
opaque Config.deviceId : Nat

/-- ID_MAC of the part (R489). -/
opaque Config.macAddress : Nat

/-- Endpoints that the device itself fronts, as its colophon part 0 shows them (R401). -/
opaque Config.endpointsFronted : Nat

/-- FW_ROM, the boot ROM release (R489). -/
opaque Config.bootRomRelease : Nat

/-- LC_MANUF: lot, wafer, die position, test date (R577). -/
opaque Config.manufacture : Nat

/-- The ordering code of the part as UTF-8 bytes (ID_ORDER_CODE). -/
opaque Config.orderCode : List Nat

/-- The release text of a firmware bank, from release and build (FW_STRING_A, FW_STRING_B). -/
opaque Config.releaseText : Nat → Nat → List Nat

/-- The 128 bits of a NOTIFY body, from the event and the items that its owning chapter names; the chapters name items and
seldom bits (R487, log entry 6). -/
opaque Config.bodyBits : Nat → List Nat → Nat

/-- The PUF root that the part's SRAM gives with the n-th helper data enrolled (R513). -/
opaque Config.pufRoot : Nat → List Nat

/-- Byte i of the n-th mask drawn for the key store (R520). -/
opaque Config.keyMask : Nat → Nat → Nat

/-- Where the permutation of the n-th draw puts a cell of the key store, by its address (R520). -/
opaque Config.cellAt : Nat → Nat → Nat

/-- AES-GMAC under a key, with a 96-bit IV, over additional data (R528): 128 bits. -/
opaque Config.gmac : List Nat → List Nat → List Nat → Nat

/-- AES-256 key unwrap (NIST SP 800-38F, R530): the key, or none when the integrity check fails. -/
opaque Config.keyUnwrap : List Nat → List Nat → Option (List Nat)

/-- The signature of a firmware image verifies against the key in the boot ROM (R597). -/
opaque Config.firmwareSigned : List Nat → Bool

/-- The range of a service-window access, by address, length and whether it is a write, is one that R590 forbids master M4;
the spec gives the matrix no address map. -/
opaque Config.windowForbids : Nat → Nat → Bool → Bool

/-- The output whose descriptors lie at an address that master M5 fetches (R594); the spec gives no address map. -/
opaque Config.descriptorOutput : Nat → Nat

/-- The signature of an input frame, or of a tile of it, from its lines of samples (R310); the spec says CRC-32C and not in
which form the samples enter it. -/
opaque Config.inputSignature : List (List Nat) → Nat

/-- Filter coefficients of the built-in shapes SHARP and SMOOTH (R139), as 16 bits: shape, vertical or not, numerator and denominator of
the smaller of 1 and the ratio in lowest terms, phase and tap. The cutoff of SHARP and the width of SMOOTH depend on that number
alone. The spec names the shapes and gives no numbers. -/
opaque Config.filterTap : Nat → Bool → Nat → Nat → Nat → Nat → Nat

/-- The PQ EOTF (R135): the light at a PQ code of n in 44,694,870 parts of the full code, in 2^-32 of 10,000 cd/m². -/
opaque Config.pqLight : Nat → Nat

/-- The HLG inverse OETF of ITU-R BT.2100 (R142): the scene light at a code of n in 44,694,870 parts of the full code, in 2^-32 of its
largest. -/
opaque Config.hlgScene : Nat → Nat

/-- The tone map of R142 above the knee when HDR_PEAK is the knee itself, where its formula divides by 0: the output code, from SDR_WHITE
and the light. -/
opaque Config.toneAtKnee : Nat → Nat → Nat

/-- Matrix coefficients of R135 and R142 as fixed point with 13 fraction bits: which matrix, row, column. -/
opaque Config.matrixTap : Nat → Nat → Nat → Int

/-- The 4 × 4 ordered threshold pattern of R147, by column and row. -/
opaque Config.ditherThreshold : Nat → Nat → Nat

/-- A sample that is concealed from the previous frame when there has been none: by line or block, and position (R46, R233;
the spec says nothing of it). -/
opaque Config.noFrame : Nat → Nat → Nat

/-- Whether a value that is no whole number, num / den, is rounded up where the stages of R135, R143, R146 and R150, and the means of R433 and R443, carry
whole numbers and the spec names no rounding. -/
opaque Config.roundUp : Int → Nat → Bool

/-- A 4:2:0 chroma sample at a luma line, a quarter of a chroma line from the nearer of its neighbours: from the four
nearest chroma lines, the nearer pair in the middle. R146 gives co-sited samples and midpoints alone. -/
opaque Config.chromaQuarter : List Nat → Nat

/-- DETAIL of S11 in the start ledger, from the routes restored and the routes refused: R564 calls it the one and R94 counts
the other in it. -/
opaque Config.routesDetail : Nat → Nat → Nat

end Sys2Proof
end

