-- ==== Sys2Proof/Machine/Tables.lean ====
section
/-! DEFINITION. Tables of the state: a sorted list of (key, value) pairs in one canonical form. A key that is not
listed has its default, and no listed value equals the default, so equal tables are equal data. -/

namespace Sys2Proof.Machine

/-- A table over numbers. -/
abbrev Tbl (α : Type) := List (Nat × α)

/-- The value at k; d gives the value of a key that is not listed. -/
def tget {α : Type} (d : Nat → α) : Tbl α → Nat → α
  | [], k => d k
  | (j, v) :: r, k => if j = k then v else tget d r k

/-- The table with k at v, kept in canonical form. -/
def tset {α : Type} [DecidableEq α] (d : Nat → α) : Tbl α → Nat → α → Tbl α
  | [], k, v => if v = d k then [] else [(k, v)]
  | (j, w) :: r, k, v =>
    if k < j then (if v = d k then (j, w) :: r else (k, v) :: (j, w) :: r)
    else if k = j then (if v = d k then r else (k, v) :: r)
    else (j, w) :: tset d r k v

/-- The keys rise strictly from above `lo`. -/
def tsorted {α : Type} : Nat → Tbl α → Bool
  | _, [] => true
  | lo, (j, _) :: r => decide (lo ≤ j) && tsorted (j + 1) r

/-- The canonical form: keys strictly rising, no value at its default. -/
def twf {α : Type} [DecidableEq α] (d : Nat → α) (m : Tbl α) : Bool :=
  tsorted 0 m && m.all (fun p => decide (p.2 ≠ d p.1))

/-- A table of optional things, none by default. -/
def oget {α : Type} (m : Tbl (Option α)) (k : Nat) : Option α := tget (fun _ => none) m k

/-- Put or remove an optional thing. -/
def oset {α : Type} [DecidableEq α] (m : Tbl (Option α)) (k : Nat) (v : Option α) : Tbl (Option α) :=
  tset (fun _ => none) m k v

/-- The keys at which an optional table holds something, rising. -/
def okeys {α : Type} (m : Tbl (Option α)) : List Nat := (m.filter (fun p => p.2.isSome)).map (·.1)

end Sys2Proof.Machine
end

