-- ==== Sys2Proof/Machine/Reg.lean ====
section
/-! DEFINITION. The keys of the dictionary entries: index × 256 + sub-index, by the entry's name (R489 to R492,
R507 and the entry tables of the other chapters). An instanced entry takes its instance number (R496). -/

namespace Sys2Proof.Machine

/-- The key of an entry (R463). -/
def ekey (index sub : Nat) : Nat := index * 256 + sub

/-! R95 of 02_streams_routes.md. -/

abbrev Reg.strInTable : Nat := 0x400001
abbrev Reg.strInCount : Nat := 0x400002
abbrev Reg.strOutTable : Nat := 0x400003
abbrev Reg.strOutCount : Nat := 0x400004
abbrev Reg.strTileTable : Nat := 0x400005
abbrev Reg.strChangeSeq : Nat := 0x400006
abbrev Reg.strStallTime : Nat := 0x400007
abbrev Reg.strUnsupportedCount : Nat := 0x400008
abbrev Reg.strAuthDefault (n : Nat) : Nat := 0x400009 + n
abbrev Reg.strCommit : Nat := 0x40000D
abbrev Reg.strCommitStatus : Nat := 0x40000E
abbrev Reg.strViewSelect : Nat := 0x40000F
abbrev Reg.strEndpointKeep : Nat := 0x400010
abbrev Reg.stvFrames : Nat := 0x400101
abbrev Reg.stvLastFrameDt : Nat := 0x400102
abbrev Reg.stvFramePeriod : Nat := 0x400103
abbrev Reg.stvLineFail : Nat := 0x400104
abbrev Reg.stvTagFail : Nat := 0x400105
abbrev Reg.stvTagState : Nat := 0x400106
abbrev Reg.stvSignature : Nat := 0x400107
abbrev Reg.stvRoutes : Nat := 0x400108
abbrev Reg.stvEndpointIdent : Nat := 0x400109
abbrev Reg.stvStreamNumber : Nat := 0x40010A
abbrev Reg.stvState : Nat := 0x40010B
abbrev Reg.stvClear : Nat := 0x40010C
abbrev Reg.strLim (n : Nat) : Nat := 0x400201 + n
/-! R96 of 02_streams_routes.md. -/

abbrev Reg.rtTable : Nat := 0x410001
abbrev Reg.rtActiveCount : Nat := 0x410002
abbrev Reg.rtOrphanCount : Nat := 0x410003
abbrev Reg.rtDigest : Nat := 0x410004
abbrev Reg.rtSelect : Nat := 0x410005
abbrev Reg.rtViewState : Nat := 0x410006
abbrev Reg.rtViewReason : Nat := 0x410007
abbrev Reg.rtViewSince : Nat := 0x410008
abbrev Reg.rtViewFlip : Nat := 0x410009
abbrev Reg.rtViewAge : Nat := 0x41000A
abbrev Reg.rtViewSlips : Nat := 0x41000B
abbrev Reg.rtViewStale : Nat := 0x41000C
abbrev Reg.rtHoldDefault : Nat := 0x41000D
abbrev Reg.rtColourDefault : Nat := 0x41000E
abbrev Reg.rtRestoreMode : Nat := 0x41000F
abbrev Reg.rtLimitRoutes : Nat := 0x410010
abbrev Reg.takeGroup : Nat := 0x410101
abbrev Reg.takeLastId : Nat := 0x410102
abbrev Reg.takeLastResult : Nat := 0x410103
abbrev Reg.takeLastIndex : Nat := 0x410104
abbrev Reg.takePending : Nat := 0x410105
abbrev Reg.takeDoneId : Nat := 0x410106
abbrev Reg.takeDoneDt : Nat := 0x410107
abbrev Reg.takeCancel : Nat := 0x410108
abbrev Reg.takeC0Worst : Nat := 0x410109
abbrev Reg.takeOverdueCount : Nat := 0x41010A
abbrev Reg.takeMaxLead : Nat := 0x41010B
abbrev Reg.takeCount : Nat := 0x41010C
abbrev Reg.takeStatusTable : Nat := 0x41010D
abbrev Reg.takeNotify : Nat := 0x41010E
abbrev Reg.takeStatsClear : Nat := 0x41010F
abbrev Reg.takeLimitGroup : Nat := 0x410110
abbrev Reg.safeSet : Nat := 0x410201
abbrev Reg.safeSetCount : Nat := 0x410202
abbrev Reg.safeSetCommit : Nat := 0x410203
abbrev Reg.safeSetDigest : Nat := 0x410204
abbrev Reg.safeSetState : Nat := 0x410205
abbrev Reg.safeOutTable : Nat := 0x410206
abbrev Reg.safeLiveMask : Nat := 0x410207
abbrev Reg.safeLiveDt : Nat := 0x410208
abbrev Reg.safeHandover : Nat := 0x410209
abbrev Reg.unvAsset : Nat := 0x41020A
abbrev Reg.unvPosition : Nat := 0x41020B
abbrev Reg.rtRestoreDelay : Nat := 0x41020C
abbrev Reg.safeSetMax : Nat := 0x41020D
abbrev Reg.safeOutMax : Nat := 0x41020E
abbrev Reg.rtOrphanTotal : Nat := 0x41020F
abbrev Reg.rtFallbackTotal : Nat := 0x410210
/-! R130 of 03_fabric.md. -/

abbrev Reg.fabState : Nat := 0x420001
abbrev Reg.fabWeightC1 : Nat := 0x420002
abbrev Reg.fabWeightC2 : Nat := 0x420003
abbrev Reg.fabWeightC3 : Nat := 0x420004
abbrev Reg.fabStallLimit : Nat := 0x420005
abbrev Reg.fabCrcLimit : Nat := 0x420006
abbrev Reg.fabPortSelect : Nat := 0x420007
abbrev Reg.fabViewFlits : Nat := 0x420008
abbrev Reg.fabViewCrc : Nat := 0x420009
abbrev Reg.fabViewDiscard : Nat := 0x42000A
abbrev Reg.fabViewState : Nat := 0x42000B
abbrev Reg.fabViewLoad : Nat := 0x42000C
abbrev Reg.fabPortRestore : Nat := 0x42000D
abbrev Reg.fabStatsClear : Nat := 0x42000E
abbrev Reg.fabPortMap : Nat := 0x42000F
abbrev Reg.fabLoadTotal : Nat := 0x420010
abbrev Reg.fabSpeed (n : Nat) : Nat := 0x420101 + n
abbrev Reg.fabSpeedWorst : Nat := 0x420105
abbrev Reg.fabSlack : Nat := 0x420106
abbrev Reg.fabSlackQuad : Nat := 0x420107
abbrev Reg.fabReqCycle : Nat := 0x420108
abbrev Reg.spinePhaseTable : Nat := 0x420201
abbrev Reg.spineProbeRoute : Nat := 0x420202
abbrev Reg.spineProbeMin : Nat := 0x420203
abbrev Reg.spineProbeMax : Nat := 0x420204
abbrev Reg.spineProbeMean : Nat := 0x420205
abbrev Reg.spineProbeCount : Nat := 0x420206
abbrev Reg.spineCrc : Nat := 0x420207
abbrev Reg.spineRoutes : Nat := 0x420208
/-! R177 of 04_conversion.md. -/

abbrev Reg.convState (n : Nat) : Nat := 0x500001 + 256 * n
abbrev Reg.convRoute (n : Nat) : Nat := 0x500002 + 256 * n
abbrev Reg.convSetup (n : Nat) : Nat := 0x500003 + 256 * n
abbrev Reg.convTables (n : Nat) : Nat := 0x500004 + 256 * n
abbrev Reg.convStatus (n : Nat) : Nat := 0x500005 + 256 * n
abbrev Reg.convControl (n : Nat) : Nat := 0x500006 + 256 * n
/-! R215 of 05_frame_store.md. -/

abbrev Reg.fsState : Nat := 0x600001
abbrev Reg.fsPoolTable : Nat := 0x600002
abbrev Reg.fsPoolCommit : Nat := 0x600003
abbrev Reg.fsPoolResult : Nat := 0x600004
abbrev Reg.fsStreamPool : Nat := 0x600005
abbrev Reg.fsBufCmd : Nat := 0x600006
abbrev Reg.fsBufResult : Nat := 0x600007
abbrev Reg.fsBufWrite : Nat := 0x600008
abbrev Reg.fsBufRead : Nat := 0x600009
abbrev Reg.fsBufReadSel : Nat := 0x60000A
abbrev Reg.fsBufSelect : Nat := 0x60000B
abbrev Reg.fsBufView : Nat := 0x60000C
abbrev Reg.fsReleaseNotify : Nat := 0x60000D
abbrev Reg.fsWqTimeout : Nat := 0x60000E
abbrev Reg.fsStagingFree : Nat := 0x60000F
abbrev Reg.fsFreeExtents : Nat := 0x600010
abbrev Reg.fsLoad : Nat := 0x600101
abbrev Reg.fsC0Demand : Nat := 0x600102
abbrev Reg.fsC0Limit : Nat := 0x600103
abbrev Reg.fsC0FetchWorst : Nat := 0x600104
abbrev Reg.fsC0FetchMean : Nat := 0x600105
abbrev Reg.fsC0ChLimit : Nat := 0x600106
abbrev Reg.fsDemandTotal : Nat := 0x600107
abbrev Reg.fsLatMean : Nat := 0x600108
abbrev Reg.fsLatP999 : Nat := 0x600109
abbrev Reg.fsStatsClear : Nat := 0x60010A
abbrev Reg.fsEvacRate : Nat := 0x60010B
abbrev Reg.fsExhaustCount : Nat := 0x60010C
abbrev Reg.fsChState (n : Nat) : Nat := 0x600201 + n
abbrev Reg.fsChUsed (n : Nat) : Nat := 0x600209 + n
abbrev Reg.fsChCmd : Nat := 0x600211
abbrev Reg.fsChResult : Nat := 0x600212
abbrev Reg.fsMarginMin : Nat := 0x600213
abbrev Reg.fsSweepLoad : Nat := 0x600214
abbrev Reg.fsSweepState : Nat := 0x600215
abbrev Reg.fsChView : Nat := 0x600216
abbrev Reg.fsCrcRetireLimit : Nat := 0x600217
abbrev Reg.fsWipeState : Nat := 0x600218
abbrev Reg.fsWinTable : Nat := 0x600301
abbrev Reg.fsWinCommit : Nat := 0x600302
abbrev Reg.fsWinSelect : Nat := 0x600303
abbrev Reg.fsWinList : Nat := 0x600304
abbrev Reg.fsWinCmd : Nat := 0x600305
abbrev Reg.fsWinFrames : Nat := 0x600306
abbrev Reg.fsWinOldest : Nat := 0x600307
abbrev Reg.fsWinNewest : Nat := 0x600308
abbrev Reg.fsWinUnexported : Nat := 0x600309
abbrev Reg.fsWinDropped : Nat := 0x60030A
abbrev Reg.fsLimitPools : Nat := 0x60030B
abbrev Reg.fsLimitWindows : Nat := 0x60030C
/-! R242 of 06_compression.md. -/

abbrev Reg.cmpState (n : Nat) : Nat := 0x610001 + 256 * n
abbrev Reg.cmpSetup (n : Nat) : Nat := 0x610002 + 256 * n
abbrev Reg.cmpStatus (n : Nat) : Nat := 0x610003 + 256 * n
abbrev Reg.cmpControl (n : Nat) : Nat := 0x610004 + 256 * n
abbrev Reg.cmpEncRate : Nat := 0x611001
abbrev Reg.cmpDecRate : Nat := 0x611002
abbrev Reg.cmpBlockMin : Nat := 0x611003
abbrev Reg.cmpBlockMax : Nat := 0x611004
abbrev Reg.cmpRawTotal : Nat := 0x611005
abbrev Reg.cmpInvalidTotal : Nat := 0x611006
abbrev Reg.cmpLinkMap : Nat := 0x611007
abbrev Reg.cmpStatsClear : Nat := 0x611008
/-! R280 of 07_composition.md. -/

abbrev Reg.outCompSetup (n : Nat) : Nat := 0x700001 + 256 * n
abbrev Reg.outLayerTable (n : Nat) : Nat := 0x700002 + 256 * n
abbrev Reg.outSpineTable (n : Nat) : Nat := 0x700003 + 256 * n
abbrev Reg.outCompStatus (n : Nat) : Nat := 0x700004 + 256 * n
abbrev Reg.outLayerStatus (n : Nat) : Nat := 0x700005 + 256 * n
abbrev Reg.outCompControl (n : Nat) : Nat := 0x700006 + 256 * n
/-! R313 of 08_raster_commit.md. -/

abbrev Reg.outRaster (n : Nat) : Nat := 0x700007 + 256 * n
abbrev Reg.outWatchTable (n : Nat) : Nat := 0x700008 + 256 * n
abbrev Reg.outCommit (n : Nat) : Nat := 0x700009 + 256 * n
abbrev Reg.outCommitStatus (n : Nat) : Nat := 0x70000A + 256 * n
abbrev Reg.outRasterStatus (n : Nat) : Nat := 0x70000B + 256 * n
abbrev Reg.outRasterControl (n : Nat) : Nat := 0x70000C + 256 * n
/-! R335 of 09_audio.md. -/

abbrev Reg.audState : Nat := 0x780001
abbrev Reg.audInMap : Nat := 0x780002
abbrev Reg.audXpointTable : Nat := 0x780003
abbrev Reg.audOutTable : Nat := 0x780004
abbrev Reg.audCommit : Nat := 0x780005
abbrev Reg.audCommitResult : Nat := 0x780006
abbrev Reg.audXfade : Nat := 0x780007
abbrev Reg.audDuckAttack : Nat := 0x780008
abbrev Reg.audDuckRelease : Nat := 0x780009
abbrev Reg.audClips : Nat := 0x78000A
abbrev Reg.audCrcMutes : Nat := 0x78000B
abbrev Reg.audLatMean : Nat := 0x78000C
abbrev Reg.audStatsClear : Nat := 0x78000D
abbrev Reg.audMuteAll : Nat := 0x78000E
abbrev Reg.audEmbFree : Nat := 0x78000F
abbrev Reg.audLimits : Nat := 0x780010
abbrev Reg.tdmSetup (n : Nat) : Nat := 0x780101 + 256 * n
abbrev Reg.tdmStatus (n : Nat) : Nat := 0x780102 + 256 * n
abbrev Reg.tdmControl (n : Nat) : Nat := 0x780103 + 256 * n
abbrev Reg.tdmRateMeas (n : Nat) : Nat := 0x780104 + 256 * n
abbrev Reg.chimeTable : Nat := 0x781001
abbrev Reg.chimeCmd : Nat := 0x781002
abbrev Reg.chimePlaying : Nat := 0x781003
abbrev Reg.chimeCount : Nat := 0x781004
abbrev Reg.chimeLastDt : Nat := 0x781005
abbrev Reg.chimeWorst : Nat := 0x781006
abbrev Reg.soundWrite : Nat := 0x781007
abbrev Reg.soundDelete : Nat := 0x781008
abbrev Reg.soundList : Nat := 0x781009
abbrev Reg.soundFree : Nat := 0x78100A
abbrev Reg.audOutSelect : Nat := 0x781101
abbrev Reg.audOutPeak : Nat := 0x781102
abbrev Reg.audOutState : Nat := 0x781103
abbrev Reg.audOutDelayUsed : Nat := 0x781104
abbrev Reg.audOutXpoints : Nat := 0x781105
abbrev Reg.audOutClips : Nat := 0x781106
abbrev Reg.audOutChimes : Nat := 0x781107
abbrev Reg.audInSelect : Nat := 0x781201
abbrev Reg.audInState : Nat := 0x781202
abbrev Reg.audInPeak : Nat := 0x781203
abbrev Reg.audInRateMeas : Nat := 0x781204
abbrev Reg.audInRatio : Nat := 0x781205
abbrev Reg.audInUnlocks : Nat := 0x781206
abbrev Reg.audInOrigin : Nat := 0x781207
abbrev Reg.audXpointCount : Nat := 0x781301
abbrev Reg.audOutCount : Nat := 0x781302
abbrev Reg.audDelayUsed : Nat := 0x781303
abbrev Reg.audDelayArea : Nat := 0x781304
abbrev Reg.audXfadeCount : Nat := 0x781305
abbrev Reg.chimeSafeDigest : Nat := 0x781306
abbrev Reg.audCommitDt : Nat := 0x781307
abbrev Reg.audLimitXpoints : Nat := 0x781308
/-! R370 of 10_lane_phy.md. -/

abbrev Reg.phyState (n : Nat) : Nat := 0x300001 + 256 * n
abbrev Reg.phySetup (n : Nat) : Nat := 0x300002 + 256 * n
abbrev Reg.phyEqStatus (n : Nat) : Nat := 0x300003 + 256 * n
abbrev Reg.phyEye (n : Nat) : Nat := 0x300004 + 256 * n
abbrev Reg.phyLoop (n : Nat) : Nat := 0x300005 + 256 * n
abbrev Reg.phyLoopResult (n : Nat) : Nat := 0x300006 + 256 * n
abbrev Reg.phyCounts (n : Nat) : Nat := 0x300007 + 256 * n
abbrev Reg.phySignal (n : Nat) : Nat := 0x300008 + 256 * n
abbrev Reg.phyControl (n : Nat) : Nat := 0x300009 + 256 * n
abbrev Reg.phyCaps (n : Nat) : Nat := 0x30000A + 256 * n
/-! R423 of 11_phokis_link.md. -/

abbrev Reg.lnkState (n : Nat) : Nat := 0x300010 + 256 * n
abbrev Reg.lnkSetup (n : Nat) : Nat := 0x300011 + 256 * n
abbrev Reg.lnkPartner (n : Nat) : Nat := 0x300012 + 256 * n
abbrev Reg.lnkTxCalendar (n : Nat) : Nat := 0x300013 + 256 * n
abbrev Reg.lnkRxCalendar (n : Nat) : Nat := 0x300014 + 256 * n
abbrev Reg.lnkStatus (n : Nat) : Nat := 0x300015 + 256 * n
abbrev Reg.lnkCounts (n : Nat) : Nat := 0x300016 + 256 * n
abbrev Reg.lnkCapsOffer (n : Nat) : Nat := 0x300017 + 256 * n
abbrev Reg.lnkRateRequest (n : Nat) : Nat := 0x300018 + 256 * n
abbrev Reg.lnkControl (n : Nat) : Nat := 0x300019 + 256 * n
/-! R426 of 11_phokis_link.md. -/

abbrev Reg.lnkEpTable : Nat := 0x310001
abbrev Reg.lnkEpCount : Nat := 0x310002
abbrev Reg.lnkEpSeq : Nat := 0x310003
abbrev Reg.lnkRevMin : Nat := 0x310004
abbrev Reg.lnkRevMax : Nat := 0x310005
abbrev Reg.lnkAuthPolicy : Nat := 0x310006
abbrev Reg.lnkAuthSlot : Nat := 0x310007
abbrev Reg.lnkAuthTimeout : Nat := 0x310008
abbrev Reg.lnkColophonTimeout : Nat := 0x310009
abbrev Reg.lnkCalLead : Nat := 0x31000A
abbrev Reg.lnkEpRefused : Nat := 0x31000B
abbrev Reg.lnkHbMiss : Nat := 0x31000C
abbrev Reg.lnkHbPeriod : Nat := 0x31000D
abbrev Reg.lnkStatsClear : Nat := 0x31000E
abbrev Reg.lnkLimitEp : Nat := 0x31000F
abbrev Reg.lnkLimitSlots : Nat := 0x310010
abbrev Reg.lnkBond (n : Nat) : Nat := 0x310101 + n
abbrev Reg.lnkFlowMap (n : Nat) : Nat := 0x310201 + n
/-! R456 of 12_reference_timing.md. -/

abbrev Reg.refSetup (n : Nat) : Nat := 0x200001 + 256 * n
abbrev Reg.refLimits (n : Nat) : Nat := 0x200002 + 256 * n
abbrev Reg.refState (n : Nat) : Nat := 0x200003 + 256 * n
abbrev Reg.refOffset (n : Nat) : Nat := 0x200004 + 256 * n
abbrev Reg.refDrift (n : Nat) : Nat := 0x200005 + 256 * n
abbrev Reg.refSince (n : Nat) : Nat := 0x200006 + 256 * n
abbrev Reg.refPeriod (n : Nat) : Nat := 0x200007 + 256 * n
abbrev Reg.refLastEdge (n : Nat) : Nat := 0x200008 + 256 * n
abbrev Reg.refUsers (n : Nat) : Nat := 0x200009 + 256 * n
abbrev Reg.refCounts (n : Nat) : Nat := 0x20000A + 256 * n
abbrev Reg.refControl (n : Nat) : Nat := 0x20000B + 256 * n
abbrev Reg.refCaps (n : Nat) : Nat := 0x20000C + 256 * n
/-! R457 of 12_reference_timing.md. -/

abbrev Reg.domSetup (n : Nat) : Nat := 0x210001 + 256 * n
abbrev Reg.domSources (n : Nat) : Nat := 0x210002 + 256 * n
abbrev Reg.domState (n : Nat) : Nat := 0x210003 + 256 * n
abbrev Reg.domSelected (n : Nat) : Nat := 0x210004 + 256 * n
abbrev Reg.domFreq (n : Nat) : Nat := 0x210005 + 256 * n
abbrev Reg.domPhase (n : Nat) : Nat := 0x210006 + 256 * n
abbrev Reg.domBuildOut (n : Nat) : Nat := 0x210007 + 256 * n
abbrev Reg.domHoldFreq (n : Nat) : Nat := 0x210008 + 256 * n
abbrev Reg.domSince (n : Nat) : Nat := 0x210009 + 256 * n
abbrev Reg.domFrameDt (n : Nat) : Nat := 0x21000A + 256 * n
abbrev Reg.domSwitches (n : Nat) : Nat := 0x21000B + 256 * n
abbrev Reg.domControl (n : Nat) : Nat := 0x21000C + 256 * n
/-! R458 of 12_reference_timing.md. -/

abbrev Reg.dtNow : Nat := 0x20F001
abbrev Reg.dtDomain : Nat := 0x20F002
abbrev Reg.refXoState : Nat := 0x20F003
abbrev Reg.refXoOffset : Nat := 0x20F004
abbrev Reg.refDisagreeLimit : Nat := 0x20F005
abbrev Reg.refHoldAvg : Nat := 0x20F006
abbrev Reg.refGuardFactor : Nat := 0x20F007
abbrev Reg.refNetSetup : Nat := 0x20F008
abbrev Reg.refNetState : Nat := 0x20F009
abbrev Reg.refNetGm : Nat := 0x20F00A
abbrev Reg.refNetMap : Nat := 0x20F00B
abbrev Reg.refNetPathDelay : Nat := 0x20F00C
abbrev Reg.refSummary : Nat := 0x20F00D
abbrev Reg.refSwitchTotal : Nat := 0x20F00E
abbrev Reg.refStatsClear : Nat := 0x20F00F
abbrev Reg.refLimitsConst : Nat := 0x20F010
/-! R489 of 13_control_access.md. -/

abbrev Reg.idVendor : Nat := 0x100001
abbrev Reg.idProduct : Nat := 0x100002
abbrev Reg.idSiliconRev : Nat := 0x100003
abbrev Reg.idDevice : Nat := 0x100004
abbrev Reg.idOrderCode : Nat := 0x100005
abbrev Reg.idMac : Nat := 0x100006
abbrev Reg.idNodeId : Nat := 0x100007
abbrev Reg.idStraps : Nat := 0x100008
abbrev Reg.idLinkRevs : Nat := 0x100009
abbrev Reg.idDapRevs : Nat := 0x10000A
abbrev Reg.idDictLayout : Nat := 0x10000B
abbrev Reg.idEntryCount : Nat := 0x10000C
abbrev Reg.idEventCount : Nat := 0x10000D
abbrev Reg.idBootCount : Nat := 0x10000E
abbrev Reg.idReadyDt : Nat := 0x10000F
abbrev Reg.idSummary : Nat := 0x100010
abbrev Reg.fwActiveBank : Nat := 0x100101
abbrev Reg.fwRelease (n : Nat) : Nat := 0x100102 + n
abbrev Reg.fwBuild (n : Nat) : Nat := 0x100104 + n
abbrev Reg.fwString (n : Nat) : Nat := 0x100106 + n
abbrev Reg.fwDigest (n : Nat) : Nat := 0x100108 + n
abbrev Reg.fwState (n : Nat) : Nat := 0x10010A + n
abbrev Reg.fwStartBank : Nat := 0x10010C
abbrev Reg.fwRom : Nat := 0x10010D
abbrev Reg.fwMinRelease : Nat := 0x10010E
abbrev Reg.fwStartedDt : Nat := 0x10010F
abbrev Reg.fwRestarts : Nat := 0x100110
abbrev Reg.fmt (n : Nat) : Nat := 0x100201 + n
abbrev Reg.idCap (n : Nat) : Nat := 0x10020D + n
/-! R490 of 13_control_access.md. -/

abbrev Reg.dapPathEnable : Nat := 0x170001
abbrev Reg.dapNotifyEnable : Nat := 0x170002
abbrev Reg.dapPathState : Nat := 0x170003
abbrev Reg.dapSessionTable : Nat := 0x170004
abbrev Reg.dapSessionIdle : Nat := 0x170005
abbrev Reg.dapLock : Nat := 0x170006
abbrev Reg.dapLockTimeout : Nat := 0x170007
abbrev Reg.dapSaveState : Nat := 0x170008
abbrev Reg.dapSaveDt : Nat := 0x170009
abbrev Reg.dapSaveDigest : Nat := 0x17000A
abbrev Reg.dapSaveCount : Nat := 0x17000B
abbrev Reg.dapStageTimeout : Nat := 0x17000C
abbrev Reg.dapPathIdle : Nat := 0x17000D
abbrev Reg.dapErrors : Nat := 0x17000E
abbrev Reg.dapNotifyDropped : Nat := 0x17000F
abbrev Reg.dapStatsClear : Nat := 0x170010
abbrev Reg.canSetup (n : Nat) : Nat := 0x170101 + n
abbrev Reg.canStatus (n : Nat) : Nat := 0x170103 + n
abbrev Reg.netSetup : Nat := 0x170105
abbrev Reg.netStatus : Nat := 0x170106
abbrev Reg.netNotifyDest : Nat := 0x170107
abbrev Reg.netControl : Nat := 0x170108
abbrev Reg.canControl : Nat := 0x170109
abbrev Reg.canForeign : Nat := 0x17010A
abbrev Reg.netForeign : Nat := 0x17010B
abbrev Reg.netAddrInUse : Nat := 0x17010C
abbrev Reg.dapNotifyQueue : Nat := 0x17010D
abbrev Reg.dapDupWindow : Nat := 0x17010E
abbrev Reg.dapOutstanding : Nat := 0x17010F
abbrev Reg.dapMsgMax : Nat := 0x170110
/-! R507 of 14_dictionary_event_maps.md. -/

abbrev Reg.evtStatus (n : Nat) : Nat := 0x130001 + n
abbrev Reg.evtEnable (n : Nat) : Nat := 0x130101 + n
abbrev Reg.evtSeverity (n : Nat) : Nat := 0x130201 + n
abbrev Reg.evtSummary : Nat := 0x130301
abbrev Reg.evtSummaryEnabled : Nat := 0x130302
abbrev Reg.evtSafeLatched : Nat := 0x130303
abbrev Reg.evtPins : Nat := 0x130304
abbrev Reg.evtClearAll : Nat := 0x130305
abbrev Reg.evtClearId : Nat := 0x130306
abbrev Reg.evtLastRaised : Nat := 0x130307
abbrev Reg.evtRaiseCount : Nat := 0x130308
abbrev Reg.evtTest : Nat := 0x130309
abbrev Reg.evtSafeMinLow : Nat := 0x13030A
abbrev Reg.evtDefaults : Nat := 0x13030B
abbrev Reg.evtLimit : Nat := 0x13030C
/-! R542 of 15_keys_security.md. -/

abbrev Reg.secState : Nat := 0x160001
abbrev Reg.secCounter : Nat := 0x160002
abbrev Reg.secUpdate : Nat := 0x160003
abbrev Reg.secUpdateResult : Nat := 0x160004
abbrev Reg.secChallenge : Nat := 0x160005
abbrev Reg.secResponse : Nat := 0x160006
abbrev Reg.secEpochTime : Nat := 0x160007
abbrev Reg.secRemaskPeriod : Nat := 0x160008
abbrev Reg.secTamperStatus : Nat := 0x160009
abbrev Reg.secTamperEnable : Nat := 0x16000A
abbrev Reg.secDestroyDt : Nat := 0x16000B
abbrev Reg.secHoldupReq : Nat := 0x16000C
abbrev Reg.secRootState : Nat := 0x16000D
abbrev Reg.secSessions : Nat := 0x16000E
abbrev Reg.secOrphans : Nat := 0x16000F
abbrev Reg.secStatsClear : Nat := 0x160010
abbrev Reg.secLinkAuth : Nat := 0x160101
abbrev Reg.secStartKeyState : Nat := 0x160102
abbrev Reg.secLastUpdate : Nat := 0x160103
abbrev Reg.secUpdatePending : Nat := 0x160104
/-! R543 of 15_keys_security.md. -/

abbrev Reg.keyAttr (n : Nat) : Nat := 0x161001 + 256 * n
abbrev Reg.keyState (n : Nat) : Nat := 0x161002 + 256 * n
abbrev Reg.keyCheck (n : Nat) : Nat := 0x161003 + 256 * n
abbrev Reg.keyUses (n : Nat) : Nat := 0x161004 + 256 * n
/-! R577 of 16_power_start_lifecycle.md. -/

abbrev Reg.pwrState : Nat := 0x110001
abbrev Reg.pwrKeeperSide : Nat := 0x110002
abbrev Reg.pwrGood : Nat := 0x110003
abbrev Reg.pwrRailMv : Nat := 0x110004
abbrev Reg.pwrTjMax : Nat := 0x110005
abbrev Reg.pwrTjMin : Nat := 0x110006
abbrev Reg.pwrTotal : Nat := 0x110007
abbrev Reg.pwrKeeper : Nat := 0x110008
abbrev Reg.pwrHoldupCap : Nat := 0x110009
abbrev Reg.pwrHoldupUs : Nat := 0x11000A
abbrev Reg.pwrMainQual : Nat := 0x11000B
abbrev Reg.pwrSwitchCount : Nat := 0x11000C
abbrev Reg.pwrReserveCount : Nat := 0x11000D
abbrev Reg.pwrReserveDt : Nat := 0x11000E
abbrev Reg.pwrReserveMs : Nat := 0x11000F
abbrev Reg.pwrStatsClear : Nat := 0x110010
abbrev Reg.govSetup : Nat := 0x110101
abbrev Reg.govControl : Nat := 0x110102
abbrev Reg.govState : Nat := 0x110103
abbrev Reg.govVcoreSet : Nat := 0x110104
abbrev Reg.govVcoreRead : Nat := 0x110105
abbrev Reg.govSlack : Nat := 0x110106
abbrev Reg.govStepsDown : Nat := 0x110107
abbrev Reg.govStepsUp : Nat := 0x110108
abbrev Reg.govVcoreLowest : Nat := 0x110109
abbrev Reg.govAvsErrors : Nat := 0x11010A
abbrev Reg.govLastStepDt : Nat := 0x11010B
abbrev Reg.rsvOutputs : Nat := 0x11010C
abbrev Reg.rsvLanes : Nat := 0x11010D
abbrev Reg.rsvTotalS : Nat := 0x11010E
abbrev Reg.pwrVcoreNominal : Nat := 0x11010F
abbrev Reg.pwrThresholds : Nat := 0x110110
abbrev Reg.pwrTjSensors : Nat := 0x110201
abbrev Reg.pwrTjHighest : Nat := 0x110202
abbrev Reg.pwrTjLowest : Nat := 0x110203
abbrev Reg.pwrThermalState : Nat := 0x110204
abbrev Reg.pwrOorCount : Nat := 0x110205
abbrev Reg.pwrHoldupLowest : Nat := 0x110206
abbrev Reg.pwrHoldupEntries : Nat := 0x110207
abbrev Reg.pwrPowerLimits : Nat := 0x110208
/-! R578 of 16_power_start_lifecycle.md. -/

abbrev Reg.startState : Nat := 0x120001
abbrev Reg.startLedger : Nat := 0x120002
abbrev Reg.startHistory : Nat := 0x120003
abbrev Reg.startFailed : Nat := 0x120004
abbrev Reg.startLoopLimit : Nat := 0x120005
abbrev Reg.startReadyMs : Nat := 0x120006
abbrev Reg.startFirstlightMs : Nat := 0x120007
abbrev Reg.rstCmd : Nat := 0x120008
abbrev Reg.rstSubsystem : Nat := 0x120009
abbrev Reg.rstResult : Nat := 0x12000A
abbrev Reg.rstLastCause : Nat := 0x12000B
abbrev Reg.rstWarmHold : Nat := 0x12000C
abbrev Reg.rstProceed : Nat := 0x12000D
abbrev Reg.rstPending : Nat := 0x12000E
abbrev Reg.rstCounts : Nat := 0x12000F
abbrev Reg.startFailedClear : Nat := 0x120010
abbrev Reg.lcState : Nat := 0x120101
abbrev Reg.lcRequest : Nat := 0x120102
abbrev Reg.lcResult : Nat := 0x120103
abbrev Reg.lcSince : Nat := 0x120104
abbrev Reg.lcHistory : Nat := 0x120105
abbrev Reg.lcChanges : Nat := 0x120106
abbrev Reg.lcTargets : Nat := 0x120107
abbrev Reg.lcFeatures : Nat := 0x120108
abbrev Reg.lcRecoveryWait : Nat := 0x120109
abbrev Reg.lcRecovery : Nat := 0x12010A
abbrev Reg.wipeLast : Nat := 0x12010B
abbrev Reg.wipeCount : Nat := 0x12010C
abbrev Reg.lcRetireDt : Nat := 0x12010D
abbrev Reg.lcManuf : Nat := 0x12010E
abbrev Reg.lcFormat : Nat := 0x12010F
abbrev Reg.lcPending : Nat := 0x120110
/-! R604 of 17_supervision_casebook.md. -/

abbrev Reg.cbState : Nat := 0x140001
abbrev Reg.cbOldestSeq : Nat := 0x140002
abbrev Reg.cbNewestSeq : Nat := 0x140003
abbrev Reg.cbRecords : Nat := 0x140004
abbrev Reg.cbFree : Nat := 0x140005
abbrev Reg.cbReadSel : Nat := 0x140006
abbrev Reg.cbRead : Nat := 0x140007
abbrev Reg.cbReadNext : Nat := 0x140008
abbrev Reg.cbPinnedUsed : Nat := 0x140009
abbrev Reg.cbPinnedSince : Nat := 0x14000A
abbrev Reg.cbKeyEpoch : Nat := 0x14000B
abbrev Reg.cbLost : Nat := 0x14000C
abbrev Reg.cbQueueUsed : Nat := 0x14000D
abbrev Reg.cbNote : Nat := 0x14000E
abbrev Reg.cbDigestInterval : Nat := 0x14000F
abbrev Reg.cbStatsClear : Nat := 0x140010
abbrev Reg.cbIncidentTypes : Nat := 0x140101
abbrev Reg.cbLastIncidentDt : Nat := 0x140102
abbrev Reg.cbLastIncidentSeq : Nat := 0x140103
abbrev Reg.cbWraps : Nat := 0x140104
abbrev Reg.cbDamaged : Nat := 0x140105
abbrev Reg.cbSize : Nat := 0x140106
abbrev Reg.cbPinnedSize : Nat := 0x140107
abbrev Reg.cbWriteWorst : Nat := 0x140108
/-! R605 of 17_supervision_casebook.md. -/

abbrev Reg.busState : Nat := 0x150001
abbrev Reg.busWdogTimeout : Nat := 0x150002
abbrev Reg.busLastHang : Nat := 0x150003
abbrev Reg.busHangCount : Nat := 0x150004
abbrev Reg.busPermit : Nat := 0x150005
abbrev Reg.qsSelect : Nat := 0x150006
abbrev Reg.qsState : Nat := 0x150007
abbrev Reg.qsSince : Nat := 0x150008
abbrev Reg.qsDiscarded : Nat := 0x150009
abbrev Reg.qsForcedCount : Nat := 0x15000A
abbrev Reg.fwImage : Nat := 0x15000B
abbrev Reg.fwUpdateResult : Nat := 0x15000C
abbrev Reg.fwActivate : Nat := 0x15000D
abbrev Reg.fwUpdateState : Nat := 0x15000E
abbrev Reg.fwConfirmTime : Nat := 0x15000F
abbrev Reg.busStatsClear : Nat := 0x150010
abbrev Reg.assetWrite : Nat := 0x150101
abbrev Reg.assetDelete : Nat := 0x150102
abbrev Reg.assetList : Nat := 0x150103
abbrev Reg.assetFree : Nat := 0x150104
abbrev Reg.assetResult : Nat := 0x150105
abbrev Reg.svcWindowSel : Nat := 0x150106
abbrev Reg.svcWindowData : Nat := 0x150107
abbrev Reg.svcWindowState : Nat := 0x150108
abbrev Reg.procWdogTimeout : Nat := 0x150109
abbrev Reg.procLoad : Nat := 0x15010A
abbrev Reg.fwIdleRelease : Nat := 0x15010B
abbrev Reg.inserviceActive : Nat := 0x15010C

end Sys2Proof.Machine
end

