-- ==== Sys2Proof/Machine/EventMap.lean ====
section
/-! DEFINITION. The event map (R498 to R501, with R374, R428, R336, R544, R576 and R607): the IDs by name, which IDs
are assigned, and the default enables and severities of the 1,152 events as the event words hold them (R502). -/

namespace Sys2Proof.Machine

/-- Bit i: event i is assigned by an owning chapter; every other ID is reserved (R498). -/
def evtAssigned : Nat :=
  0x9FFFFFFFFF007FFF0000000FFFFF00000FFF007FFFFFFFFFFFFFFFFFFFFFFFFFFFFFFFFFFFFFFFFFFFFFFFFFFFFFFFFFFFFFFFFFFFFFFFFFFFFFFFFFFFFFFFFFFFFFFFFFFFFFFFFFFFFFFFFFFFFFFFFFFFFFFFFFFFFFFFFFFFFFFFFFFFFFFFFFFFFFFFFFFFFFFFFFFFFFFFFFFFFFFFFFFFFFFFFFFFFFFFFFFFFFFFFFFFFFFFFFFFFFFFFFFFFFFFFFFFFFFFFFFFFFFFFF

/-- Bit i: event i is enabled by default (R499 to R501). -/
def evtDefaultEnable : Nat :=
  0x9FFFFFFF7F005FFF0000000FFFFF000003FF007F00000000FFFF55555555FFFFFFFFFFFFFEFEFEFEFEFEFEFEFFFFFFFFFFFFFFFFFFFFFFFFBEFBEFBEFBEFBEFBEFBEFBEFBEFBEFBEFBEFBEFBEFBEFBEFBEFBEFBEFBEFBEFBEFBEFBEFBEFBEFBEFBEFBEFBEFBEFBEF7DDF77DDF77DDF77DDF77DDF77DDF77DDF77DDF77DDF77DDF77DDF77DDF77DDF77DDF77DDF77DDF7

/-- Bits [2i+1:2i]: default severity of event i, 0 SAFE, 1 FAULT, 2 WARN, 3 INFO; 0 for a reserved ID (R498). -/
def evtDefaultSeverity : Nat :=
  0xC19D9BAE0B7AAFF9E1A600002E5EE55500000000000000AF9F641AED0000000000F95AB9000020AAFFFFFFFFFFFFFFFFAAAAAAAAEEEEEEEEEEEEEEEEE9E9E9E9E9E9E9E9E9E9E9E925EB25EB25EB25EB25EB25EB25EB25EB999999999999999999999999999999999999999999999999F86F86F86F86F86F86F86F86F86F86F86F86F86F86F86F86F86F86F86F86F86F86F86F86F86F86F86F86F86F86F86F86F86F86F86F86F86F86F86F86F86F86F86F86F86F86F86F86F86F86F86F86F86F86F86F86F86F86F86F86F86F86F86F86FADE5FADE5FADE5FADE5FADE5FADE5FADE5FADE5FADE5FADE5FADE5FADE5FADE5FADE5FADE5FADE5FADE5FADE5FADE5FADE5FADE5FADE5FADE5FADE5FADE5FADE5FADE5FADE5FADE5FADE5FADE5FADE5

abbrev Ev.lockLost (n : Nat) : Nat := 10 * n
abbrev Ev.alignLost (n : Nat) : Nat := 10 * n + 1
abbrev Ev.stuffOverrun (n : Nat) : Nat := 10 * n + 2
abbrev Ev.adaptHeld (n : Nat) : Nat := 10 * n + 3
abbrev Ev.partnerIncompatible (n : Nat) : Nat := 10 * n + 4
abbrev Ev.partnerJoined (n : Nat) : Nat := 10 * n + 5
abbrev Ev.partnerLeft (n : Nat) : Nat := 10 * n + 6
abbrev Ev.lineCheckFailed (n : Nat) : Nat := 10 * n + 7
abbrev Ev.rateChanged (n : Nat) : Nat := 10 * n + 8
abbrev Ev.lowPowerExit (n : Nat) : Nat := 10 * n + 9
abbrev Ev.underrun (n : Nat) : Nat := 320 + 6 * n
abbrev Ev.commitLate (n : Nat) : Nat := 320 + 6 * n + 1
abbrev Ev.freeze (n : Nat) : Nat := 320 + 6 * n + 2
abbrev Ev.noSource (n : Nat) : Nat := 320 + 6 * n + 3
abbrev Ev.flip (n : Nat) : Nat := 320 + 6 * n + 4
abbrev Ev.modeChangeDone (n : Nat) : Nat := 320 + 6 * n + 5
abbrev Ev.lineLate (n : Nat) : Nat := 704 + 2 * n
abbrev Ev.unitSlow (n : Nat) : Nat := 704 + 2 * n + 1
abbrev Ev.crcRetry (n : Nat) : Nat := 800 + 8 * n
abbrev Ev.crcConceal (n : Nat) : Nat := 800 + 8 * n + 1
abbrev Ev.marginLow (n : Nat) : Nat := 800 + 8 * n + 2
abbrev Ev.retrainDone (n : Nat) : Nat := 800 + 8 * n + 3
abbrev Ev.retrainFailed (n : Nat) : Nat := 800 + 8 * n + 4
abbrev Ev.channelRetired (n : Nat) : Nat := 800 + 8 * n + 5
abbrev Ev.speedFallback (n : Nat) : Nat := 800 + 8 * n + 6
abbrev Ev.c0FetchLate (n : Nat) : Nat := 800 + 8 * n + 7
abbrev Ev.refLost (n : Nat) : Nat := 864 + 4 * n
abbrev Ev.refMarginal (n : Nat) : Nat := 864 + 4 * n + 1
abbrev Ev.refDisagree (n : Nat) : Nat := 864 + 4 * n + 2
abbrev Ev.refSwitch (n : Nat) : Nat := 864 + 4 * n + 3
abbrev Ev.blockInvalid (n : Nat) : Nat := 912 + 2 * n
abbrev Ev.rawFallback (n : Nat) : Nat := 912 + 2 * n + 1
abbrev Ev.tdmClockLost (n : Nat) : Nat := 944 + n
abbrev Ev.tdmRateError (n : Nat) : Nat := 952 + n
abbrev Ev.chimePlayed (n : Nat) : Nat := 960 + n
abbrev Ev.audioClip : Nat := 992
abbrev Ev.delayCrcMute : Nat := 993
abbrev Ev.asrcUnlock : Nat := 994
abbrev Ev.audioChannelsFull : Nat := 995
abbrev Ev.chimeLate : Nat := 996
abbrev Ev.soundMissing : Nat := 997
abbrev Ev.audCommitRefused : Nat := 998
abbrev Ev.authFailedLink : Nat := 1008
abbrev Ev.authFailedDap : Nat := 1009
abbrev Ev.updateApplied : Nat := 1010
abbrev Ev.updateRefused : Nat := 1011
abbrev Ev.updateIncomplete : Nat := 1012
abbrev Ev.slotOrphaned : Nat := 1013
abbrev Ev.reauthFailed : Nat := 1014
abbrev Ev.keysDestroyed : Nat := 1015
abbrev Ev.rootFailed : Nat := 1016
abbrev Ev.remaskLate : Nat := 1017
abbrev Ev.challengeAnswered : Nat := 1018
abbrev Ev.epochAdvanced : Nat := 1019
abbrev Ev.mainLost : Nat := 1040
abbrev Ev.mainRestored : Nat := 1041
abbrev Ev.keeperOnB : Nat := 1042
abbrev Ev.keeperOnA : Nat := 1043
abbrev Ev.backupLost : Nat := 1044
abbrev Ev.holdupLow : Nat := 1045
abbrev Ev.holdupEntered : Nat := 1046
abbrev Ev.supplyOutOfRange : Nat := 1047
abbrev Ev.tempOutOfRange : Nat := 1048
abbrev Ev.oscFault : Nat := 1049
abbrev Ev.governorFault : Nat := 1050
abbrev Ev.startStepFailed : Nat := 1051
abbrev Ev.firstLight : Nat := 1052
abbrev Ev.serviceReady : Nat := 1053
abbrev Ev.startLoop : Nat := 1054
abbrev Ev.warmResetPending : Nat := 1055
abbrev Ev.resetDone : Nat := 1056
abbrev Ev.lifeCycleChanged : Nat := 1057
abbrev Ev.lifeCycleRefused : Nat := 1058
abbrev Ev.recoveryStart : Nat := 1059
abbrev Ev.busWatchdog (n : Nat) : Nat := 1088 + n
abbrev Ev.quiesceForced : Nat := 1094
abbrev Ev.fwUpdateVerified : Nat := 1095
abbrev Ev.fwUpdateRefused : Nat := 1096
abbrev Ev.fwActivated : Nat := 1097
abbrev Ev.fwReverted : Nat := 1098
abbrev Ev.procWatchdog : Nat := 1099
abbrev Ev.serviceWindowOpen : Nat := 1100
abbrev Ev.assetStored : Nat := 1101
abbrev Ev.assetRefused : Nat := 1102
abbrev Ev.flitCrcShared : Nat := 1112
abbrev Ev.flitCrcSpine : Nat := 1113
abbrev Ev.portDegraded : Nat := 1114
abbrev Ev.egressStall : Nat := 1115
abbrev Ev.handshakeTimeout : Nat := 1116
abbrev Ev.spineLate : Nat := 1117
abbrev Ev.phaseLost : Nat := 1118
abbrev Ev.phaseLocked : Nat := 1119
abbrev Ev.speedLow : Nat := 1120
abbrev Ev.slackNegative : Nat := 1121
abbrev Ev.portRestored : Nat := 1122
abbrev Ev.spineSpurIsolated : Nat := 1123
abbrev Ev.streamJoined : Nat := 1124
abbrev Ev.streamLeft : Nat := 1125
abbrev Ev.streamUnsupported : Nat := 1126
abbrev Ev.streamStalled : Nat := 1127
abbrev Ev.routeOrphaned : Nat := 1128
abbrev Ev.routeFallback : Nat := 1129
abbrev Ev.routeRestored : Nat := 1130
abbrev Ev.routeUnverified : Nat := 1131
abbrev Ev.takeDone : Nat := 1132
abbrev Ev.takeRefused : Nat := 1133
abbrev Ev.c0TakeOverdue : Nat := 1134
abbrev Ev.safeSetFailed : Nat := 1135
abbrev Ev.chaseSlip : Nat := 1136
abbrev Ev.bufferReleased : Nat := 1137
abbrev Ev.writeRefused : Nat := 1138
abbrev Ev.poolExhausted : Nat := 1139
abbrev Ev.windowFrozen : Nat := 1140
abbrev Ev.windowOverrun : Nat := 1141
abbrev Ev.bufferLost : Nat := 1142
abbrev Ev.evacuationBlocked : Nat := 1143
abbrev Ev.cbRecordsLost : Nat := 1144
abbrev Ev.cbPinnedFull : Nat := 1145
abbrev Ev.cbNvmFault : Nat := 1146
abbrev Ev.cbRecordDamaged : Nat := 1147
abbrev Ev.cbUnsigned : Nat := 1148
abbrev Ev.takeAccepted : Nat := 1151

end Sys2Proof.Machine
end

