-- ==== Sys2Proof/Machine/State.lean ====
section
/-! DEFINITION. The state of the U3264: everything the spec gives the block, as plain data. Registers that have no
structure of their own are held by the key of their dictionary entry in `regs` (the value, or the shadow of a shadowed
entry) and `inForce` (the value in force of a shadowed entry). -/

namespace Sys2Proof.Machine

/-- The factory calendar of R413: control slots at 1, 129, 257 and 385; slot 1 in the lowest 16 bits. -/
def factoryCalendar : Nat :=
  0x4000 * (1 + 2 ^ (16 * 128) + 2 ^ (16 * 256) + 2 ^ (16 * 384))

/-- What the last command made the U3264 send or do on its outside. -/
inductive Output where
  /-- status of a command of the host that came without a message of its own (R472) -/
  | status (who : Requester) (code : Nat)
  /-- a CAN FD frame with its identifier (R484) -/
  | canFrame (port ident : Nat) (data : List Nat)
  /-- the payload of a UDP datagram from port 30471 to a requester's address and port (R485) -/
  | datagram (who : Requester) (data : List Nat)
  /-- a control folio in a slot of a lane (R395) -/
  | control (lane type body : Nat)
  /-- a data folio of a flow that the shared plane brings to its lane -/
  | data (lane flow payload : Nat)
  /-- a data folio that the Spine plane puts into a C0 slot (R98) -/
  | slotData (lane slot flow payload : Nat)
  /-- a flow-type control folio in a slot of its flow -/
  | flow (lane type body : Nat)
  /-- symbols that a lane sends, by their levels (R377, R378) -/
  | symbols (lane : Nat) (levels : List Int)
  /-- a line of an output stream after stage 5, as samples in the order of R387 (R248), and one forwarded from an input -/
  | line (stream line : Nat) (samples : List Nat)
  | wakeBurst (lane : Nat)
  /-- an ARP answer: to whom, and the own addresses (R485) -/
  | arp (toIp toMac ip mac : Nat)
  | echo (ip : Nat) (data : List Nat)
  /-- bytes read by a command -/
  | bytes (who : Requester) (data : List Nat)
  | pulse (domain : Nat)
  | avs (mv : Nat)
  deriving DecidableEq, Repr

/-! Events (14_dictionary_event_maps.md). -/

/-- What a report limiter of one event remembers: the DT of its last report and the raises since. -/
structure Limit where
  last : Option Time := none
  since : Nat := 0
  deriving DecidableEq, Repr

/-- The event words, the pins and the last raise (R488, R502 to R511). Word numbers are bits of one number:
event i is bit i of `status`, `enable` and `safeBits`, and bits [2i+1:2i] of `severity`. -/
structure EvtState where
  status : Nat := 0
  enable : Nat := evtDefaultEnable
  severity : Nat := evtDefaultSeverity
  /-- status bits that were latched under severity SAFE (R506) -/
  safeBits : Nat := 0
  /-- end of the minimum low time of SAFE_N while it runs (R488) -/
  minLow : Option Time := none
  /-- the start hold on SAFE_N before S6 completes (R488) -/
  startHold : Bool := true
  evtN : Bool := true
  safeN : Bool := false
  lastEvent : Nat := 0
  lastSeverity : Nat := 0
  lastTest : Bool := false
  lastDt : Time := 0
  count : Nat := 0
  limits : Tbl Limit := []
  deriving DecidableEq, Repr

/-! Supervision (17_supervision_casebook.md). -/

/-- A record waiting in the casebook writer's queue (R584). -/
structure CbItem where
  type : Nat
  body : List Nat
  dt : Time
  safe : Bool
  test : Bool
  deriving DecidableEq, Repr

/-- A record in the NVM (R580, R581); `pos` is its byte position in the ring, counted since manufacture. -/
structure CbRec where
  item : CbItem
  seq : Nat
  lc : Nat
  boot : Nat
  epoch : Nat
  unsigned : Bool
  signature : Nat
  pos : Nat
  deriving DecidableEq, Repr

/-- The casebook writer's volatile state (R583 to R586). -/
structure CbState where
  queue : List CbItem := []
  /-- records lost since the last GAP record, with the first lost DT -/
  gap : Option (Nat × Time) := none
  /-- per event ID: last EVENT record and raises since (R583) -/
  limits : Tbl Limit := []
  mounted : Bool := false
  nvmFault : Bool := false
  /-- CB_UNSIGNED raised since slot 29 was last good (R586) -/
  unsignedRaised : Bool := false
  lastDigest : Option Nat := none
  /-- DT at which the present CB_DIGEST_INTERVAL began -/
  digestTick : Time := 0
  deriving DecidableEq, Repr

/-- The casebook in the NVM: the ring oldest first, the pinned incidents, the next SEQ (R579, R585). -/
structure CbStore where
  ring : List CbRec := []
  pinned : List (List CbRec) := []
  nextSeq : Nat := 1
  /-- bytes written to the ring since manufacture, and where what is not yet erased begins -/
  append : Nat := 0
  base : Nat := 0
  keyEpoch : Nat := 0
  pinnedSince : Time := 0
  pinnedFull : Bool := false
  /-- no hold-up store was fitted when power was lost: the next start writes a GAP record (R584) -/
  lostAll : Bool := false
  deriving DecidableEq, Repr

/-- A bus master (R606): 0 idle, 1 in a burst, 2 hung, 3 in reset, and its watchdog resets. A command takes its bursts whole,
so between commands every master is idle; how many bursts it takes the spec does not say (log entry 34). -/
structure BusMaster where
  state : Nat := 0
  target : Nat := 0
  hangs : Nat := 0
  deriving DecidableEq, Repr

/-- A firmware bank of the NVM (R597): FW_STATE code, release, floor, build, image digest. -/
structure FwBank where
  state : Nat := 0
  release : Nat := 0
  minRelease : Nat := 0
  build : Nat := 0
  digest : Nat := 0
  deriving DecidableEq, Repr

/-- Supervision beside the casebook: bus matrix, quiesce, firmware trial, in-service changes. -/
structure SupState where
  bus : Tbl BusMaster := []
  lastHang : Hang := ⟨0, 0, 0, 0, 0, 0⟩
  /-- DT of the last state change per kind × 256 + instance (QS_SINCE) -/
  qsSince : Tbl Nat := []
  /-- lines, blocks or samples discarded per kind × 256 + instance (QS_DISCARDED) -/
  qsDiscarded : Tbl Nat := []
  /-- the bank under trial and the DT at which the trial started (R598) -/
  trial : Option (Nat × Time) := none
  /-- the in-service change in force, kind × 256 + instance (R600) -/
  inservice : Option Nat := none
  /-- DRAM and lane changes that wait for the one in force, oldest first (R600) -/
  waiting : List Nat := []
  /-- SERVICE_WINDOW_OPEN raised since entry into SERVICE (R603) -/
  windowOpened : Bool := false
  /-- engine layers of these outputs keep the previous frame's records (R594, master M5) -/
  keepRecords : List Nat := []
  deriving DecidableEq, Repr

/-! Control paths (13_control_access.md). -/

/-- An open session, or one that waits for its proof (R478). -/
structure Session where
  who : Requester
  slot : Nat
  hostNonce : List Nat
  devNonce : List Nat
  proved : Bool := false
  key : List Nat := []
  hostSeq : Nat := 0
  devSeq : Nat := 0
  /-- DT of SESSION_PROVE -/
  opened : Time := 0
  lastMsg : Time := 0
  /-- DT at which its slot was orphaned or replaced (R535) -/
  orphanedAt : Option Time := none
  deriving DecidableEq, Repr

/-- A kept response (R476). -/
structure Kept where
  tag : Nat
  op : Nat
  index : Nat
  sub : Nat
  seq : Option Nat
  resp : List Nat
  since : Time
  deriving DecidableEq, Repr

/-- A staged write (R473). -/
structure Staged where
  index : Nat
  sub : Nat
  data : List Nat
  last : Time
  deriving DecidableEq, Repr

/-- A snapshot copy (R474). -/
structure Snapshot where
  index : Nat
  sub : Nat
  data : List Nat
  last : Time
  deriving DecidableEq, Repr

/-- The counts and the proof failures of one path (R480, R491). -/
structure PathState where
  errors : Nat := 0
  requests : Nat := 0
  lastMsg : Option Time := none
  failures : List Time := []
  lockout : Option Time := none
  deriving DecidableEq, Repr

/-- A NOTIFY record before its NSEQ is given (R487). -/
structure NotifyRec where
  event : Nat
  severity : Nat
  dt : Time
  body : Nat
  overflow : Bool := false
  deriving DecidableEq, Repr

/-- The NOTIFY queue of one requester (R487). -/
structure NotifyQ where
  recs : List NotifyRec := []
  nseq : Nat := 0
  dropped : Bool := false
  deriving DecidableEq, Repr

/-- A message under reassembly (R484, R485, R486). -/
structure Reasm where
  bytes : List Nat := []
  next : Nat := 0
  msg : Nat := 0
  last : Time := 0
  deriving DecidableEq, Repr

/-- A CAN FD port (R492): its counters, and whether it is in bus-off. -/
structure CanPort where
  txErr : Nat := 0
  rxErr : Nat := 0
  busOff : Bool := false
  busOffs : Nat := 0
  frames : Nat := 0
  deriving DecidableEq, Repr

/-- A running SAVE: its requester, message tag, revision and session, and its snapshot (R467). -/
structure SaveRun where
  who : Requester
  msg : Msg
  image : List (Nat × List Nat)
  at_ : Time
  deriving DecidableEq, Repr

/-- A request that waits behind the SAVE of its requester (R475). -/
structure Waiting where
  who : Requester
  msg : Msg
  ok : Bool
  deriving DecidableEq, Repr

/-- The DAP engine. Tables over requesters are keyed by path × 2^48 + id. -/
structure DapState where
  sessions : Tbl (Option Session) := []
  kept : Tbl (List Kept) := []
  staged : Tbl (Option Staged) := []
  snaps : Tbl (Option Snapshot) := []
  paths : Tbl PathState := []
  places : Tbl (Option (Nat × Time)) := []
  queues : Tbl NotifyQ := []
  reasm : Tbl (Option Reasm) := []
  /-- what a response takes over from its request: PRIORITY on CAN (R484), MSG on Ethernet (R485) -/
  ways : Tbl Nat := []
  can : Tbl CanPort := []
  netLink : Bool := false
  datagrams : Nat := 0
  save : Option SaveRun := none
  waiting : List Waiting := []
  /-- DT of the last message of the path that holds DAP_LOCK (R481) -/
  lockMsg : Time := 0
  deriving DecidableEq, Repr

/-! Audio (09_audio.md). -/

/-- The state of a TDM port, with the codes of TDM_STATUS. -/
inductive TdmMode where
  | off | running | clockLost | rateError
  deriving DecidableEq, Repr

/-- A TDM port (R320); `good` counts frames since the clock was lost or off rate. -/
structure TdmPort where
  mode : TdmMode := .off
  frames : Nat := 0
  errors : Nat := 0
  good : Nat := 0
  rate : Nat := 0
  deriving DecidableEq, Repr

/-- A chime generator (R330): playing or not, in an ON period or a gap, ON periods left (255 until stopped),
DT at which the period ends, and whether it fades out after a stop. -/
structure Chime where
  playing : Bool := false
  on : Bool := false
  left : Nat := 0
  until_ : Time := 0
  deriving DecidableEq, Repr

/-- A fraction. -/
structure Frac where
  num : Nat := 0
  den : Nat := 1
  deriving DecidableEq, Repr

/-- The ducking of one output channel (R331): the level in dB left behind at `since` (0 none), and whether it
attacks. The level moves linearly in dB from there. -/
structure Duck where
  attacking : Bool := false
  start : Frac := {}
  since : Time := 0
  deriving DecidableEq, Repr

/-- Audio tables accepted by AUD_COMMIT that wait for their block boundary (R328). -/
structure AudCommit where
  at_ : Time
  xpoints : Nat
  outs : Nat
  tdm : List Nat
  deriving DecidableEq, Repr

/-- The state of one output channel: DT at which its crossfade started, clips. -/
structure AudOut where
  xfade : Option Time := none
  clips : Nat := 0
  peak : Nat := 0
  /-- what the channel heard when its crossfade was last decided: input channels with gain (R323, R325) -/
  heard : List (Nat × Nat) := []
  duck : Duck := {}
  deriving DecidableEq, Repr

/-- The state of one input channel: the outputs on which a ratio error has faded it to silence (R321), its measures. -/
structure AudIn where
  unlocked : List Nat := []
  unlocks : Nat := 0
  peak : Nat := 0
  rate : Nat := 0
  ratio : Nat := 0
  /-- DT of the last gap in SEQ, which is heard as silence (R393) -/
  gapAt : Time := 0
  deriving DecidableEq, Repr

/-- A sound of the sound store (R333). -/
structure Sound where
  data : List Nat
  crc : Nat
  deriving DecidableEq, Repr

/-- The audio engine. -/
structure AudState where
  running : Bool := false
  /-- embedded channels: stream ID to first input channel and count (R317) -/
  bind : Tbl (Option (Nat × Nat)) := []
  waiting : Option AudCommit := none
  tdm : Tbl TdmPort := []
  chimes : Tbl Chime := []
  outs : Tbl AudOut := []
  ins : Tbl AudIn := []
  /-- keeper chime memory: the sounds loaded, by their IDs (R333) -/
  chimeMem : List (Nat × Sound) := []
  /-- sounds named by an enabled generator that failed their CRC twice (R333) -/
  missing : List Nat := []
  /-- the mute of AUD_MUTE_ALL: DT of its last change -/
  muteSince : Time := 0
  /-- program faded out by AUD_MUTE_ALL -/
  muted : Bool := false
  deriving DecidableEq, Repr

/-! Lanes below the link (10_lane_phy.md). -/

/-- The lane states of R354; R370 gives their codes in this order. -/
inductive PhyMode where
  | off | calibrating | training | ready | quiet | dormant | waking | loop | retraining | failed | unpowered
  deriving DecidableEq, Repr

/-- A value that steps one code every 10 µs from `start` toward the value applied (R342). -/
structure Ramp where
  start : Nat := 0
  since : Time := 0
  deriving DecidableEq, Repr

/-- A test loop (R360, R373): kind and pattern, its end if it has one, the result. -/
structure PhyLoop where
  kind : Nat := 0
  pattern : Nat := 0
  until_ : Option Time := none
  bits : Nat := 0
  errors : Nat := 0
  lstate : Nat := 0
  deriving DecidableEq, Repr

/-- One lane below the link. Rates are the codes of R371. -/
structure PhyLane where
  mode : PhyMode := .off
  rate : Nat := 0
  /-- PHY_SETUP fields that wait for the next training (R371) -/
  nextSetup : Option Nat := none
  amp : Ramp := {}
  pre : Ramp := {}
  post : Ramp := {}
  /-- training attempts without convergence at this rate -/
  attempts : Nat := 0
  /-- the first training of a start (R355) -/
  initial : Bool := false
  /-- the training runs under R366, with missing heartbeats removing no endpoint -/
  inService : Bool := false
  /-- a retraining of R366 that waits for its condition -/
  retrainDue : Bool := false
  /-- 0 none, 1 histogram, 2 idle run, 3 margin (R348) -/
  holdReason : Nat := 0
  heldData : Nat := 0
  windowOk : Bool := true
  levelMin : Nat := 0
  /-- the float positions of the last training; the weights adapt continuously (R347), so no command fixes them -/
  floats : List Nat := []
  loop : PhyLoop := {}
  sweepMargin : Nat := 0
  marginLow : Bool := false
  /-- retrainings in a row that left the margin below MARGIN_MIN -/
  lowRun : Nat := 0
  retrains : Nat := 0
  /-- low-power state requested of the partner and not answered: 3 Quiet, 4 Dormant, 0 none -/
  lpAsked : Nat := 0
  /-- a state accepted that is entered at the next turn boundary (R357), 0 none -/
  lpEntry : Nat := 0
  /-- DT since which no calendar of the lane held a data slot (R356) -/
  emptySince : Option Time := none
  /-- DT of entry into Quiet -/
  quietSince : Time := 0
  /-- the state from which the lane wakes -/
  fromDormant : Bool := false
  pllHeld : Bool := false
  lockLosses : Nat := 0
  holds : Nat := 0
  quiets : Nat := 0
  dormants : Nat := 0
  trainings : Nat := 0
  quietWorst : Nat := 0
  dormantWorst : Nat := 0
  deriving DecidableEq, Repr

/-! The Phokis link (11_phokis_link.md). -/

/-- The link states of R407; R423 gives their codes in this order. -/
inductive LinkMode where
  | down | aligning | turnHunt | negotiating | authenticating | up | incompatible | lowPower | rateChange | loop
  deriving DecidableEq, Repr

/-- A control-type folio that waits for its slot (R400). -/
structure CtlFolio where
  type : Nat
  body : Nat
  deriving DecidableEq, Repr

/-- A transmit calendar change of R415: epoch, entries, SWITCH_TURN, announced or still held, acknowledged, and
whether it is the second announcement after a code 0x01. -/
structure CalChange where
  epoch : Nat
  entries : Nat
  switchTurn : Nat := 0
  announced : Bool := false
  acked : Bool := false
  again : Bool := false
  deriving DecidableEq, Repr

/-- A partner's calendar under way: epoch, entries received by slot, SWITCH_TURN once acknowledged. -/
structure RxChange where
  epoch : Nat
  got : Tbl Nat := []
  switchTurn : Option Nat := none
  deriving DecidableEq, Repr

/-- The link counts of R425. -/
structure LinkCounts where
  foliosLost : Nat := 0
  alignLosses : Nat := 0
  turnMisses : Nat := 0
  stuffSymbols : Nat := 0
  slotsOmitted : Nat := 0
  foliosDeferred : Nat := 0
  lineFails : Nat := 0
  poisonsRx : Nat := 0
  unknownTypes : Nat := 0
  deriving DecidableEq, Repr

/-- A tag session of one direction pair (R528, R529): session root as bytes, epochs. -/
structure TagSession where
  root : List Nat := []
  /-- N_lo ‖ N_hi (R525), whether the key is of 128 bits, whether this side has the lower PARTNER_ID -/
  nonces : List Nat := []
  narrow : Bool := false
  lower : Bool := false
  /-- advances since the last authentication (R529) -/
  advances : Nat := 0
  slot : Nat := 0
  txEpoch : Nat := 0
  rxEpoch : Nat := 0
  txSince : Time := 0
  rxSince : Time := 0
  /-- the slot's key was replaced: the session runs to its epoch end (R535, R536) -/
  orphaned : Bool := false
  /-- DT from which a failed re-authentication is retried (R537) -/
  retryAt : Option Time := none
  deriving DecidableEq, Repr

/-- One direction of a lane on the wire: its last 31 scrambled payload bits, the newest in bit 0 (R376), and the run of equal symbols
under way (R378). -/
structure Wire where
  bits : Nat := 0
  level : Int := 0
  run : Nat := 0
  deriving DecidableEq, Repr

/-- One lane's link. Calendars are 511 entries of 16 bits, slot 1 lowest. -/
structure LinkLane where
  mode : LinkMode := .down
  /-- consecutive valid headers while hunting -/
  headers : Nat := 0
  /-- validity of the last 128 headers, bit 0 the newest, 1 invalid -/
  bad : Nat := 0
  lastTurn : Option Nat := none
  missRun : Nat := 0
  txTurn : Nat := 0
  rxCal : Nat := factoryCalendar
  txCal : Nat := factoryCalendar
  rxEpoch : Nat := 0
  txEpoch : Nat := 0
  txChange : Option CalChange := none
  rxChange : Option RxChange := none
  /-- the transmit calendar to announce again after a resume (R415) -/
  reannounce : Option Nat := none
  calResult : Nat := 0
  calRefusal : Nat := 0
  /-- last peer parts 0 and 1 and whether this negotiation has seen part 0 -/
  peer0 : Nat := 0
  peer1 : Nat := 0
  seen0 : Bool := false
  chosen : Nat := 0
  rev : Nat := 0
  negSince : Time := 0
  /-- caps offered in this negotiation -/
  capsOffered : Nat := 0
  authenticated : Bool := false
  ownNonce : List Nat := []
  peerNonce : List Nat := []
  authSince : Time := 0
  responseSent : Bool := false
  peerValid : Bool := false
  authFailed : Bool := false
  /-- DT of leaving UP while a resume is still possible within 8 ms (R408) -/
  leftAt : Option Time := none
  /-- resume open after LOW_POWER, RATE_CHANGE or LOOP (R408) -/
  resumeOpen : Bool := false
  resumed0 : Bool := false
  upSince : Time := 0
  queue : List CtlFolio := []
  idleCount : Nat := 0
  txStuff : Nat := 0
  rxStuff : Nat := 0
  /-- own request waiting for an answer: the rate code (R420) -/
  rateAsked : Option Nat := none
  /-- rate agreed, taken up after slot 511 of this turn (R420) -/
  rateAgreed : Option Nat := none
  /-- loop asked of the partner, or echoed for it (R363) -/
  loopAsked : Bool := false
  echo : Bool := false
  /-- at the lowest lane of a bond: members excluded on receive and on transmit, and those the next TURN clears -/
  rxExcluded : Nat := 0
  txExcluded : Nat := 0
  txCleared : Nat := 0
  /-- members shown in the last TURN received -/
  members : Nat := 0
  counts : LinkCounts := {}
  session : Option TagSession := none
  /-- turn lock regained while a resume of R408 is possible: the peer's parts 0 and 1 are awaited -/
  locked : Bool := false
  /-- policy of R406 captured at the start of the negotiation: 1 never, 2 when offered, 3 required -/
  policy : Nat := 2
  /-- slots named in the parts 2 sent and received -/
  ownSlot : Nat := 0
  peerSlot : Nat := 0
  /-- a re-authentication runs while the link stays UP (R536) -/
  reauth : Bool := false
  /-- BOND with OP 2 sent since the exclusion (R419) -/
  backSent : Bool := false
  /-- a rate change is complete at the next entry into UP (R420) -/
  rateNew : Bool := false
  /-- members that the next TURN shows again (R419) -/
  txReturning : Nat := 0
  /-- heartbeat windows are not counted until the lane is UP again (R411) -/
  held : Bool := false
  /-- slots of the next turn that stuffing omits, on transmit and on receive (R384) -/
  omitNext : List Nat := []
  rxOmitNext : List Nat := []
  txWire : Wire := {}
  rxWire : Wire := {}
  deriving DecidableEq, Repr

/-- An endpoint of the table (R427), with whether its bit came in the present window and the window's end. -/
structure Endpoint where
  sink : Bool
  lane : Nat
  ep : Nat
  streams : Nat
  missed : Nat := 0
  heard : Bool := false
  windowEnd : Time := 0
  identity : Nat
  lastHeard : Time := 0
  deriving DecidableEq, Repr

/-- An endpoint that left after 8 misses, kept until a heartbeat (R411). -/
structure Departed where
  lane : Nat
  ep : Nat
  identity : Nat
  alive : Bool := false
  deriving DecidableEq, Repr

/-- Endpoint table and bonds in force. -/
structure EpState where
  table : Tbl (Option Endpoint) := []
  departed : List Departed := []
  /-- LNK_BOND records in force (R416) -/
  bonds : Tbl Nat := []
  /-- DT of the next device heartbeat and the next stream record repetition -/
  nextHeartbeat : Time := 0
  nextRepeat : Time := 0
  deriving DecidableEq, Repr

/-! Streams, routes and takes (02_streams_routes.md). -/

/-- The input stream states of R52, in the order of the codes of R54. -/
inductive StrMode where
  | absent | announced | live | stalled | gone | unsupported
  deriving DecidableEq, Repr

/-- A frame that is arriving (R53, R388): its start, field and FRAME, the lines checked in this field, the payloads of the
line under way and whether one of its folios was lost, the payloads of the whole frame for its tag (R394), its lines as
samples (concealed lines in the place of failed ones), whether a line can no longer arrive, and the buffers it is
written to: the stream's and those of windows. -/
structure Arrival where
  start : Time := 0
  second : Bool := false
  number : Nat := 0
  line : Nat := 0
  payloads : List Nat := []
  lost : Bool := false
  sent : List Nat := []
  lines : List (List Nat) := []
  coded : List (List Nat) := []
  broken : Bool := false
  /-- the lines of the frame that were concealed (R48) -/
  bad : List Nat := []
  /-- lines of the frame that were lost on the way to the store (R46, R127) -/
  dropped : List Nat := []
  buf : Option Nat := none
  wins : List (Nat × Nat) := []
  deriving DecidableEq, Repr

/-- A frame whose TAG is awaited (R78): FRAME, payloads, its buffers. -/
structure Untagged where
  number : Nat
  sent : List Nat
  bufs : List Nat
  deriving DecidableEq, Repr

/-- An input stream ID (R49 to R54). `desc` is the descriptor without STATE and SLOTS. -/
structure InStream where
  mode : StrMode := .absent
  desc : Nat := 0
  identity : Nat := 0
  number : Nat := 0
  flow : Nat := 0
  blockWords : Nat := 0
  leftAt : Time := 0
  frame : Option Arrival := none
  /-- the field that comes next is the second of its frame -/
  secondNext : Bool := false
  untagged : Option Untagged := none
  /-- samples of the newest frame that completed, for concealment (R46) -/
  last : List (List Nat) := []
  lastBad : List Nat := []
  lastStart : Time := 0
  prevStart : Time := 0
  /-- DT of the first active line of the second field of the newest frame, 0 until it comes (R148) -/
  lastSecond : Time := 0
  period : Nat := 0
  frames : Nat := 0
  lineFail : Nat := 0
  tagFail : Nat := 0
  /-- STV_TAG_STATE, or 3: valid under a session whose slot is not C0_PERMITTED (R518) -/
  tagState : Nat := 0
  /-- its session failed to re-authenticate, and no valid tag has come since (R77) -/
  lapsed : Bool := false
  /-- a frame came without a TAG while AUTH was 0 (R77) -/
  bare : Bool := false
  signature : Nat := 0
  /-- signatures of the tiles of the newest frame, by tile (R310) -/
  sigs : List (Nat × Nat) := []
  /-- link-role engine that decodes the stream (R221) -/
  engine : Option Nat := none
  /-- expected SEQ of the next audio sample period (R393) -/
  audioSeq : Option Nat := none
  deriving DecidableEq, Repr

/-- The route states of R69, in the order of their codes. -/
inductive RtMode where
  | empty | pending | active | unverified | hold | fallback | colour | stopped
  deriving DecidableEq, Repr

/-- A frame shown: its buffer, its start, and for a blend the second buffer, its start and the weight of R162. -/
structure Shown where
  buf : Nat
  start : Time
  mix : Option (Nat × Nat × Nat) := none
  chase : Bool := false
  /-- the alpha plane read with it (R255) -/
  alpha : Option Nat := none
  deriving DecidableEq, Repr

/-- The image of a route that is EMPTY: GUTTER 8 and COMP 0x1F, the rest 0 (R65). -/
abbrev emptyImage : Nat := 2 ^ 235 + 31 * 2 ^ 227

/-- A route (R65, R69). `image` holds the fields of the record but GENERATION, STATE and REASON. -/
structure Route where
  image : Nat := emptyImage
  gen : Nat := 0
  mode : RtMode := .empty
  reason : Nat := 0
  since : Time := 0
  flip : Time := 0
  age : Nat := 0
  slips : Nat := 0
  stale : Nat := 0
  holdEnd : Option Time := none
  /-- an orphaned route's source is usable since then, and has been for RT_RESTORE_DELAY -/
  usableSince : Option Time := none
  returnDue : Bool := false
  shown : Option Shown := none
  /-- the first frame that a take chose (R86) -/
  first : Option Nat := none
  /-- the tile record in force for the route, and whether a committed change waits (R62) -/
  tile : Nat := 0
  tileDue : Bool := false
  /-- converter units held (R168) -/
  units : List Nat := []
  /-- a chase read of this output frame has slipped (R166) -/
  slipped : Bool := false
  /-- no field has been deinterlaced since the route's last take; the first one, by buffer and start, is built intra-field
  (R150) -/
  fresh : Bool := false
  intra : Option (Nat × Time) := none
  /-- lines of the source, arriving or stored, that were dropped on the way to this destination (R127): the frame's start, the
  line, and the line that conceals it -/
  hurt : List (Time × Nat × List Nat) := []
  deriving DecidableEq, Repr

/-- One take of a group: route, OP (3 is the change of a tile, R62), image; why the source was not usable at the effective DT
(0: it was), whether the fallback was, and the frame chosen then (R86); whether it has applied and flipped. -/
structure Take where
  route : Nat
  op : Nat
  image : Nat
  reason : Nat := 0
  fallback : Bool := false
  /-- the image that gives its destination, for a CLEAR the one it clears; 0 until that is known -/
  dest : Nat := 0
  first : Option Nat := none
  applied : Option Time := none
  /-- its route is of class C0 -/
  c0 : Bool := false
  /-- the boundary at which it applied -/
  bnd : Option Bnd := none
  flipped : Bool := false
  /-- the input stream whose audio the route gave before it applied, heard until the flip (R325) -/
  heard : Option Nat := none
  overdue : Bool := false
  deriving DecidableEq, Repr

/-- A take group that is accepted and not complete (R83 to R88), or one of the U3264's own (`restore`): the restore group of
R94, a safe record that binds (`safe`, R92), the change of tiles (R62). -/
structure Group where
  id : Nat
  moved : Bool
  eff : Time
  takes : List Take
  latched : Bool := false
  restore : Bool := false
  safe : Bool := false
  lastFlip : Time := 0
  deriving DecidableEq, Repr

/-- What the U3264 sends of an output stream that a route feeds, or that an engine drives: the next line, FRAME, and the
payloads sent of the frame, for its tag (R394). -/
structure OutSend where
  next : Nat := 0
  /-- the first active line of the output frame, and the lines that were not complete at their deadlines (R166, R173) -/
  start : Option Time := none
  late : List Nat := []
  frame : Nat := 0
  payloads : List Nat := []
  /-- folios of 130 bits that wait for slots of the flow (R381, R390) -/
  queue : List Nat := []
  /-- RASTER_START folios sent on the flow (R397) -/
  starts : Nat := 0
  deriving DecidableEq, Repr

/-- Streams, routes and takes. -/
structure StrState where
  ins : Tbl InStream := []
  routes : Tbl Route := []
  groups : List Group := []
  /-- output descriptors that wait for their boundary (R62), and those held at S10 (R94) -/
  outWait : Tbl (Option Nat) := []
  outHeld : Tbl (Option Nat) := []
  /-- last refusal code of STR_COMMIT -/
  commitCode : Nat := 0
  /-- safe records installed and not bound yet: index and record (R91, R92) -/
  safeWait : Tbl (Option Nat) := []
  /-- output streams whose flow a rate change left without enough slots (R420) -/
  unfit : List Nat := []
  sends : Tbl OutSend := []
  deriving DecidableEq, Repr

/-! Fabric (03_fabric.md). -/

/-- A shared port (R114, R127, R130): counts, recent CRC failures, whether it is isolated or degraded, the flits that its egress
passed in the ms that ended last and in the present one, which began at `loadSince` (log entry 54). -/
structure Port where
  flits : Nat := 0
  crc : Nat := 0
  discard : Nat := 0
  recent : List Time := []
  isolated : Bool := false
  degraded : Bool := false
  load : Nat := 0
  loadNow : Nat := 0
  loadSince : Time := 0
  deriving DecidableEq, Repr

/-- A phase record's RO fields (R105), the source phased to at the last calendar switch, if ENABLE applied, and whether that
switch still owes its shift (R108). -/
structure Phase where
  state : Nat := 0
  lead : Nat := 0
  source : Option Nat := none
  due : Bool := false
  deriving DecidableEq, Repr

/-- A flit in a queue (R118), with its class, its header and its payload as they will arrive. -/
structure Queued where
  cls : Nat
  header : Nat
  payload : Nat
  use : FlitUse
  deriving DecidableEq, Repr

/-- The arbitration of a shared egress (R119): credits left of C1 to C3 in this round, the ingress port served last for each, and
the DT since which flits wait and none was accepted. -/
structure Round where
  credits : List Nat := [0, 0, 0]
  last : List Nat := [127, 127, 127]
  idle : Option Time := none
  deriving DecidableEq, Repr

/-- The fabric. -/
structure FabState where
  ports : Tbl Port := []
  /-- per egress × 128 + ingress the flits that wait, in order (R118), and the arbitration of each egress -/
  queues : Tbl (List Queued) := []
  rounds : Tbl Round := []
  /-- lines begun and not ended at a port: egress, ingress, FLOW (R129) -/
  begun : List (Nat × Nat × Nat) := []
  /-- per Spine egress the transfers that ingress ports hold, and the ingress served last (R99, R104) -/
  held : Tbl (List Transfer) := []
  spineLast : Tbl Nat := []
  /-- per route the slot, counted over turns, that its last folio took while folios of its line run late (R112) -/
  lag : Tbl (Option Nat) := []
  /-- Spine ports isolated by a hang, ingress 0 to 88 and egress 128 to 231 in the order of R101, and their CRC windows -/
  spineIsolated : List Nat := []
  spineRecent : Tbl (List Time) := []
  spineDegraded : List Nat := []
  phase : Tbl Phase := []
  /-- consecutive updates with a negative FAB_SLACK (R125) -/
  negative : Nat := 0
  /-- sum of the latencies of the probe of R113, for their mean -/
  probeSum : Nat := 0
  deriving DecidableEq, Repr

/-! Functions under the quiesce contract (17 R595), converters (04) and compression engines (06). -/

/-- The states of a function that can be disabled. -/
inductive QsMode where
  | active | draining | idle | isolated
  deriving DecidableEq, Repr

/-- A converter unit (R168 to R177). `wait` is an apply that waits for a boundary: setup and tables (R170). -/
structure ConvUnit where
  mode : QsMode := .active
  holder : Option Nat := none
  wait : Option (Nat × Nat) := none
  drainEnd : Time := 0
  /-- an enable came while Draining (R595) -/
  reEnable : Bool := false
  /-- a subsystem reset ends the drain (R562) -/
  resetDue : Bool := false
  linesLate : Nat := 0
  frames : Nat := 0
  deriving DecidableEq, Repr

/-- A cluster of four units: cycle time in ps, its slack at the last update, consecutive updates with negative slack (R156,
R157). -/
structure ConvCluster where
  speed : Nat := 0
  slack : Int := 0
  negative : Nat := 0
  deriving DecidableEq, Repr

structure ConvState where
  units : Tbl ConvUnit := []
  clusters : Tbl ConvCluster := []
  deriving DecidableEq, Repr

/-- A compression engine (R239 to R244). A user codes with `old` until its next boundary while it is in `due`. Users are
coded 0 × 1,024 + pool, 1 × 1,024 + input stream, 2 × 1,024 + output stream. -/
structure CmpEngine where
  mode : QsMode := .active
  due : List (Nat × Nat) := []
  drainEnd : Time := 0
  reEnable : Bool := false
  resetDue : Bool := false
  raw : Nat := 0
  invalid : Nat := 0
  requant : Nat := 0
  deriving DecidableEq, Repr

/-! Outputs: composition (07), raster, commits and freeze watch (08). -/

/-- The engine states of R277, in the order of the codes of R282. -/
inductive CompMode where
  | off | active | draining | idle | isolated | unpowered | reserve | member
  deriving DecidableEq, Repr

/-- The raster states of R297, in the order of the codes of R314. -/
inductive RasterMode where
  | off | starting | locked | slewing | holdover | mismatch | toCommand | command | toLocked | unpowered
  deriving DecidableEq, Repr

/-- The layer states of R263, in the order of their codes. -/
inductive LayerMode where
  | notFed | shown | covered | offUnderrun | offDamaged
  deriving DecidableEq, Repr

/-- A layer in the present frame: its state, the lines covered, concealed lines, underruns since clear. -/
structure Layer where
  mode : LayerMode := .notFed
  covered : Nat := 0
  concealed : Nat := 0
  underruns : Nat := 0
  /-- the first line from which the layer is off in this frame -/
  offFrom : Option Nat := none
  /-- the line of the frame at which coverage was computed without it (R259) -/
  uncovers : Option Nat := none
  deriving DecidableEq, Repr

/-- A snapshot of the shadows that OUT_COMMIT queued (R302). `skip`: boundaries still to pass before it applies. -/
structure OutQueued where
  setup : Nat
  layers : Nat
  spine : Nat
  raster : Nat
  watch : Nat
  c0 : Bool
  late : Bool
  state : Nat
  skip : Nat := 0
  deriving DecidableEq, Repr

/-- A freeze-watch region (R307 to R311). `acc` is the CRC register of the frame under composition; `prevIn` and
`prevFrame` are the signature and the start of the input frame that was shown before. -/
structure Region where
  sig : Nat := 0
  wstate : Nat := 0
  srcRun : Nat := 0
  devRun : Nat := 0
  acc : Nat := 0xFFFFFFFF
  prevIn : Option Nat := none
  prevFrame : Option Time := none
  concealed : Bool := false
  flipped : Bool := false
  deriving DecidableEq, Repr

/-- A push in flight (R294): number, full-frame or not, its regions as tiles (row, first column, columns). -/
structure Push where
  number : Nat
  full : Bool
  regions : List (Nat × Nat × Nat)
  deriving DecidableEq, Repr

/-- An output engine with its raster. -/
structure OutState where
  comp : CompMode := .off
  /-- the output stops when its drain ends (R277), an enable came meanwhile, a subsystem reset is due -/
  drainEnd : Time := 0
  reEnable : Bool := false
  resetDue : Bool := false
  /-- IDLE or DRAINING at reserve entry: IDLE on return (R595) -/
  idleAfter : Bool := false
  lead : Option Nat := none
  lastRefusal : Nat := 0
  underruns : Nat := 0
  frames : Nat := 0
  /-- mask of layers that underran in this frame (R261) -/
  underran : Nat := 0
  layers : Tbl Layer := []
  /-- the layers of the last frame, and the mask of those SHOWN at the last boundary (R282) -/
  lastLayers : Tbl Layer := []
  shownMask : Nat := 0
  /-- the engine's layer table of the last frame, kept for the present one after a descriptor fetch failed (R594) -/
  keptLayers : Option Nat := none
  /-- the engine's layer table of the newest frame -/
  usedLayers : Nat := 0
  /-- keeper copy of BACKGROUND (R249) -/
  background : Nat := 0
  /-- concealment store (R268): per Spine layer its lines as pixels -/
  conceal : Tbl (List (Nat × List Nat)) := []
  queued : Option OutQueued := none
  discipline : Bool := false
  commitLate : Bool := false
  lastResult : Nat := 0
  lateCount : Nat := 0
  lastCommitDt : Time := 0
  raster : RasterMode := .off
  /-- the raster stops at the end of the frame or push in progress -/
  modeDt : Time := 0
  lastSync : Option Time := none
  syncPeriod : Nat := 0
  /-- sync periods in a row outside the pull range (R290) -/
  outOfRange : Nat := 0
  phaseError : Int := 0
  irregular : Nat := 0
  /-- the next frame is cut (R291) -/
  cutNext : Bool := false
  offsetUsed : Nat := 0
  boundary : Option Time := none
  frameCount : Nat := 0
  /-- the line that is composed next -/
  nextLine : Nat := 0
  flipFrame : Nat := 0
  lastFlip : Time := 0
  lastFrame : Time := 0
  /-- a commit or take took effect at the last boundary: the next first active line is its flip (R306) -/
  flipDue : Bool := false
  /-- MODE_CHANGE_DONE is due at the next first line -/
  modeDue : Bool := false
  regions : Tbl Region := []
  push : Option Push := none
  pushes : Nat := 0
  lastFull : Option Time := none
  fullDue : Bool := false
  /-- the frame under composition is the one that the next push carries; it is sent as it is composed -/
  pushFrame : Bool := false
  pushLive : Bool := false
  /-- tile signatures of the frame under composition (CRC registers) and of the last pushed frame -/
  tileAcc : Tbl Nat := []
  tileSent : Tbl Nat := []
  rasterStarts : Nat := 0
  deriving DecidableEq, Repr

/-- An NVM asset (R269). -/
structure Asset where
  width : Nat
  height : Nat
  format : Nat
  payload : List Nat
  crc : Nat
  deriving DecidableEq, Repr

/-- Outputs and assets. `caches` holds per engine the assets loaded for it (R270); `missing`: assets whose CRC failed twice. -/
structure CompState where
  outs : Tbl OutState := []
  caches : Tbl (List (Nat × Asset)) := []
  missing : List Nat := []
  deriving DecidableEq, Repr

/-! Frame store (05_frame_store.md). -/

/-- The states of FS_STATE, in the order of its codes. -/
inductive FsMode where
  | off | training | inService | unpowered | wiping
  deriving DecidableEq, Repr

/-- The buffer states of R189, in the order of the codes of R216. -/
inductive BufMode where
  | free | allocated | writing | complete | releasing | lost
  deriving DecidableEq, Repr

/-- Who holds a token on a buffer (R190): a destination's layer or stream, a converter unit, a route in HOLD, a take that chose
the frame (R86), a rolling window that froze, or a requester's read. -/
inductive Reader where
  | dest (code : Nat)
  | conv (unit : Nat)
  | hold (route : Nat)
  | take (route : Nat)
  | window (w : Nat)
  | host (key : Nat)
  deriving DecidableEq, Repr

/-- One buffer. `born` counts how often it left FREE since the last wipe, which gives its generation (R188). -/
structure Buffer where
  mode : BufMode := .free
  born : Nat := 0
  tokens : List Reader := []
  /-- offsets of the 64-byte blocks marked DAMAGED (R199) -/
  damaged : List Nat := []
  stream : Nat := 0
  frame : Nat := 0
  start : Time := 0
  done : Time := 0
  /-- start of the second field of an interlaced frame -/
  second : Time := 0
  /-- lines written so far of a WRITING frame, and the DT at which each was (R165) -/
  lines : Nat := 0
  times : List Time := []
  /-- completion of the first field of an interlaced frame, 0 until it completes (R161) -/
  firstDone : Time := 0
  /-- the frame is the first since its stream started (R150) -/
  first : Bool := false
  /-- the tag of the frame (R77, R78, R518): 0 none needed, 1 awaited, 2 valid, 3 failed, 4 valid under a session whose
  slot is not C0_PERMITTED, 5 none came and AUTH is 0 -/
  verdict : Nat := 0
  /-- the buffer holds a rolling window's frame and not one of the stream's own (R186, R208) -/
  window : Bool := false
  /-- concealed lines of the frame, and its signatures: 1,024 the frame's, else a tile's (R48, R310) -/
  bad : List Nat := []
  sigs : List (Nat × Nat) := []
  deriving DecidableEq, Repr

/-- A host write that waits in the staging area (R192). -/
structure QWrite where
  key : Nat
  offset : Nat
  data : List Nat
  hold : Bool
  at_ : Time
  deriving DecidableEq, Repr

/-- The channel states of R215, in the order of their codes. -/
inductive ChanMode where
  | untrained | fast | slow | sweeping | evacuating | retraining | retired | unpowered
  deriving DecidableEq, Repr

/-- One DRAM channel. -/
structure Chan where
  mode : ChanMode := .untrained
  /-- trained at 6400 MT/s -/
  slow : Bool := false
  margin : Nat := 0
  retrains : Nat := 0
  retries : Nat := 0
  conceals : Nat := 0
  /-- DTs of the concealments of the last second (R200) -/
  recent : List Time := []
  /-- failed retrainings in a row (R204) -/
  fails : Nat := 0
  /-- evacuation leads to retirement (R205) rather than retraining (R203), and its limit -/
  retiring : Bool := false
  limit : Time := 0
  /-- evacuation is blocked; next try (R204) -/
  retryAt : Option Time := none
  /-- training for a restore of R205 -/
  restoring : Bool := false
  deriving DecidableEq, Repr

/-- The states of a window, in the order of the codes of R207. -/
inductive WinMode where
  | idle | recording | frozen | post
  deriving DecidableEq, Repr

/-- One rolling window: frames held oldest first, as (buffer key, frame start). -/
structure Window where
  mode : WinMode := .idle
  freezeDt : Time := 0
  postEnd : Time := 0
  frames : List (Nat × Time) := []
  dropped : Nat := 0
  released : Bool := true
  deriving DecidableEq, Repr

/-- The margin sweep of R202 and R364: FS_SWEEP_STATE, the part under way (0 to 39: after each DRAM channel four
lanes), and the single parts asked for by the host. -/
structure Sweep where
  state : Nat := 0
  part : Nat := 0
  since : Time := 0
  /-- a single part swept on command: kind 0x04 DRAM channel or 0x05 lane, × 256 + instance -/
  single : List Nat := []
  /-- the next part waits for the retraining of the channel just swept (R202) -/
  paused : Bool := false
  /-- the sweep of the start is due, and waits for the single part under way -/
  due : Bool := false
  deriving DecidableEq, Repr

/-- The frame store. Buffers are keyed by pool × 2^18 + index, memory by key × 2^32 + byte offset. -/
structure FsState where
  mode : FsMode := .off
  /-- per pool: per buffer the channel of each of its extents -/
  place : Tbl (List (List Nat)) := []
  bufs : Tbl Buffer := []
  mem : List Host.Cell := []
  writes : List QWrite := []
  wins : Tbl Window := []
  chans : Tbl Chan := []
  sweep : Sweep := {}
  /-- low 8 bits of the boot count at the last wipe (R188) -/
  genBase : Nat := 0
  /-- pools whose C0 demand the channels left in service cannot carry (R214) -/
  overPools : List Nat := []
  /-- C0 fetches since the clear of FS_C0_FETCH_MEAN, and the sum of their times in ns -/
  fetches : Nat := 0
  fetchSum : Nat := 0
  /-- bytes that went to or from the DRAM in the last 1 ms, and access times of C1 to C3 in the last 1 s, with their DTs (R215) -/
  traffic : List (Time × Nat) := []
  times : List (Time × Nat) := []
  /-- the FS_CH_CMD that runs: op × 256 + channel, 0 for none -/
  chCmd : Nat := 0
  deriving DecidableEq, Repr

/-! Reference sources and timing domains (12_reference_timing.md). -/

/-- The source states of R435, in the order of the codes of R456. -/
inductive RefMode where
  | disabled | absent | qualifying | qualified | marginal | rejected | outvoted
  deriving DecidableEq, Repr

/-- A reference source. `offsets` are the means of the last windows, newest first; `good` counts edges or messages in a
row toward activity; `within` is the DT since which every window was within limits; `runIn` counts such windows in
MARGINAL; `agree` is the DT since which it agrees with the majority; `disagree` counts windows in a row in which it
disagreed with a source of its rank, and `majority` names the sources that outvoted it (R436). `marginalAt` is the start of
its last MARGINAL period, until it qualifies anew (R443). -/
structure RefSource where
  mode : RefMode := .disabled
  offsets : List Int := []
  drift : Int := 0
  since : Time := 0
  period : Nat := 0
  lastEdge : Time := 0
  good : Nat := 0
  within : Option Time := none
  runIn : Nat := 0
  agree : Option Time := none
  disagree : Tbl Nat := []
  majority : List Nat := []
  marginalAt : Option Time := none
  losses : Nat := 0
  rejects : Nat := 0
  marginals : Nat := 0
  disagrees : Nat := 0
  outvotes : Nat := 0
  deriving DecidableEq, Repr

/-- The domain states of R440, in the order of the codes of R457. -/
inductive DomMode where
  | off | freeRun | acquiring | locked | holdover
  deriving DecidableEq, Repr

/-- A timing domain. `hist` holds the counted seconds as (DT of the end, mean in ppb), newest first; `near` counts windows
in a row within 0.05 ppm of the source. -/
structure Domain where
  mode : DomMode := .off
  selected : Option Nat := none
  freq : Int := 0
  phase : Int := 0
  buildOut : Int := 0
  buildSince : Time := 0
  holdFreq : Int := 0
  since : Time := 0
  frameDt : Time := 0
  switches : Nat := 0
  hist : List (Time × Int) := []
  near : Nat := 0
  /-- code of the loop bandwidth in use while a source is selected (R438) -/
  bandwidth : Option Nat := none
  deriving DecidableEq, Repr

/-- The reference subsystem. `slew` is the domain that DT leaves and the DT of the write (R446); `everSync` says that
network time was synchronised since source 11 was enabled. -/
structure ClkState where
  srcs : Tbl RefSource := []
  doms : Tbl Domain := []
  slew : Option (Nat × Time) := none
  everSync : Bool := false
  /-- DT of the last correlation, gPTP seconds and nanoseconds (R449) -/
  map : Nat × Nat × Nat := (0, 0, 0)
  phyrefLost : Bool := false
  deriving DecidableEq, Repr

/-! Keys (15_keys_security.md). -/

/-- What a key slot holds (R515, R516): the key unwrapped, the attribute word, the LABEL of a derived slot. -/
structure KeySlot where
  key : List Nat := []
  attr : Nat := 0
  label : Nat := 0
  deriving DecidableEq, Repr

/-- A slot as the store holds it (R520): two shares of the key, k ⊕ m and m, with the attribute word and the LABEL. A slot with
U1216_FORMAT holds k ⊕ m beside its mask word m (R521). -/
structure KeyCells where
  share : List Nat := []
  mask : List Nat := []
  attr : Nat := 0
  label : Nat := 0
  deriving DecidableEq, Repr

/-- The key partition of the NVM: device root, number of the enrolled helper data, destroy flag, slots, counter, and
whether a shadow without its commit word was found. -/
structure KeyStore where
  root : Option (List Nat) := none
  helper : Option Nat := none
  enrolments : Nat := 0
  destroyed : Bool := false
  started : Bool := false
  slots : Tbl KeyCells := []
  counter : Nat := 0
  /-- masks and cell permutations drawn so far (R520) -/
  draws : Nat := 0
  torn : Bool := false
  deriving DecidableEq, Repr

/-- The key store since the start: the regenerated PUF root and the key of slot 29, the start key register and what it
holds, uses per slot, an update in progress, the DT from which a slot's mask is due. -/
structure SecState where
  puf : Option (List Nat) := none
  signing : KeyCells := {}
  startKey : List Nat := []
  uses : Tbl Nat := []
  masked : Tbl Nat := []
  /-- the draw that keys the permutation of the cell addresses since the start (R520) -/
  cells : Nat := 0
  deriving DecidableEq, Repr

/-! Supplies, start and life-cycle (16_power_start_lifecycle.md). -/

/-- A step record of the start ledger (R570), without its STEP. -/
structure StepRec where
  attempts : Nat := 0
  result : Nat := 0
  alt : Nat := 0
  detail : Nat := 0
  duration : Nat := 0
  endDt : Time := 0
  deriving DecidableEq, Repr

/-- A start and its ledger (R564 to R570). `next` is the step in progress, 12 when SERVICE_READY. -/
structure StartState where
  next : Nat := 0
  stopped : Bool := false
  kind : Nat := 0
  cause : Nat := 1
  lifeCycle : Nat := 0
  failed : Nat := 0
  lastStep : Nat := 0
  outcome : Nat := 0
  t0 : Time := 0
  began : Time := 0
  ready : Time := 0
  steps : Tbl StepRec := []
  /-- S5 has failed (R93) -/
  keeperFailed : Bool := false
  /-- the safe route set may flip until the end of S6 -/
  straps : Nat := 0
  /-- a recovery start: 1 begun, 2 waiting in S5 until the DT (R575) -/
  recovery : Nat := 0
  recoveryEnd : Time := 0
  /-- held in RESET_N -/
  held : Bool := false
  /-- the step in progress has begun its work -/
  working : Bool := false
  /-- the S10 alternative is due by START_LOOP_LIMIT (R568) -/
  loop : Bool := false
  /-- RT_TABLE as S10 found it in the image, for S11 (R94) -/
  savedRoutes : Nat := 0
  /-- saved routes that S11 restores, and how many it refused -/
  restored : List Nat := []
  refused : Nat := 0
  deriving DecidableEq, Repr

/-- The slack governor (R556, R557): steps toward a lower VCORE, misses and mismatches in a row, waiting limit, and
whether a sweep of this start is still to be waited for. -/
structure GovState where
  run : Nat := 0
  misses : Nat := 0
  mismatches : Nat := 0
  waitEnd : Time := 0
  bySweep : Bool := false
  deriving DecidableEq, Repr

/-- The part of the state that entries of bulk functions show, as it stood at reserve entry (R24). -/
structure Frozen where
  regs : Tbl Nat
  inForce : Tbl Nat
  dt : Time
  phy : Tbl PhyLane
  lnk : Tbl LinkLane
  str : StrState
  fab : FabState
  conv : ConvState
  cmp : Tbl CmpEngine
  comp : CompState
  fs : FsState
  aud : AudState
  gov : GovState
  /-- which values the measured entries last had -/
  last : Nat
  deriving DecidableEq, Repr

/-- Supplies (R545 to R554). `bulk`: the bulk domains run, from the qualification of the main supply. -/
structure PwrState where
  bulk : Bool := false
  qualified : Bool := false
  mainSince : Option Time := none
  aSince : Option Time := none
  bSince : Option Time := none
  thermal : Bool := false
  holdup : Bool := false
  /-- a subsystem reset under way, kind × 256 + instance -/
  subsystem : Option Nat := none
  /-- the retest at its end passes, and the limit of its drain -/
  subPass : Bool := false
  subEnd : Time := 0
  /-- the DRAM channels are held in reset until the next power-on (R616) -/
  vddqHold : Bool := false
  warmPending : Option Time := none
  warmCause : Nat := 4
  reserveSince : Option Time := none
  lcChanged : Option Nat := none
  /-- MAIN_RESTORED is due at SERVICE_READY -/
  restoring : Bool := false
  /-- what the bulk functions held at reserve entry (R24) -/
  frozen : Option Frozen := none
  gov : GovState := {}
  /-- a warm reset is under way: bulk functions are not Active again before SERVICE_READY (R559) -/
  warm : Bool := false
  /-- PWR_HOLDUP_LOWEST holds a measure -/
  holdupSeen : Bool := false
  deriving DecidableEq, Repr

/-! The whole machine. -/

/-- Why the machine stops with a fault: no command of the spec stops it, so there is no constructor. -/
inductive Fault where
  deriving DecidableEq, Repr

/-- Why a command is refused by the model. -/
inductive Refusal where
  /-- raised by the dispatcher for a command that has no meaning yet; safe: nothing is claimed of it -/
  | notModelled (mnemonic : String)
  deriving DecidableEq, Repr

/-- What survives the loss of every supply: the casebook, sounds, assets, firmware banks, boot count and life-cycle state,
the dictionary image with its mark (R467, R468, R628), the safe image (R629), ledgers and the counts since
manufacture. -/
structure Nvm where
  cb : CbStore := {}
  sounds : Tbl (Option Sound) := []
  assets : Tbl (Option Asset) := []
  banks : Tbl FwBank := []
  boot : Nat := 0
  lc : Nat := 0
  lcSince : Time := 0
  lcHistory : List Nat := []
  lcChanges : Nat := 0
  retireDt : Time := 0
  image : Option (List Nat) := none
  imageMarked : Bool := false
  safe : List Nat := []
  ledgers : List (List Nat) := []
  failedStarts : Nat := 0
  /-- boot count and ledger of the newest start, as written at the end of its last step (R569), and whether hold-up ended
  it (R568) -/
  last : Option (Nat × StartState) := none
  heldUp : Bool := false
  resetCounts : List Nat := []
  wipes : Nat := 0
  wipeLast : Nat := 0
  holdups : Nat := 0
  startBank : Nat := 0
  keys : KeyStore := {}
  deriving DecidableEq, Repr

/-- The U3264. -/
structure State where
  /-- device time, ns (R19) -/
  dt : Time := 0
  /-- what the last command sent; the model's own field -/
  out : List Output := []
  /-- how many free values have been drawn; the model's own field -/
  free : Nat := 0
  regs : Tbl Nat := []
  inForce : Tbl Nat := []
  evt : EvtState := {}
  cb : CbState := {}
  sup : SupState := {}
  dap : DapState := {}
  aud : AudState := {}
  phy : Tbl PhyLane := []
  lnk : Tbl LinkLane := []
  eps : EpState := {}
  str : StrState := {}
  fab : FabState := {}
  conv : ConvState := {}
  cmp : Tbl CmpEngine := []
  comp : CompState := {}
  fs : FsState := {}
  clk : ClkState := {}
  sec : SecState := {}
  start : StartState := {}
  pwr : PwrState := {}
  nvm : Nvm := {}
  /-- commands that wait, the oldest first -/
  pending : List Instr := []
  deriving DecidableEq, Repr

/-- The machine right after reset: power-on of a part as shipped, before S0 (log entry 9). -/
def State.reset : State := {}

end Sys2Proof.Machine
end

