-- ==== Sys2Proof/Machine/Entries.lean ====
section
/-! DEFINITION. The object dictionary: every entry's place, size, access right, persistence mark, range and default
(R463, R464, R489, R490, R493, R496, R507 and the entry tables of the other chapters). -/

namespace Sys2Proof.Machine

/-- The access rights of R464. -/
inductive Right where
  | ro | rw | wo | rwc | rws | const
  deriving DecidableEq, Repr

/-- Entries of one shape: `count` indices from `index`, `subs` sub-indices from `sub`; bytes of the value (the largest
number for a value of varying length), right, mark P, and the range of a plain number. -/
structure Entry where
  index : Nat
  count : Nat
  sub : Nat
  subs : Nat
  size : Nat
  varying : Bool
  right : Right
  save : Bool
  lo : Nat
  hi : Nat
  deriving DecidableEq, Repr

/-- A coefficient of SHARP (0) or SMOOTH (1) between sizes: n taps, tap c reading the whole position. The residue of the phase's sum of
0x1000 is on the centre tap (R139). -/
def shapeTap (shape : Nat) (vertical : Bool) (n c sIn sOut phase tap : Nat) : Int :=
  let a := min sIn sOut
  let g := Nat.gcd a sIn
  let raw (i : Nat) : Int := toInt 16 (Config.filterTap shape vertical (a / g) (sIn / g) phase i)
  if tap = c then 0x1000 - sumInt (((List.range n).filter fun i => i != c).map raw) else raw tap

/-- The factory content of CONV_TABLES (R175): the coefficients of the SHARP shape for the identity ratio, then the identity matrix and
identity LUTs. -/
def convTablesFactory : Nat :=
  packRecords 16 (sharp false 8 3 ++ sharp true 6 2) + 2 ^ 14336 * convIdentity
where
  sharp (vertical : Bool) (n c : Nat) : List Nat :=
    (List.range 64).flatMap fun p => (List.range n).map fun i => ofInt 16 (shapeTap 0 vertical n c 1 1 p i)
  /-- The matrix with 13 fraction bits (R144), then two LUTs of three components, each the identity (R143). DEDUCED: entry i
  is 65,535 × i / 1,023, rounded to nearest (log entry 10). -/
  convIdentity : Nat :=
    packRecords 16 [0x2000, 0, 0, 0, 0, 0x2000, 0, 0, 0, 0, 0x2000, 0] +
    2 ^ 192 * packRecords 16 (lut ++ lut ++ lut ++ lut ++ lut ++ lut)
  lut : List Nat := (List.range 1024).map fun i => (2 * i * 65535 + 1023) / 2046

/-- PWR_THRESHOLDS: good, fail and high in mV of the rails in the order of R545; 0 where R545 gives none. -/
def railThresholds : Nat :=
  packRecords 16 (railTable.flatMap fun r => [r.1, r.2.1, r.2.2])
where
  railTable : List (Nat × Nat × Nat) := [(760, 740, 880), (760, 740, 880), (855, 835, 990), (855, 835, 990), (1710, 1660, 1980), (1710, 1660, 1980), (680, 670, 880), (855, 835, 990), (475, 465, 550), (1000, 980, 1155), (5000, 4500, 16500)]

/-- FAB_PORT_MAP: group, instance and width of the 128 shared ports (R114, R130). -/
def fabPortMap : Nat :=
  packRecords 16 ((List.range 128).map port)
where
  port (p : Nat) : Nat :=
    if p < 32 then pack [(4, 0), (8, p), (4, 1)]
    else if p < 80 then pack [(4, 1), (8, p - 32), (4, 1)]
    else if p < 96 then pack [(4, 2), (8, p - 80), (4, 1)]
    else if p < 104 then pack [(4, 3), (8, p - 96), (4, 4)]
    else if p < 120 then pack [(4, 4), (8, p - 104), (4, 4)]
    else if p < 124 then pack [(4, 5), (8, p - 120), (4, 1)]
    else pack [(4, 6), (8, p - 124), (4, 1)]

/-- Entries of the range 0x1000. -/
def entries1000 : List Entry :=
  [⟨0x1000, 1, 0x01, 1, 2, false, .const, false, 0, 65535⟩,
   ⟨0x1000, 1, 0x02, 1, 2, false, .const, false, 0, 65535⟩,
   ⟨0x1000, 1, 0x03, 1, 1, false, .const, false, 0, 255⟩,
   ⟨0x1000, 1, 0x04, 1, 8, false, .const, false, 0, 18446744073709551615⟩,
   ⟨0x1000, 1, 0x05, 1, 64, true, .const, false, 0, 0⟩,
   ⟨0x1000, 1, 0x06, 1, 8, false, .const, false, 0, 18446744073709551615⟩,
   ⟨0x1000, 1, 0x07, 1, 1, false, .ro, false, 0, 255⟩,
   ⟨0x1000, 1, 0x08, 1, 2, false, .ro, false, 0, 65535⟩,
   ⟨0x1000, 1, 0x09, 1, 1, false, .const, false, 0, 255⟩,
   ⟨0x1000, 1, 0x0A, 1, 1, false, .const, false, 0, 255⟩,
   ⟨0x1000, 1, 0x0B, 1, 2, false, .const, false, 0, 65535⟩,
   ⟨0x1000, 1, 0x0C, 1, 2, false, .const, false, 0, 65535⟩,
   ⟨0x1000, 1, 0x0D, 1, 2, false, .const, false, 0, 65535⟩,
   ⟨0x1000, 1, 0x0E, 1, 4, false, .ro, false, 0, 4294967295⟩,
   ⟨0x1000, 1, 0x0F, 1, 8, false, .ro, false, 0, 18446744073709551615⟩,
   ⟨0x1000, 1, 0x10, 1, 16, false, .ro, false, 0, 0⟩,
   ⟨0x1001, 1, 0x01, 1, 1, false, .ro, false, 0, 255⟩,
   ⟨0x1001, 1, 0x02, 2, 2, false, .ro, false, 0, 65535⟩,
   ⟨0x1001, 1, 0x04, 2, 4, false, .ro, false, 0, 4294967295⟩,
   ⟨0x1001, 1, 0x06, 2, 64, true, .ro, false, 0, 0⟩,
   ⟨0x1001, 1, 0x08, 2, 4, false, .ro, false, 0, 4294967295⟩,
   ⟨0x1001, 1, 0x0A, 2, 1, false, .ro, false, 0, 255⟩,
   ⟨0x1001, 1, 0x0C, 1, 1, false, .ro, false, 0, 255⟩,
   ⟨0x1001, 1, 0x0D, 1, 2, false, .const, false, 0, 65535⟩] ++
  [⟨0x1001, 1, 0x0E, 1, 2, false, .ro, false, 0, 65535⟩,
   ⟨0x1001, 1, 0x0F, 1, 8, false, .ro, false, 0, 18446744073709551615⟩,
   ⟨0x1001, 1, 0x10, 1, 4, false, .ro, false, 0, 4294967295⟩,
   ⟨0x1002, 1, 0x01, 12, 2, false, .const, false, 0, 65535⟩,
   ⟨0x1002, 1, 0x0D, 1, 2, false, .const, false, 0, 65535⟩,
   ⟨0x1002, 1, 0x0E, 1, 2, false, .const, false, 0, 65535⟩,
   ⟨0x1002, 1, 0x0F, 1, 2, false, .const, false, 0, 65535⟩,
   ⟨0x1002, 1, 0x10, 1, 2, false, .const, false, 0, 65535⟩]

/-- Entries of the range 0x1100. -/
def entries1100 : List Entry :=
  [⟨0x1100, 1, 0x01, 1, 1, false, .ro, false, 0, 255⟩,
   ⟨0x1100, 1, 0x02, 1, 1, false, .ro, false, 0, 255⟩,
   ⟨0x1100, 1, 0x03, 1, 2, false, .ro, false, 0, 65535⟩,
   ⟨0x1100, 1, 0x04, 1, 22, false, .ro, false, 0, 0⟩,
   ⟨0x1100, 1, 0x05, 1, 2, false, .ro, false, 0, 65535⟩,
   ⟨0x1100, 1, 0x06, 1, 2, false, .ro, false, 0, 65535⟩,
   ⟨0x1100, 1, 0x07, 1, 4, false, .ro, false, 0, 4294967295⟩,
   ⟨0x1100, 1, 0x08, 1, 4, false, .ro, false, 0, 4294967295⟩,
   ⟨0x1100, 1, 0x09, 1, 4, false, .rw, true, 0, 1000000⟩,
   ⟨0x1100, 1, 0x0A, 1, 4, false, .ro, false, 0, 4294967295⟩,
   ⟨0x1100, 1, 0x0B, 1, 2, false, .rw, true, 100, 10000⟩,
   ⟨0x1100, 1, 0x0C, 1, 4, false, .ro, false, 0, 4294967295⟩,
   ⟨0x1100, 1, 0x0D, 1, 4, false, .ro, false, 0, 4294967295⟩,
   ⟨0x1100, 1, 0x0E, 1, 8, false, .ro, false, 0, 18446744073709551615⟩,
   ⟨0x1100, 1, 0x0F, 1, 4, false, .ro, false, 0, 4294967295⟩,
   ⟨0x1100, 1, 0x10, 1, 1, false, .wo, false, 0, 255⟩,
   ⟨0x1101, 1, 0x01, 1, 8, false, .rwc, true, 0, 0⟩,
   ⟨0x1101, 1, 0x02, 1, 1, false, .wo, false, 0, 255⟩,
   ⟨0x1101, 1, 0x03, 1, 1, false, .ro, false, 0, 255⟩,
   ⟨0x1101, 1, 0x04, 1, 2, false, .ro, false, 0, 65535⟩,
   ⟨0x1101, 1, 0x05, 1, 2, false, .ro, false, 0, 65535⟩,
   ⟨0x1101, 1, 0x06, 1, 2, false, .ro, false, 0, 65535⟩,
   ⟨0x1101, 1, 0x07, 1, 4, false, .ro, false, 0, 4294967295⟩,
   ⟨0x1101, 1, 0x08, 1, 4, false, .ro, false, 0, 4294967295⟩] ++
  [⟨0x1101, 1, 0x09, 1, 2, false, .ro, false, 0, 65535⟩,
   ⟨0x1101, 1, 0x0A, 1, 4, false, .ro, false, 0, 4294967295⟩,
   ⟨0x1101, 1, 0x0B, 1, 8, false, .ro, false, 0, 18446744073709551615⟩,
   ⟨0x1101, 1, 0x0C, 1, 1, false, .ro, false, 0, 255⟩,
   ⟨0x1101, 1, 0x0D, 1, 1, false, .ro, false, 0, 255⟩,
   ⟨0x1101, 1, 0x0E, 1, 4, false, .ro, false, 0, 4294967295⟩,
   ⟨0x1101, 1, 0x0F, 1, 2, false, .const, false, 0, 65535⟩,
   ⟨0x1101, 1, 0x10, 1, 66, false, .const, false, 0, 0⟩,
   ⟨0x1102, 1, 0x01, 1, 16, false, .ro, false, 0, 0⟩,
   ⟨0x1102, 1, 0x02, 1, 2, false, .ro, false, 0, 65535⟩,
   ⟨0x1102, 1, 0x03, 1, 2, false, .ro, false, 0, 65535⟩,
   ⟨0x1102, 1, 0x04, 1, 1, false, .ro, false, 0, 255⟩,
   ⟨0x1102, 1, 0x05, 1, 4, false, .ro, false, 0, 4294967295⟩,
   ⟨0x1102, 1, 0x06, 1, 4, false, .ro, false, 0, 4294967295⟩,
   ⟨0x1102, 1, 0x07, 1, 4, false, .ro, false, 0, 4294967295⟩,
   ⟨0x1102, 1, 0x08, 1, 16, false, .const, false, 0, 0⟩]

/-- Entries of the range 0x1200. -/
def entries1200 : List Entry :=
  [⟨0x1200, 1, 0x01, 1, 1, false, .ro, false, 0, 255⟩,
   ⟨0x1200, 1, 0x02, 1, 224, false, .ro, false, 0, 0⟩,
   ⟨0x1200, 1, 0x03, 1, 3584, false, .ro, false, 0, 0⟩,
   ⟨0x1200, 1, 0x04, 1, 1, false, .ro, false, 0, 255⟩,
   ⟨0x1200, 1, 0x05, 1, 1, false, .rw, true, 2, 10⟩,
   ⟨0x1200, 1, 0x06, 1, 4, false, .ro, false, 0, 4294967295⟩,
   ⟨0x1200, 1, 0x07, 1, 4, false, .ro, false, 0, 4294967295⟩,
   ⟨0x1200, 1, 0x08, 1, 1, false, .rws, false, 0, 255⟩,
   ⟨0x1200, 1, 0x09, 1, 2, false, .rws, false, 0, 65535⟩,
   ⟨0x1200, 1, 0x0A, 1, 1, false, .ro, false, 0, 255⟩,
   ⟨0x1200, 1, 0x0B, 1, 1, false, .ro, false, 0, 255⟩,
   ⟨0x1200, 1, 0x0C, 1, 2, false, .rw, true, 0, 30000⟩,
   ⟨0x1200, 1, 0x0D, 1, 1, false, .wo, false, 0, 255⟩,
   ⟨0x1200, 1, 0x0E, 1, 1, false, .ro, false, 0, 255⟩,
   ⟨0x1200, 1, 0x0F, 1, 24, false, .ro, false, 0, 0⟩,
   ⟨0x1200, 1, 0x10, 1, 1, false, .rws, false, 0, 255⟩,
   ⟨0x1201, 1, 0x01, 1, 1, false, .ro, false, 0, 255⟩,
   ⟨0x1201, 1, 0x02, 1, 64, false, .wo, false, 0, 0⟩,
   ⟨0x1201, 1, 0x03, 1, 1, false, .ro, false, 0, 255⟩,
   ⟨0x1201, 1, 0x04, 1, 8, false, .ro, false, 0, 18446744073709551615⟩,
   ⟨0x1201, 1, 0x05, 1, 128, false, .ro, false, 0, 0⟩,
   ⟨0x1201, 1, 0x06, 1, 4, false, .ro, false, 0, 4294967295⟩,
   ⟨0x1201, 1, 0x07, 1, 1, false, .ro, false, 0, 255⟩,
   ⟨0x1201, 1, 0x08, 1, 1, false, .ro, false, 0, 255⟩] ++
  [⟨0x1201, 1, 0x09, 1, 2, false, .rw, true, 60, 3600⟩,
   ⟨0x1201, 1, 0x0A, 1, 1, false, .ro, false, 0, 255⟩,
   ⟨0x1201, 1, 0x0B, 1, 16, false, .ro, false, 0, 0⟩,
   ⟨0x1201, 1, 0x0C, 1, 4, false, .ro, false, 0, 4294967295⟩,
   ⟨0x1201, 1, 0x0D, 1, 8, false, .ro, false, 0, 18446744073709551615⟩,
   ⟨0x1201, 1, 0x0E, 1, 32, false, .const, false, 0, 0⟩,
   ⟨0x1201, 1, 0x0F, 1, 2, false, .const, false, 0, 65535⟩,
   ⟨0x1201, 1, 0x10, 1, 1, false, .ro, false, 0, 255⟩]

/-- Entries of the range 0x1300. -/
def entries1300 : List Entry :=
  [⟨0x1300, 1, 0x01, 36, 4, false, .rw, false, 0, 4294967295⟩,
   ⟨0x1301, 1, 0x01, 36, 4, false, .rw, true, 0, 4294967295⟩,
   ⟨0x1302, 1, 0x01, 36, 8, false, .rws, true, 0, 18446744073709551615⟩,
   ⟨0x1303, 1, 0x01, 1, 8, false, .ro, false, 0, 18446744073709551615⟩,
   ⟨0x1303, 1, 0x02, 1, 8, false, .ro, false, 0, 18446744073709551615⟩,
   ⟨0x1303, 1, 0x03, 1, 2, false, .ro, false, 0, 65535⟩,
   ⟨0x1303, 1, 0x04, 1, 1, false, .ro, false, 0, 255⟩,
   ⟨0x1303, 1, 0x05, 1, 1, false, .wo, false, 0, 255⟩,
   ⟨0x1303, 1, 0x06, 1, 2, false, .wo, false, 0, 65535⟩,
   ⟨0x1303, 1, 0x07, 1, 16, false, .ro, false, 0, 0⟩,
   ⟨0x1303, 1, 0x08, 1, 4, false, .ro, false, 0, 4294967295⟩,
   ⟨0x1303, 1, 0x09, 1, 2, false, .wo, false, 0, 65535⟩,
   ⟨0x1303, 1, 0x0A, 1, 2, false, .rw, true, 10, 1000⟩,
   ⟨0x1303, 1, 0x0B, 1, 1, false, .rws, false, 0, 255⟩,
   ⟨0x1303, 1, 0x0C, 1, 2, false, .const, false, 0, 65535⟩]

/-- Entries of the range 0x1400. -/
def entries1400 : List Entry :=
  [⟨0x1400, 1, 0x01, 1, 1, false, .ro, false, 0, 255⟩,
   ⟨0x1400, 1, 0x02, 1, 4, false, .ro, false, 0, 4294967295⟩,
   ⟨0x1400, 1, 0x03, 1, 4, false, .ro, false, 0, 4294967295⟩,
   ⟨0x1400, 1, 0x04, 1, 4, false, .ro, false, 0, 4294967295⟩,
   ⟨0x1400, 1, 0x05, 1, 4, false, .ro, false, 0, 4294967295⟩,
   ⟨0x1400, 1, 0x06, 1, 12, false, .rw, false, 0, 0⟩,
   ⟨0x1400, 1, 0x07, 1, 262144, true, .ro, false, 0, 0⟩,
   ⟨0x1400, 1, 0x08, 1, 4, false, .ro, false, 0, 4294967295⟩,
   ⟨0x1400, 1, 0x09, 1, 1, false, .ro, false, 0, 255⟩,
   ⟨0x1400, 1, 0x0A, 1, 8, false, .ro, false, 0, 18446744073709551615⟩,
   ⟨0x1400, 1, 0x0B, 1, 1, false, .ro, false, 0, 255⟩,
   ⟨0x1400, 1, 0x0C, 1, 4, false, .ro, false, 0, 4294967295⟩,
   ⟨0x1400, 1, 0x0D, 1, 4, false, .ro, false, 0, 4294967295⟩,
   ⟨0x1400, 1, 0x0E, 1, 64, true, .rws, false, 0, 0⟩,
   ⟨0x1400, 1, 0x0F, 1, 2, false, .rw, true, 60, 65535⟩,
   ⟨0x1400, 1, 0x10, 1, 1, false, .wo, false, 0, 255⟩,
   ⟨0x1401, 1, 0x01, 1, 2, false, .rw, true, 0, 65535⟩,
   ⟨0x1401, 1, 0x02, 1, 8, false, .ro, false, 0, 18446744073709551615⟩,
   ⟨0x1401, 1, 0x03, 1, 4, false, .ro, false, 0, 4294967295⟩,
   ⟨0x1401, 1, 0x04, 1, 4, false, .ro, false, 0, 4294967295⟩,
   ⟨0x1401, 1, 0x05, 1, 4, false, .ro, false, 0, 4294967295⟩,
   ⟨0x1401, 1, 0x06, 1, 4, false, .const, false, 0, 4294967295⟩,
   ⟨0x1401, 1, 0x07, 1, 4, false, .const, false, 0, 4294967295⟩,
   ⟨0x1401, 1, 0x08, 1, 4, false, .ro, false, 0, 4294967295⟩]

/-- Entries of the range 0x1500. -/
def entries1500 : List Entry :=
  [⟨0x1500, 1, 0x01, 1, 48, false, .ro, false, 0, 0⟩,
   ⟨0x1500, 1, 0x02, 1, 24, false, .rw, true, 0, 0⟩,
   ⟨0x1500, 1, 0x03, 1, 24, false, .ro, false, 0, 0⟩,
   ⟨0x1500, 1, 0x04, 1, 4, false, .ro, false, 0, 4294967295⟩,
   ⟨0x1500, 1, 0x05, 1, 6, false, .const, false, 0, 0⟩,
   ⟨0x1500, 1, 0x06, 1, 2, false, .rw, false, 0, 65535⟩,
   ⟨0x1500, 1, 0x07, 1, 1, false, .ro, false, 0, 255⟩,
   ⟨0x1500, 1, 0x08, 1, 8, false, .ro, false, 0, 18446744073709551615⟩,
   ⟨0x1500, 1, 0x09, 1, 4, false, .ro, false, 0, 4294967295⟩,
   ⟨0x1500, 1, 0x0A, 1, 4, false, .ro, false, 0, 4294967295⟩,
   ⟨0x1500, 1, 0x0B, 1, 25165952, true, .rws, false, 0, 0⟩,
   ⟨0x1500, 1, 0x0C, 1, 1, false, .ro, false, 0, 255⟩,
   ⟨0x1500, 1, 0x0D, 1, 1, false, .rws, false, 0, 255⟩,
   ⟨0x1500, 1, 0x0E, 1, 1, false, .ro, false, 0, 255⟩,
   ⟨0x1500, 1, 0x0F, 1, 2, false, .rw, true, 30, 3600⟩,
   ⟨0x1500, 1, 0x10, 1, 1, false, .wo, false, 0, 255⟩,
   ⟨0x1501, 1, 0x01, 1, 134217728, true, .rws, false, 0, 0⟩,
   ⟨0x1501, 1, 0x02, 1, 2, false, .rws, false, 0, 65535⟩,
   ⟨0x1501, 1, 0x03, 1, 786420, true, .ro, false, 0, 0⟩,
   ⟨0x1501, 1, 0x04, 1, 4, false, .ro, false, 0, 4294967295⟩,
   ⟨0x1501, 1, 0x05, 1, 1, false, .ro, false, 0, 255⟩,
   ⟨0x1501, 1, 0x06, 1, 16, false, .rws, false, 0, 0⟩,
   ⟨0x1501, 1, 0x07, 1, 4096, true, .rws, false, 0, 0⟩,
   ⟨0x1501, 1, 0x08, 1, 1, false, .ro, false, 0, 255⟩] ++
  [⟨0x1501, 1, 0x09, 1, 2, false, .rw, true, 50, 5000⟩,
   ⟨0x1501, 1, 0x0A, 1, 1, false, .ro, false, 0, 255⟩,
   ⟨0x1501, 1, 0x0B, 1, 2, false, .ro, false, 0, 65535⟩,
   ⟨0x1501, 1, 0x0C, 1, 2, false, .ro, false, 0, 65535⟩]

/-- Entries of the range 0x1600. -/
def entries1600 : List Entry :=
  [⟨0x1600, 1, 0x01, 1, 1, false, .ro, false, 0, 255⟩,
   ⟨0x1600, 1, 0x02, 1, 8, false, .ro, false, 0, 18446744073709551615⟩,
   ⟨0x1600, 1, 0x03, 1, 104, false, .wo, false, 0, 0⟩,
   ⟨0x1600, 1, 0x04, 1, 1, false, .ro, false, 0, 255⟩,
   ⟨0x1600, 1, 0x05, 1, 16, false, .wo, false, 0, 0⟩,
   ⟨0x1600, 1, 0x06, 1, 16, false, .ro, false, 0, 0⟩,
   ⟨0x1600, 1, 0x07, 1, 2, false, .rw, true, 1, 60⟩,
   ⟨0x1600, 1, 0x08, 1, 2, false, .rw, true, 10, 1000⟩,
   ⟨0x1600, 1, 0x09, 1, 1, false, .ro, false, 0, 255⟩,
   ⟨0x1600, 1, 0x0A, 1, 1, false, .rws, true, 0, 255⟩,
   ⟨0x1600, 1, 0x0B, 1, 8, false, .ro, false, 0, 18446744073709551615⟩,
   ⟨0x1600, 1, 0x0C, 1, 2, false, .const, false, 0, 65535⟩,
   ⟨0x1600, 1, 0x0D, 1, 1, false, .ro, false, 0, 255⟩,
   ⟨0x1600, 1, 0x0E, 1, 1, false, .ro, false, 0, 255⟩,
   ⟨0x1600, 1, 0x0F, 1, 4, false, .ro, false, 0, 4294967295⟩,
   ⟨0x1600, 1, 0x10, 1, 1, false, .wo, false, 0, 255⟩,
   ⟨0x1601, 1, 0x01, 1, 64, false, .ro, false, 0, 0⟩,
   ⟨0x1601, 1, 0x02, 1, 1, false, .ro, false, 0, 255⟩,
   ⟨0x1601, 1, 0x03, 1, 24, false, .ro, false, 0, 0⟩,
   ⟨0x1601, 1, 0x04, 1, 1, false, .ro, false, 0, 255⟩,
   ⟨0x1610, 32, 0x01, 1, 4, false, .ro, false, 0, 4294967295⟩,
   ⟨0x1610, 32, 0x02, 1, 1, false, .ro, false, 0, 255⟩,
   ⟨0x1610, 32, 0x03, 1, 4, false, .ro, false, 0, 4294967295⟩,
   ⟨0x1610, 32, 0x04, 1, 4, false, .ro, false, 0, 4294967295⟩]

/-- Entries of the range 0x1700. -/
def entries1700 : List Entry :=
  [⟨0x1700, 1, 0x01, 1, 8, false, .rw, true, 0, 18446744073709551615⟩,
   ⟨0x1700, 1, 0x02, 1, 8, false, .rw, true, 0, 18446744073709551615⟩,
   ⟨0x1700, 1, 0x03, 1, 280, false, .ro, false, 0, 0⟩,
   ⟨0x1700, 1, 0x04, 1, 128, false, .ro, false, 0, 0⟩,
   ⟨0x1700, 1, 0x05, 1, 2, false, .rw, true, 5, 3600⟩,
   ⟨0x1700, 1, 0x06, 1, 1, false, .rw, false, 0, 255⟩,
   ⟨0x1700, 1, 0x07, 1, 2, false, .rw, true, 1, 600⟩,
   ⟨0x1700, 1, 0x08, 1, 1, false, .ro, false, 0, 255⟩,
   ⟨0x1700, 1, 0x09, 1, 8, false, .ro, false, 0, 18446744073709551615⟩,
   ⟨0x1700, 1, 0x0A, 1, 4, false, .ro, false, 0, 4294967295⟩,
   ⟨0x1700, 1, 0x0B, 1, 4, false, .ro, false, 0, 4294967295⟩,
   ⟨0x1700, 1, 0x0C, 1, 2, false, .rw, true, 100, 10000⟩,
   ⟨0x1700, 1, 0x0D, 1, 2, false, .rw, true, 5, 3600⟩,
   ⟨0x1700, 1, 0x0E, 1, 4, false, .ro, false, 0, 4294967295⟩,
   ⟨0x1700, 1, 0x0F, 1, 4, false, .ro, false, 0, 4294967295⟩,
   ⟨0x1700, 1, 0x10, 1, 1, false, .wo, false, 0, 255⟩,
   ⟨0x1701, 1, 0x01, 2, 8, false, .rwc, true, 0, 0⟩,
   ⟨0x1701, 1, 0x03, 2, 8, false, .ro, false, 0, 0⟩,
   ⟨0x1701, 1, 0x05, 1, 16, false, .rwc, true, 0, 0⟩,
   ⟨0x1701, 1, 0x06, 1, 8, false, .ro, false, 0, 0⟩,
   ⟨0x1701, 1, 0x07, 1, 24, false, .ro, false, 0, 0⟩,
   ⟨0x1701, 1, 0x08, 1, 1, false, .wo, false, 0, 255⟩,
   ⟨0x1701, 1, 0x09, 1, 1, false, .wo, false, 0, 255⟩,
   ⟨0x1701, 1, 0x0A, 1, 4, false, .ro, false, 0, 4294967295⟩] ++
  [⟨0x1701, 1, 0x0B, 1, 4, false, .ro, false, 0, 4294967295⟩,
   ⟨0x1701, 1, 0x0C, 1, 4, false, .ro, false, 0, 4294967295⟩,
   ⟨0x1701, 1, 0x0D, 1, 1, false, .const, false, 0, 255⟩,
   ⟨0x1701, 1, 0x0E, 1, 1, false, .const, false, 0, 255⟩,
   ⟨0x1701, 1, 0x0F, 1, 1, false, .const, false, 0, 255⟩,
   ⟨0x1701, 1, 0x10, 1, 2, false, .const, false, 0, 65535⟩]

/-- Entries of the range 0x2000. -/
def entries2000 : List Entry :=
  [⟨0x2000, 1, 0x01, 1, 8, false, .rwc, true, 0, 0⟩,
   ⟨0x2001, 1, 0x01, 1, 8, false, .rwc, true, 0, 0⟩,
   ⟨0x2002, 1, 0x01, 1, 8, false, .rwc, true, 0, 0⟩,
   ⟨0x2003, 1, 0x01, 1, 8, false, .rwc, true, 0, 0⟩,
   ⟨0x2004, 1, 0x01, 1, 8, false, .rwc, true, 0, 0⟩,
   ⟨0x2005, 1, 0x01, 1, 8, false, .rwc, true, 0, 0⟩,
   ⟨0x2006, 1, 0x01, 1, 8, false, .rwc, true, 0, 0⟩,
   ⟨0x2007, 1, 0x01, 1, 8, false, .rwc, true, 0, 0⟩,
   ⟨0x2008, 1, 0x01, 1, 8, false, .rwc, true, 0, 0⟩,
   ⟨0x2009, 1, 0x01, 1, 8, false, .rwc, true, 0, 0⟩,
   ⟨0x200A, 1, 0x01, 1, 8, false, .rwc, true, 0, 0⟩,
   ⟨0x200B, 1, 0x01, 1, 8, false, .rwc, true, 0, 0⟩,
   ⟨0x2000, 12, 0x02, 1, 16, false, .rwc, true, 0, 0⟩,
   ⟨0x2000, 12, 0x03, 1, 1, false, .ro, false, 0, 255⟩,
   ⟨0x2000, 12, 0x04, 1, 4, false, .ro, false, 0, 4294967295⟩,
   ⟨0x2000, 12, 0x05, 1, 4, false, .ro, false, 0, 4294967295⟩,
   ⟨0x2000, 12, 0x06, 1, 8, false, .ro, false, 0, 18446744073709551615⟩,
   ⟨0x2000, 12, 0x07, 1, 4, false, .ro, false, 0, 4294967295⟩,
   ⟨0x2000, 12, 0x08, 1, 8, false, .ro, false, 0, 18446744073709551615⟩,
   ⟨0x2000, 12, 0x09, 1, 2, false, .ro, false, 0, 65535⟩,
   ⟨0x2000, 12, 0x0A, 1, 16, false, .ro, false, 0, 0⟩,
   ⟨0x2000, 12, 0x0B, 1, 1, false, .wo, false, 0, 255⟩,
   ⟨0x2000, 1, 0x0C, 1, 4, false, .const, false, 0, 4294967295⟩,
   ⟨0x2001, 1, 0x0C, 1, 4, false, .const, false, 0, 4294967295⟩] ++
  [⟨0x2002, 1, 0x0C, 1, 4, false, .const, false, 0, 4294967295⟩,
   ⟨0x2003, 1, 0x0C, 1, 4, false, .const, false, 0, 4294967295⟩,
   ⟨0x2004, 1, 0x0C, 1, 4, false, .const, false, 0, 4294967295⟩,
   ⟨0x2005, 1, 0x0C, 1, 4, false, .const, false, 0, 4294967295⟩,
   ⟨0x2006, 1, 0x0C, 1, 4, false, .const, false, 0, 4294967295⟩,
   ⟨0x2007, 1, 0x0C, 1, 4, false, .const, false, 0, 4294967295⟩,
   ⟨0x2008, 1, 0x0C, 1, 4, false, .const, false, 0, 4294967295⟩,
   ⟨0x2009, 1, 0x0C, 1, 4, false, .const, false, 0, 4294967295⟩,
   ⟨0x200A, 1, 0x0C, 1, 4, false, .const, false, 0, 4294967295⟩,
   ⟨0x200B, 1, 0x0C, 1, 4, false, .const, false, 0, 4294967295⟩,
   ⟨0x20F0, 1, 0x01, 1, 8, false, .ro, false, 0, 18446744073709551615⟩,
   ⟨0x20F0, 1, 0x02, 1, 1, false, .rw, true, 0, 15⟩,
   ⟨0x20F0, 1, 0x03, 1, 1, false, .ro, false, 0, 255⟩,
   ⟨0x20F0, 1, 0x04, 1, 4, false, .ro, false, 0, 4294967295⟩,
   ⟨0x20F0, 1, 0x05, 1, 2, false, .rw, true, 1, 5000⟩,
   ⟨0x20F0, 1, 0x06, 1, 2, false, .rw, true, 1, 3600⟩,
   ⟨0x20F0, 1, 0x07, 1, 1, false, .const, false, 0, 255⟩,
   ⟨0x20F0, 1, 0x08, 1, 4, false, .rw, true, 0, 4294967295⟩,
   ⟨0x20F0, 1, 0x09, 1, 1, false, .ro, false, 0, 255⟩,
   ⟨0x20F0, 1, 0x0A, 1, 8, false, .ro, false, 0, 18446744073709551615⟩,
   ⟨0x20F0, 1, 0x0B, 1, 24, false, .ro, false, 0, 0⟩,
   ⟨0x20F0, 1, 0x0C, 1, 4, false, .ro, false, 0, 4294967295⟩,
   ⟨0x20F0, 1, 0x0D, 1, 12, false, .ro, false, 0, 0⟩,
   ⟨0x20F0, 1, 0x0E, 1, 4, false, .ro, false, 0, 4294967295⟩] ++
  [⟨0x20F0, 1, 0x0F, 1, 1, false, .wo, false, 0, 255⟩,
   ⟨0x20F0, 1, 0x10, 1, 2, false, .const, false, 0, 65535⟩]

/-- Entries of the range 0x2100. -/
def entries2100 : List Entry :=
  [⟨0x2100, 16, 0x01, 1, 16, false, .rwc, true, 0, 0⟩,
   ⟨0x2100, 16, 0x02, 1, 2, false, .rwc, true, 0, 65535⟩,
   ⟨0x2100, 16, 0x03, 1, 1, false, .ro, false, 0, 255⟩,
   ⟨0x2100, 16, 0x04, 1, 1, false, .ro, false, 0, 255⟩,
   ⟨0x2100, 16, 0x05, 1, 4, false, .ro, false, 0, 4294967295⟩,
   ⟨0x2100, 16, 0x06, 1, 4, false, .ro, false, 0, 4294967295⟩,
   ⟨0x2100, 16, 0x07, 1, 4, false, .ro, false, 0, 4294967295⟩,
   ⟨0x2100, 16, 0x08, 1, 4, false, .ro, false, 0, 4294967295⟩,
   ⟨0x2100, 16, 0x09, 1, 8, false, .ro, false, 0, 18446744073709551615⟩,
   ⟨0x2100, 16, 0x0A, 1, 8, false, .ro, false, 0, 18446744073709551615⟩,
   ⟨0x2100, 16, 0x0B, 1, 4, false, .ro, false, 0, 4294967295⟩,
   ⟨0x2100, 16, 0x0C, 1, 1, false, .wo, false, 0, 255⟩]

/-- Entries of the range 0x3000. -/
def entries3000 : List Entry :=
  [⟨0x3000, 32, 0x01, 1, 1, false, .ro, false, 0, 255⟩,
   ⟨0x3000, 32, 0x02, 1, 16, false, .rwc, true, 0, 0⟩,
   ⟨0x3000, 32, 0x03, 1, 32, false, .ro, false, 0, 0⟩,
   ⟨0x3000, 32, 0x04, 1, 8, false, .ro, false, 0, 0⟩,
   ⟨0x3000, 32, 0x05, 1, 8, false, .rw, false, 0, 0⟩,
   ⟨0x3000, 32, 0x06, 1, 24, false, .ro, false, 0, 0⟩,
   ⟨0x3000, 32, 0x07, 1, 32, false, .ro, false, 0, 0⟩,
   ⟨0x3000, 32, 0x08, 1, 2, false, .ro, false, 0, 65535⟩,
   ⟨0x3000, 32, 0x09, 1, 1, false, .wo, false, 0, 255⟩,
   ⟨0x3000, 24, 0x0A, 1, 4, false, .const, false, 0, 4294967295⟩,
   ⟨0x3018, 8, 0x0A, 1, 4, false, .const, false, 0, 4294967295⟩,
   ⟨0x3000, 32, 0x10, 1, 1, false, .ro, false, 0, 255⟩,
   ⟨0x3000, 32, 0x11, 1, 8, false, .rwc, true, 0, 0⟩,
   ⟨0x3000, 32, 0x12, 1, 30, false, .ro, false, 0, 0⟩,
   ⟨0x3000, 32, 0x13, 1, 1022, false, .rwc, true, 0, 0⟩,
   ⟨0x3000, 32, 0x14, 1, 1022, false, .ro, false, 0, 0⟩,
   ⟨0x3000, 32, 0x15, 1, 32, false, .ro, false, 0, 0⟩,
   ⟨0x3000, 32, 0x16, 1, 32, false, .ro, false, 0, 0⟩,
   ⟨0x3000, 32, 0x17, 1, 4, false, .rw, true, 0, 4294967295⟩,
   ⟨0x3000, 32, 0x18, 1, 1, false, .wo, false, 0, 255⟩,
   ⟨0x3000, 32, 0x19, 1, 1, false, .wo, false, 0, 255⟩]

/-- Entries of the range 0x3100. -/
def entries3100 : List Entry :=
  [⟨0x3100, 1, 0x01, 1, 16384, false, .ro, false, 0, 0⟩,
   ⟨0x3100, 1, 0x02, 1, 2, false, .ro, false, 0, 65535⟩,
   ⟨0x3100, 1, 0x03, 1, 4, false, .ro, false, 0, 4294967295⟩,
   ⟨0x3100, 1, 0x04, 1, 1, false, .rw, true, 1, 3⟩,
   ⟨0x3100, 1, 0x05, 1, 1, false, .rw, true, 0, 255⟩,
   ⟨0x3100, 1, 0x06, 1, 1, false, .rw, true, 1, 3⟩,
   ⟨0x3100, 1, 0x07, 1, 1, false, .rws, true, 0, 31⟩,
   ⟨0x3100, 1, 0x08, 1, 2, false, .rw, true, 2, 1000⟩,
   ⟨0x3100, 1, 0x09, 1, 2, false, .rw, true, 10, 10000⟩,
   ⟨0x3100, 1, 0x0A, 1, 2, false, .rw, true, 8, 4096⟩,
   ⟨0x3100, 1, 0x0B, 1, 4, false, .ro, false, 0, 4294967295⟩,
   ⟨0x3100, 1, 0x0C, 1, 1, false, .const, false, 0, 255⟩,
   ⟨0x3100, 1, 0x0D, 1, 2, false, .const, false, 0, 65535⟩,
   ⟨0x3100, 1, 0x0E, 1, 1, false, .wo, false, 0, 255⟩,
   ⟨0x3100, 1, 0x0F, 1, 2, false, .const, false, 0, 65535⟩,
   ⟨0x3100, 1, 0x10, 1, 4, false, .const, false, 0, 4294967295⟩,
   ⟨0x3101, 1, 0x01, 16, 4, false, .rwc, true, 0, 4294967295⟩,
   ⟨0x3102, 1, 0x01, 32, 1024, false, .ro, false, 0, 0⟩]

/-- Entries of the range 0x4000. -/
def entries4000 : List Entry :=
  [⟨0x4000, 1, 0x01, 1, 8192, false, .ro, false, 0, 0⟩,
   ⟨0x4000, 1, 0x02, 1, 2, false, .ro, false, 0, 65535⟩,
   ⟨0x4000, 1, 0x03, 1, 4096, false, .rwc, true, 0, 0⟩,
   ⟨0x4000, 1, 0x04, 1, 2, false, .ro, false, 0, 65535⟩,
   ⟨0x4000, 1, 0x05, 1, 12288, false, .rwc, true, 0, 0⟩,
   ⟨0x4000, 1, 0x06, 1, 4, false, .ro, false, 0, 4294967295⟩,
   ⟨0x4000, 1, 0x07, 1, 2, false, .rw, true, 10, 10000⟩,
   ⟨0x4000, 1, 0x08, 1, 2, false, .ro, false, 0, 65535⟩,
   ⟨0x4000, 1, 0x09, 1, 1, false, .rw, true, 0, 2⟩,
   ⟨0x4000, 1, 0x0A, 1, 1, false, .rw, true, 0, 2⟩,
   ⟨0x4000, 1, 0x0B, 1, 1, false, .rw, true, 0, 2⟩,
   ⟨0x4000, 1, 0x0C, 1, 1, false, .rw, true, 0, 2⟩,
   ⟨0x4000, 1, 0x0D, 1, 1, false, .wo, false, 0, 255⟩,
   ⟨0x4000, 1, 0x0E, 1, 1, false, .ro, false, 0, 255⟩,
   ⟨0x4000, 1, 0x0F, 1, 2, false, .rw, false, 0, 511⟩,
   ⟨0x4000, 1, 0x10, 1, 1, false, .rw, true, 0, 1⟩,
   ⟨0x4001, 1, 0x01, 1, 4, false, .ro, false, 0, 4294967295⟩,
   ⟨0x4001, 1, 0x02, 1, 8, false, .ro, false, 0, 18446744073709551615⟩,
   ⟨0x4001, 1, 0x03, 1, 4, false, .ro, false, 0, 4294967295⟩,
   ⟨0x4001, 1, 0x04, 1, 4, false, .ro, false, 0, 4294967295⟩,
   ⟨0x4001, 1, 0x05, 1, 4, false, .ro, false, 0, 4294967295⟩,
   ⟨0x4001, 1, 0x06, 1, 1, false, .ro, false, 0, 255⟩,
   ⟨0x4001, 1, 0x07, 1, 4, false, .ro, false, 0, 4294967295⟩,
   ⟨0x4001, 1, 0x08, 1, 2, false, .ro, false, 0, 65535⟩] ++
  [⟨0x4001, 1, 0x09, 1, 4, false, .ro, false, 0, 4294967295⟩,
   ⟨0x4001, 1, 0x0A, 1, 1, false, .ro, false, 0, 255⟩,
   ⟨0x4001, 1, 0x0B, 1, 1, false, .ro, false, 0, 255⟩,
   ⟨0x4001, 1, 0x0C, 1, 1, false, .wo, false, 0, 255⟩,
   ⟨0x4002, 1, 0x01, 1, 2, false, .const, false, 0, 65535⟩,
   ⟨0x4002, 1, 0x02, 1, 2, false, .const, false, 0, 65535⟩,
   ⟨0x4002, 1, 0x03, 1, 2, false, .const, false, 0, 65535⟩,
   ⟨0x4002, 1, 0x04, 1, 2, false, .const, false, 0, 65535⟩,
   ⟨0x4002, 1, 0x05, 1, 2, false, .const, false, 0, 65535⟩,
   ⟨0x4002, 1, 0x06, 1, 2, false, .const, false, 0, 65535⟩,
   ⟨0x4002, 1, 0x07, 1, 4, false, .const, false, 0, 4294967295⟩,
   ⟨0x4002, 1, 0x08, 1, 2, false, .const, false, 0, 65535⟩,
   ⟨0x4002, 1, 0x09, 1, 2, false, .const, false, 0, 65535⟩,
   ⟨0x4002, 1, 0x0A, 1, 2, false, .const, false, 0, 65535⟩,
   ⟨0x4002, 1, 0x0B, 1, 2, false, .const, false, 0, 65535⟩,
   ⟨0x4002, 1, 0x0C, 1, 2, false, .const, false, 0, 65535⟩]

/-- Entries of the range 0x4100. -/
def entries4100 : List Entry :=
  [⟨0x4100, 1, 0x01, 1, 65536, false, .ro, true, 0, 0⟩,
   ⟨0x4100, 1, 0x02, 1, 2, false, .ro, false, 0, 65535⟩,
   ⟨0x4100, 1, 0x03, 1, 2, false, .ro, false, 0, 65535⟩,
   ⟨0x4100, 1, 0x04, 1, 4, false, .ro, false, 0, 4294967295⟩,
   ⟨0x4100, 1, 0x05, 1, 2, false, .rw, false, 0, 2047⟩,
   ⟨0x4100, 1, 0x06, 1, 1, false, .ro, false, 0, 255⟩,
   ⟨0x4100, 1, 0x07, 1, 1, false, .ro, false, 0, 255⟩,
   ⟨0x4100, 1, 0x08, 1, 8, false, .ro, false, 0, 18446744073709551615⟩,
   ⟨0x4100, 1, 0x09, 1, 8, false, .ro, false, 0, 18446744073709551615⟩,
   ⟨0x4100, 1, 0x0A, 1, 4, false, .ro, false, 0, 4294967295⟩,
   ⟨0x4100, 1, 0x0B, 1, 4, false, .ro, false, 0, 4294967295⟩,
   ⟨0x4100, 1, 0x0C, 1, 4, false, .ro, false, 0, 4294967295⟩,
   ⟨0x4100, 1, 0x0D, 1, 2, false, .rw, true, 0, 65535⟩,
   ⟨0x4100, 1, 0x0E, 1, 4, false, .rw, true, 0, 4294967295⟩,
   ⟨0x4100, 1, 0x0F, 1, 1, false, .rw, true, 0, 255⟩,
   ⟨0x4100, 1, 0x10, 1, 2, false, .const, false, 0, 65535⟩,
   ⟨0x4101, 1, 0x01, 1, 2320, true, .wo, false, 0, 0⟩,
   ⟨0x4101, 1, 0x02, 1, 2, false, .ro, false, 0, 65535⟩,
   ⟨0x4101, 1, 0x03, 1, 1, false, .ro, false, 0, 255⟩,
   ⟨0x4101, 1, 0x04, 1, 1, false, .ro, false, 0, 255⟩,
   ⟨0x4101, 1, 0x05, 1, 1, false, .ro, false, 0, 255⟩,
   ⟨0x4101, 1, 0x06, 1, 2, false, .ro, false, 0, 65535⟩,
   ⟨0x4101, 1, 0x07, 1, 8, false, .ro, false, 0, 18446744073709551615⟩,
   ⟨0x4101, 1, 0x08, 1, 2, false, .wo, false, 0, 65535⟩] ++
  [⟨0x4101, 1, 0x09, 1, 4, false, .ro, false, 0, 4294967295⟩,
   ⟨0x4101, 1, 0x0A, 1, 4, false, .ro, false, 0, 4294967295⟩,
   ⟨0x4101, 1, 0x0B, 1, 4, false, .rw, true, 1, 600000⟩,
   ⟨0x4101, 1, 0x0C, 1, 4, false, .ro, false, 0, 4294967295⟩,
   ⟨0x4101, 1, 0x0D, 1, 128, false, .ro, false, 0, 0⟩,
   ⟨0x4101, 1, 0x0E, 1, 1, false, .rw, true, 0, 255⟩,
   ⟨0x4101, 1, 0x0F, 1, 1, false, .wo, false, 0, 255⟩,
   ⟨0x4101, 1, 0x10, 1, 1, false, .const, false, 0, 255⟩,
   ⟨0x4102, 1, 0x01, 1, 1024, true, .rws, false, 0, 0⟩,
   ⟨0x4102, 1, 0x02, 1, 1, false, .ro, false, 0, 255⟩,
   ⟨0x4102, 1, 0x03, 1, 1, false, .rws, false, 0, 255⟩,
   ⟨0x4102, 1, 0x04, 1, 4, false, .ro, false, 0, 4294967295⟩,
   ⟨0x4102, 1, 0x05, 1, 1, false, .ro, false, 0, 255⟩,
   ⟨0x4102, 1, 0x06, 1, 128, true, .rws, false, 0, 0⟩,
   ⟨0x4102, 1, 0x07, 1, 4, false, .ro, false, 0, 4294967295⟩,
   ⟨0x4102, 1, 0x08, 1, 8, false, .ro, false, 0, 18446744073709551615⟩,
   ⟨0x4102, 1, 0x09, 1, 1, false, .rw, true, 0, 1⟩,
   ⟨0x4102, 1, 0x0A, 1, 2, false, .rw, true, 0, 65535⟩,
   ⟨0x4102, 1, 0x0B, 1, 4, false, .rw, true, 0, 4294967295⟩,
   ⟨0x4102, 1, 0x0C, 1, 2, false, .rw, true, 0, 10000⟩,
   ⟨0x4102, 1, 0x0D, 1, 1, false, .const, false, 0, 255⟩,
   ⟨0x4102, 1, 0x0E, 1, 1, false, .const, false, 0, 255⟩,
   ⟨0x4102, 1, 0x0F, 1, 4, false, .ro, false, 0, 4294967295⟩,
   ⟨0x4102, 1, 0x10, 1, 4, false, .ro, false, 0, 4294967295⟩]

/-- Entries of the range 0x4200. -/
def entries4200 : List Entry :=
  [⟨0x4200, 1, 0x01, 1, 1, false, .ro, false, 0, 255⟩,
   ⟨0x4200, 1, 0x02, 1, 1, false, .rw, true, 0, 255⟩,
   ⟨0x4200, 1, 0x03, 1, 1, false, .rw, true, 0, 255⟩,
   ⟨0x4200, 1, 0x04, 1, 1, false, .rw, true, 0, 255⟩,
   ⟨0x4200, 1, 0x05, 1, 4, false, .rw, true, 5, 10000⟩,
   ⟨0x4200, 1, 0x06, 1, 2, false, .rw, true, 0, 65535⟩,
   ⟨0x4200, 1, 0x07, 1, 1, false, .rw, false, 0, 127⟩,
   ⟨0x4200, 1, 0x08, 1, 8, false, .ro, false, 0, 18446744073709551615⟩,
   ⟨0x4200, 1, 0x09, 1, 4, false, .ro, false, 0, 4294967295⟩,
   ⟨0x4200, 1, 0x0A, 1, 4, false, .ro, false, 0, 4294967295⟩,
   ⟨0x4200, 1, 0x0B, 1, 1, false, .ro, false, 0, 255⟩,
   ⟨0x4200, 1, 0x0C, 1, 2, false, .ro, false, 0, 65535⟩,
   ⟨0x4200, 1, 0x0D, 1, 1, false, .wo, false, 0, 255⟩,
   ⟨0x4200, 1, 0x0E, 1, 1, false, .wo, false, 0, 255⟩,
   ⟨0x4200, 1, 0x0F, 1, 256, false, .const, false, 0, 0⟩,
   ⟨0x4200, 1, 0x10, 1, 2, false, .ro, false, 0, 65535⟩,
   ⟨0x4201, 1, 0x01, 4, 2, false, .ro, false, 0, 65535⟩,
   ⟨0x4201, 1, 0x05, 1, 2, false, .ro, false, 0, 65535⟩,
   ⟨0x4201, 1, 0x06, 1, 2, false, .ro, false, 0, 65535⟩,
   ⟨0x4201, 1, 0x07, 1, 8, false, .ro, false, 0, 0⟩,
   ⟨0x4201, 1, 0x08, 1, 2, false, .ro, false, 0, 65535⟩,
   ⟨0x4202, 1, 0x01, 1, 128, false, .rwc, true, 0, 0⟩,
   ⟨0x4202, 1, 0x02, 1, 2, false, .rw, false, 0, 65535⟩,
   ⟨0x4202, 1, 0x03, 1, 4, false, .ro, false, 0, 4294967295⟩] ++
  [⟨0x4202, 1, 0x04, 1, 4, false, .ro, false, 0, 4294967295⟩,
   ⟨0x4202, 1, 0x05, 1, 4, false, .ro, false, 0, 4294967295⟩,
   ⟨0x4202, 1, 0x06, 1, 4, false, .ro, false, 0, 4294967295⟩,
   ⟨0x4202, 1, 0x07, 1, 4, false, .ro, false, 0, 4294967295⟩,
   ⟨0x4202, 1, 0x08, 1, 2, false, .ro, false, 0, 65535⟩]

/-- Entries of the range 0x5000. -/
def entries5000 : List Entry :=
  [⟨0x5000, 48, 0x01, 1, 1, false, .ro, false, 0, 255⟩,
   ⟨0x5000, 48, 0x02, 1, 2, false, .ro, false, 0, 65535⟩,
   ⟨0x5000, 48, 0x03, 1, 16, false, .rwc, true, 0, 0⟩,
   ⟨0x5000, 48, 0x04, 1, 14104, false, .rwc, true, 0, 0⟩,
   ⟨0x5000, 48, 0x05, 1, 16, false, .ro, false, 0, 0⟩,
   ⟨0x5000, 48, 0x06, 1, 1, false, .wo, false, 0, 255⟩]

/-- Entries of the range 0x6000. -/
def entries6000 : List Entry :=
  [⟨0x6000, 1, 0x01, 1, 1, false, .ro, false, 0, 255⟩,
   ⟨0x6000, 1, 0x02, 1, 1024, false, .rwc, true, 0, 0⟩,
   ⟨0x6000, 1, 0x03, 1, 1, false, .wo, false, 0, 255⟩,
   ⟨0x6000, 1, 0x04, 1, 1, false, .ro, false, 0, 255⟩,
   ⟨0x6000, 1, 0x05, 1, 512, false, .rwc, true, 0, 0⟩,
   ⟨0x6000, 1, 0x06, 1, 8, false, .wo, false, 0, 0⟩,
   ⟨0x6000, 1, 0x07, 1, 1, false, .ro, false, 0, 255⟩,
   ⟨0x6000, 1, 0x08, 1, 16777232, true, .wo, false, 0, 0⟩,
   ⟨0x6000, 1, 0x09, 1, 1048576, true, .ro, false, 0, 0⟩,
   ⟨0x6000, 1, 0x0A, 1, 12, false, .rw, false, 0, 0⟩,
   ⟨0x6000, 1, 0x0B, 1, 4, false, .rw, false, 0, 4294967295⟩,
   ⟨0x6000, 1, 0x0C, 1, 24, false, .ro, false, 0, 0⟩,
   ⟨0x6000, 1, 0x0D, 1, 1, false, .rw, true, 0, 1⟩,
   ⟨0x6000, 1, 0x0E, 1, 2, false, .rw, true, 10, 30000⟩,
   ⟨0x6000, 1, 0x0F, 1, 4, false, .ro, false, 0, 4294967295⟩,
   ⟨0x6000, 1, 0x10, 1, 4, false, .ro, false, 0, 4294967295⟩,
   ⟨0x6001, 1, 0x01, 1, 2, false, .ro, false, 0, 65535⟩,
   ⟨0x6001, 1, 0x02, 1, 4, false, .ro, false, 0, 4294967295⟩,
   ⟨0x6001, 1, 0x03, 1, 4, false, .const, false, 0, 4294967295⟩,
   ⟨0x6001, 1, 0x04, 1, 4, false, .ro, false, 0, 4294967295⟩,
   ⟨0x6001, 1, 0x05, 1, 4, false, .ro, false, 0, 4294967295⟩,
   ⟨0x6001, 1, 0x06, 1, 4, false, .const, false, 0, 4294967295⟩,
   ⟨0x6001, 1, 0x07, 1, 4, false, .ro, false, 0, 4294967295⟩,
   ⟨0x6001, 1, 0x08, 1, 4, false, .ro, false, 0, 4294967295⟩] ++
  [⟨0x6001, 1, 0x09, 1, 4, false, .ro, false, 0, 4294967295⟩,
   ⟨0x6001, 1, 0x0A, 1, 1, false, .wo, false, 0, 255⟩,
   ⟨0x6001, 1, 0x0B, 1, 2, false, .rw, true, 1, 32⟩,
   ⟨0x6001, 1, 0x0C, 1, 4, false, .ro, false, 0, 4294967295⟩,
   ⟨0x6002, 1, 0x01, 8, 1, false, .ro, false, 0, 255⟩,
   ⟨0x6002, 1, 0x09, 8, 4, false, .ro, false, 0, 4294967295⟩,
   ⟨0x6002, 1, 0x11, 1, 2, false, .wo, false, 0, 65535⟩,
   ⟨0x6002, 1, 0x12, 1, 1, false, .ro, false, 0, 255⟩,
   ⟨0x6002, 1, 0x13, 1, 1, false, .rw, true, 5, 40⟩,
   ⟨0x6002, 1, 0x14, 1, 1, false, .rw, true, 10, 95⟩,
   ⟨0x6002, 1, 0x15, 1, 1, false, .ro, false, 0, 255⟩,
   ⟨0x6002, 1, 0x16, 1, 128, false, .ro, false, 0, 0⟩,
   ⟨0x6002, 1, 0x17, 1, 4, false, .rw, true, 0, 4294967295⟩,
   ⟨0x6002, 1, 0x18, 1, 1, false, .ro, false, 0, 255⟩,
   ⟨0x6003, 1, 0x01, 1, 1024, false, .rwc, true, 0, 0⟩,
   ⟨0x6003, 1, 0x02, 1, 1, false, .wo, false, 0, 255⟩,
   ⟨0x6003, 1, 0x03, 1, 1, false, .rw, false, 0, 63⟩,
   ⟨0x6003, 1, 0x04, 1, 3145728, true, .ro, false, 0, 0⟩,
   ⟨0x6003, 1, 0x05, 1, 2, false, .wo, false, 0, 65535⟩,
   ⟨0x6003, 1, 0x06, 1, 4, false, .ro, false, 0, 4294967295⟩,
   ⟨0x6003, 1, 0x07, 1, 8, false, .ro, false, 0, 18446744073709551615⟩,
   ⟨0x6003, 1, 0x08, 1, 8, false, .ro, false, 0, 18446744073709551615⟩,
   ⟨0x6003, 1, 0x09, 1, 1, false, .ro, false, 0, 255⟩,
   ⟨0x6003, 1, 0x0A, 1, 4, false, .ro, false, 0, 4294967295⟩] ++
  [⟨0x6003, 1, 0x0B, 1, 1, false, .const, false, 0, 255⟩,
   ⟨0x6003, 1, 0x0C, 1, 1, false, .const, false, 0, 255⟩]

/-- Entries of the range 0x6100. -/
def entries6100 : List Entry :=
  [⟨0x6100, 16, 0x01, 1, 1, false, .ro, false, 0, 255⟩,
   ⟨0x6100, 16, 0x02, 1, 16, false, .rwc, true, 0, 0⟩,
   ⟨0x6100, 16, 0x03, 1, 16, false, .ro, false, 0, 0⟩,
   ⟨0x6100, 16, 0x04, 1, 1, false, .wo, false, 0, 255⟩,
   ⟨0x6110, 1, 0x01, 1, 2, false, .const, false, 0, 65535⟩,
   ⟨0x6110, 1, 0x02, 1, 2, false, .const, false, 0, 65535⟩,
   ⟨0x6110, 1, 0x03, 1, 1, false, .const, false, 0, 255⟩,
   ⟨0x6110, 1, 0x04, 1, 1, false, .const, false, 0, 255⟩,
   ⟨0x6110, 1, 0x05, 1, 4, false, .ro, false, 0, 4294967295⟩,
   ⟨0x6110, 1, 0x06, 1, 4, false, .ro, false, 0, 4294967295⟩,
   ⟨0x6110, 1, 0x07, 1, 512, false, .ro, false, 0, 0⟩,
   ⟨0x6110, 1, 0x08, 1, 1, false, .wo, false, 0, 255⟩]

/-- Entries of the range 0x7000. -/
def entries7000 : List Entry :=
  [⟨0x7000, 64, 0x01, 1, 16, false, .rwc, true, 0, 0⟩,
   ⟨0x7000, 64, 0x02, 1, 384, false, .rwc, true, 0, 0⟩,
   ⟨0x7000, 64, 0x03, 1, 288, false, .rws, true, 0, 0⟩,
   ⟨0x7000, 64, 0x04, 1, 16, false, .ro, false, 0, 0⟩,
   ⟨0x7000, 64, 0x05, 1, 192, false, .ro, false, 0, 0⟩,
   ⟨0x7000, 64, 0x06, 1, 1, false, .wo, false, 0, 255⟩,
   ⟨0x7000, 64, 0x07, 1, 16, false, .rwc, true, 0, 0⟩,
   ⟨0x7000, 64, 0x08, 1, 192, false, .rwc, true, 0, 0⟩,
   ⟨0x7000, 64, 0x09, 1, 1, false, .wo, false, 0, 255⟩,
   ⟨0x7000, 64, 0x0A, 1, 16, false, .ro, false, 0, 0⟩,
   ⟨0x7000, 64, 0x0B, 1, 32, false, .ro, false, 0, 0⟩,
   ⟨0x7000, 64, 0x0C, 1, 1, false, .wo, false, 0, 255⟩]

/-- Entries of the range 0x7800. -/
def entries7800 : List Entry :=
  [⟨0x7800, 1, 0x01, 1, 1, false, .ro, false, 0, 255⟩,
   ⟨0x7800, 1, 0x02, 1, 8192, false, .ro, false, 0, 0⟩,
   ⟨0x7800, 1, 0x03, 1, 32768, false, .rwc, true, 0, 0⟩,
   ⟨0x7800, 1, 0x04, 1, 6144, false, .rwc, true, 0, 0⟩,
   ⟨0x7800, 1, 0x05, 1, 1, false, .wo, false, 0, 255⟩,
   ⟨0x7800, 1, 0x06, 1, 1, false, .ro, false, 0, 255⟩,
   ⟨0x7800, 1, 0x07, 1, 1, false, .const, false, 0, 255⟩,
   ⟨0x7800, 1, 0x08, 1, 2, false, .rw, true, 1, 100⟩,
   ⟨0x7800, 1, 0x09, 1, 2, false, .rw, true, 10, 5000⟩,
   ⟨0x7800, 1, 0x0A, 1, 4, false, .ro, false, 0, 4294967295⟩,
   ⟨0x7800, 1, 0x0B, 1, 4, false, .ro, false, 0, 4294967295⟩,
   ⟨0x7800, 1, 0x0C, 1, 4, false, .ro, false, 0, 4294967295⟩,
   ⟨0x7800, 1, 0x0D, 1, 1, false, .wo, false, 0, 255⟩,
   ⟨0x7800, 1, 0x0E, 1, 1, false, .rw, false, 0, 1⟩,
   ⟨0x7800, 1, 0x0F, 1, 2, false, .ro, false, 0, 65535⟩,
   ⟨0x7800, 1, 0x10, 1, 8, false, .const, false, 0, 0⟩,
   ⟨0x7801, 8, 0x01, 1, 8, false, .rwc, true, 0, 0⟩,
   ⟨0x7801, 8, 0x02, 1, 8, false, .ro, false, 0, 0⟩,
   ⟨0x7801, 8, 0x03, 1, 1, false, .wo, false, 0, 255⟩,
   ⟨0x7801, 8, 0x04, 1, 4, false, .ro, false, 0, 4294967295⟩,
   ⟨0x7810, 1, 0x01, 1, 512, false, .rws, true, 0, 0⟩,
   ⟨0x7810, 1, 0x02, 1, 2, false, .wo, false, 0, 65535⟩,
   ⟨0x7810, 1, 0x03, 1, 4, false, .ro, false, 0, 4294967295⟩,
   ⟨0x7810, 1, 0x04, 1, 4, false, .ro, false, 0, 4294967295⟩] ++
  [⟨0x7810, 1, 0x05, 1, 8, false, .ro, false, 0, 18446744073709551615⟩,
   ⟨0x7810, 1, 0x06, 1, 4, false, .ro, false, 0, 4294967295⟩,
   ⟨0x7810, 1, 0x07, 1, 1440016, true, .rws, false, 0, 0⟩,
   ⟨0x7810, 1, 0x08, 1, 2, false, .rws, false, 0, 65535⟩,
   ⟨0x7810, 1, 0x09, 1, 65536, true, .ro, false, 0, 0⟩,
   ⟨0x7810, 1, 0x0A, 1, 4, false, .ro, false, 0, 4294967295⟩,
   ⟨0x7811, 1, 0x01, 1, 2, false, .rw, false, 0, 511⟩,
   ⟨0x7811, 1, 0x02, 1, 2, false, .ro, false, 0, 65535⟩,
   ⟨0x7811, 1, 0x03, 1, 1, false, .ro, false, 0, 255⟩,
   ⟨0x7811, 1, 0x04, 1, 4, false, .ro, false, 0, 4294967295⟩,
   ⟨0x7811, 1, 0x05, 1, 1, false, .ro, false, 0, 255⟩,
   ⟨0x7811, 1, 0x06, 1, 4, false, .ro, false, 0, 4294967295⟩,
   ⟨0x7811, 1, 0x07, 1, 4, false, .ro, false, 0, 4294967295⟩,
   ⟨0x7812, 1, 0x01, 1, 2, false, .rw, false, 0, 2047⟩,
   ⟨0x7812, 1, 0x02, 1, 1, false, .ro, false, 0, 255⟩,
   ⟨0x7812, 1, 0x03, 1, 2, false, .ro, false, 0, 65535⟩,
   ⟨0x7812, 1, 0x04, 1, 4, false, .ro, false, 0, 4294967295⟩,
   ⟨0x7812, 1, 0x05, 1, 4, false, .ro, false, 0, 4294967295⟩,
   ⟨0x7812, 1, 0x06, 1, 4, false, .ro, false, 0, 4294967295⟩,
   ⟨0x7812, 1, 0x07, 1, 4, false, .ro, false, 0, 4294967295⟩,
   ⟨0x7813, 1, 0x01, 1, 2, false, .ro, false, 0, 65535⟩,
   ⟨0x7813, 1, 0x02, 1, 2, false, .ro, false, 0, 65535⟩,
   ⟨0x7813, 1, 0x03, 1, 4, false, .ro, false, 0, 4294967295⟩,
   ⟨0x7813, 1, 0x04, 1, 4, false, .const, false, 0, 4294967295⟩] ++
  [⟨0x7813, 1, 0x05, 1, 4, false, .ro, false, 0, 4294967295⟩,
   ⟨0x7813, 1, 0x06, 1, 4, false, .ro, false, 0, 4294967295⟩,
   ⟨0x7813, 1, 0x07, 1, 8, false, .ro, false, 0, 18446744073709551615⟩,
   ⟨0x7813, 1, 0x08, 1, 2, false, .const, false, 0, 65535⟩]

/-- All entries, in ascending order. -/
def entries : List Entry :=
  entries1000 ++ entries1100 ++ entries1200 ++ entries1300 ++ entries1400 ++ entries1500 ++ entries1600 ++ entries1700 ++ entries2000 ++ entries2100 ++ entries3000 ++ entries3100 ++ entries4000 ++ entries4100 ++ entries4200 ++ entries5000 ++ entries6000 ++ entries6100 ++ entries7000 ++ entries7800

/-- The entries of the range that an index lies in. -/
def entriesNear (index : Nat) : List Entry :=
  match index / 256 with
  | 0x10 => entries1000
  | 0x11 => entries1100
  | 0x12 => entries1200
  | 0x13 => entries1300
  | 0x14 => entries1400
  | 0x15 => entries1500
  | 0x16 => entries1600
  | 0x17 => entries1700
  | 0x20 => entries2000
  | 0x21 => entries2100
  | 0x30 => entries3000
  | 0x31 => entries3100
  | 0x40 => entries4000
  | 0x41 => entries4100
  | 0x42 => entries4200
  | 0x50 => entries5000
  | 0x60 => entries6000
  | 0x61 => entries6100
  | 0x70 => entries7000
  | 0x78 => entries7800
  | _ => []

/-- The shape of an entry, if it exists (R493). -/
def entryOf (index sub : Nat) : Option Entry :=
  (entriesNear index).find? fun e => decide (e.index ≤ index ∧ index < e.index + e.count ∧ e.sub ≤ sub ∧ sub < e.sub + e.subs)

/-- The highest sub-index in use at an index that holds entries: the index header of R494. -/
def indexHeader (index : Nat) : Option Nat :=
  match ((entriesNear index).filter fun e => decide (e.index ≤ index ∧ index < e.index + e.count)).map (fun e => e.sub + e.subs - 1) with
  | [] => none
  | l => some (l.foldl max 0)

/-- Defaults other than 0, by range of indices: (first index, count, sub, subs, default). -/
def defaults1000 : List (Nat × Nat × Nat × Nat × Nat) :=
  [(0x1000, 1, 0x01, 1, 0x4742),
   (0x1000, 1, 0x02, 1, 0x3264),
   (0x1000, 1, 0x03, 1, 0xb0),
   (0x1000, 1, 0x09, 1, 0x13),
   (0x1000, 1, 0x0A, 1, 0x12),
   (0x1000, 1, 0x0B, 1, 0x200),
   (0x1000, 1, 0x0C, 1, 0xb68),
   (0x1000, 1, 0x0D, 1, 0x480),
   (0x1002, 1, 0x01, 12, 1),
   (0x1002, 1, 0x0D, 1, 32),
   (0x1002, 1, 0x0E, 1, 64),
   (0x1002, 1, 0x0F, 1, 48),
   (0x1002, 1, 0x10, 1, 1024)]

def defaults1100 : List (Nat × Nat × Nat × Nat × Nat) :=
  [(0x1100, 1, 0x0B, 1, 0x64),
   (0x1101, 1, 0x01, 1, 0x14A0960320A0000),
   (0x1101, 1, 0x04, 1, 0x2ee),
   (0x1101, 1, 0x09, 1, 0x2ee),
   (0x1101, 1, 0x0F, 1, 0x2ee),
   (0x1101, 1, 0x10, 1, railThresholds),
   (0x1102, 1, 0x08, 1, packRecords 32 [68000, 88000, 12000, 2000])]

def defaults1200 : List (Nat × Nat × Nat × Nat × Nat) :=
  [(0x1200, 1, 0x05, 1, 3),
   (0x1201, 1, 0x09, 1, 0x258),
   (0x1201, 1, 0x0F, 1, 1)]

def defaults1300 : List (Nat × Nat × Nat × Nat × Nat) :=
  [(0x1303, 1, 0x0A, 1, 0xa),
   (0x1303, 1, 0x0C, 1, 0x480)]

def defaults1400 : List (Nat × Nat × Nat × Nat × Nat) :=
  [(0x1400, 1, 0x06, 1, 0x3FFF00000000),
   (0x1400, 1, 0x0F, 1, 0x258),
   (0x1401, 1, 0x01, 1, 0xb0),
   (0x1401, 1, 0x06, 1, 0x10000),
   (0x1401, 1, 0x07, 1, 0x1000)]

def defaults1500 : List (Nat × Nat × Nat × Nat × Nat) :=
  [(0x1500, 1, 0x02, 1, packRecords 32 [1000, 10000, 1000, 10000, 100000, 100]),
   (0x1500, 1, 0x05, 1, packRecords 8 [0x1F, 0x16, 0x03, 0x06, 0x1B, 0x01]),
   (0x1500, 1, 0x0F, 1, 0x258),
   (0x1501, 1, 0x04, 1, 0x20000),
   (0x1501, 1, 0x09, 1, 0x1f4),
   (0x1501, 1, 0x0C, 1, 0xffff)]

def defaults1600 : List (Nat × Nat × Nat × Nat × Nat) :=
  [(0x1600, 1, 0x07, 1, 0x3c),
   (0x1600, 1, 0x08, 1, 0x64),
   (0x1600, 1, 0x0A, 1, 1),
   (0x1600, 1, 0x0C, 1, 0x1f40)]

def defaults1700 : List (Nat × Nat × Nat × Nat × Nat) :=
  [(0x1700, 1, 0x01, 1, 0x7ffffffff),
   (0x1700, 1, 0x02, 1, 0x7ffffffff),
   (0x1700, 1, 0x05, 1, 0x3c),
   (0x1700, 1, 0x06, 1, 0xff),
   (0x1700, 1, 0x07, 1, 0xa),
   (0x1700, 1, 0x0C, 1, 0x3e8),
   (0x1700, 1, 0x0D, 1, 0x3c),
   (0x1701, 1, 0x01, 2, 0xCB425C0000000000),
   (0x1701, 1, 0x05, 1, 0x9400000000001000000000B800000000),
   (0x1701, 1, 0x0D, 1, 0x40),
   (0x1701, 1, 0x0E, 1, 0x10),
   (0x1701, 1, 0x0F, 1, 8),
   (0x1701, 1, 0x10, 1, 0x1000)]

def defaults2000 : List (Nat × Nat × Nat × Nat × Nat) :=
  [(0x2000, 1, 0x01, 1, 0x1000098968000000),
   (0x2001, 1, 0x01, 1, 0x1000098968000000),
   (0x2002, 1, 0x01, 1, 0x1000098968000000),
   (0x2003, 1, 0x01, 1, 0x1000098968000000),
   (0x2004, 1, 0x01, 1, 0x1000000177000000),
   (0x2005, 1, 0x01, 1, 0x1000000177000000),
   (0x2006, 1, 0x01, 1, 0x1000000177000000),
   (0x2007, 1, 0x01, 1, 0x1000000177000000),
   (0x2008, 1, 0x01, 1, 0x1000000000000000),
   (0x2009, 1, 0x01, 1, 0x1000000000000000),
   (0x200A, 1, 0x01, 1, 0x1000000000000000),
   (0x200B, 1, 0x01, 1, 0x1000000000000000),
   (0x2000, 12, 0x02, 1, 0x3E807D000320000000A000A00000000),
   (0x2000, 1, 0x0C, 1, 3),
   (0x2001, 1, 0x0C, 1, 3),
   (0x2002, 1, 0x0C, 1, 3),
   (0x2003, 1, 0x0C, 1, 3),
   (0x2004, 1, 0x0C, 1, 4),
   (0x2005, 1, 0x0C, 1, 4),
   (0x2006, 1, 0x0C, 1, 4),
   (0x2007, 1, 0x0C, 1, 4),
   (0x2008, 1, 0x0C, 1, 8),
   (0x2009, 1, 0x0C, 1, 8),
   (0x200A, 1, 0x0C, 1, 8),
   (0x200B, 1, 0x0C, 1, 16),
   (0x20F0, 1, 0x05, 1, 0x64),
   (0x20F0, 1, 0x06, 1, 0x3c),
   (0x20F0, 1, 0x07, 1, 0xa),
   (0x20F0, 1, 0x08, 1, 0x30000),
   (0x20F0, 1, 0x10, 1, 0xc10)]

def defaults2100 : List (Nat × Nat × Nat × Nat × Nat) :=
  [(0x2100, 16, 0x01, 1, 0xBBC00F05DC0000000000640000000000),
   (0x2100, 16, 0x04, 1, 0xff)]

def defaults3000 : List (Nat × Nat × Nat × Nat × Nat) :=
  [(0x3000, 32, 0x02, 1, 0x8B03000003E827100000000000000F00),
   (0x3000, 24, 0x0A, 1, 0x7E000000),
   (0x3018, 8, 0x0A, 1, 0xFE000000),
   (0x3000, 32, 0x13, 1, factoryCalendar),
   (0x3000, 32, 0x14, 1, factoryCalendar),
   (0x3000, 32, 0x17, 1, 0x7ff)]

def defaults3100 : List (Nat × Nat × Nat × Nat × Nat) :=
  [(0x3100, 1, 0x04, 1, 1),
   (0x3100, 1, 0x05, 1, 3),
   (0x3100, 1, 0x06, 1, 2),
   (0x3100, 1, 0x08, 1, 0x14),
   (0x3100, 1, 0x09, 1, 0x64),
   (0x3100, 1, 0x0A, 1, 0x10),
   (0x3100, 1, 0x0C, 1, 8),
   (0x3100, 1, 0x0D, 1, 0x3e8),
   (0x3100, 1, 0x0F, 1, 0x400),
   (0x3100, 1, 0x10, 1, 0x400c04)]

def defaults4000 : List (Nat × Nat × Nat × Nat × Nat) :=
  [(0x4000, 1, 0x07, 1, 0x64),
   (0x4000, 1, 0x09, 1, 1),
   (0x4002, 1, 0x01, 1, 64),
   (0x4002, 1, 0x02, 1, 7680),
   (0x4002, 1, 0x03, 1, 64),
   (0x4002, 1, 0x04, 1, 4320),
   (0x4002, 1, 0x05, 1, 100),
   (0x4002, 1, 0x06, 1, 24000),
   (0x4002, 1, 0x07, 1, 2400),
   (0x4002, 1, 0x08, 1, 1080),
   (0x4002, 1, 0x09, 1, 63),
   (0x4002, 1, 0x0A, 1, 512),
   (0x4002, 1, 0x0B, 1, 256),
   (0x4002, 1, 0x0C, 1, 1024)]

def defaults4100 : List (Nat × Nat × Nat × Nat × Nat) :=
  [(0x4100, 1, 0x0D, 1, 0x1f4),
   (0x4100, 1, 0x10, 1, 0x800),
   (0x4101, 1, 0x0B, 1, 0xea60),
   (0x4101, 1, 0x0E, 1, 2),
   (0x4101, 1, 0x10, 1, 0x40),
   (0x4102, 1, 0x0A, 1, 1),
   (0x4102, 1, 0x0D, 1, 0x20),
   (0x4102, 1, 0x0E, 1, 8)]

def defaults4200 : List (Nat × Nat × Nat × Nat × Nat) :=
  [(0x4200, 1, 0x02, 1, 8),
   (0x4200, 1, 0x03, 1, 4),
   (0x4200, 1, 0x04, 1, 1),
   (0x4200, 1, 0x05, 1, 0x32),
   (0x4200, 1, 0x06, 1, 0x10),
   (0x4200, 1, 0x0F, 1, fabPortMap),
   (0x4201, 1, 0x08, 1, 0xffff),
   (0x4202, 1, 0x02, 1, 0xffff)]

def defaults5000 : List (Nat × Nat × Nat × Nat × Nat) :=
  [(0x5000, 48, 0x02, 1, 0xffff),
   (0x5000, 48, 0x03, 1, 0x82032C3E801F400000000000000),
   (0x5000, 48, 0x04, 1, convTablesFactory)]

def defaults6000 : List (Nat × Nat × Nat × Nat × Nat) :=
  [(0x6000, 1, 0x02, 1, packRecords 128 (List.replicate 64 0xFFF8000000000000000080000000000)),
   (0x6000, 1, 0x05, 1, 256 ^ 512 - 1),
   (0x6000, 1, 0x0D, 1, 1),
   (0x6000, 1, 0x0E, 1, 0x3e8),
   (0x6000, 1, 0x0F, 1, 0x80000),
   (0x6000, 1, 0x10, 1, 0x17200),
   (0x6001, 1, 0x03, 1, 0x7d00),
   (0x6001, 1, 0x06, 1, 0x2ee0),
   (0x6001, 1, 0x0B, 1, 0x10),
   (0x6002, 1, 0x13, 1, 0xc),
   (0x6002, 1, 0x14, 1, 0x3c),
   (0x6002, 1, 0x17, 1, 0x40),
   (0x6003, 1, 0x0B, 1, 0x40),
   (0x6003, 1, 0x0C, 1, 0x40)]

def defaults6100 : List (Nat × Nat × Nat × Nat × Nat) :=
  [(0x6100, 16, 0x02, 1, 0xC900000000000000000000000000000),
   (0x6110, 1, 0x01, 1, 0x7d0),
   (0x6110, 1, 0x02, 1, 0x7d0),
   (0x6110, 1, 0x03, 1, 0x14),
   (0x6110, 1, 0x04, 1, 0xc4),
   (0x6110, 1, 0x07, 1, 256 ^ 512 - 1)]

def defaults7000 : List (Nat × Nat × Nat × Nat × Nat) :=
  [(0x7000, 64, 0x02, 1, packRecords 192 (List.replicate 16 0x1FE0000000000000000000000000000000000000000000)),
   (0x7000, 64, 0x03, 1, 2 ^ 768 * packRecords 192 (List.replicate 8 0x1FE0000000000000000000000000000000000000000000)),
   (0x7000, 64, 0x07, 1, 0x7FFE0800A00000),
   (0x7000, 64, 0x08, 1, packRecords 192 (List.replicate 8 0x1000000000000000000000000000000000000000000000))]

def defaults7800 : List (Nat × Nat × Nat × Nat × Nat) :=
  [(0x7800, 1, 0x04, 1, packRecords 96 (List.replicate 512 0x300000000000000)),
   (0x7800, 1, 0x07, 1, 5),
   (0x7800, 1, 0x08, 1, 0xa),
   (0x7800, 1, 0x09, 1, 0xc8),
   (0x7800, 1, 0x0F, 1, 0x780),
   (0x7800, 1, 0x10, 1, packRecords 16 [2048, 512, 16, 32]),
   (0x7801, 8, 0x01, 1, 0x2000100000000000),
   (0x7810, 1, 0x01, 1, packRecords 128 (List.replicate 32 0x370140A01FFFFD01000000000000)),
   (0x7810, 1, 0x0A, 1, 0x8000),
   (0x7813, 1, 0x04, 1, 0x80000),
   (0x7813, 1, 0x08, 1, 0x1000)]

/-- The defaults other than 0 of the range that an index lies in. -/
def defaultsNear (index : Nat) : List (Nat × Nat × Nat × Nat × Nat) :=
  match index / 256 with
  | 0x10 => defaults1000
  | 0x11 => defaults1100
  | 0x12 => defaults1200
  | 0x13 => defaults1300
  | 0x14 => defaults1400
  | 0x15 => defaults1500
  | 0x16 => defaults1600
  | 0x17 => defaults1700
  | 0x20 => defaults2000
  | 0x21 => defaults2100
  | 0x30 => defaults3000
  | 0x31 => defaults3100
  | 0x40 => defaults4000
  | 0x41 => defaults4100
  | 0x42 => defaults4200
  | 0x50 => defaults5000
  | 0x60 => defaults6000
  | 0x61 => defaults6100
  | 0x70 => defaults7000
  | 0x78 => defaults7800
  | _ => []

/-- The default of an entry, as the entry tables give it; 0 where they give none (log entry 3). -/
def entryDefault (key : Nat) : Nat :=
  match (defaultsNear (key / 256)).find? (fun d => decide (d.1 ≤ key / 256 ∧ key / 256 < d.1 + d.2.1 ∧
      d.2.2.1 ≤ key % 256 ∧ key % 256 < d.2.2.1 + d.2.2.2.1)) with
  | some d => d.2.2.2.2
  | none => partConst key
where
  /-- CONST entries that differ from part to part, and the two that the spec leaves to the part. -/
  partConst (key : Nat) : Nat :=
    if key = Reg.idDevice then Config.deviceId % 2 ^ 64
    else if key = Reg.idMac then Config.macAddress % 2 ^ 48
    else if key = Reg.fwRom then Config.bootRomRelease % 2 ^ 16
    else if key = Reg.lcManuf then Config.manufacture % 2 ^ 256
    else 0

end Sys2Proof.Machine
end

