-- ==== Sys2Proof/Machine/Flags.lean ====
section
/-! DEFINITION. The check codes of the U3264: CRC-8 of flits (R102, R116), CRC-16 of lines (R389) and of DRAM
bursts (R46), CRC-32C of records and regions (R309), and SHA-256 with HMAC for the messages and signatures
(R479, R581). Each is a computation over numbers, so that Lean's kernel can run it. -/

namespace Sys2Proof.Machine

/-- One step of a CRC of w bits, most significant bit first, on one bit of data. -/
def crcBit (w poly c : Nat) (b : Bool) : Nat :=
  let s := c * 2 % 2 ^ w
  if bit c (w - 1) != b then s ^^^ poly else s

/-- A CRC of w bits without reflection over bits in the order sent. -/
def crcBits (w poly init : Nat) (bits : List Bool) : Nat := bits.foldl (crcBit w poly) init

/-- Bits 0 to n - 1 of a number, bit 0 first, as folio payloads are sent (R9). -/
def bitsUp (n x : Nat) : List Bool := (List.range n).map (bit x)

/-- CRC-8, x^8 + x^2 + x + 1, initial value 0 (R102, R116). -/
def crc8 (bits : List Bool) : Nat := crcBits 8 0x07 0 bits

/-- The line check: CRC-16 0x1_1021, initial value 0xFFFF, over folio payloads, bit 0 first (R389). -/
def crc16Line (payloads : List Nat) : Nat :=
  payloads.foldl (fun c p => crcBits 16 0x1021 c (bitsUp 128 p)) 0xFFFF

/-- The reflected polynomial 0x1EDC_6F41 of R309. -/
def crc32cPoly : Nat := 0x82F63B78

/-- One bit of a reflected CRC-32C. -/
def crc32cBit (c : Nat) (b : Bool) : Nat :=
  if bit c 0 != b then (c / 2) ^^^ crc32cPoly else c / 2

/-- The CRC-32C register after one byte, least significant bit first. -/
def crc32cByte (c b : Nat) : Nat := (bitsUp 8 b).foldl crc32cBit c

/-- CRC-32C with initial value 0xFFFF_FFFF and final inversion (R309) over bytes. -/
def crc32c (bytes : List Nat) : Nat := bytes.foldl crc32cByte 0xFFFFFFFF ^^^ 0xFFFFFFFF

/-! SHA-256 (FIPS 180-4) over bytes. -/

def rotr (n x : Nat) : Nat := (x >>> n ||| x <<< (32 - n)) % 2 ^ 32

def shaK : List Nat :=
  [0x428a2f98, 0x71374491, 0xb5c0fbcf, 0xe9b5dba5, 0x3956c25b, 0x59f111f1, 0x923f82a4, 0xab1c5ed5] ++
   [0xd807aa98, 0x12835b01, 0x243185be, 0x550c7dc3, 0x72be5d74, 0x80deb1fe, 0x9bdc06a7, 0xc19bf174] ++
   [0xe49b69c1, 0xefbe4786, 0x0fc19dc6, 0x240ca1cc, 0x2de92c6f, 0x4a7484aa, 0x5cb0a9dc, 0x76f988da] ++
   [0x983e5152, 0xa831c66d, 0xb00327c8, 0xbf597fc7, 0xc6e00bf3, 0xd5a79147, 0x06ca6351, 0x14292967] ++
   [0x27b70a85, 0x2e1b2138, 0x4d2c6dfc, 0x53380d13, 0x650a7354, 0x766a0abb, 0x81c2c92e, 0x92722c85] ++
   [0xa2bfe8a1, 0xa81a664b, 0xc24b8b70, 0xc76c51a3, 0xd192e819, 0xd6990624, 0xf40e3585, 0x106aa070] ++
   [0x19a4c116, 0x1e376c08, 0x2748774c, 0x34b0bcb5, 0x391c0cb3, 0x4ed8aa4a, 0x5b9cca4f, 0x682e6ff3] ++
   [0x748f82ee, 0x78a5636f, 0x84c87814, 0x8cc70208, 0x90befffa, 0xa4506ceb, 0xbef9a3f7, 0xc67178f2]

def shaInit : List Nat := [0x6a09e667, 0xbb67ae85, 0x3c6ef372, 0xa54ff53a, 0x510e527f, 0x9b05688c, 0x1f83d9ab, 0x5be0cd19]

/-- Bytes as big-endian words of 32 bits. -/
def shaWords : List Nat → List Nat
  | a :: b :: c :: d :: r => (a * 2 ^ 24 + b * 2 ^ 16 + c * 2 ^ 8 + d) :: shaWords r
  | _ => []

/-- The padded message. -/
def shaPad (m : List Nat) : List Nat :=
  m ++ [0x80] ++ List.replicate ((119 - m.length % 64) % 64) 0 ++ beBytes 8 (8 * m.length)

/-- The message schedule, newest word first; n words are still to come. -/
def shaSchedule : Nat → List Nat → List Nat
  | 0, w => w
  | n + 1, w =>
    let a := nth w 1 0
    let b := nth w 14 0
    let s1 := rotr 17 a ^^^ rotr 19 a ^^^ (a >>> 10)
    let s0 := rotr 7 b ^^^ rotr 18 b ^^^ (b >>> 3)
    shaSchedule n ((s1 + nth w 6 0 + s0 + nth w 15 0) % 2 ^ 32 :: w)

/-- One round on the eight working words. -/
def shaRound (h : List Nat) (kw : Nat × Nat) : List Nat :=
  match h with
  | [a, b, c, d, e, f, g, x] =>
    let s1 := rotr 6 e ^^^ rotr 11 e ^^^ rotr 25 e
    let ch := (e &&& f) ^^^ ((2 ^ 32 - 1 - e) &&& g)
    let t1 := x + s1 + ch + kw.1 + kw.2
    let s0 := rotr 2 a ^^^ rotr 13 a ^^^ rotr 22 a
    let mj := (a &&& b) ^^^ (a &&& c) ^^^ (b &&& c)
    [(t1 + s0 + mj) % 2 ^ 32, a, b, c, (d + t1) % 2 ^ 32, e, f, g]
  | _ => h

/-- One block of 16 words. -/
def shaBlock (h blk : List Nat) : List Nat :=
  let w := (shaSchedule 48 blk.reverse).reverse
  List.zipWith (fun x y => (x + y) % 2 ^ 32) h ((shaK.zip w).foldl shaRound h)

/-- All blocks, n of them left. -/
def shaBlocks : Nat → List Nat → List Nat → List Nat
  | 0, h, _ => h
  | n + 1, h, ws => shaBlocks n (shaBlock h (ws.take 16)) (ws.drop 16)

/-- The SHA-256 digest of bytes, as 32 bytes. -/
def sha256 (m : List Nat) : List Nat :=
  let ws := shaWords (shaPad m)
  (shaBlocks (ws.length / 16) shaInit ws).flatMap (beBytes 4)

/-- HMAC-SHA-256 (FIPS 198-1) under a key of at most 64 bytes. -/
def hmac (key m : List Nat) : List Nat :=
  let k := key ++ List.replicate (64 - key.length) 0
  sha256 (k.map (· ^^^ 0x5C) ++ sha256 (k.map (· ^^^ 0x36) ++ m))

/-- The leftmost 128 bits of an HMAC (R479, R581). -/
def hmac128 (key m : List Nat) : List Nat := (hmac key m).take 16

/-! DAP status codes (R472). -/

abbrev stDone : Nat := 0x00
abbrev stUnknown : Nat := 0x01
abbrev stRight : Nat := 0x02
abbrev stLength : Nat := 0x03
abbrev stValue : Nat := 0x04
abbrev stBusy : Nat := 0x05
abbrev stUnpowered : Nat := 0x06
abbrev stSession : Nat := 0x07
abbrev stAuth : Nat := 0x08
abbrev stTooLong : Nat := 0x09
abbrev stOffset : Nat := 0x0A
abbrev stOp : Nat := 0x0B
abbrev stRevision : Nat := 0x0C
abbrev stSequence : Nat := 0x0D
abbrev stNotNow : Nat := 0x0E
abbrev stResources : Nat := 0x0F
abbrev stNvm : Nat := 0x10

end Sys2Proof.Machine
end

