-- ==== Sys2Proof/Machine/Ops.lean ====
section
/-! DEFINITION. The named operations over the state that every command uses: registers by key, device time, what the
command sends, free values, and one reader and one writer for each table of the state. -/

namespace Sys2Proof.Machine

/-- The outcome of a meaning. -/
abbrev Res := Host.Outcome State Fault Refusal

/-- The value, or the shadow, of an entry held as a register. -/
def State.reg (s : State) (k : Nat) : Nat := tget entryDefault s.regs k

/-- The state with an entry at v. -/
def State.setReg (s : State) (k v : Nat) : State := { s with regs := tset entryDefault s.regs k v }

/-- The value in force of a shadowed entry (R464). -/
def State.force (s : State) (k : Nat) : Nat := tget entryDefault s.inForce k

/-- The state with the value in force of an entry at v. -/
def State.setForce (s : State) (k v : Nat) : State := { s with inForce := tset entryDefault s.inForce k v }

/-- The shadow of an entry comes into force. -/
def State.apply (s : State) (k : Nat) : State := s.setForce k (s.reg k)

/-- A count entry plus n; the exact count is kept (log entry 11). -/
def State.count (s : State) (k n : Nat) : State := s.setReg k (s.reg k + n)

/-- Entries set to 0. -/
def State.clear (s : State) (ks : List Nat) : State := ks.foldl (fun s k => s.setReg k 0) s

/-- A command comes about at t: device time never falls (R19), and what the last command sent is gone. -/
def State.begin (t : Nat) (s : State) : State := { s with dt := max s.dt t, out := [] }

/-- The command sends something. -/
def State.emit (s : State) (o : Output) : State := { s with out := s.out ++ [o] }

/-- The next free value, and the state that has drawn it (log entry 5). -/
def State.draw (s : State) : Nat × State := (Config.freeValue s.free, { s with free := s.free + 1 })

/-- n bytes of free values. -/
def State.drawBytes (n : Nat) (s : State) : List Nat × State :=
  ((List.range n).map fun i => Config.freeValue (s.free + i) % 256, { s with free := s.free + n })

/-! Tables of the state: one reader and one updater each. -/

def State.lane (s : State) (n : Nat) : PhyLane := tget (fun _ => {}) s.phy n
def State.setLane (s : State) (n : Nat) (l : PhyLane) : State := { s with phy := tset (fun _ => {}) s.phy n l }
def State.modLane (s : State) (n : Nat) (f : PhyLane → PhyLane) : State := s.setLane n (f (s.lane n))

def State.link (s : State) (n : Nat) : LinkLane := tget (fun _ => {}) s.lnk n
def State.setLink (s : State) (n : Nat) (l : LinkLane) : State := { s with lnk := tset (fun _ => {}) s.lnk n l }
def State.modLink (s : State) (n : Nat) (f : LinkLane → LinkLane) : State := s.setLink n (f (s.link n))

def State.modCounts (s : State) (n : Nat) (f : LinkCounts → LinkCounts) : State :=
  s.modLink n fun l => { l with counts := f l.counts }

def State.endpoint (s : State) (e : Nat) : Option Endpoint := oget s.eps.table e
def State.setEndpoint (s : State) (e : Nat) (v : Option Endpoint) : State :=
  { s with eps := { s.eps with table := oset s.eps.table e v } }

def State.buf (s : State) (k : Nat) : Buffer := tget (fun _ => {}) s.fs.bufs k
def State.setBuf (s : State) (k : Nat) (b : Buffer) : State :=
  { s with fs := { s.fs with bufs := tset (fun _ => {}) s.fs.bufs k b } }
def State.modBuf (s : State) (k : Nat) (f : Buffer → Buffer) : State := s.setBuf k (f (s.buf k))

def State.chan (s : State) (k : Nat) : Chan := tget (fun _ => {}) s.fs.chans k
def State.setChan (s : State) (k : Nat) (c : Chan) : State :=
  { s with fs := { s.fs with chans := tset (fun _ => {}) s.fs.chans k c } }
def State.modChan (s : State) (k : Nat) (f : Chan → Chan) : State := s.setChan k (f (s.chan k))

def State.win (s : State) (w : Nat) : Window := tget (fun _ => {}) s.fs.wins w
def State.setWin (s : State) (w : Nat) (v : Window) : State :=
  { s with fs := { s.fs with wins := tset (fun _ => {}) s.fs.wins w v } }
def State.modWin (s : State) (w : Nat) (f : Window → Window) : State := s.setWin w (f (s.win w))

def State.chime (s : State) (g : Nat) : Chime := tget (fun _ => {}) s.aud.chimes g
def State.setChime (s : State) (g : Nat) (c : Chime) : State :=
  { s with aud := { s.aud with chimes := tset (fun _ => {}) s.aud.chimes g c } }

def State.audOut (s : State) (o : Nat) : AudOut := tget (fun _ => {}) s.aud.outs o
def State.setAudOut (s : State) (o : Nat) (v : AudOut) : State :=
  { s with aud := { s.aud with outs := tset (fun _ => {}) s.aud.outs o v } }
def State.modAudOut (s : State) (o : Nat) (f : AudOut → AudOut) : State := s.setAudOut o (f (s.audOut o))

def State.audIn (s : State) (i : Nat) : AudIn := tget (fun _ => {}) s.aud.ins i
def State.setAudIn (s : State) (i : Nat) (v : AudIn) : State :=
  { s with aud := { s.aud with ins := tset (fun _ => {}) s.aud.ins i v } }

def State.tdm (s : State) (p : Nat) : TdmPort := tget (fun _ => {}) s.aud.tdm p
def State.setTdm (s : State) (p : Nat) (v : TdmPort) : State :=
  { s with aud := { s.aud with tdm := tset (fun _ => {}) s.aud.tdm p v } }

def State.path (s : State) (p : Nat) : PathState := tget (fun _ => {}) s.dap.paths p
def State.setPath (s : State) (p : Nat) (v : PathState) : State :=
  { s with dap := { s.dap with paths := tset (fun _ => {}) s.dap.paths p v } }
def State.modPath (s : State) (p : Nat) (f : PathState → PathState) : State := s.setPath p (f (s.path p))

def State.queue (s : State) (k : Nat) : NotifyQ := tget (fun _ => {}) s.dap.queues k
def State.setQueue (s : State) (k : Nat) (v : NotifyQ) : State :=
  { s with dap := { s.dap with queues := tset (fun _ => {}) s.dap.queues k v } }

def State.can (s : State) (p : Nat) : CanPort := tget (fun _ => {}) s.dap.can p
def State.setCan (s : State) (p : Nat) (v : CanPort) : State :=
  { s with dap := { s.dap with can := tset (fun _ => {}) s.dap.can p v } }

def State.busMaster (s : State) (m : Nat) : BusMaster := tget (fun _ => {}) s.sup.bus m
def State.setBusMaster (s : State) (m : Nat) (v : BusMaster) : State :=
  { s with sup := { s.sup with bus := tset (fun _ => {}) s.sup.bus m v } }

def State.ins (s : State) (k : Nat) : InStream := tget (fun _ => {}) s.str.ins k
def State.setIns (s : State) (k : Nat) (v : InStream) : State :=
  { s with str := { s.str with ins := tset (fun _ => {}) s.str.ins k v } }
def State.modIns (s : State) (k : Nat) (f : InStream → InStream) : State := s.setIns k (f (s.ins k))

def State.route (s : State) (r : Nat) : Route := tget (fun _ => {}) s.str.routes r
def State.setRoute (s : State) (r : Nat) (v : Route) : State :=
  { s with str := { s.str with routes := tset (fun _ => {}) s.str.routes r v } }
def State.modRoute (s : State) (r : Nat) (f : Route → Route) : State := s.setRoute r (f (s.route r))

def State.port (s : State) (p : Nat) : Port := tget (fun _ => {}) s.fab.ports p
def State.setPort (s : State) (p : Nat) (v : Port) : State :=
  { s with fab := { s.fab with ports := tset (fun _ => {}) s.fab.ports p v } }
def State.modPort (s : State) (p : Nat) (f : Port → Port) : State := s.setPort p (f (s.port p))

def State.phase (s : State) (n : Nat) : Phase := tget (fun _ => {}) s.fab.phase n
def State.setPhase (s : State) (n : Nat) (v : Phase) : State :=
  { s with fab := { s.fab with phase := tset (fun _ => {}) s.fab.phase n v } }

def State.unit (s : State) (u : Nat) : ConvUnit := tget (fun _ => {}) s.conv.units u
def State.setUnit (s : State) (u : Nat) (v : ConvUnit) : State :=
  { s with conv := { s.conv with units := tset (fun _ => {}) s.conv.units u v } }
def State.modUnit (s : State) (u : Nat) (f : ConvUnit → ConvUnit) : State := s.setUnit u (f (s.unit u))

def State.convCluster (s : State) (c : Nat) : ConvCluster := tget (fun _ => {}) s.conv.clusters c
def State.setConvCluster (s : State) (c : Nat) (v : ConvCluster) : State :=
  { s with conv := { s.conv with clusters := tset (fun _ => {}) s.conv.clusters c v } }

/-- What the U3264 sends of output stream k. -/
def State.send (s : State) (k : Nat) : OutSend := tget (fun _ => {}) s.str.sends k
def State.setSend (s : State) (k : Nat) (v : OutSend) : State :=
  { s with str := { s.str with sends := tset (fun _ => {}) s.str.sends k v } }

def State.engine (s : State) (e : Nat) : CmpEngine := tget (fun _ => {}) s.cmp e
def State.setEngine (s : State) (e : Nat) (v : CmpEngine) : State := { s with cmp := tset (fun _ => {}) s.cmp e v }
def State.modEngine (s : State) (e : Nat) (f : CmpEngine → CmpEngine) : State := s.setEngine e (f (s.engine e))

def State.outp (s : State) (n : Nat) : OutState := tget (fun _ => {}) s.comp.outs n
def State.setOutp (s : State) (n : Nat) (v : OutState) : State :=
  { s with comp := { s.comp with outs := tset (fun _ => {}) s.comp.outs n v } }
def State.modOutp (s : State) (n : Nat) (f : OutState → OutState) : State := s.setOutp n (f (s.outp n))

def State.layer (s : State) (n i : Nat) : Layer := tget (fun _ => {}) (s.outp n).layers i
def State.setLayer (s : State) (n i : Nat) (v : Layer) : State :=
  s.modOutp n fun o => { o with layers := tset (fun _ => {}) o.layers i v }

def State.region (s : State) (n r : Nat) : Region := tget (fun _ => {}) (s.outp n).regions r
def State.setRegion (s : State) (n r : Nat) (v : Region) : State :=
  s.modOutp n fun o => { o with regions := tset (fun _ => {}) o.regions r v }

/-- num / den as a whole number; the spec names no rounding where this is used. -/
def roundTo (num : Int) (den : Nat) : Int :=
  let q := num / (den : Int)
  if num % (den : Int) = 0 then q else if Config.roundUp num den then q + 1 else q

/-- A thing done for each number of a list, in order. -/
def State.each {α : Type} (s : State) (l : List α) (f : State → α → State) : State := l.foldl f s

/-- A thing done when a condition holds. -/
def State.whenever (s : State) (c : Bool) (f : State → State) : State := if c then f s else s

/-- The key of a requester in the tables of the DAP engine. -/
def reqKey (w : Requester) : Nat := w.path * 2 ^ 48 + w.id

/-- The requester that a key stands for. -/
def keyReq (k : Nat) : Requester := ⟨k / 2 ^ 48, k % 2 ^ 48⟩

end Sys2Proof.Machine
end

