-- ==== Sys2Proof/Machine/Chimes.lean ====
section
/-! DEFINITION. The chime generators and the ducking they cause (R329 to R331), below the events that trigger them. -/

namespace Sys2Proof.Machine

/-- Record g of CHIME_TABLE (R329). -/
def State.chimeRec (s : State) (g : Nat) : Nat := record (s.reg Reg.chimeTable) 0 128 g

/-- Record o of AUD_OUT_TABLE in force (R326). -/
def State.audOutRec (s : State) (o : Nat) : Nat := record (s.force Reg.audOutTable) 0 96 o

def chimeEnable (r : Nat) : Bool := bit r 127
def chimeSource (r : Nat) : Nat := fld r 126 126
def chimeSound (r : Nat) : Nat := fld r 125 114
def chimeOn (r : Nat) : Nat := fld r 99 92
def chimeOff (r : Nat) : Nat := fld r 91 84
def chimeRepeat (r : Nat) : Nat := fld r 83 76
def chimeTrigger (r : Nat) : Nat := fld r 75 65
def chimeDuck (r : Nat) : Bool := bit r 48
def chimePriority (r : Nat) : Nat := fld r 47 45

/-- The playing time of a sound: 24-bit samples at 48 kHz (R333). -/
def soundTime (x : Sound) : Nat := (x.data.length - 16) / 3 * sec / 48000

/-- The time of one ON period; a sound plays whole and ignores ON (R329). -/
def State.chimeOnTime (s : State) (g : Nat) : Nat :=
  let r := s.chimeRec g
  if chimeSource r = 1 then
    match s.aud.chimeMem.find? fun x => x.1 == chimeSound r with
    | some x => soundTime x.2
    | none => 0
  else chimeOn r * (10 * ms)

/-- A generator can sound: it is enabled, and a sound it names is not missing (R329, R333). -/
def State.chimeUsable (s : State) (g : Nat) : Bool :=
  let r := s.chimeRec g
  decide (g < 32) && chimeEnable r && !s.fab.spineIsolated.contains 88 &&
    (chimeSource r == 0 || ((s.aud.chimeMem.any fun x => x.1 == chimeSound r) && !s.aud.missing.contains (chimeSound r)))

/-- The generators that sound on an output channel: at most four, the highest PRIORITY first, and between equals the
lowest g (R330). -/
def State.chimesOn (s : State) (o : Nat) : List Nat :=
  let mask := fld (s.audOutRec o) 31 0
  let byPriority := (List.range 8).reverse.flatMap fun p =>
    (List.range 32).filter fun g => bit mask g && (s.chime g).playing && chimePriority (s.chimeRec g) == p
  byPriority.take 4

/-- By how many dB program is lowered on a channel at t (R331): linear in dB over the attack or the release. -/
def duckLevel (d : Duck) (depth attack release t : Nat) : Frac :=
  let e := t - d.since
  if d.attacking then
    if attack ≤ e then ⟨depth, 1⟩
    else ⟨d.start.num * (attack - e) + depth * e * d.start.den, d.start.den * attack⟩
  else
    if release ≤ e then ⟨0, 1⟩ else ⟨d.start.num * (release - e), d.start.den * release⟩

/-- Ducking of one channel follows the chimes that sound on it now (R331). -/
def duckChannel (s : State) (o : Nat) : State :=
  let r := s.audOutRec o
  let a := s.audOut o
  let want := (s.chimesOn o).any fun g => chimeDuck (s.chimeRec g)
  if bit r 95 && want != a.duck.attacking then
    let lvl := duckLevel a.duck (fld r 59 54) (s.reg Reg.audDuckAttack * ms) (s.reg Reg.audDuckRelease * ms) s.dt
    s.setAudOut o { a with duck := ⟨want, lvl, s.dt⟩ }
  else s

/-- Ducking of every output channel that a generator sounds on. -/
def duckAll (g : Nat) (s : State) : State :=
  s.each ((List.range 512).filter fun o => bit (s.audOutRec o) 95 && bit (s.audOutRec o) g) duckChannel

/-- A generator starts, or starts its pattern again (R330, R332); the raise of CHIME_PLAYED is the caller's. -/
def chimeBegin (g : Nat) (s : State) : State :=
  let r := s.chimeRec g
  duckAll g <|
    (((s.setChime g ⟨true, true, chimeRepeat r, s.dt + s.chimeOnTime g⟩).count Reg.chimeCount 1).setReg
      Reg.chimeLastDt s.dt)

/-- A generator ends; its sound fades under R323 and ducking is released (R330, R331). -/
def chimeEnd (g : Nat) (s : State) : State :=
  duckAll g (s.setChime g { (s.chime g) with playing := false, on := false, left := 0 })

/-- An ON period or a gap of a playing generator ends (R330): gaps belong to the pattern, REPEAT 255 never ends. -/
def chimeStep (g : Nat) (s : State) : State :=
  let r := s.chimeRec g
  let c := s.chime g
  if !c.playing || decide (s.dt < c.until_) then s
  else if c.on then
    if c.left ≤ 1 then chimeEnd g s
    else s.setChime g { c with on := false, until_ := c.until_ + chimeOff r * (10 * ms) }
  else
    s.setChime g { c with
      on := true
      left := if c.left = 255 then 255 else c.left - 1
      until_ := c.until_ + s.chimeOnTime g }

end Sys2Proof.Machine
end

