-- ==== Sys2Proof/Machine/Events.lean ====
section
/-! DEFINITION. Raising events: the status bit, the pins, the last raise, the NOTIFY records (R487, R488, R502 to R511),
the casebook records that raises write (R582 to R584), the chimes and the rolling windows they start (R209, R330). -/

namespace Sys2Proof.Machine

/-- The severity in force of an event: 0 SAFE, 1 FAULT, 2 WARN, 3 INFO (R502). -/
def State.severityOf (s : State) (id : Nat) : Nat := fld s.evt.severity (2 * id + 1) (2 * id)

/-- The minimum low time of SAFE_N is running (R488). -/
def EvtState.minRunning (e : EvtState) (t : Time) : Bool :=
  match e.minLow with
  | some u => decide (t < u)
  | none => false

/-- EVT_N and SAFE_N as R488 derives them; true is released. -/
def updatePins (s : State) : State :=
  let e := s.evt
  { s with evt := { e with
      evtN := (e.status &&& e.enable) == 0
      safeN := !(e.startHold || e.safeBits != 0 || e.minRunning s.dt) } }

/-- Steps 1 to 3 of R503, with the effect on SAFE_N under the severity at the raise (R506). -/
def latchEvent (id : Nat) (test : Bool) (s : State) : State :=
  let e := s.evt
  let sev := s.severityOf id
  updatePins { s with evt := { e with
    status := setBit e.status id
    safeBits := if sev = 0 then setBit e.safeBits id else e.safeBits
    minLow := if sev = 0 then some (s.dt + s.reg Reg.evtSafeMinLow * ms) else e.minLow
    lastEvent := id
    lastSeverity := sev
    lastTest := test
    lastDt := s.dt
    count := e.count + 1 } }

/-! NOTIFY (R487). -/

/-- The node number that disables DAP on CAN (R484). -/
def canDisabled (s : State) : Bool := s.reg Reg.idNodeId == 0x7F

/-- A CAN port runs and is not in bus-off (R483, R492). -/
def canUp (s : State) (p : Nat) : Bool :=
  bit (s.force (Reg.canSetup p)) 63 && !(s.can p).busOff && !canDisabled s

/-- The management port runs and its PHY link is up (R492). -/
def netUp (s : State) : Bool := bit (s.force Reg.netSetup) 127 && s.dap.netLink

/-- CAPS of the peer's part 0 (R401). -/
def peerCaps (l : LinkLane) : Nat := fld l.peer0 96 65

/-- A capability is in use: both sides offer it (R405). -/
def capUsed (l : LinkLane) (b : Nat) : Bool := bit (peerCaps l) b && bit l.capsOffered b

/-- The DAP revision D of a lane (R402), 0 when there is none. -/
def laneDapRev (l : LinkLane) : Nat :=
  let d := min 2 (fld l.peer0 100 97)
  if l.mode = .up && capUsed l 9 && decide (max 1 (fld l.peer0 104 101) ≤ d) then d else 0

/-- A path's transport is up (R462). -/
def transportUp (s : State) (p : Nat) : Bool :=
  if p < 2 then canUp s p else if p = 2 then netUp s
  else if p < 35 then (s.link (p - 3)).mode == .up && laneDapRev (s.link (p - 3)) != 0
  else false

/-- CAN FD and Ethernet serve from the end of S4 (R462); a start that stopped in S4 leaves the boot ROM, which serves DAP
(R564). -/
def controlStarted (s : State) : Bool := decide (4 < s.start.next) || (s.start.next == 4 && s.start.stopped)

/-- A path serves DAP (R462). -/
def pathServes (s : State) (p : Nat) : Bool :=
  bit (s.reg Reg.dapPathEnable) p && transportUp s p && controlStarted s

/-- The requesters that receive NOTIFY (R487). -/
def notifyKeys (s : State) : List Nat :=
  let on (p : Nat) : Bool := bit (s.reg Reg.dapNotifyEnable) p
  let net := if on 2 && netUp s then
      (List.range 4).filterMap fun i => (oget s.dap.places i).map (·.1) else []
  let cans := ((List.range 2).filter fun p => on p && canUp s p).map fun p => reqKey ⟨p, 0x7F⟩
  let lanes := ((List.range 32).filter fun n =>
      on (3 + n) && (s.link n).mode == .up && capUsed (s.link n) 10).map fun n => reqKey ⟨3 + n, 0⟩
  if controlStarted s then net ++ cans ++ lanes else []

/-- The records of a full queue after the drop that R487 names, with the arriving record. -/
def notifyInsert (recs : List NotifyRec) (r : NotifyRec) : List NotifyRec × Bool :=
  if recs.length < 64 then (recs ++ [r], false)
  else if recs.any fun x => x.severity != 0 then
    let i := recs.findIdx fun x => x.severity != 0
    (recs.eraseIdx i ++ [r], true)
  else if r.severity != 0 then (recs, true)
  else (recs.drop 1 ++ [r], true)

/-- Step 4 of R503 for one requester: the next record sent after any drop carries OVERFLOW. -/
def notifyOne (r : NotifyRec) (s : State) (key : Nat) : State :=
  let q := s.queue key
  let p := notifyInsert q.recs r
  let s := s.setQueue key { q with recs := p.1, dropped := q.dropped || p.2 }
  if p.2 then s.count Reg.dapNotifyDropped 1 else s

/-- Step 4 of R503. The body of a test raise has bit 127 set (R509). -/
def notifyAll (id sev body : Nat) (s : State) : State :=
  if bit s.evt.enable id then s.each (notifyKeys s) (notifyOne ⟨id, sev, s.dt, body, false⟩) else s

/-- Steps 1 to 4 of R503. -/
def raiseCore (id : Nat) (items : List Nat) (test : Bool) (s : State) : State :=
  let sev := s.severityOf id
  let body := Config.bodyBits id items % 2 ^ 127 + if test then 2 ^ 127 else 0
  notifyAll id sev body (latchEvent id test s)

/-! The casebook writer's queue (R582 to R584). -/

/-- Bytes of a record: header, body, trailer (R580). -/
def cbExtent (i : CbItem) : Nat := 52 + i.body.length

/-- Bytes waiting in the queue. -/
def cbUsed (q : List CbItem) : Nat := sumOf (q.map cbExtent)

/-- What the queue keeps when it must hold at most 256 KiB: the oldest records that did not come from a SAFE raise are
dropped first (R584). At most n are dropped. -/
def cbTrim : Nat → List CbItem → List CbItem × List CbItem
  | 0, q => (q, [])
  | n + 1, q =>
    if cbUsed q ≤ 262144 then (q, [])
    else
      let i := if q.any (fun x => !x.safe) then q.findIdx (fun x => !x.safe) else 0
      let r := cbTrim n (q.eraseIdx i)
      (r.1, (q.drop i).take 1 ++ r.2)

/-- Records lost are counted, and the next record committed is preceded by a GAP record (R584). -/
def cbLose (lost : List CbItem) (s : State) : State :=
  match lost with
  | [] => s
  | x :: _ =>
    let g := match s.cb.gap with
      | some (n, t) => (n + lost.length, t)
      | none => (lost.length, x.dt)
    raiseCore Ev.cbRecordsLost [lost.length] false
      (({ s with cb := { s.cb with gap := some g } } : State).count Reg.cbLost lost.length)

/-- A record joins the queue. -/
def cbQueue (i : CbItem) (s : State) : State :=
  let r := cbTrim (s.cb.queue.length + 1) (s.cb.queue ++ [i])
  cbLose r.2 { s with cb := { s.cb with queue := r.1 } }

/-- A record that no raise brings, such as LEDGER, NOTE or ROUTE_DIGEST. -/
def cbWrite (type : Nat) (body : List Nat) (s : State) : State := cbQueue ⟨type, body, s.dt, false, false⟩ s

/-- The body of an EVENT record (R582). -/
def eventBody (id sev : Nat) (notify : Nat) : List Nat := leBytes 2 id ++ [sev, 0] ++ leBytes 16 notify

/-- The body of a SUPPLY record (R582). -/
def supplyBody (s : State) (id : Nat) : List Nat :=
  leBytes 2 id ++ leBytes 1 (s.reg Reg.pwrState) ++ leBytes 1 (s.reg Reg.pwrKeeperSide) ++
    leBytes 22 (s.reg Reg.pwrRailMv) ++ leBytes 2 (fld (s.reg Reg.pwrRailMv) 175 160) ++
    leBytes 2 (s.reg Reg.pwrTjMax)

/-- The body of a SECURITY record from the items slot, lane or path, reason (R544, R582). -/
def securityBody (s : State) (id : Nat) (items : List Nat) : List Nat :=
  leBytes 2 id ++ [nth items 0 0 % 256, nth items 1 0 % 256, nth items 2 0 % 256, 0, 0, 0] ++
    leBytes 8 (s.reg Reg.secCounter)

/-- How a raise is recorded: by R583 alone; as an EVENT record tied to it whatever the severity and rate; as a record
of another type; or not, where the owning rule writes its record apart. -/
inductive RecMode where
  | auto
  | tied
  | as (type : Nat) (body : List Nat)
  deriving DecidableEq, Repr

/-- The EVENT record of a raise, at most one per event ID in any 1 s (R583); later raises count into the next. -/
def eventRecord (id sev : Nat) (items : List Nat) (s : State) : State :=
  let l : Limit := tget (fun _ => {}) s.cb.limits id
  let due := match l.last with
    | some t => decide (t + sec ≤ s.dt)
    | none => true
  let put (v : Limit) (s : State) : State :=
    { s with cb := { s.cb with limits := tset (fun _ => {}) s.cb.limits id v } }
  if due then
    cbQueue ⟨1, eventBody id sev (Config.bodyBits id (items ++ [l.since]) % 2 ^ 127), s.dt, sev == 0, false⟩
      (put ⟨some s.dt, 0⟩ s)
  else put { l with since := l.since + 1 } s

/-- The casebook record of a raise (R583, R544, R576, R607). -/
def recordRaise (id sev : Nat) (items : List Nat) (test : Bool) (mode : RecMode) (s : State) : State :=
  let safe := sev == 0
  if test then
    cbQueue ⟨1, eventBody id sev (Config.bodyBits id items % 2 ^ 127 + 2 ^ 127), s.dt, safe, true⟩ s
  else match mode with
    | .as type body => cbQueue ⟨type, body, s.dt, safe, false⟩ s
    | .tied => cbQueue ⟨1, eventBody id sev (Config.bodyBits id items % 2 ^ 127), s.dt, safe, false⟩ s
    | .auto =>
      if 1008 ≤ id ∧ id ≤ 1019 then cbQueue ⟨7, securityBody s id items, s.dt, safe, false⟩ s
      else if 1040 ≤ id ∧ id ≤ 1059 ∧ sev < 3 then cbQueue ⟨2, supplyBody s id, s.dt, safe, false⟩ s
      else if sev < 2 then eventRecord id sev items s
      else s

/-! Windows that a SAFE event triggers (R209). -/

/-- Record w of FS_WIN_TABLE in force (R207). -/
def State.winRec (s : State) (w : Nat) : Nat := record (s.force Reg.fsWinTable) 0 128 w

/-- A trigger: a recording window goes on for POST and then freezes; one in post-trigger or frozen ignores it (R209). -/
def winTrigger (w : Nat) (s : State) : State :=
  let v := s.win w
  if v.mode = .recording then
    s.setWin w { v with mode := .post, postEnd := s.dt + fld (s.winRec w) 79 64 * (100 * ms) }
  else s

/-- A SAFE event triggers every window with FREEZE_ON_SAFE (R207, R209). -/
def winOnSafe (s : State) : State :=
  s.each ((List.range 64).filter fun w => bit (s.winRec w) 127 && bit (s.winRec w) 118) fun s w => winTrigger w s

/-! The raise itself. -/

/-- A raise: R503, then the casebook record, the windows and the chimes whose TRIGGER it is. Each generator so started
raises CHIME_PLAYED in its turn. Each generator has one TRIGGER, so that 33 raises in a row are enough for every chain that
comes to an end; `fuel` cuts one that would go on for ever (log entry 12). -/
def raiseN (fuel : Nat) (id : Nat) (items : List Nat) (test : Bool) (mode : RecMode) (s : State) : State :=
  match fuel with
  | 0 => s
  | fuel + 1 =>
    let sev := s.severityOf id
    let s := recordRaise id sev items test mode (raiseCore id items test s)
    let s := if sev = 0 then winOnSafe s else s
    s.each ((List.range 32).filter fun g => s.chimeUsable g && chimeTrigger (s.chimeRec g) == id) fun s g =>
      raiseN fuel (Ev.chimePlayed g) [g] false .auto (chimeBegin g s)

/-- An event is raised (R503, R583). -/
def State.raise (s : State) (id : Nat) (items : List Nat) : State := raiseN 33 id items false .auto s

/-- An event is raised whose casebook record its rule names. -/
def State.raiseAs (s : State) (id : Nat) (items : List Nat) (mode : RecMode) : State :=
  raiseN 33 id items false mode s

/-- An event reported at most once in `period`; the body carries what the rule names and the happenings since the last
report (R245, R322, R349, R385, R391, R549). -/
def State.raiseLimited (s : State) (period id : Nat) (items : List Nat) : State :=
  let l : Limit := tget (fun _ => {}) s.evt.limits id
  let due := match l.last with
    | some t => decide (t + period ≤ s.dt)
    | none => true
  let put (v : Limit) (s : State) : State :=
    { s with evt := { s.evt with limits := tset (fun _ => {}) s.evt.limits id v } }
  if due then (put ⟨some s.dt, 0⟩ s).raise id (items ++ [l.since + 1])
  else put { l with since := l.since + 1 } s

/-! Words of events (R502, R504 to R507). -/

/-- Status bits are cleared: with them the SAFE bits they latched, then the pins are derived again (R504, R506). -/
def clearStatus (mask : Nat) (s : State) : State :=
  let e := s.evt
  updatePins { s with evt := { e with status := clearMask e.status mask, safeBits := clearMask e.safeBits mask } }

/-- An enable word is written; EVT_N is recomputed at once, and a reserved ID ignores the write (R498, R505). -/
def writeEnable (w value : Nat) (s : State) : State :=
  let v := value &&& fld evtAssigned (32 * w + 31) (32 * w)
  updatePins { s with evt := { s.evt with enable := putFld s.evt.enable (32 * w + 31) (32 * w) v } }

/-- Some pair of a severity word would lower an event whose default severity is SAFE (R506). -/
def lowersSafe (w value : Nat) : Bool :=
  (List.range 32).any fun b =>
    let id := 32 * w + b
    bit evtAssigned id && fld evtDefaultSeverity (2 * id + 1) (2 * id) == 0 && fld value (2 * b + 1) (2 * b) != 0

/-- The two bits of every assigned event of word w. -/
def severityMask (w : Nat) : Nat :=
  sumOf ((List.range 32).map fun b => if bit evtAssigned (32 * w + b) then 3 * 4 ^ b else 0)

/-- A severity word is written; reserved IDs keep 0b00 (R498, R506). -/
def writeSeverity (w value : Nat) (s : State) : State :=
  { s with evt := { s.evt with
      severity := putFld s.evt.severity (64 * w + 63) (64 * w) (value &&& severityMask w) } }

/-- The default enable and severity words (R507, R511). -/
def eventDefaults (s : State) : State :=
  updatePins { s with evt := { s.evt with enable := evtDefaultEnable, severity := evtDefaultSeverity } }

end Sys2Proof.Machine
end

