-- ==== Sys2Proof/Machine/Paths.lean ====
section
/-! DEFINITION. Control paths that enter and leave service, sessions and staged writes that end with them (R473, R478,
R481, R482, R487), and firmware banks as the NVM holds them (R597). -/

namespace Sys2Proof.Machine

/-- A firmware bank (R597). -/
def State.bank (s : State) (b : Nat) : FwBank := tget (fun _ => {}) s.nvm.banks b
def State.setBank (s : State) (b : Nat) (v : FwBank) : State :=
  { s with nvm := { s.nvm with banks := tset (fun _ => {}) s.nvm.banks b v } }

/-- The bank that is not running (R597). -/
def State.idleBank (s : State) : Nat := 1 - s.reg Reg.fwActiveBank % 2

/-- A session ends (R478). -/
def endSession (n : Nat) (s : State) : State := { s with dap := { s.dap with sessions := oset s.dap.sessions n none } }

/-- Every session that p selects ends. -/
def endSessions (p : Session → Bool) (s : State) : State :=
  { s with dap := { s.dap with
      sessions := s.dap.sessions.filter fun e => match e.2 with | some x => !p x | none => false } }

/-- A staged write ends unapplied (R473); a bank whose image it was writing has no verified image (R597, R601). -/
def endStaged (key : Nat) (s : State) : State :=
  match oget s.dap.staged key with
  | none => s
  | some g =>
    let s := { s with dap := { s.dap with staged := oset s.dap.staged key none } }
    if ekey g.index g.sub = Reg.fwImage ∧ (s.bank s.idleBank).state = 3 then
      (s.setBank s.idleBank { (s.bank s.idleBank) with state := 2 }).setReg Reg.fwUpdateState 0
    else s

/-- DAP_LOCK is released (R481). -/
def releaseLock (s : State) : State := s.setReg Reg.dapLock 0xFF

/-- A path leaves service: its sessions, staged writes, reassemblies and lock end, and the subscriptions of the
management port fall free (R478, R481, R482, R487). -/
def pathDown (p : Nat) (s : State) : State :=
  let s := endSessions (fun x => x.who.path == p) s
  let s := s.each ((okeys s.dap.staged).filter fun k => (keyReq k).path == p) fun s k => endStaged k s
  let s := { s with dap := { s.dap with
    reasm := s.dap.reasm.filter fun e => (keyReq e.1).path != p
    places := if p = 2 then [] else s.dap.places
    queues := s.dap.queues.filter fun e => (keyReq e.1).path != p } }
  if s.reg Reg.dapLock = p then releaseLock s else s

/-- A path enters service: NSEQ starts again at 0 (R487). -/
def pathUp (p : Nat) (s : State) : State :=
  { s with dap := { s.dap with queues := s.dap.queues.filter fun e => (keyReq e.1).path != p } }

end Sys2Proof.Machine
end

