-- ==== Sys2Proof/Machine/LinkCore.lean ====
section
/-! DEFINITION. The link's shared operations: control folios that wait (R400), calendars and bonds (R413 to R419),
entering and leaving UP (R407, R408), and what the state of the lane below does to the link. -/

namespace Sys2Proof.Machine

/-- LNK_STATE (R423). -/
def linkCode : LinkMode → Nat
  | .down => 0 | .aligning => 1 | .turnHunt => 2 | .negotiating => 3 | .authenticating => 4
  | .up => 5 | .incompatible => 6 | .lowPower => 7 | .rateChange => 8 | .loop => 9

/-- Modes in which the link has turn lock. -/
def linkLocked : LinkMode → Bool
  | .negotiating | .authenticating | .up | .incompatible => true
  | _ => false

/-! Control folios (R395, R400). -/

/-- The revision from which a control type is sent (R395). -/
def typeFrom (type : Nat) : Nat :=
  if type = 0x13 ∨ type = 0x0B then 2 else if type = 0x0F ∨ type = 0x10 then 3 else 1

/-- The precedence level of a control type (R400). -/
def ctlLevel (type : Nat) : Nat :=
  if type = 0x04 ∨ type = 0x13 ∨ type = 0x12 then 1
  else if type = 0x05 then 2
  else if type = 0x08 then 3
  else if type = 0x07 ∨ type = 0x06 then 4
  else if type = 0x0F ∨ type = 0x11 then 5
  else if type = 0x0D then 6
  else 7

/-- A control-type folio joins those that wait on the lane. -/
def pushCtl (lane type body : Nat) (s : State) : State :=
  if typeFrom type ≤ max 1 (s.link lane).rev then
    s.modLink lane fun l => { l with queue := l.queue ++ [⟨type, body % 2 ^ 120⟩] }
  else s

/-- The folios sent first: by precedence level, and within one level in order of arrival (R400). -/
def ctlOrder (q : List CtlFolio) : List CtlFolio :=
  (List.range 8).flatMap fun v => q.filter fun f => ctlLevel f.type == v

/-! Calendars (R413). -/

/-- The entry of a slot, 1 to 511. -/
def calEntry (cal slot : Nat) : Nat := record cal 0 16 (slot - 1)
def entryKind (e : Nat) : Nat := fld e 15 14
def entryClass (e : Nat) : Nat := fld e 13 12
def entryFlow (e : Nat) : Nat := fld e 8 0

/-- The 511 entries, slot 1 first. -/
def calList (cal : Nat) : List Nat := (List.range 511).map fun i => record cal 0 16 i

/-- Slots whose entry p selects. -/
def calSlots (cal : Nat) (p : Nat → Bool) : List Nat :=
  ((List.range 511).filter fun i => p (record cal 0 16 i)).map (· + 1)

def isFree (e : Nat) : Bool := entryKind e == 0
def isControl (e : Nat) : Bool := entryKind e == 1
def isData (e : Nat) : Bool := entryKind e == 2
def isC0 (e : Nat) : Bool := isData e && entryClass e == 0

/-- The calendar holds a data slot. -/
def calHasData (cal : Nat) : Bool := (calList cal).any isData

/-- Slots that the calendar gives a flow. -/
def flowSlots (cal flow : Nat) : Nat := ((calList cal).filter fun e => isData e && entryFlow e == flow).length

/-- A link changes: AUTH and SLOTS of the records of its input streams follow it, which is a change of STR_IN_TABLE (R54, R95). -/
def setLinkShown (lane : Nat) (l : LinkLane) (s : State) : State :=
  let old := s.link lane
  let moved := s.str.ins.any fun e => e.2.mode != .absent && e.2.mode != .gone && dLane e.2.desc == lane &&
    (old.authenticated != l.authenticated || flowSlots old.rxCal e.2.flow != flowSlots l.rxCal e.2.flow)
  (if moved then s.count Reg.strChangeSeq 1 else s).setLink lane l

/-- DIGEST of R397: CRC-32C of the 511 entries. -/
def calDigest (cal : Nat) : Nat := crc32c (leBytes 1022 cal)

/-- The refusals of R415 that the calendar alone decides, in the order 0x0A, 0x02, 0x03, 0x04 (log entry 13); 0 none. -/
def calShape (cal : Nat) : Nat :=
  let l := calList cal
  if l.any fun e => entryKind e == 3 || fld e 11 9 != 0 then 0x0A
  else if 64 < (l.filter isC0).length then 0x02
  else if (l.filter isFree).length < 12 then 0x03
  else if (l.filter isControl).length < 4 then 0x04
  else 0

/-! Bonds (R416). -/

def bondValid (r : Nat) : Bool := bit r 31
def bondFirst (r : Nat) : Nat := fld r 30 26
def bondSize (r : Nat) : Nat := 2 ^ fld r 25 23

/-- The bond in force that a lane belongs to: lowest lane and number of lanes. -/
def State.bondOf (s : State) (lane : Nat) : Option (Nat × Nat) :=
  ((List.range 16).find? fun b =>
    let r := tget (fun _ => 0) s.eps.bonds b
    bondValid r && decide (bondFirst r ≤ lane ∧ lane < bondFirst r + bondSize r)).map fun b =>
      let r := tget (fun _ => 0) s.eps.bonds b
      (bondFirst r, bondSize r)

/-- The lane whose calendar the lane uses: the lowest of its bond (R416). -/
def State.calLane (s : State) (lane : Nat) : Nat :=
  match s.bondOf lane with
  | some (f, _) => f
  | none => lane

/-- The lanes that carry traffic together with this one. -/
def State.bondLanes (s : State) (lane : Nat) : List Nat :=
  match s.bondOf lane with
  | some (f, n) => (List.range n).map (f + ·)
  | none => [lane]

/-- A calendar change of either direction is pending on a lane or bond. -/
def calendarPending (s : State) (lane : Nat) : Bool :=
  let l := s.link (s.calLane lane)
  l.txChange.isSome || l.rxChange.isSome

/-- A capability is in use: both sides offer it, and the revision in force allows it (R403, R405). -/
def capInUse (l : LinkLane) (b : Nat) : Bool :=
  capUsed l b && decide ((if b = 5 ∨ b = 2 then 2 else if b = 3 ∨ b = 6 ∨ b = 7 ∨ b = 8 then 3 else 1) ≤ l.rev)

/-- A lane may ask its partner for Quiet (3) or Dormant (4): the link is UP and has the state, and no calendar change is pending
(R405, R422). -/
def sleepAskable (s : State) (lane op : Nat) : Bool :=
  (s.link lane).mode == .up && capInUse (s.link lane) (op - 1) && !calendarPending s lane

/-- The members' calendars after one displaced entry is placed (R418): on the first free slot, in order of slot number
and then member, of a member that keeps what R27 asks. -/
def placeOne (cals : List (List Nat)) (excl : Nat) (e : Nat) : List (List Nat) :=
  let ok (m : Nat) : Bool :=
    let c := nth cals m []
    !bit excl m && decide (12 < (c.filter isFree).length) &&
      (entryClass e != 0 || decide ((c.filter isC0).length < 64))
  let spots := (List.range 511).flatMap fun i =>
    ((List.range cals.length).filter fun m => ok m && isFree (nth (nth cals m []) i 0)).map fun m => (i, m)
  match spots with
  | [] => cals
  | (i, m) :: _ => cals.set m ((nth cals m []).set i e)

/-- The calendars of the n members of a bond while those in `excl` are excluded (R418): class by class, and within a
class in ascending slot number. -/
def repack (cal n excl : Nat) : List (List Nat) :=
  let own := calList cal
  let start := (List.range n).map fun m => if bit excl m then List.replicate 511 0 else own
  let lost := (List.range 4).flatMap fun c =>
    own.flatMap fun e => if isData e && entryClass e == c then List.replicate (popCount n excl) e else []
  if excl = 0 then start else lost.foldl (fun cs e => placeOne cs excl e) start

/-- The entries in force on one lane on transmit, or on receive, with the repack of its bond. -/
def State.entries (s : State) (tx : Bool) (lane : Nat) : List Nat :=
  let c := s.link (s.calLane lane)
  let cal := if tx then c.txCal else c.rxCal
  match s.bondOf lane with
  | none => calList cal
  | some (f, n) => nth (repack cal n (if tx then c.txExcluded else
      if c.members % 2 ^ n = 0 then 0 else 2 ^ n - 1 - c.members % 2 ^ n)) (lane - f) []

/-! Announcing a calendar (R415, steps 2 and 4). -/

/-- The body of the CALENDAR segment that starts at a slot. -/
def segmentBody (epoch cal first : Nat) : Nat :=
  let n := min 6 (512 - first)
  pack ([(2, 0), (8, epoch), (9, first), (3, n)] ++
    ((List.range 6).map fun i => (16, if i < n then calEntry cal (first + i) else 0)) ++ [(2, 0)])

/-- The body of the commit. -/
def commitBody (epoch cal turn : Nat) : Nat := pack [(2, 1), (8, epoch), (32, turn), (32, calDigest cal), (46, 0)]

/-- A calendar is announced: every entry in ascending slot order, then the commit. SWITCH_TURN is the smallest that
leaves LNK_CAL_LEAD turns after the last segment (log entry 13). -/
def announce (lane cal : Nat) (again : Bool) (s : State) : State :=
  let l := s.link lane
  let epoch := (l.txEpoch + 1) % 256
  let room := max 1 ((s.entries true lane).filter fun e => isControl e || isFree e).length
  let turn := (l.txTurn + divUp (l.queue.length + 86) room + s.reg Reg.lnkCalLead) % 2 ^ 32
  let s := s.setLink lane { l with
    txChange := some ⟨epoch, cal, turn, true, false, again⟩, reannounce := none, calResult := 1 }
  let s := s.each (List.range 86) fun s i => pushCtl lane 0x04 (segmentBody epoch cal (6 * i + 1)) s
  pushCtl lane 0x04 (commitBody epoch cal turn) s

/-! Entering and leaving UP. -/

/-- The bond record of a member lost, withdrawn or ready (R397): sent on a member that is UP. -/
def sendBond (op lane : Nat) (s : State) : State :=
  match s.bondOf lane with
  | none => s
  | some (f, _) =>
    match (s.bondLanes lane).find? fun n => n != lane && (s.link n).mode == .up with
    | some n => pushCtl n 0x13 (pack [(2, op), (5, lane - f), (113, 0)]) s
    | none => s

/-- A receiver excludes a member and tells the transmitter (R418); there is no repack with a revision-1 partner. -/
def excludeMember (lane : Nat) (s : State) : State :=
  match s.bondOf lane with
  | none => s
  | some (f, _) =>
    if bit (s.link f).rxExcluded (lane - f) then s
    else sendBond 0 lane ((s.modLink f fun l => { l with rxExcluded := setBit l.rxExcluded (lane - f) }).modLink lane
      fun l => { l with backSent := false })

/-- An excluded member that is READY, aligned, turn-locked and within R417 is reported ready, once (R419); with a
revision-1 partner it is simply in use again. -/
def memberBack (lane : Nat) (s : State) : State :=
  match s.bondOf lane with
  | none => s
  | some (f, _) =>
    if !bit (s.link f).rxExcluded (lane - f) || (s.link lane).backSent then s
    else if (s.link lane).rev < 2 then s.modLink f fun l => { l with rxExcluded := clrBit l.rxExcluded (lane - f) }
    else sendBond 2 lane (s.modLink lane fun l => { l with backSent := true })

/-- The link leaves UP: the exchange of calendars in progress is cancelled, the lane's path leaves service, and kept
departed endpoints are forgotten (R411, R415, R482). -/
def leaveUp (lane : Nat) (s : State) : State :=
  let l := s.link lane
  let running := match l.txChange with
    | some c => c.announced
    | none => false
  let s := s.setLink lane { l with
    txChange := if running then none else l.txChange
    reannounce := match l.txChange with
      | some c => if c.announced then some c.entries else none
      | none => none
    calResult := if running then 4 else l.calResult
    rxChange := none, rateAsked := none, loopAsked := false, reauth := false }
  let s := { s with eps := { s.eps with departed := s.eps.departed.filter fun d => d.lane != lane } }
  pathDown (3 + lane) s

/-- Windows of the lane's endpoints start afresh, with the misses run anew (R411). -/
def freshWindows (lane : Nat) (s : State) : State :=
  s.each (okeys s.eps.table) fun s e =>
    match s.endpoint e with
    | some p => if p.lane = lane then
        s.setEndpoint e (some { p with missed := 0, heard := false, windowEnd := s.dt + ms }) else s
    | none => s

/-- The link enters UP (R407): a held or cancelled calendar is announced, and the lane's path enters service. -/
def enterUp (lane : Nat) (resumed : Bool) (s : State) : State :=
  let back := (s.link lane).held
  let s := s.modLink lane fun l => { l with
    mode := .up, upSince := s.dt, leftAt := none, resumeOpen := false, locked := false, held := false }
  let s := pathUp (3 + lane) (if back then freshWindows (s.calLane lane) s else s)
  let l := s.link lane
  match l.txChange with
  | some c => if c.announced then s else announce lane c.entries false s
  | none =>
    match l.reannounce with
    | some cal => if resumed then announce lane cal false s
      else s.setLink lane { l with reannounce := none }
    | none => s

/-- The PHY leaves READY other than into Quiet, Dormant, LOOP or the training of a rate change (R407). -/
def linkPhyDown (lane : Nat) (s : State) : State :=
  let l := s.link lane
  if l.mode = .down then s
  else
    let s := if l.mode = .up then
        (leaveUp lane s).modLink lane fun l => { l with leftAt := some s.dt } else s
    excludeMember lane (s.modLink lane fun l => { l with
      mode := .down, headers := 0, bad := 0, lastTurn := none, missRun := 0, resumeOpen := false, locked := false
      rateAgreed := none, echo := false, omitNext := [], rxOmitNext := [] })

/-- The PHY is READY (R407): alignment is kept after Quiet. -/
def linkPhyReady (lane : Nat) (afterQuiet : Bool) (s : State) : State :=
  let l := s.link lane
  match l.mode with
  | .down => s.setLink lane { l with mode := .aligning, headers := 0, bad := 0 }
  | .lowPower | .rateChange | .loop =>
    s.setLink lane (if afterQuiet then { l with mode := .turnHunt, resumeOpen := true, echo := false }
      else { l with mode := .aligning, headers := 0, bad := 0, resumeOpen := true, echo := false })
  | _ => s

/-! Alignment and turn lock (R379, R380). -/

/-- The current line of every stream of a lane loses a folio. -/
def loseLines (lane : Nat) (s : State) : State :=
  s.each ((s.str.ins.filter fun e => e.2.frame.isSome && dLane e.2.desc == s.calLane lane).map (·.1)) fun s k =>
    s.modIns k fun i => { i with frame := i.frame.map fun f => { f with lost := true } }

/-- Modes that alignment loss leaves: ALIGNING to UP (R407). -/
def alignMode : LinkMode → Bool
  | .aligning | .turnHunt | .negotiating | .authenticating | .up => true
  | _ => false

/-- A folio with a valid header (R379). -/
def goodHeader (lane : Nat) (s : State) : State :=
  let l := s.link lane
  match l.mode with
  | .down => s
  | .aligning =>
    if l.headers + 1 < 64 then s.setLink lane { l with headers := l.headers + 1 }
    else s.setLink lane { l with mode := .turnHunt, headers := 0, bad := 0, missRun := 0, locked := false }
  | _ => s.setLink lane { l with bad := l.bad * 2 % 2 ^ 128 }

/-- The link hears what the lane carries: it has had turn lock. -/
def linkHears : LinkMode → Bool
  | .negotiating | .authenticating | .up | .lowPower | .rateChange => true
  | _ => false

/-- What a folio other than TURN, SKIP and IDLE does, once its header is counted. -/
def received (lane : Nat) (op : State → State) (s : State) : State :=
  let hears := linkHears (s.link lane).mode
  let s := goodHeader lane s
  if hears then op s else s

/-- Alignment is lost (R379, R422). -/
def alignLost (lane : Nat) (s : State) : State :=
  let s := (s.modCounts lane fun c => { c with alignLosses := c.alignLosses + 1 }).raise (Ev.alignLost lane)
    [lane, (s.link lane).counts.alignLosses + 1]
  let s := loseLines lane s
  let l := s.link lane
  let s := if l.mode = .up then (leaveUp lane s).modLink lane fun l => { l with leftAt := some s.dt } else s
  excludeMember lane (s.modLink lane fun l => { l with
    mode := if alignMode l.mode then .aligning else l.mode
    headers := 0, bad := 0, lastTurn := none, missRun := 0, locked := false })

/-- Turn lock is lost (R380). -/
def turnLost (lane : Nat) (s : State) : State :=
  let l := s.link lane
  let s := if l.mode = .up then (leaveUp lane s).modLink lane fun l => { l with leftAt := some s.dt } else s
  excludeMember lane (s.modLink lane fun l => { l with
    mode := match l.mode with
      | .negotiating | .authenticating | .up => .turnHunt
      | m => m
    lastTurn := none, missRun := 0, locked := false })

/-- A slot 0 that held anything else than the TURN awaited: slot counting continues (R380). -/
def turnMiss (lane : Nat) (s : State) : State :=
  let l := s.link lane
  if !(linkLocked l.mode || l.locked) then s
  else
    let s := s.setLink lane { l with
      counts := { l.counts with turnMisses := l.counts.turnMisses + 1 }
      missRun := l.missRun + 1, lastTurn := l.lastTurn.map fun n => (n + 1) % 2 ^ 32 }
    if 2 ≤ l.missRun + 1 then turnLost lane s else s

/-- The body of a RATE folio (R397). -/
def rateBody (op rate : Nat) : Nat := pack [(4, op), (3, rate), (113, 0)]

/-- The body of a LOOP folio (R397). -/
def loopBody (op duration : Nat) : Nat := pack [(2, op), (26, duration), (92, 0)]

end Sys2Proof.Machine
end

