-- ==== Sys2Proof/Machine/Keys.lean ====
section
/-! DEFINITION. The key store: slots, derivations (R522, R523), challenge responses (R524), tags (R525, R528, R529) and
orphaning (R535). -/

namespace Sys2Proof.Machine

/-- ASCII bytes of a label. -/
def ascii (t : String) : List Nat := t.toList.map Char.toNat

/-! Slots (R515, R516). -/

/-- Bytes exclusive-or a mask. -/
def xorBytes (a m : List Nat) : List Nat := List.zipWith (· ^^^ ·) a m

/-- A key in two shares under the n-th mask drawn (R520). -/
def sharesOf (n : Nat) (key : List Nat) (attr label : Nat) : KeyCells :=
  let m := (List.range key.length).map fun i => Config.keyMask n i % 256
  ⟨xorBytes key m, m, attr, label⟩

/-- What the shares of a slot come to. -/
def KeyCells.slot (c : KeyCells) : KeySlot := ⟨xorBytes c.share c.mask, c.attr, c.label⟩

def State.keySlot (s : State) (n : Nat) : KeySlot := (tget (fun _ => ({} : KeyCells)) s.nvm.keys.slots n).slot

/-- A write of a slot draws a fresh mask. -/
def State.setKeySlot (s : State) (n : Nat) (v : KeySlot) : State :=
  let k := s.nvm.keys
  { s with nvm := { s.nvm with keys := { k with
    draws := k.draws + 1, slots := tset (fun _ => {}) k.slots n (sharesOf k.draws v.key v.attr v.label) } } }

/-- The key of slot 29 is written under a fresh mask. -/
def State.setSigning (s : State) (key : List Nat) : State :=
  let k := s.nvm.keys
  { s with nvm := { s.nvm with keys := { k with draws := k.draws + 1 } }, sec := { s.sec with signing := sharesOf k.draws key 0 0 } }

/-- The physical addresses of the 64 bytes of a slot (R520). -/
def State.slotCells (s : State) (n : Nat) : List Nat := (List.range 64).map fun i => Config.cellAt s.sec.cells (64 * n + i)

def kaValid (a : Nat) : Bool := bit a 31
def kaAuth (a : Nat) : Bool := bit a 30
def kaDerive (a : Nat) : Bool := bit a 29
def kaTag (a : Nat) : Bool := bit a 28
def kaForbidden (a : Nat) : Bool := bit a 25
def kaC0 (a : Nat) : Bool := bit a 24
def kaNarrow (a : Nat) : Bool := bit a 23
def kaOrphaned (a : Nat) : Bool := bit a 22
def kaParent (a : Nat) : Nat := fld a 21 16

/-- Slots 29 to 31 are available: the PUF root stands, and nothing was destroyed since (R514, R540). -/
def State.privileged (s : State) : Bool := s.sec.puf.isSome && s.reg Reg.secState == 0

/-- A slot holds a key that can be used. -/
def State.slotValid (s : State) (n : Nat) : Bool :=
  if n = 29 then s.privileged && s.sec.signing.share != []
  else kaValid (s.keySlot n).attr && (n < 29 || s.privileged)

/-- The key of a slot. -/
def State.slotKey (s : State) (n : Nat) : List Nat := if n = 29 then s.sec.signing.slot.key else (s.keySlot n).key

/-- The key of a slot in native format takes a fresh mask when it is loaded into an engine (R520). -/
def maskSlot (n : Nat) (s : State) : State :=
  if n = 29 then s.setSigning s.sec.signing.slot.key
  else if kaNarrow (s.keySlot n).attr then s
  else s.setKeySlot n (s.keySlot n)

/-- A use of a slot: its key is loaded, and the use is counted (KEY_USES). -/
def useSlot (n : Nat) (s : State) : State :=
  let s := maskSlot n s
  { s with sec := { s.sec with uses := tset (fun _ => 0) s.sec.uses n (tget (fun _ => 0) s.sec.uses n + 1) } }

/-- A slot may answer challenges (R518). -/
def State.slotAuth (s : State) (n : Nat) : Bool :=
  s.slotValid n && kaAuth (s.keySlot n).attr && !kaOrphaned (s.keySlot n).attr

/-! Derivation (R522). -/

/-- L bits by the counter-mode KDF of NIST SP 800-108. -/
def kdf (key : List Nat) (label : String) (context : List Nat) (bits : Nat) : List Nat :=
  ((List.range (divUp bits 256)).flatMap fun i =>
    hmac key (beBytes 4 (i + 1) ++ ascii label ++ [0] ++ context ++ beBytes 4 bits)).take (bits / 8)

/-- The response to a link challenge (R524) as 128 bits, most significant byte first. -/
def linkResponse (key nonce : List Nat) (responder challenger : Nat) : Nat :=
  beNat (hmac128 key (ascii "PHOKIS-AUTH" ++ nonce ++ beBytes 8 responder ++ beBytes 8 challenger))

/-- The link tag key of an epoch (R523). -/
def tagKey (x : TagSession) (epoch : Nat) : List Nat :=
  kdf x.root "TAG" (x.nonces ++ [epoch % 256]) (if x.narrow then 128 else 256)

/-- The tag of a frame sent by one side (R528): `lower` says whether the sender has the lower PARTNER_ID. -/
def frameTag (x : TagSession) (lower : Bool) (flow frame epoch : Nat) (payloads : List Nat) : Nat :=
  Config.gmac (tagKey x epoch) ((if lower then 0 else 1) :: beBytes 2 flow ++ beBytes 2 frame ++ List.replicate 7 0)
    (payloads.flatMap (leBytes 16)) / 2 ^ 64 % 2 ^ 64

/-- The session of the lane, or of the lowest lane of its bond (R525); one whose keys were destroyed serves nothing more
(R540). -/
def State.tagSession (s : State) (lane : Nat) : Option TagSession :=
  match (s.link (s.calLane lane)).session with
  | some x => if x.root = [] then none else some x
  | none => none

/-- The tag session of a link that has just authenticated (R525, R529): the slot named by the side with the lower
PARTNER_ID, keyed with both nonces. -/
def newSession (s : State) (lane slot : Nat) (own peer : List Nat) : TagSession :=
  let lower := decide (Config.deviceId < fld (s.link lane).peer1 116 53)
  { root := s.slotKey slot, slot := slot, nonces := if lower then own ++ peer else peer ++ own
    narrow := kaNarrow (s.keySlot slot).attr, lower := lower, txSince := s.dt, rxSince := s.dt }

/-! Orphaning (R535). -/

/-- Children of a slot. -/
def State.keyChildren (s : State) (n : Nat) : List Nat :=
  (List.range 29).filter fun c => c != n && kaValid (s.keySlot c).attr && kaParent (s.keySlot c).attr == n &&
    bit (s.keySlot c).attr 15

/-- The slot and everything below it, to the depth of R517. -/
def keyTree : Nat → State → Nat → List Nat
  | 0, _, n => [n]
  | d + 1, s, n => n :: (s.keyChildren n).flatMap (keyTree d s)

/-- Sessions keyed from a slot run to the end of their epoch only. -/
def orphanSessions (n : Nat) (s : State) : State :=
  (s.each (List.range 32) fun s lane => s.modLink lane fun l =>
    { l with session := l.session.map fun x => if x.slot = n then { x with orphaned := true } else x }) |> fun s =>
  let mark (x : Session) : Session :=
    if x.slot = n ∧ x.orphanedAt.isNone then { x with orphanedAt := some s.dt } else x
  { s with dap := { s.dap with sessions := s.dap.sessions.map fun e => (e.1, e.2.map mark) } }

/-- Every descendant of a slot is orphaned, each with its event; sessions on the slot itself and below it run out. -/
def orphanBelow (n : Nat) (s : State) : State :=
  let below := ((keyTree 4 s n).drop 1).eraseDups
  let s := orphanSessions n s
  s.each below fun s c =>
    let k := s.keySlot c
    (orphanSessions c (s.setKeySlot c { k with attr := setBit k.attr 22 })).raise Ev.slotOrphaned [c]

end Sys2Proof.Machine
end

