-- ==== Sys2Proof/Machine/Gate.lean ====
section
/-! DEFINITION. The checks that every write passes before its own rule (R24, R462, R464, R481, R571), shared by the writes
of a DAP message and by the commands of the host that the table gives a row of their own. -/

namespace Sys2Proof.Machine

/-- The entry of a key, by its index and sub-index. -/
def keyEntry (key : Nat) : Option Entry := entryOf (key / 256) (key % 256)

/-- Reserve operation, or the return from it until SERVICE_READY (R24, R553). -/
def State.inReserve (s : State) : Bool := s.reg Reg.pwrState == 2 || s.reg Reg.pwrState == 3

/-- The hold-up indicator in µs: without a capacitance it reads 0 (R549). -/
def State.holdupUs (s : State) : Nat := if s.reg Reg.pwrHoldupCap = 0 then 0 else s.reg Reg.pwrHoldupUs

/-- The access port of IEEE 1149.1 is open in a recovery start, from the end of S3 to the end of S5 (R575). -/
def State.scanRecovers (s : State) : Bool := s.start.recovery != 0 && (s.start.next == 4 || s.start.next == 5)

/-- Reserve outputs are O00, O08 and so on (R247). -/
def reserveOutput (n : Nat) : Bool := n % 8 == 0

/-- Reserve lanes are L24 to L31. -/
def reserveLane (n : Nat) : Bool := decide (24 ≤ n)

/-- Entries owned by a function of the bulk domains (R21, R24; log entry 17). -/
def bulkEntry (key : Nat) : Bool :=
  let i := key / 256
  let sub := key % 256
  (0x3000 ≤ i && i < 0x3000 + 24) || i == 0x4200 || i == 0x4201 || (0x5000 ≤ i && i < 0x6111) ||
    (0x7000 ≤ i && i < 0x7040 && !reserveOutput (i - 0x7000)) || (0x7800 ≤ i && i < 0x7809) || (0x7811 ≤ i && i < 0x7814) ||
    (i == 0x1101 && sub ≤ 0x0B)

/-- Writes are open: from the end of S10 (R462), and through a return, in which R553 names the entries that stay refused
(log entry 24). -/
def State.writesOpen (s : State) : Bool := decide (11 ≤ s.start.next) || s.start.kind == 3

/-- Writable before the end of S10: RST_CMD from the end of S4 (R560), SEC_UPDATE in the wait of a recovery start
(R567). -/
def writableInStart (s : State) (key : Nat) : Bool :=
  (key == Reg.rstCmd && decide (5 ≤ s.start.next)) || (key == Reg.secUpdate && s.start.recovery == 2)

/-- The part is RETIRED: DAP serves reads only (R574). -/
def State.retired (s : State) : Bool := s.nvm.lc == 4

/-- The right of an entry as the lock of R481 sees it. -/
def underLock (e : Entry) (commit : Bool) : Bool := e.right == .rwc || e.right == .rws || commit

/-- Another requester's staged write of the entry runs (R473). -/
def stagedByOther (who : Requester) (key : Nat) (s : State) : Bool :=
  s.dap.staged.any fun e => e.1 != reqKey who && match e.2 with
    | some g => ekey g.index g.sub == key
    | none => false

/-- Status of a write before the owning chapter sees it; 0 lets it through (log entry 18 gives the order). -/
def gate (src : Src) (key : Nat) (commit : Bool) (s : State) : Nat :=
  match keyEntry key with
  | none => stUnknown
  | some e =>
    if e.right = .ro ∨ e.right = .const then stRight
    else if s.retired || !(s.writesOpen || writableInStart s key) then stNotNow
    else if s.inReserve && bulkEntry key then stUnpowered
    else if e.right = .rws ∧ !src.auth then stSession
    else if underLock e commit ∧ s.reg Reg.dapLock ≠ 0xFF ∧ s.reg Reg.dapLock ≠ src.who.path then stBusy
    else if stagedByOther src.who key s then stBusy
    else stDone

/-- A direct command of the host: the gate, then the operation, and the status sent to its requester (R466, R472). -/
def answer (src : Src) (key : Nat) (commit : Bool) (op : State → State × Nat) (s : State) : State :=
  let g := gate src key commit s
  if g ≠ 0 then s.emit (.status src.who g)
  else
    let r := op s
    r.1.emit (.status src.who r.2)

end Sys2Proof.Machine
end

