-- ==== Sys2Proof/Machine/Buffers.lean ====
section
/-! DEFINITION. Buffers of the frame store below the routes: pools (R182, R183), handles and generations (R187, R188), the
bytes of buffers, tokens with what their return sets off (R189 to R192), and the rotation of stream frames (R186). -/

namespace Sys2Proof.Machine

/-! Pool records (R182). -/

/-- The record of a pool in force. -/
def State.poolRec (s : State) (p : Nat) : Nat := record (s.force Reg.fsPoolTable) 0 128 p

def pValid (r : Nat) : Bool := bit r 127
def pClass (r : Nat) : Nat := fld r 126 125
def pStream (r : Nat) : Bool := bit r 124
def pChannels (r : Nat) : Nat := fld r 123 116
def pComp (r : Nat) : Nat := fld r 115 111
def pCount (r : Nat) : Nat := fld r 110 93
def pWidth (r : Nat) : Nat := fld r 92 79
def pHeight (r : Nat) : Nat := fld r 78 65
def pChroma (r : Nat) : Nat := fld r 64 63
def pDepth (r : Nat) : Nat := fld r 62 61
def pEncoding (r : Nat) : Nat := fld r 60 59
def pPrimaries (r : Nat) : Nat := fld r 58 57
def pTransfer (r : Nat) : Nat := fld r 56 55
def pDepthQueue (r : Nat) : Nat := fld r 47 40

/-- CHROMA, DEPTH, ENCODING, PRIMARIES, TRANSFER, as bits [64:55] and as [45:36] of a descriptor. -/
def pColour (r : Nat) : Nat := fld r 64 55

/-- B of the engine that compresses the pool (R224). -/
def State.blockBytes (s : State) (engine : Nat) : Nat := 4 * fld (s.force (Reg.cmpSetup engine)) 125 120

/-- Bytes of a block row (R224). -/
def State.rowBytes (s : State) (r : Nat) : Nat :=
  divUp (blocksPerRow (pWidth r) (pChroma r) * s.blockBytes (pComp r)) 512 * 512

/-- Line size of a pool (R183, R224). -/
def State.poolLine (s : State) (r : Nat) : Nat :=
  if pComp r < 16 then s.rowBytes r / 2 else lineBytes (pWidth r) (pChroma r) (pDepth r)

/-- Frame size of a pool (R183). -/
def State.poolFrame (s : State) (r : Nat) : Nat := s.poolLine r * pHeight r

/-- EXTENTS (R183). -/
def State.poolExtents (s : State) (r : Nat) : Nat := divUp (s.poolFrame r) (2 * 1024 * 1024)

/-- The pool that intake writes a stream to (R185), none for 0xFF. -/
def State.streamPool (s : State) (k : Nat) : Option Nat :=
  let p := record (s.force Reg.fsStreamPool) 0 8 k
  if p < 64 then some p else none

/-! Handles (R187, R188): a buffer's key is its 24-bit handle. -/

def handlePool (h : Nat) : Nat := h / 2 ^ 18 % 64
def handleIndex (h : Nat) : Nat := h % 2 ^ 18

/-- The generation of a buffer (R188). -/
def State.bufGen (s : State) (key : Nat) : Nat := (s.fs.genBase + (s.buf key).born) % 256

/-- The handle word of a buffer (R187). -/
def State.handleWord (s : State) (key : Nat) : Nat := key * 256 + s.bufGen key

/-- The key lies in a defined pool. -/
def State.bufExists (s : State) (key : Nat) : Bool :=
  let r := s.poolRec (handlePool key)
  pValid r && decide (handleIndex key < pCount r)

/-- A buffer can be a source: it is allocated with the generation (R71), or a complete frame that a window holds
(R209). -/
def State.bufUsable (s : State) (key gen : Nat) : Bool :=
  let b := s.buf key
  s.bufExists key && s.bufGen key == gen % 256 && (b.mode == .allocated || b.mode == .complete)

/-! The bytes of buffers. An unlisted byte reads 0 (R211, log entry 8). -/

/-- The address of a byte of a buffer (log entry 16). -/
def bufAddr (key offset : Nat) : Nat := key * 2 ^ 32 + offset

/-- One byte of DRAM. -/
def State.readByte (s : State) (a : Nat) : BitVec 8 := tget (fun _ => 0) s.fs.mem a

/-- DRAM with one byte written, in canonical form. -/
def memWrite (m : List Host.Cell) (a : Nat) (b : BitVec 8) : List Host.Cell := tset (fun _ => 0) m a b

/-- Bytes go to or from the DRAM (R215): FS_LOAD looks back 1 ms. -/
def dramTraffic (n : Nat) (s : State) : State :=
  { s with fs := { s.fs with traffic := (s.fs.traffic.filter fun e => decide (s.dt < e.1 + ms)) ++ [(s.dt, n)] } }

/-- Bytes written from an address. -/
def memWriteBytes (m : List Host.Cell) (a : Nat) : List Nat → List Host.Cell
  | [] => m
  | b :: bs => memWriteBytes (memWrite m a (BitVec.ofNat 8 b)) (a + 1) bs

def State.writeBytes (s : State) (a : Nat) (bs : List Nat) : State :=
  { s with fs := { s.fs with mem := memWriteBytes s.fs.mem a bs } }

/-- n bytes from an address. -/
def State.readBytes (s : State) (a n : Nat) : List Nat := (List.range n).map fun i => (s.readByte (a + i)).toNat

/-! Host writes to buffers (R192). -/

/-- One write reaches its buffer: the damage of the blocks that it covers whole ends (R199). -/
def applyWrite (w : QWrite) (s : State) : State :=
  let size := s.poolFrame (s.poolRec (handlePool w.key))
  let s := dramTraffic w.data.length (s.writeBytes (bufAddr w.key w.offset) w.data)
  s.modBuf w.key fun b => { b with
    done := s.dt
    damaged := b.damaged.filter fun o => !decide (w.offset ≤ o ∧ min (o + 64) size ≤ w.offset + w.data.length) }

/-- Writes of one buffer that wait, with whether each can apply now: up to the last one without HOLD. -/
def dueWrites (ws : List QWrite) : List QWrite :=
  (ws.reverse.dropWhile fun w => w.hold).reverse

/-- Queued writes of an ALLOCATED buffer without tokens apply in order of arrival, whole (R192). -/
def runWrites (key : Nat) (s : State) : State :=
  if (s.buf key).mode = .allocated ∧ (s.buf key).tokens = [] then
    let due := dueWrites (s.fs.writes.filter fun w => w.key == key)
    let keep := s.fs.writes.filter fun w => !(due.contains w)
    s.each due (fun s w => applyWrite w s) |> fun s => { s with fs := { s.fs with writes := keep } }
  else s

/-! States of buffers (R189). -/

/-- A buffer leaves FREE (R188). -/
def bufTake (key : Nat) (mode : BufMode) (s : State) : State :=
  s.modBuf key fun b => { b with
    mode := mode, born := b.born + 1, damaged := [], tokens := [], lines := 0, verdict := 0, stream := 0, frame := 0
    times := [], firstDone := 0, first := false, second := 0, bad := [], sigs := [], window := false }

/-- A buffer goes FREE: its queued writes are discarded (R191). -/
def bufFree (key : Nat) (s : State) : State :=
  let s := s.modBuf key fun b => { b with mode := .free, tokens := [], damaged := [] }
  { s with fs := { s.fs with writes := s.fs.writes.filter fun w => w.key != key } }

/-- A RELEASING buffer without tokens goes FREE, with its notice (R191), but for reserve entry (R212). -/
def bufReleased (key : Nat) (s : State) : State :=
  let word := s.handleWord key
  (bufFree key s).whenever (s.reg Reg.fsReleaseNotify == 1 && s.pwr.bulk) fun s => s.raise Ev.bufferReleased [word]

/-- COMPLETE buffers of a stream, newest first; the copies of windows are not among them (R186, R208). -/
def State.framesOf (s : State) (k : Nat) : List Nat :=
  let held := s.fs.bufs.filter fun e =>
    e.2.mode == .complete && e.2.stream == k && !e.2.window && pStream (s.poolRec (handlePool e.1))
  ((held.map fun e => (e.2.start, e.1)).mergeSort fun a b => decide (b.1 ≤ a.1)).map (·.2)

/-- A window holds the frame. -/
def State.windowHolds (s : State) (key : Nat) : Bool := s.fs.wins.any fun e => e.2.frames.any fun f => f.1 == key

/-- Rotation of a stream's frames (R186): beyond the three newest, without a token and in no window. -/
def rotate (k : Nat) (s : State) : State :=
  s.each (((s.framesOf k).drop 3).filter fun b => (s.buf b).tokens == [] && !s.windowHolds b) fun s b => bufFree b s

/-! Tokens (R190). -/

/-- A reader takes a token; RELEASING and LOST grant none. -/
def takeToken (key : Nat) (who : Reader) (s : State) : State :=
  let b := s.buf key
  if b.mode = .releasing ∨ b.mode = .lost ∨ b.mode = .free then s
  else s.setBuf key { b with tokens := b.tokens ++ [who] }

/-- A reader returns one token, and what waited for the last one comes about (R189, R191, R192, R186). -/
def returnToken (key : Nat) (who : Reader) (s : State) : State :=
  let b := s.buf key
  if !b.tokens.contains who then s
  else
    let s := s.setBuf key { b with tokens := b.tokens.erase who }
    if (s.buf key).tokens ≠ [] then s
    else match b.mode with
      | .releasing => bufReleased key s
      | .allocated => runWrites key s
      | .complete => rotate b.stream s
      | _ => s

/-- Every token of one reader is returned. -/
def returnAll (who : Reader) (s : State) : State :=
  s.each (s.fs.bufs.filter fun e => e.2.tokens.contains who) fun s e => returnToken e.1 who s

/-- An intake frame is abandoned (R189). -/
def abandonWrite (key : Nat) (s : State) : State :=
  let b := s.buf key
  if b.mode ≠ .writing then s
  else if b.tokens = [] then bufFree key s
  else s.setBuf key { b with mode := .releasing }

/-- Intake writes nothing more into buffers that it has lost. -/
def forgetBufs (keys : List Nat) (s : State) : State :=
  s.each (s.str.ins.map (·.1)) fun s k => s.modIns k fun i => { i with
    frame := i.frame.map fun f => { f with
      buf := f.buf.filter fun b => !keys.contains b, wins := f.wins.filter fun w => !keys.contains w.2 }
    untagged := i.untagged.map fun u => { u with bufs := u.bufs.filter fun b => !keys.contains b } }

/-- The lowest FREE buffer of a pool whose channels are in service. -/
def State.freeBuf (s : State) (p : Nat) : Option Nat :=
  (lowest (pCount (s.poolRec p)) fun i => (s.buf (p * 2 ^ 18 + i)).mode == .free).map (p * 2 ^ 18 + ·)

end Sys2Proof.Machine
end

