-- ==== Sys2Proof/Machine/RouteFields.lean ====
section
/-! DEFINITION. The fields of routes, tiles, layers and rasters (R60, R65, R253, R264, R281, R284, R307), what stands behind a
route's source, and whether a route fits its units and its destination's timing (R63, R137, R148, R149, R151 to R153, R173). -/

namespace Sys2Proof.Machine

/-! Fields of a route record (R65). -/

def rValid (r : Nat) : Bool := bit r 255
def rClass (r : Nat) : Nat := fld r 254 253
def rKind (r : Nat) : Nat := fld r 252 251
def rSrcType (r : Nat) : Nat := fld r 250 249
def rDstType (r : Nat) : Nat := fld r 248 247
/-- STORE_MODE 1: chase read. -/
def rChase (r : Nat) : Bool := bit r 246
def rStaleFallback (r : Nat) : Bool := bit r 245
def rAuthPolicy (r : Nat) : Nat := fld r 244 243
def rAuthRequired (r : Nat) : Bool := bit r 242
def rFrc (r : Nat) : Nat := fld r 241 240
def rGutter (r : Nat) : Nat := fld r 239 232
def rComp (r : Nat) : Nat := fld r 231 227
def rSrc (r : Nat) : Nat := fld r 223 200
def rConvFirst (r : Nat) : Nat := fld r 199 194
def rGang (r : Nat) : Nat := fld r 193 192
def rDst (r : Nat) : Nat := fld r 191 176
def rMaxAge (r : Nat) : Nat := fld r 175 160
def rHold (r : Nat) : Nat := fld r 159 144
def rFbType (r : Nat) : Nat := fld r 143 142
def rSrcGen (r : Nat) : Nat := fld r 135 128
def rFbSrc (r : Nat) : Nat := fld r 127 104
def rFbGen (r : Nat) : Nat := fld r 103 96
def rColour (r : Nat) : Nat := fld r 95 66
def rLabel (r : Nat) : Nat := fld r 63 32

/-- Converter units that a record names (R65, R151). -/
def rUnits (r : Nat) : List Nat :=
  if rGang r = 0 then [] else (List.range (2 ^ (rGang r - 1))).map (rConvFirst r + ·)

/-- Engine and layer of a layer destination. -/
def rEngine (r : Nat) : Nat := fld (rDst r) 9 4
def rLayer (r : Nat) : Nat := fld (rDst r) 3 0

/-- The destination is a layer, engine or Spine. -/
def rToLayer (r : Nat) : Bool := rDstType r == 1 || rDstType r == 3

/-- One number for a destination: output stream, engine and layer, or window. -/
def rDestKey (r : Nat) : Nat :=
  rDstType r * 65536 + match rDstType r with
    | 0 => fld (rDst r) 7 0
    | 2 => fld (rDst r) 5 0
    | _ => fld (rDst r) 9 0

/-- The route's boundary (R85): its destination as a boundary, for Spine and engine layers the output's. -/
def rBnd (r : Nat) : Bnd :=
  match rDstType r with
  | 0 => .stream (fld (rDst r) 7 0)
  | 2 => .window (fld (rDst r) 5 0)
  | _ => .output (rEngine r)

/-- FB_TYPE as the SRC_TYPE it stands for. -/
def fbSrcType (t : Nat) : Nat := if t = 1 then 0 else t

/-! Tables behind the records. -/

/-- Record k of STR_OUT_TABLE in force. -/
def State.outDesc (s : State) (k : Nat) : Nat := record (s.force Reg.strOutTable) 0 128 k

/-- An output stream is in use (R57). -/
def outUsed (d : Nat) : Bool := dState d == 2

/-- Record i of STR_TILE_TABLE in force. -/
def State.tileRec (s : State) (i : Nat) : Nat := record (s.force Reg.strTileTable) 0 96 i

def tValid (t : Nat) : Bool := bit t 95
def tStream (t : Nat) : Nat := fld t 94 86
def tX (t : Nat) : Nat := fld t 85 72
def tY (t : Nat) : Nat := fld t 71 58
def tW (t : Nat) : Nat := fld t 57 44
def tH (t : Nat) : Nat := fld t 43 30

/-- A tile fits the format of a descriptor (R61). -/
def tileFits (t d : Nat) : Bool :=
  let sub := dChroma d != 0
  let sub2 := dChroma d == 2 || dInterlaced d
  decide (16 ≤ tW t ∧ 16 ≤ tH t ∧ tX t + tW t ≤ dWidth d ∧ tY t + tH t ≤ dHeight d) &&
    (!sub || (tX t % 2 == 0 && tW t % 2 == 0)) && (!sub2 || (tY t % 2 == 0 && tH t % 2 == 0))

/-- The input stream behind a source of a type: the stream, or the tile's stream. -/
def State.srcStream (s : State) (type src : Nat) : Option Nat :=
  match type with
  | 0 => some (fld src 8 0)
  | 1 => some (tStream (s.tileRec (fld src 9 0)))
  | _ => none

/-- An asset stands in the NVM store and reads well (R71, R270). -/
def State.assetPresent (s : State) (id : Nat) : Bool :=
  (oget s.nvm.assets id).isSome && !s.comp.missing.contains id

/-- Width and height of a source. -/
def State.srcSize (s : State) (type src : Nat) : Nat × Nat :=
  match type with
  | 0 => let d := (s.ins (fld src 8 0)).desc; (dWidth d, dHeight d)
  | 1 => let t := s.tileRec (fld src 9 0); (tW t, tH t)
  | 2 => let r := s.poolRec (handlePool src); (pWidth r, pHeight r)
  | _ => match oget s.nvm.assets (fld src 15 0) with
    | some a => (a.width, a.height)
    | none => (0, 0)

/-- CHROMA, DEPTH, ENCODING, PRIMARIES and TRANSFER of a source, as one number of 10 bits. -/
def State.srcColour (s : State) (type src : Nat) : Nat :=
  match type with
  | 2 => pColour (s.poolRec (handlePool src))
  | 3 => 0
  | _ => match s.srcStream type src with
    | some k => dColour (s.ins k).desc
    | none => 0

/-! OUT_RASTER (R284). -/

def raMode (r : Nat) : Nat := fld r 127 126
def raSyncType (r : Nat) : Nat := fld r 125 124
def raSyncId (r : Nat) : Nat := fld r 123 115
def raCut (r : Nat) : Bool := bit r 114
def raSafety (r : Nat) : Bool := bit r 113
def raWidth (r : Nat) : Nat := fld r 112 99
def raHeight (r : Nat) : Nat := fld r 98 85
def raTotal (r : Nat) : Nat := fld r 84 71
def raRate (r : Nat) : Nat := fld r 70 55
def raOffset (r : Nat) : Nat := fld r 54 41
def raMargin (r : Nat) : Nat := fld r 40 31
def raDomain (r : Nat) : Nat := fld r 30 27
def raRefresh (r : Nat) : Nat := fld r 26 21

/-- The four fields that an engine-driven descriptor shares with its raster (R58, R286). -/
def raGeometry (r : Nat) : Nat := pack [(14, raWidth r), (14, raHeight r), (14, raTotal r), (16, raRate r)]

/-- Output lines per second, times 100: TOTAL_LINES × RATE. -/
def raLineRate (r : Nat) : Nat := raTotal r * raRate r

/-- The duration of n output lines in ns (R285). -/
def raLines (r n : Nat) : Nat := n * (100 * sec) / raLineRate r

/-- The frame period in ns. -/
def raPeriod (r : Nat) : Nat := 100 * sec / raRate r

/-! OUT_COMP_SETUP (R281). -/

/-- Engines of a gang. -/
def csGang (c : Nat) : Nat := nth [1, 2, 4, 1] (fld c 127 126) 1
def csPrimaries (c : Nat) : Nat := fld c 125 124
def csTransfer (c : Nat) : Nat := fld c 123 122
def csDither (c : Nat) : Bool := bit c 121
def csBackground (c : Nat) : Nat := fld c 119 90

/-! Layer records (R253) and zones (R264). -/

def lrEnable (l : Nat) : Bool := bit l 191
def lrZ (l : Nat) : Nat := fld l 190 187
def lrRotate (l : Nat) : Nat := fld l 186 185
def lrMirrorH (l : Nat) : Bool := bit l 184
def lrMirrorV (l : Nat) : Bool := bit l 183
def lrAlphaSrc (l : Nat) : Nat := fld l 182 181
def lrAlpha (l : Nat) : Nat := fld l 180 173
def lrX (l : Nat) : Nat := fld l 159 146
def lrY (l : Nat) : Nat := fld l 145 132
def lrW (l : Nat) : Nat := fld l 131 118
def lrH (l : Nat) : Nat := fld l 117 104
def lrKey (l : Nat) : Nat := fld l 95 66
def lrAlphaHandle (l : Nat) : Nat := fld l 63 32

def znValid (z : Nat) : Bool := bit z 95
def znX (z : Nat) : Nat := fld z 94 81
def znY (z : Nat) : Nat := fld z 80 67
def znW (z : Nat) : Nat := fld z 66 53
def znH (z : Nat) : Nat := fld z 52 39
def znColour (z : Nat) : Nat := fld z 38 9

def layerRec (t i : Nat) : Nat := record t 0 192 i
def zoneRec (t i : Nat) : Nat := record t 0 96 i
def spineRec (t i : Nat) : Nat := record t 768 192 i

/-! Watch records (R307). -/

def waMode (w : Nat) : Nat := fld w 191 190
def waSpine (w : Nat) : Bool := bit w 189
def waLayer (w : Nat) : Nat := fld w 188 185
def waLimit (w : Nat) : Nat := fld w 184 177
def waX (w : Nat) : Nat := fld w 176 163
def waY (w : Nat) : Nat := fld w 162 149
def waW (w : Nat) : Nat := fld w 148 135
def waH (w : Nat) : Nat := fld w 134 121
def waExpected (w : Nat) : Nat := fld w 95 64
def watchRec (t i : Nat) : Nat := record t 0 192 i

/-- The tables of an output that are in force. -/
def State.outTables (s : State) (n : Nat) : OutQueued :=
  { setup := s.force (Reg.outCompSetup n), layers := s.force (Reg.outLayerTable n)
    spine := s.force (Reg.outSpineTable n), raster := s.force (Reg.outRaster n)
    watch := s.force (Reg.outWatchTable n), c0 := false, late := false, state := 0 }

/-- The tables that stand once a queued commit has applied (R302). -/
def State.outPlan (s : State) (n : Nat) : OutQueued :=
  match (s.outp n).queued with
  | some q => q
  | none => s.outTables n

/-- The raster record in force. -/
def State.rasterOf (s : State) (n : Nat) : Nat := s.force (Reg.outRaster n)

/-- The output stream that an engine drives (R57). -/
def State.engineStream (s : State) (n : Nat) : Option Nat :=
  lowest 256 fun k => let d := s.outDesc k; outUsed d && dEngineDriven d && dEngine d == n

/-! Converter loads (R151 to R153). Rates are times 100, as RATE counts them. -/

/-- Stripe i of g over a width: its columns (R152, R273). -/
def stripe (width g i : Nat) : Nat := min (divUp width g) (width - i * divUp width g)

/-- What a destination asks of a converter or a locked read: width, height, total lines, rate. -/
structure Timing where
  width : Nat
  height : Nat
  total : Nat
  rate : Nat
  deriving DecidableEq, Repr

/-- The timing of a route's destination (R153): the descriptor of its output stream, or the raster record and the
destination rectangle of its layer under the tables given. -/
def destTiming (s : State) (plan : Nat → OutQueued) (r : Nat) : Timing :=
  if rToLayer r then
    let t := plan (rEngine r)
    let l := if rDstType r = 1 then layerRec t.layers (rLayer r) else spineRec t.spine (rLayer r)
    ⟨lrW l, lrH l, raTotal t.raster, raRate t.raster⟩
  else
    let d := s.outDesc (fld (rDst r) 7 0)
    ⟨dWidth d, dHeight d, dTotal d, dRate d⟩

/-- The deinterlacer works motion-adaptively for a record whose source is interlaced (R149). -/
def motionAdaptive (s : State) (r setup : Nat) : Bool :=
  match s.srcStream (rSrcType r) (rSrc r) with
  | some k => dInterlaced (s.ins k).desc && rKind r == 2 && (fld setup 115 114 != 1)
  | none => false

/-- Source frames read per output pixel: f of R153. -/
def readsPerFrame (s : State) (r setup : Nat) : Nat :=
  let blend := rGang r != 0 && rFrc r == 2
  let ma := rGang r != 0 && motionAdaptive s r setup
  if blend && ma then 3 else if blend || ma then 2 else 1

/-- Widest input stripe of member i of a gang of g, seam columns included (R152). -/
def inputStripe (wIn wOut g i : Nat) : Nat :=
  divUp (wIn * stripe wOut g i) wOut + 8 * ((if i = 0 then 0 else 1) + (if i + 1 = g then 0 else 1))

/-- The load of member i of a record's gang, in 0.01 pixel/s (R153). -/
def memberLoad (s : State) (plan : Nat → OutQueued) (r setup i : Nat) : Nat :=
  let g := (rUnits r).length
  let size := s.srcSize (rSrcType r) (rSrc r)
  let d := destTiming s plan r
  let line := d.total * d.rate
  let f := readsPerFrame s r setup
  let wS := inputStripe size.1 d.width g i
  let lambdaIn := match rKind r, s.srcStream (rSrcType r) (rSrc r) with
    | 1, some k => wS * (dTotal (s.ins k).desc * dRate (s.ins k).desc) * f
    | _, _ => divUp (wS * (size.2 * line) * f) (max 1 d.height)
  max lambdaIn (stripe d.width g i * line)

/-- A record's gang keeps R153: 1.2 Gpix/s in each member and stripes of at most 4,096 pixels. -/
def loadOk (s : State) (plan : Nat → OutQueued) (r setup : Nat) : Bool :=
  let g := (rUnits r).length
  let size := s.srcSize (rSrcType r) (rSrc r)
  let d := destTiming s plan r
  (List.range g).all fun i =>
    decide (memberLoad s plan r setup i ≤ 1200000000 * 100 ∧ inputStripe size.1 d.width g i ≤ 4096 ∧
      stripe d.width g i ≤ 4096)

/-- The load at the destination's timing in force and, where a commit waits, at the timing it brings; a layer whose rectangle is not set
has none yet. -/
def loadsOk (s : State) (r setup : Nat) : Bool :=
  let d := destTiming s s.outTables r
  (d.width == 0 || d.height == 0 || loadOk s s.outTables r setup) && loadOk s s.outPlan r setup

/-- Both ratios lie between 1/16 and 16 (R137). -/
def ratioOk (s : State) (plan : Nat → OutQueued) (r : Nat) : Bool :=
  let size := s.srcSize (rSrcType r) (rSrc r)
  let d := destTiming s plan r
  decide (0 < size.1 ∧ 0 < size.2 ∧ 0 < d.width ∧ 0 < d.height ∧ d.width ≤ 16 * size.1 ∧ size.1 ≤ 16 * d.width ∧
    d.height ≤ 16 * size.2 ∧ size.2 ≤ 16 * d.height)

/-- The rate at which a source's frames or fields come (R148). -/
def frameRate (d : Nat) : Nat := if dInterlaced d then 2 * dRate d else dRate d

/-- The destination of a record is locked to the timing of its source stream at the same RATE (R63). -/
def lockedTo (s : State) (plan : Nat → OutQueued) (r : Nat) : Bool :=
  match s.srcStream (rSrcType r) (rSrc r) with
  | none => false
  | some k =>
    let d := (s.ins k).desc
    if rToLayer r then
      let a := (plan (rEngine r)).raster
      raMode a == 1 && raSyncType a == 2 && raSyncId a == k && raRate a == frameRate d
    else dRate (s.outDesc (fld (rDst r) 7 0)) == frameRate d

/-- The conditions of R63 that depend on the destination's timing. -/
def kindTiming (s : State) (plan : Nat → OutQueued) (r : Nat) : Bool :=
  match rKind r with
  | 0 =>
    if rDstType r = 3 then
      let l := spineRec (plan (rEngine r)).spine (rLayer r)
      lockedTo s plan r && (lrW l, lrH l) == s.srcSize (rSrcType r) (rSrc r)
    else true
  | 1 => lockedTo s plan r
  | 2 => !(rChase r && rSrcType r < 2) || rDstType r == 2 || lockedTo s plan r
  | _ => true

/-- The route's deinterlacer is not asked for motion-adaptive work on a converted route (R149). -/
def deintOk (s : State) (r : Nat) : Bool :=
  !(rKind r == 1 && fld (s.force (Reg.convSetup (rConvFirst r))) 115 114 == 2 &&
    match s.srcStream (rSrcType r) (rSrc r) with
    | some k => dInterlaced (s.ins k).desc
    | none => false)

/-- A record with another source of a type in the place of its own: what its units and destination would take. -/
def withSource (r type src : Nat) : Nat := putFld (putFld r 250 249 type) 223 200 src

/-- The units of a record still bring a stream to its destination (R137, R149, R153, R173); a layer that is not enabled asks
for nothing. -/
def State.unitsFit (s : State) (r type src : Nat) : Bool :=
  let v := withSource r type src
  let t := s.outTables (rEngine r)
  let l := if rDstType r = 1 then layerRec t.layers (rLayer r) else spineRec t.spine (rLayer r)
  rGang r == 0 || decide (2 ≤ type) || rDstType r == 2 || (rToLayer r && !lrEnable l) ||
    (ratioOk s s.outTables v && loadOk s s.outTables v (s.force (Reg.convSetup (rConvFirst r))) && deintOk s v)

end Sys2Proof.Machine
end

