-- ==== Sys2Proof/Machine/RouteCore.lean ====
section
/-! DEFINITION. Routes: what makes a source usable (R71, R77),
and the orphan sequence (R69, R72 to R76). -/

namespace Sys2Proof.Machine

/-! Functions under the quiesce contract (R595). -/

/-- A converter unit is Active. -/
def State.unitActive (s : State) (u : Nat) : Bool := s.pwr.bulk && !s.pwr.warm && (s.unit u).mode == .active

/-- A converter unit works for the route that holds it: Active, or Draining with its last frame (R171). -/
def State.unitServes (s : State) (u : Nat) : Bool :=
  s.pwr.bulk && !s.pwr.warm && ((s.unit u).mode == .active || (s.unit u).mode == .draining)

/-- ROLE in force of a compression engine (R243): 0 off, 1 frame store, 2 link. -/
def State.cmpRole (s : State) (e : Nat) : Nat := fld (s.force (Reg.cmpSetup e)) 127 126

/-- A compression engine works for its users: Active, or Draining with their frames in progress (R240). -/
def State.engineServes (s : State) (e : Nat) : Bool :=
  s.pwr.bulk && !s.pwr.warm && ((s.engine e).mode == .active || (s.engine e).mode == .draining) && s.cmpRole e != 0

/-- A compression engine is Active. -/
def State.engineActive (s : State) (e : Nat) : Bool := s.pwr.bulk && !s.pwr.warm && (s.engine e).mode == .active && s.cmpRole e != 0

/-- The frame store is in service. -/
def State.storeActive (s : State) : Bool := s.pwr.bulk && !s.pwr.warm && s.fs.mode == .inService

/-- Units, engine and frame store that a record names serve it, and the shared plane, which carries C1 to C3, has power (R21,
R40; log entry 53). -/
def State.resourcesActive (s : State) (r : Nat) : Bool :=
  (rClass r == 0 || s.pwr.bulk) && (rUnits r).all s.unitServes && (rComp r == 0x1F || s.engineServes (rComp r)) && (rKind r != 2 || s.storeActive)

/-- A port on the way of a record is isolated (R127): Spine ports for class C0, in the order of R101 with egress ports from
128, and the shared ports of its lanes for the others. -/
def State.portsBlocked (s : State) (r type src : Nat) : Bool :=
  let lanes (d : Nat) : List Nat := (List.range (2 ^ dBond d)).map (dLane d + ·)
  let c0 := rClass r == 0
  let spine (p : Nat) : Bool := c0 && s.fab.spineIsolated.contains p
  let into := match s.srcStream type src with
    | some k => if rKind r = 2 then [] else lanes (s.ins k).desc
    | none => []
  let out := if rDstType r = 0 then lanes (s.outDesc (fld (rDst r) 7 0)) else []
  let pool := if type = 2 then some (handlePool src) else if rKind r = 2 then (match s.srcStream type src with
    | some k => s.streamPool k
    | none => none) else none
  let chans := match pool with
    | some p => (List.range 8).filter (bit (pChannels (s.poolRec p)))
    | none => []
  (into.any fun n => spine n || (!c0 && (s.port n).isolated)) ||
    (out.any fun n => spine (128 + n) || (!c0 && (s.port n).isolated)) ||
    ((rUnits r).any fun u => spine (32 + u) || spine (176 + u)) ||
    (chans.any fun k => spine (80 + k) || spine (224 + k)) ||
    (rDstType r == 3 && spine (160 + rEngine r / 4))

/-- The output engine of a layer is ready to show it: not Idle, isolated or unpowered (R278). -/
def State.outputActive (s : State) (r : Nat) : Bool :=
  rDstType r != 1 || (match (s.outp (rEngine r)).comp with
    | .idle | .isolated | .unpowered | .reserve => false
    | _ => true)

/-! Whether the source of a route is verified (R77). -/

/-- AUTH of an input stream (R54): its partner is authenticated, and the stream is there. -/
def State.streamAuth (s : State) (k : Nat) : Bool :=
  let i := s.ins k
  i.mode != .absent && i.mode != .gone && (s.link (s.calLane (dLane i.desc))).authenticated

/-- A stream counts as unverified for a record (R77): a tag is missing or failed while AUTH or AUTH_REQUIRED is set, or its
session failed to re-authenticate. A tag under a session keyed from a slot without C0_PERMITTED (`tagState` 3) counts as
missing for a C0 route (R518). -/
def State.srcUnverified (s : State) (r k : Nat) : Bool :=
  let i := s.ins k
  let bad := i.tagState == 2 || (i.tagState == 3 && rClass r == 0)
  i.lapsed || (s.streamAuth k && bad) || (rAuthRequired r && (bad || i.bare))

/-- A stored frame whose tag failed for a record, or that came without the tag the record requires (R77, R78, R518). -/
def tagBad (r : Nat) (b : Buffer) : Bool :=
  b.verdict == 3 || (b.verdict == 4 && rClass r == 0) || (b.verdict == 5 && rAuthRequired r)

/-! Usability (R71), as the REASON of R68 for which a source is not usable; 0 is usable. -/

/-- The pool of a stored stream fits its format (R185). -/
def State.poolFits (s : State) (k : Nat) : Bool :=
  match s.streamPool k with
  | some p =>
    let r := s.poolRec p
    let d := (s.ins k).desc
    pWidth r == dWidth d && pHeight r == dHeight d && pColour r == dColour d && (pComp r == 0x1F || codedOk d)
  | none => false

/-- The pool of the window that a record feeds fits its source (R208). -/
def State.windowFits (s : State) (r type src k : Nat) : Bool :=
  let p := s.poolRec (fld (s.winRec (fld (rDst r) 5 0)) 126 121)
  (pWidth p, pHeight p) == s.srcSize type src && pColour p == dColour (s.ins k).desc &&
    (pComp p == 0x1F || codedHeightOk (if dInterlaced (s.ins k).desc then pHeight p / 2 else pHeight p) (pChroma p))

/-- The format of stream k does not fit what the record makes of it: its tile (R61), its pool (R185), its units (R173). -/
def State.misfit (s : State) (r type src k : Nat) : Bool :=
  (type == 1 && !tileFits (s.tileRec (fld src 9 0)) (s.ins k).desc) ||
    (rKind r == 2 && !(if rDstType r = 2 then s.windowFits r type src k else s.poolFits k)) || !s.unitsFit r type src

/-- Why a stream, for a record with a source of a type, is not a usable source. A format that does not fit counts before the
wait for a frame of it (R61, R173, R185). -/
def State.streamReason (s : State) (r type src k : Nat) : Nat :=
  match (s.ins k).mode with
  | .absent | .gone => 1
  | .unsupported => 3
  | m => if s.misfit r type src k then 3 else if m = .live then 0 else 2

/-- Why the source or the fallback of a record, of a type and number, is not usable; resources that the record names
count as its own. -/
def State.srcReason (s : State) (r type src gen : Nat) : Nat :=
  let own := match type with
    | 0 => s.streamReason r 0 src (fld src 8 0)
    | 1 =>
      let t := s.tileRec (fld src 9 0)
      if !tValid t then 1 else s.streamReason r 1 src (tStream t)
    | 2 => if s.bufUsable (src % 2 ^ 24) gen then 0 else 1
    | _ => if s.assetPresent (fld src 15 0) then 0 else 1
  if own ≠ 0 then own
  else if rDstType r = 0 && s.str.unfit.contains (fld (rDst r) 7 0) then 6
  else if (match type, s.srcStream type src with
    | 2, _ => s.fs.overPools.contains (handlePool src)
    | _, some k => rKind r == 2 && (match s.streamPool k with
      | some p => s.fs.overPools.contains p
      | none => false)
    | _, none => false) then 6
  else if type ≠ 3 && (!s.resourcesActive r || s.portsBlocked r type src) then (if s.pwr.bulk then 6 else 7)
  else if type ≠ 3 && !s.outputActive r then 6
  else match s.srcStream type src with
    | some k => if s.srcUnverified r k && rAuthPolicy r = 0 then 4 else 0
    | none => 0

/-- Why the source of a record is not usable. -/
def State.sourceReason (s : State) (r : Nat) : Nat := s.srcReason r (rSrcType r) (rSrc r) (rSrcGen r)

/-- The fallback of a record is usable (R71, R73). -/
def State.fallbackUsable (s : State) (r : Nat) : Bool :=
  rFbType r != 0 && s.srcReason r (fbSrcType (rFbType r)) (rFbSrc r) (rFbGen r) == 0

/-- The state as route r sees its tile: a committed change waits for the destination's boundary (R62). -/
def State.seen (s : State) (r : Nat) : State :=
  let x := s.route r
  if x.tileDue then
    let t := fld (rSrc x.image) 9 0
    s.setForce Reg.strTileTable (putFld (s.force Reg.strTileTable) (96 * t + 95) (96 * t) x.tile)
  else s

/-! The orphan sequence (R69, R72). -/

/-- Showing states. -/
def rtShowing : RtMode → Bool
  | .active | .unverified => true
  | _ => false

def rtOrphaned : RtMode → Bool
  | .hold | .fallback | .colour => true
  | _ => false

/-- The type and number of the source that a route shows: its own, or its fallback. -/
def shownSource (s : State) (r : Nat) : Option (Nat × Nat) :=
  let x := s.route r
  match x.mode with
  | .active | .unverified => some (rSrcType x.image, rSrc x.image)
  | .fallback => some (fbSrcType (rFbType x.image), rFbSrc x.image)
  | _ => none

/-- A route changes state at the present DT. -/
def rtMove (r : Nat) (mode : RtMode) (reason : Nat) (s : State) : State :=
  s.modRoute r fun x => { x with mode := mode, reason := reason, since := s.dt }

/-- What a route reads for its destination is read: its tokens, and those of its units, are returned (R190). -/
def rtReadDone (r : Nat) (s : State) : State :=
  let x := s.route r
  let who := Reader.dest (rDestKey x.image)
  let s := match x.shown with
    | some f =>
      (f.buf :: (f.mix.map fun (m : Nat × Nat × Nat) => m.1).toList ++ f.alpha.toList).foldl (fun s b => returnToken b who s) s
    | none => s
  s.each x.units fun s u => returnAll (.conv u) s

/-- The frame shown before is released. -/
def rtDropShown (r : Nat) (s : State) : State := (rtReadDone r s).modRoute r fun x => { x with shown := none }

/-- The buffer of a choice still holds the frame that was chosen. -/
def shownIntact (s : State) (c : Shown) : Bool :=
  let b := s.buf c.buf
  match b.mode with
  | .complete | .writing => c.start == b.start || c.start == b.second
  | .allocated | .releasing => true
  | _ => false

/-- HOLD ends: its token is returned (R190). -/
def rtEndHold (r : Nat) (s : State) : State :=
  if (s.route r).mode = .hold then (returnAll (.hold r) s).modRoute r fun x => { x with holdEnd := none } else s

/-- FALLBACK, or COLOUR when no fallback is usable, with their events (R69, R74). -/
def rtFall (r reason : Nat) (s : State) : State :=
  let x := s.route r
  let s := rtEndHold r s
  if s.fallbackUsable x.image then
    ((rtMove r .fallback reason s).count Reg.rtFallbackTotal 1).raise Ev.routeFallback [r]
  else
    let s := (rtMove r .colour reason s).raise Ev.routeFallback [r]
    if rToLayer x.image then s.raise (Ev.noSource (rEngine x.image)) [r] else s

/-- A last frame can be kept (R72). -/
def rtCanHold (x : Route) (reason : Nat) : Bool :=
  reason != 7 && (rKind x.image == 2 || ((rKind x.image == 0 || rKind x.image == 1) && rDstType x.image == 0))

/-- The chosen first frame of a take is given up (R86). -/
def rtDropFirst (r : Nat) (s : State) : State :=
  match (s.route r).first with
  | some b => (returnToken b (.take r) s).modRoute r fun x => { x with first := none }
  | none => s

/-- Under BLOCK the hold shows a frame that verified earlier (R79): the one shown when its tag has not failed, else the newest
stored frame of the source with a valid tag. -/
def rtHoldVerified (r : Nat) (s : State) : State :=
  let x := s.route r
  let bad : Bool := match x.shown with
    | some f => tagBad x.image (s.buf f.buf)
    | none => true
  if rKind x.image ≠ 2 || !bad then s
  else
    let s := rtDropShown r s
    match s.srcStream (rSrcType x.image) (rSrc x.image) with
    | some k =>
      match (s.framesOf k).find? fun b => (s.buf b).verdict == 2 || ((s.buf b).verdict == 4 && rClass x.image != 0) with
      | some b => (takeToken b (.dest (rDestKey x.image)) s).modRoute r fun x => { x with
          shown := some { buf := b, start := (s.buf b).start } }
      | none => s
    | none => s

/-- SOURCE_LOST (R69). A stored route under BLOCK that has no verified frame has none to hold (R79). -/
def rtLose (r reason : Nat) (s : State) : State :=
  let s := (s.count Reg.rtOrphanTotal 1).raise Ev.routeOrphaned [r, reason]
  let s := (rtDropFirst r s).modRoute r fun x => { x with
    usableSince := none, returnDue := false, shown := x.shown.filter (shownIntact s) }
  let s := if reason = 4 then rtHoldVerified r s else s
  let x := s.route r
  if rtCanHold x reason && rHold x.image != 0 && !(reason == 4 && rKind x.image == 2 && x.shown.isNone) then
    let s := rtMove r .hold reason s
    let s := match x.shown with
      | some f => takeToken f.buf (.hold r) s
      | none => s
    s.modRoute r fun x => { x with
      holdEnd := if rHold x.image = 0xFFFF then none else some (s.dt + rHold x.image * ms) }
  else rtFall r reason s

/-- What a change of sources means for one route (R69): it loses its source, its fallback, becomes verified or unverified,
or its source is usable again. A freed buffer acts at the boundary only (R191), and so does the policy of a tag that failed:
from the next frame (R78). -/
def rtCheck (atBoundary : Bool) (r : Nat) (s : State) : State :=
  let x := s.route r
  let v := s.seen r
  let reason := v.sourceReason x.image
  let bad : Bool := match v.srcStream (rSrcType x.image) (rSrc x.image) with
    | some k => s.srcUnverified x.image k
    | none => false
  match x.mode with
  | .active | .unverified =>
    if reason ≠ 0 ∧ (atBoundary ∨ (reason ≠ 4 ∧ (rSrcType x.image ≠ 2 ∨ reason ≠ 1))) then
      let s := if reason = 4 then s.raise Ev.routeUnverified [r] else s
      rtLose r reason s
    else if !atBoundary then s
    else if x.mode = .active ∧ bad then (rtMove r .unverified 4 s).raise Ev.routeUnverified [r]
    else if x.mode = .unverified ∧ !bad then rtMove r .active 0 s
    else s
  | .hold | .fallback | .colour =>
    let s := if x.mode = .fallback && !s.fallbackUsable x.image then
        let s := (rtMove r .colour x.reason s).raise Ev.routeFallback [r]
        if rToLayer x.image then s.raise (Ev.noSource (rEngine x.image)) [r] else s
      else s
    if reason = 0 then
      match x.usableSince with
      | some _ => s
      | none => s.modRoute r fun x => { x with
          usableSince := some s.dt, returnDue := decide (s.reg Reg.rtRestoreDelay = 0) }
    else s.modRoute r fun x => { x with usableSince := none, returnDue := false }
  | _ => s

/-- The routes that are not EMPTY. -/
def State.routeKeys (s : State) : List Nat := (s.str.routes.filter fun e => e.2.mode != .empty).map (·.1)

/-- Sources may have changed: every route is looked at. -/
def recheck (s : State) : State := s.each s.routeKeys fun s r => rtCheck false r s

/-- SOURCE_RETURNED at the destination boundary (R69, R76). -/
def rtReturn (r : Nat) (s : State) : State :=
  let x := s.route r
  if rtOrphaned x.mode && x.returnDue && (s.seen r).sourceReason x.image == 0 && (rUnits x.image).all s.unitActive then
    let s := rtEndHold r s
    let s := (rtMove r .active 0 s).raise Ev.routeRestored [r]
    s.modRoute r fun x => { x with usableSince := none, returnDue := false }
  else s

/-- An apply that waits at a converter unit takes effect (R170). -/
def unitApply (u : Nat) (s : State) : State :=
  match (s.unit u).wait with
  | some (setup, tables) =>
    ((s.modUnit u fun v => { v with wait := none }).setForce (Reg.convSetup u) setup).setForce (Reg.convTables u) tables
  | none => s

/-- A route gives up a unit; an apply that waits there takes effect at once (R168, R170). -/
def unitRelease (r u : Nat) (s : State) : State :=
  if (s.unit u).holder = some r then unitApply u (s.modUnit u fun v => { v with holder := none }) else s

/-- A route ends: units, tokens and shown frames are given up. -/
def rtClear (r : Nat) (s : State) : State :=
  let s := rtEndHold r (rtDropShown r (rtDropFirst r s))
  let s := s.each (s.route r).units fun s u => unitRelease r u s
  s.setRoute r { gen := ((s.route r).gen + 1) % 65536, since := s.dt, flip := (s.route r).flip }

/-! The route table as it reads (R65), and the ROUTE_DIGEST record (R582). -/

/-- STATE of a route record. -/
def rtCode : RtMode → Nat
  | .empty => 0
  | .pending => 1
  | .active => 2
  | .unverified => 3
  | .hold => 4
  | .fallback => 5
  | .colour => 6
  | .stopped => 7

/-- Record r of RT_TABLE. -/
def State.rtRecord (s : State) (r : Nat) : Nat :=
  let x := s.route r
  x.image + x.gen * 2 ^ 16 + rtCode x.mode * 2 ^ 12 + x.reason * 2 ^ 8

/-- RT_TABLE, RT_DIGEST and RT_ACTIVE_COUNT. -/
def State.rtTable (s : State) : Nat := packRecords 256 ((List.range 2048).map s.rtRecord)
def State.rtDigest (s : State) : Nat := crc32c (leBytes 65536 s.rtTable)
def State.rtActive (s : State) : Nat := (s.str.routes.filter fun e => rtShowing e.2.mode).length

/-- A ROUTE_DIGEST record is written. -/
def routeDigest (s : State) : State :=
  let d := s.rtDigest
  let one (r : Nat) : List Nat :=
    let x := s.route r
    leBytes 2 r ++ [rClass x.image, rtCode x.mode * 16 + x.reason] ++ leBytes 4 (rLabel x.image) ++ leBytes 2 x.gen
  cbWrite 4 (leBytes 4 d ++ leBytes 2 s.rtActive ++ s.routeKeys.flatMap one) { s with cb := { s.cb with lastDigest := some d } }

/-! What uses a lane, a stream, a unit (R50, R362, R168). -/

/-- Images of the routes that are not EMPTY and of the SET and SOURCE takes that wait. -/
def State.liveImages (s : State) : List Nat :=
  (s.str.routes.filter fun e => rValid e.2.image).map fun e => e.2.image

def State.waitingImages (s : State) : List Nat :=
  s.str.groups.flatMap fun g => (g.takes.filter fun k => k.applied.isNone && k.op != 1).map fun k => k.image

/-- An image names an input stream, by its source, its fallback or a tile. -/
def imageNames (s : State) (k image : Nat) : Bool :=
  s.srcStream (rSrcType image) (rSrc image) == some k || (rFbType image == 1 && fld (rFbSrc image) 8 0 == k)

/-- The safe records as they are stored (R629): 32 × RECORDS bytes from 0x04. -/
def State.safeRecords (s : State) : List Nat :=
  (List.range (nth s.nvm.safe 2 0)).map fun i => leNat ((s.nvm.safe.drop (4 + 32 * i)).take 32)

/-- A route, fallback, tile or safe record names the stream (R50). -/
def State.streamNamed (s : State) (k : Nat) : Bool :=
  let i := s.ins k
  (s.liveImages ++ s.waitingImages).any (imageNames s k) ||
    (List.range 1024).any (fun t => let x := s.tileRec t; tValid x && tStream x == k) ||
    s.safeRecords.any fun r => rSrcType r == 0 && rLabel r == i.identity && fld (rSrc r) 7 0 == i.number

/-- The lanes of an input or output descriptor (R54). -/
def dLanes (d : Nat) : List Nat := (List.range (2 ^ dBond d)).map (dLane d + ·)

/-- An image uses a lane: by a source, a fallback, or its output stream, the engine's own for a layer (R362). -/
def imageUsesLane (s : State) (lane image : Nat) : Bool :=
  let fromLane := (List.range 512).any fun k =>
    (s.ins k).mode != .absent && (dLanes (s.ins k).desc).contains lane && imageNames s k image
  let toLane := (List.range 256).any fun k =>
    let d := s.outDesc k
    outUsed d && (dLanes d).contains lane &&
      ((rDstType image == 0 && fld (rDst image) 7 0 == k) ||
        (rToLayer image && dEngineDriven d && dEngine d == rEngine image))
  fromLane || toLane

/-- A route uses the lane. -/
def laneUsed (s : State) (lane : Nat) : Bool := s.liveImages.any (imageUsesLane s lane)

/-- A pending take uses the lane. -/
def lanePending (s : State) (lane : Nat) : Bool := s.waitingImages.any (imageUsesLane s lane)

end Sys2Proof.Machine
end

