-- ==== Sys2Proof/Machine/OutCore.lean ====
section
/-! DEFINITION. Records of an output and the rules that they keep with the routes that feed it: composition (R246, R253 to
R260, R264 to R267, R273), raster (R284 to R289, R296), freeze watch (R307, R308), and converter loads (R137, R151 to
R153). The codes are those of R83. -/

namespace Sys2Proof.Machine

/-! Automatic OFFSET (R288). -/

/-- Whole position and phase of a position num / den (R138); exact halves of a phase round up, and a phase of 64 is phase 0 of the next. -/
def tapAt (num : Int) (den : Nat) : Int × Nat :=
  let q := num / (den : Int)
  let r := (num - q * (den : Int)).toNat
  let p := (128 * r + den) / (2 * den)
  if p = 64 then (q + 1, 0) else (q, p)

/-- The position of output line k of hOut in a source of hIn lines that lies off by quarters of a line (R138, R149). -/
def lineAt (hIn hOut k : Nat) (quarter : Int) : Int × Nat :=
  tapAt (2 * ((((2 * k + 1) * hIn : Nat) : Int) - (hOut : Int)) + quarter * (hOut : Int)) (4 * hOut)

/-- The last line of the filter window of output line k (R138, R158), or the line itself without units. -/
def windowEnd (hIn hOut k : Nat) (units : Bool) (quarter : Int) : Nat :=
  if units then (min ((lineAt hIn hOut k quarter).1 + 3) ((hIn - 1 : Nat) : Int)).toNat
  else min k (hIn - 1)

/-- Converter delay in input line periods (R159). -/
def convDelay (gang : Nat) (interlaced : Bool) : Nat := 4 + (if gang > 1 then 1 else 0) + (if interlaced then 1 else 0)

/-- Lines of OFFSET that one route asks for, with its layer record (R288); 0 for one that asks for none. Of an interlaced source the top
field ends its windows later. -/
def routeNeed (s : State) (a r l : Nat) : Nat :=
  match s.srcStream (rSrcType r) (rSrc r) with
  | none => 0
  | some k =>
    let d := (s.ins k).desc
    let units := rGang r != 0
    let hIn := (if dInterlaced d then 1 else 2) * (s.srcSize (rSrcType r) (rSrc r)).2 / 2
    let inLines := dTotal d * dRate d
    let at_ (lines extra : Nat) (y : Nat) : Nat :=
      divUp (lines * raLineRate a) (max 1 inLines) + extra - y
    let streamed := rKind r == 0 || rKind r == 1
    if !(streamed || (rKind r == 2 && rChase r)) || raMode a != 1 then 0
    else (List.range (lrH l)).foldl (fun m j =>
      let n := windowEnd hIn (lrH l) j units (if dInterlaced d then 1 else 0)
      let need := if streamed then
          at_ (n + 1 + if units then convDelay (2 ^ (rGang r - 1)) (dInterlaced d) else 0)
            (2 + if units then 1 else 0) (lrY l + j)
        else at_ (min (n + 1 + rGutter r) hIn) 3 (lrY l + j)
      max m need) 0

/-- The image that feeds a layer. -/
def feeding (images : List Nat) (type n i : Nat) : Option Nat :=
  images.find? fun r => rDstType r == type && rEngine r == n && rLayer r == i

/-- Layers of an output with their records and the images that feed them: engine layers, then Spine layers. -/
def fedLayers (t : OutQueued) (images : List Nat) (n : Nat) : List (Bool × Nat × Nat × Nat) :=
  let one (spine : Bool) (i l : Nat) : List (Bool × Nat × Nat × Nat) :=
    if lrEnable l then match feeding images (if spine then 3 else 1) n i with
      | some r => [(spine, i, l, r)]
      | none => []
    else []
  (List.range 16).flatMap (fun i => one false i (layerRec t.layers i)) ++
    (List.range 8).flatMap fun i => one true i (spineRec t.spine i)

/-- The OFFSET that the layers of an output need (R288, R289). -/
def offsetNeed (s : State) (t : OutQueued) (images : List Nat) (n : Nat) : Nat :=
  (fedLayers t images n).foldl (fun m x => max m (routeNeed s t.raster x.2.2.2 x.2.2.1)) 0

/-! Rules of layers (R254 to R256, R265). -/

/-- Which of ROTATE, MIRROR_H, MIRROR_V a source of a record allows (R256): a stored age-bounded source without units and
an asset allow all, others MIRROR_H alone. -/
def rotatable (r type : Nat) : Bool :=
  type == 3 || (rKind r == 2 && !(rChase r && type < 2) && rGang r == 0)

def orientOk (l r : Nat) : Bool :=
  (lrRotate l == 0 && !lrMirrorV l) ||
    (rotatable r (rSrcType r) && (rFbType r == 0 || rotatable r (fbSrcType (rFbType r))))

/-- ALPHA_SRC 2 is for a route with an asset source or an asset fallback (log entry 22), ALPHA_SRC 3 for an engine layer with a
stored buffer source and no units (R255). -/
def alphaOk (spine : Bool) (l r : Nat) : Bool :=
  (lrAlphaSrc l != 2 || rSrcType r == 3 || rFbType r == 3) &&
    (lrAlphaSrc l != 3 || (!spine && rKind r == 2 && rSrcType r == 2 && rGang r == 0))

/-- The alpha plane's pool fits the source buffer's pool (R255). -/
def alphaPool (s : State) (l r : Nat) : Bool :=
  lrAlphaSrc l != 3 ||
    (let p := s.poolRec (fld (lrAlphaHandle l) 31 26)
     let q := s.poolRec (handlePool (rSrc r))
     pValid p && !pStream p && pEncoding p == 1 && pChroma p == 2 && pDepth p == 0 && pWidth p == pWidth q &&
       pHeight p == pHeight q)

/-- A source without units fits the working format and its rectangle (R251). -/
def fetchOk (s : State) (t : OutQueued) (l r type src : Nat) : Bool :=
  rGang r != 0 || type == 3 ||
    (let c := s.srcColour type src
     let size := s.srcSize type src
     let turned := lrRotate l == 1 || lrRotate l == 3
     fld c 3 2 == csPrimaries t.setup && fld c 1 0 == csTransfer t.setup &&
       (if turned then (size.2, size.1) else size) == (lrW l, lrH l))

/-- The rules of R255 and R256 for a layer record and the image that feeds it, which refuse with 0x05. -/
def layerSuits (spine : Bool) (l r : Nat) : Bool := orientOk l r && alphaOk spine l r

/-- The rules of R251 and R255, which refuse with 0x0D: source and fallback reach the layer. -/
def layerReached (s : State) (t : OutQueued) (l r : Nat) : Bool :=
  alphaPool s l r && fetchOk s t l r (rSrcType r) (rSrc r) &&
    (rFbType r == 0 || fetchOk s t l r (fbSrcType (rFbType r)) (rFbSrc r))

/-- The record of the layer that an image feeds, be the layer enabled or not. -/
def fedRecord (t : OutQueued) (r : Nat) : Nat :=
  if rDstType r = 3 then spineRec t.spine (rLayer r) else layerRec t.layers (rLayer r)

def rectIn (x y w h aw ah : Nat) : Bool := decide (x + w ≤ aw ∧ y + h ≤ ah)

/-- Two rectangles share a pixel. -/
def rectsMeet (a b : Nat × Nat × Nat × Nat) : Bool :=
  decide (a.1 < b.1 + b.2.2.1 ∧ b.1 < a.1 + a.2.2.1 ∧ a.2.1 < b.2.1 + b.2.2.2 ∧ b.2.1 < a.2.1 + a.2.2.2)

def znRect (z : Nat) : Nat × Nat × Nat × Nat := (znX z, znY z, znW z, znH z)

/-- Valid zones of a table. -/
def zones (t : Nat) : List Nat := ((List.range 8).map (zoneRec t)).filter znValid

/-- Enabled records of a layer list share no Z. -/
def zDistinct (ls : List Nat) : Bool := decide ((ls.filter lrEnable).map lrZ).Nodup

/-- The ranges that R253 and R264 state for the fields of layers and zones. -/
def tablesFormed (t : OutQueued) : Bool :=
  ((List.range 16).map (layerRec t.layers)).all (fun l => !lrEnable l || decide (16 ≤ lrW l ∧ 16 ≤ lrH l)) &&
    ((List.range 8).map (spineRec t.spine)).all (fun l =>
      !lrEnable l || decide (16 ≤ lrW l ∧ 16 ≤ lrH l ∧ lrZ l < 8)) &&
    (zones t.spine).all fun z => decide (16 ≤ znW z ∧ 16 ≤ znH z)

/-- The rules of R254, R255, R264 and R265 that refuse with 0x05, whatever feeds the layers. A raster that is OFF has no
active area to leave (log entry 19). -/
def tablesOk (t : OutQueued) : Bool :=
  let off := raMode t.raster == 0
  let w := raWidth t.raster
  let h := raHeight t.raster
  let ls := (List.range 16).map (layerRec t.layers)
  let ss := (List.range 8).map (spineRec t.spine)
  let zs := zones t.spine
  let inArea (l : Nat) : Bool := off || !lrEnable l || rectIn (lrX l) (lrY l) (lrW l) (lrH l) w h
  zDistinct ls && zDistinct ss && ls.all inArea && ss.all inArea &&
    ss.all (fun l => lrAlphaSrc l != 3) && ss.all (fun l => !lrEnable l || (zs.any fun z =>
      decide (znX z ≤ lrX l ∧ lrX l + lrW l ≤ znX z + znW z ∧ znY z ≤ lrY l ∧ lrY l + lrH l ≤ znY z + znH z))) &&
    zs.all (fun z => off || rectIn (znX z) (znY z) (znW z) (znH z) w h) &&
    (List.range zs.length).all fun i => (List.range i).all fun j =>
      !rectsMeet (znRect (nth zs i 0)) (znRect (nth zs j 0))

/-- The setup holds no refused value (R281). -/
def setupFormed (c : Nat) : Bool := decide (fld c 127 126 < 3 ∧ csPrimaries c < 2 ∧ csTransfer c < 3)

/-- The ranges of R284 and the commit margin of R285; a record with MODE 0 is not looked at further than its refused values (log entry 19). -/
def rasterFormed (a : Nat) : Bool :=
  decide (raSyncType a < 3) && (raMode a == 0 ||
    decide (raMode a < 3 ∧ 64 ≤ raWidth a ∧ raWidth a ≤ 7680 ∧ 64 ≤ raHeight a ∧ raHeight a ≤ 4320 ∧
      raHeight a + 8 ≤ raTotal a ∧ 100 ≤ raRate a ∧ raRate a ≤ 24000 ∧ 2 ≤ raMargin a ∧
      100 * us * raLineRate a ≤ raMargin a * (100 * sec)) &&
    (match raSyncType a with
      | 0 => decide (raSyncId a < 4)
      | 1 => decide (raSyncId a < 16)
      | _ => true))

/-- R246 for each stripe. -/
def rasterFits (c a : Nat) : Bool :=
  raMode a == 0 || (let w := divUp (raWidth a) (csGang c)
    decide (w ≤ 4096 ∧ w * raHeight a * raRate a ≤ 600000000 * 100))

/-- The ranges of R307. -/
def watchFormed (t : OutQueued) : Bool :=
  ((List.range 8).map (watchRec t.watch)).all fun w =>
    waMode w == 0 || (decide (1 ≤ waLimit w) && (waMode w == 1 || decide (8 ≤ waW w ∧ 8 ≤ waH w)))

/-- The rules of the freeze watch that refuse with 0x05 (R308). -/
def watchOk (t : OutQueued) (images : List Nat) (n : Nat) : Bool :=
  (List.range 8).all fun i =>
    let w := watchRec t.watch i
    match waMode w with
    | 0 => true
    | 1 =>
      match feeding images (if waSpine w then 3 else 1) n (waLayer w) with
      | some r => decide (rSrcType r < 2)
      | none => true
    | _ => raMode t.raster == 0 || rectIn (waX w) (waY w) (waW w) (waH w) (raWidth t.raster) (raHeight t.raster)

/-- Routes that a COMMAND raster admits (R296). -/
def commandAdmits (r : Nat) : Bool := rKind r == 3 || (rKind r == 2 && !(rChase r && rSrcType r < 2))

/-- The partner of a stream's lane offers a capability (R401, R405). -/
def State.sinkOffers (s : State) (k cap : Nat) : Bool := capUsed (s.link (dLane (s.outDesc k))) cap

/-! Capacities (R260, R267). Rates are times 100. -/

/-- Columns of a layer inside stripe i of g. -/
def inStripe (l width g i : Nat) : Nat :=
  let a := max (lrX l) (i * divUp width g)
  let b := min (lrX l + lrW l) (min width ((i + 1) * divUp width g))
  b - a

/-- Engine pixel load of stripe i, in thirds of a pixel (R260). -/
def pixelLoad (t : OutQueued) (fed : List (Bool × Nat × Nat × Nat)) (i : Nat) : Nat :=
  sumOf (fed.map fun x =>
    if x.1 then 0
    else (if lrAlphaSrc x.2.2.1 = 3 then 4 else 3) *
      inStripe x.2.2.1 (raWidth t.raster) (csGang t.setup) i * lrH x.2.2.1 * raRate t.raster)

/-- Bytes per 100 s that an engine layer fetches, in halves (R260). -/
def fetchLoad (s : State) (a : Nat) (x : Bool × Nat × Nat × Nat) : Nat :=
  let l := x.2.2.1
  let r := x.2.2.2
  if x.1 then 0
  else
    let alpha := if lrAlphaSrc l = 3 then
        let p := s.poolRec (fld (lrAlphaHandle l) 31 26)
        2 * s.poolLine p * pHeight p * raRate a else 0
    let pool := match rSrcType r, s.srcStream (rSrcType r) (rSrc r) with
      | 2, _ => s.poolRec (handlePool (rSrc r))
      | _, some k => match s.streamPool k with
        | some p => s.poolRec p
        | none => 0
      | _, none => 0
    alpha + if rGang r ≠ 0 then 9 * lrW l * lrH l * raRate a
      else if rKind r ≠ 2 then 0
      else 2 * s.poolLine pool * (s.srcSize (rSrcType r) (rSrc r)).2 * raRate a

/-- Engine m works in the gang of another engine, whose entries serve it (R272). -/
def ganged (plan : Nat → OutQueued) (m : Nat) : Bool :=
  (List.range (m % 4)).any fun i => decide (m < m / 4 * 4 + i + csGang (plan (m / 4 * 4 + i)).setup)

/-- The engines of a cluster whose own entries count (R272). -/
def leads (plan : Nat → OutQueued) (c : Nat) : List Nat := ((List.range 4).map (4 * c + ·)).filter fun m => !ganged plan m

/-- The assets that the images of a cluster name, with the working format of their engine; beside them UNV_ASSET with the
format of every engine that has a Spine layer (R267). -/
def clusterAssets (s : State) (plan : Nat → OutQueued) (images : List Nat) (c : Nat) : List (Nat × Nat) :=
  let engines := leads plan c
  let fmt (n : Nat) : Nat := csPrimaries (plan n).setup * 4 + csTransfer (plan n).setup
  (engines.flatMap fun n =>
    let fed := (fedLayers (plan n) images n).filter fun x => x.1
    (if fed = [] then [] else [(s.reg Reg.unvAsset, fmt n)]) ++
      (images.filter fun r => rToLayer r && rEngine r == n).flatMap fun r =>
        (if rSrcType r = 3 then [(fld (rSrc r) 15 0, fmt n)] else []) ++
          if rFbType r = 3 then [(fld (rFbSrc r) 15 0, fmt n)] else []).eraseDups

/-- R260 for an engine and R260, R267 for its cluster. -/
def capacityOk (s : State) (plan : Nat → OutQueued) (images : List Nat) (n : Nat) : Bool :=
  let t := plan n
  let fed := fedLayers t images n
  let engines := leads plan (n / 4)
  let all := engines.flatMap fun m => (fedLayers (plan m) images m).map fun x => (m, x)
  let spine := engines.flatMap fun m => ((List.range 8).map fun i => (m, i, spineRec (plan m).spine i)).filter fun x => lrEnable x.2.2
  (List.range (csGang t.setup)).all (fun i => decide (pixelLoad t fed i ≤ 3 * 2400000000 * 100)) &&
    decide (sumOf (all.map fun x => fetchLoad s (plan x.1).raster x.2) ≤ 2 * 48000000000 * 100) &&
    decide (sumOf (fed.map fun x => if !x.1 && lrRotate x.2.2.1 % 2 == 1 then lrW x.2.2.1 else 0) ≤ 4096) &&
    decide (sumOf (spine.map fun x => lrW x.2.2 * lrH x.2.2 * raRate (plan x.1).raster) ≤ 2400000000 * 100) &&
    decide (sumOf (spine.map fun x => match feeding images 3 x.1 x.2.1 with
      | some r => if rKind r < 2 then lrW x.2.2 * lrH x.2.2 else 0
      | none => 0) ≤ 4194304) &&
    decide (sumOf ((clusterAssets s plan images (n / 4)).map fun a => match oget s.nvm.assets a.1 with
      | some v => 6 * v.width * v.height
      | none => 0) ≤ 8 * 1024 * 1024)

/-- The rules that the tables of one output and the images that feed it keep together (R254, R285, R289, R296, R308), as
the first code in the order 0x05, 0x0D, 0x07; 0 when none is broken. 0x100 stands for a refused value or a range broken,
for which the spec states no code (log entry 23). -/
def outputCode (s : State) (plan : Nat → OutQueued) (images : List Nat) (n : Nat) : Nat :=
  let t := plan n
  let fed := fedLayers t images n
  let mine := images.filter fun r => rToLayer r && rEngine r == n
  let off := raOffset t.raster
  if !(setupFormed t.setup && rasterFormed t.raster && tablesFormed t && watchFormed t) then 0x100
  else if !(n % csGang t.setup == 0 && tablesOk t && watchOk t images n) ||
      fed.any (fun x => !layerSuits x.1 x.2.2.1 x.2.2.2) ||
      (raMode t.raster == 1 && off != 0x3FFF && decide (off < offsetNeed s t images n)) ||
      (raMode t.raster == 2 && mine.any fun r => !commandAdmits r) ||
      (raMode t.raster != 0 && mine.any fun r => !kindTiming s plan r) then 0x05
  else if fed.any fun x => !(layerReached s t x.2.2.1 x.2.2.2 && (rGang x.2.2.2 == 0 || ratioOk s plan x.2.2.2)) then 0x0D
  else if !(rasterFits t.setup t.raster && capacityOk s plan images n) ||
      mine.any fun r => rGang r != 0 && !loadOk s plan r (s.force (Reg.convSetup (rConvFirst r))) then 0x07
  else 0

end Sys2Proof.Machine
end

