-- ==== Sys2Proof/Machine/TakeCheck.lean ====
section
/-! DEFINITION. The checks of a take group (R83): the group, each record, and the state that the whole group would leave. -/

namespace Sys2Proof.Machine

/-! The bytes of a group (R81, R82). -/

def groupHeader (data : List Nat) : Nat := leNat (data.take 16)
def ghId (h : Nat) : Nat := fld h 127 112
def ghCount (h : Nat) : Nat := fld h 111 104
def ghImmediate (h : Nat) : Bool := bit h 96
def ghEffective (h : Nat) : Nat := fld h 63 0

/-- Take record i. -/
def takeRecord (data : List Nat) (i : Nat) : Nat := leNat ((data.drop (16 + 36 * i)).take 36)
def trRoute (k : Nat) : Nat := fld k 287 277
def trOp (k : Nat) : Nat := fld k 276 275
def trImage (k : Nat) : Nat := fld k 255 0

/-- The fields of a route record that a take writes: all but the RO fields and the reserved ones (R65). -/
def imageFields (image : Nat) : Nat :=
  let a := putFld image 31 0 0
  let a := putFld a 65 64 0
  let a := putFld a 141 136 0
  putFld a 226 224 0

/-- Reserved fields of an image that must be 0 (R83, code 0x02). -/
def imageReserved (image : Nat) : Bool := fld image 226 224 == 0 && fld image 141 136 == 0 && fld image 65 64 == 0

/-- The image that a SET installs, with the class default of AUTH_POLICY in the place of 3 (R80). A SET defines its route: it is
installed with VALID 1, whatever VALID its IMAGE carries, of which the spec says nothing (log entry 47). -/
def setImage (s : State) (image : Nat) : Nat :=
  let a := setBit (imageFields image) 255
  if rAuthPolicy a = 3 then putFld a 244 243 (s.reg (Reg.strAuthDefault (rClass a)) % 3) else a

/-- The image that a SOURCE leaves: only SRC_TYPE, SRC and SRC_GEN change (R82). -/
def sourceImage (old image : Nat) : Nat :=
  putFld (putFld (putFld old 250 249 (rSrcType image)) 223 200 (rSrc image)) 135 128 (rSrcGen image)

/-- The image that a take leaves on a route whose image would be `old`; 0 for none. -/
def takenImage (s : State) (op old image : Nat) : Nat :=
  match op with
  | 0 => setImage s image
  | 2 => sourceImage old image
  | _ => 0

/-! The state that accepted groups, and then a new one, would leave (R83, R67). -/

/-- Images by route once every accepted group has applied, in the order of R88. -/
def State.planned (s : State) : Tbl Nat :=
  let now : Tbl Nat := (s.str.routes.filter fun e => rValid e.2.image).map fun e => (e.1, e.2.image)
  (s.str.groups.flatMap fun g => g.takes.filter fun k => k.applied.isNone && k.op != 3).foldl
    (fun m k => tset (fun _ => 0) m k.route (if k.op = 1 then 0 else k.image)) now

def plannedImage (m : Tbl Nat) (r : Nat) : Nat := tget (fun _ => 0) m r

/-- The images of a plan. -/
def plannedImages (m : Tbl Nat) : List Nat := m.map (·.2)

/-! Step 2: one record (R83). -/

/-- A source of a type is known (code 0x04). -/
def sourceKnown (s : State) (type src gen : Nat) : Bool :=
  match type with
  | 0 => (s.ins (fld src 8 0)).mode != .absent
  | 1 => let t := s.tileRec (fld src 9 0); tValid t && (s.ins (tStream t)).mode != .absent
  | 2 => s.bufUsable (src % 2 ^ 24) gen
  | _ => s.assetPresent (fld src 15 0)

/-- Class, kind, source and destination (R26, R63, R64, R133, R160, R265). The ranges of MAX_AGE and GUTTER (R65) are refused with
the same code, the spec naming none (log entry 47). -/
def comboOk (r : Nat) : Bool :=
  let c0 := rClass r == 0
  let stream := decide (rSrcType r < 2)
  let kindOk := match rKind r with
    | 0 => stream && (rDstType r == 0 || rDstType r == 3) && rGang r == 0 && rComp r == 0x1F
    | 1 => stream && rDstType r != 2 && rGang r != 0 && (rComp r == 0x1F || rDstType r == 0)
    | 2 => decide (rSrcType r < 3) && !(rDstType r == 2 && (rGang r != 0 || !stream)) &&
        (!stream || rChase r || rDstType r == 2 || decide (1 ≤ rMaxAge r)) && (!(rChase r && stream) || decide (1 ≤ rGutter r))
    | _ => c0 && rSrcType r == 3 && rDstType r == 3 && rGang r == 0
  kindOk && (rSrcType r != 3 || rKind r == 3) &&
    !(c0 && rComp r != 0x1F) && !(c0 && rDstType r == 1) && !(!c0 && rDstType r == 3) &&
    !(c0 && rKind r != 2 && (rSrcType r == 2 || rFbType r == 2)) &&
    (rFrc r == 0 || (rKind r == 2 && !rChase r && rGang r != 0)) && !(rDstType r == 3 && decide (8 ≤ rLayer r)) &&
    decide (rComp r < 16 ∨ rComp r = 0x1F)

/-- A fallback input stream fits (R73): the size and RATE of the source, or the route's units bring it to the destination
rectangle. -/
def fallbackOk (s : State) (r : Nat) : Bool :=
  match rFbType r with
  | 1 =>
    let f := (s.ins (fld (rFbSrc r) 8 0)).desc
    if rGang r ≠ 0 then
      let v := withSource r 0 (rFbSrc r)
      ratioOk s s.outPlan v && loadsOk s v (s.force (Reg.convSetup (rConvFirst r)))
    else (dWidth f, dHeight f) == s.srcSize (rSrcType r) (rSrc r) &&
      match s.srcStream (rSrcType r) (rSrc r) with
      | some k => dRate f == dRate (s.ins k).desc
      | none => true
  | _ => true

/-- The pool that holds a stored source. -/
def State.sourcePool (s : State) (type src : Nat) : Option Nat :=
  match type with
  | 2 => some (handlePool src)
  | _ => match s.srcStream type src with
    | some k => s.streamPool k
    | none => none

/-- COMP of a stored route is the COMP of the pools that hold its source and fallback, and of the window it feeds (R208, R219). -/
def storedCompOk (s : State) (r : Nat) : Bool :=
  rKind r != 2 ||
    (let same (type src : Nat) : Bool := match s.sourcePool type src with
        | some p => pComp (s.poolRec p) == rComp r
        | none => true
     (rDstType r != 2 || pComp (s.poolRec (fld (s.winRec (fld (rDst r) 5 0)) 126 121)) == rComp r) &&
       same (rSrcType r) (rSrc r) && (rFbType r == 0 || rFbType r == 3 || same (fbSrcType (rFbType r)) (rFbSrc r)))

/-- The engine of a link-compressed route is in the link role, and no C0 route takes a compressed stream (R219). -/
def linkCompOk (s : State) (r : Nat) : Bool :=
  (rKind r != 1 || rComp r == 0x1F || s.cmpRole (rComp r) == 2) &&
    (rClass r != 0 ||
      (List.all ((match s.srcStream (rSrcType r) (rSrc r) with
          | some k => [k]
          | none => []) ++ if rFbType r = 1 then [fld (rFbSrc r) 8 0] else []) fun k => !dCompressed (s.ins k).desc))

/-- Pass-through to an output stream keeps the format whole (R63, R220). -/
def passOk (s : State) (r : Nat) : Bool :=
  !(rKind r == 0 && rDstType r == 0) ||
    (rSrcType r == 0 && dFormat (s.ins (fld (rSrc r) 8 0)).desc == dFormat (s.outDesc (fld (rDst r) 7 0)))

/-- A C0 route takes no flow that is received in slots of another class (R414). -/
def c0SlotsOk (s : State) (r : Nat) : Bool :=
  rClass r != 0 ||
    match s.srcStream (rSrcType r) (rSrc r) with
    | some k =>
      let i := s.ins k
      (calList (s.link (s.calLane (dLane i.desc))).rxCal).all fun e =>
        !(isData e && entryFlow e == i.flow) || entryClass e == 0
    | none => true

/-- The destination exists: an output stream in use that no engine drives, a defined window. -/
def destOk (s : State) (r : Nat) : Bool :=
  match rDstType r with
  | 0 => let d := s.outDesc (fld (rDst r) 7 0); outUsed d && !dEngineDriven d
  | 2 => bit (s.winRec (fld (rDst r) 5 0)) 127
  | _ => true

/-- A take that waits on a route outside the group names the unit (R168). -/
def unitPending (s : State) (group : List Nat) (u : Nat) : Bool :=
  s.str.groups.any fun g => g.takes.any fun k =>
    k.applied.isNone && k.op != 1 && !group.contains k.route && (rUnits k.image).contains u

/-- Units that a record names: aligned (R151), Active, and held by no other route (R168, R29). `mine` is the route, `group`
the routes of the group. -/
def unitsOk (s : State) (plan : Tbl Nat) (group : List Nat) (mine r : Nat) : Bool :=
  (rGang r == 0 || (rConvFirst r % 2 ^ (rGang r - 1) == 0 && (rGang r != 3 || rConvFirst r % 4 == 0) &&
    decide (rConvFirst r + (rUnits r).length ≤ 48))) &&
  (rUnits r).all (fun u => s.unitActive u && !unitPending s group u &&
    plan.all fun e => e.1 == mine || e.2 == 0 || !(rUnits e.2).contains u) &&
  (rComp r == 0x1F || s.engineActive (rComp r))

/-- A C0 route gains a unit that a route with another destination gives up in the same group (R169). -/
def handoverBad (s : State) (mine r : Nat) : Bool :=
  rClass r == 0 && (rUnits r).any fun u => match (s.unit u).holder with
    | some h => h != mine && rDestKey (s.route h).image != rDestKey r
    | none => false

/-- A destination or resource has no power (R24). -/
def unpowered (s : State) (r : Nat) : Bool :=
  !s.pwr.bulk &&
    (rDstType r == 1 || rDstType r == 2 || (rDstType r == 3 && !reserveOutput (rEngine r)) ||
      (rDstType r == 0 && !reserveLane (dLane (s.outDesc (fld (rDst r) 7 0)))) ||
      rGang r != 0 || rComp r != 0x1F || rKind r == 2)

/-- Formats that the destination or the units do not take (R137, R164, R219, R251). -/
def formatOk (s : State) (plan : Nat → OutQueued) (r : Nat) : Bool :=
  let d := s.outDesc (fld (rDst r) 7 0)
  let hIn := match s.srcStream (rSrcType r) (rSrc r) with
    | some k => (if dInterlaced (s.ins k).desc then 1 else 2) * (s.srcSize (rSrcType r) (rSrc r)).2 / 2
    | none => (s.srcSize (rSrcType r) (rSrc r)).2
  let chase := rKind r == 2 && (rChase r || rFrc r == 3) && decide (rSrcType r < 2)
  (rGang r == 0 || ratioOk s plan r) && (!chase || decide (rGutter r < hIn)) &&
    (rDstType r != 2 || (match s.srcStream (rSrcType r) (rSrc r) with
      | some k => s.windowFits r (rSrcType r) (rSrc r) k
      | none => true)) &&
    (rKind r != 1 || rDstType r != 0 || ((rComp r != 0x1F) == dCompressed d)) &&
    (rDstType r != 0 || !dCompressed d || s.sinkOffers (fld (rDst r) 7 0) 6) &&
    (!(rKind r == 2 && rDstType r == 0 && rGang r == 0) ||
      ((dWidth d, dHeight d) == s.srcSize (rSrcType r) (rSrc r) && dColour d == s.srcColour (rSrcType r) (rSrc r)))

/-- The image that a take record leaves on its route once every accepted group has applied; 0 for none. -/
def recordImage (s : State) (k : Nat) : Nat :=
  takenImage s (trOp k) (plannedImage s.planned (trRoute k)) (trImage k)

/-- The code of one record (R83 step 2), with `plan` what the whole group would leave; 0 when it passes. A SOURCE take on a route
that is EMPTY by then has no record to change: the model answers 0x02 (log entry 48). -/
def recordCode (s : State) (plan : Tbl Nat) (group earlier : List Nat) (k : Nat) : Nat :=
  let r := recordImage s k
  if trOp k = 3 ∨ fld k 274 256 ≠ 0 ∨ (trOp k = 0 ∧ !imageReserved (trImage k)) ∨
      (trOp k = 2 ∧ plannedImage s.planned (trRoute k) = 0) then 0x02
  else if earlier.contains (trRoute k) then 0x03
  else if trOp k = 1 then 0
  else if !sourceKnown s (rSrcType r) (rSrc r) (rSrcGen r) ||
      (rFbType r != 0 && !sourceKnown s (fbSrcType (rFbType r)) (rFbSrc r) (rFbGen r)) then 0x04
  else if !(comboOk r && fallbackOk s r && storedCompOk s r && linkCompOk s r && deintOk s r && passOk s r && c0SlotsOk s r && destOk s r &&
      kindTiming s s.outPlan r) ||
      (rToLayer r && (!layerSuits (rDstType r == 3) (fedRecord (s.outPlan (rEngine r)) r) r || outputCode s s.outPlan [r] (rEngine r) == 0x05)) then 0x05
  else if !unitsOk s plan group (trRoute k) r || handoverBad s (trRoute k) r then 0x06
  else if unpowered s r then 0x0B
  else if !formatOk s s.outPlan r || (rToLayer r && (!layerReached s (s.outPlan (rEngine r)) (fedRecord (s.outPlan (rEngine r)) r) r ||
      outputCode s s.outPlan [r] (rEngine r) == 0x0D)) then 0x0D
  else 0

/-! Step 3: the state that the group would leave (R83). -/

/-- Demand of a stored route's reads and of the writing of its stream, in bytes per 100 s (R196). -/
def readDemand (s : State) (r : Nat) : Nat :=
  match s.sourcePool (rSrcType r) (rSrc r) with
  | none => 0
  | some p =>
    if rDstType r = 2 then 0
    else s.poolFrame (s.poolRec p) * (destTiming s s.outPlan r).rate *
      readsPerFrame s r (s.force (Reg.convSetup (rConvFirst r)))

/-- What an image writes into a window's pool: stream, pool and the stream's rate. -/
def windowWrites (s : State) (r : Nat) : List (Nat × Nat × Nat) :=
  match s.srcStream (rSrcType r) (rSrc r) with
  | some k => if rDstType r = 2 then [(k, fld (s.winRec (fld (rDst r) 5 0)) 126 121, dRate (s.ins k).desc)] else []
  | none => []

/-- The pools that an image writes: the stream's own, and a window's, with the stream's rate. -/
def writesOf (s : State) (r : Nat) : List (Nat × Nat × Nat) :=
  (match s.srcStream (rSrcType r) (rSrc r) with
    | some k => (match s.streamPool k with
      | some p => [(k, p, dRate (s.ins k).desc)]
      | none => [])
    | none => []) ++ windowWrites s r

/-- The stored routes of a plan that p selects. -/
def storedImages (images : List Nat) (p : Nat → Bool) : List Nat := images.filter fun r => rKind r == 2 && p r

/-- Demands of the stored routes selected, as (pool, bytes per 100 s): writing once for each stream and pool (R196). -/
def demands (s : State) (images : List Nat) (p : Nat → Bool) : List (Nat × Nat) :=
  let rs := storedImages images p
  ((rs.flatMap (writesOf s)).eraseDups.map fun w => (w.2.1, s.poolFrame (s.poolRec w.2.1) * w.2.2)) ++
    rs.filterMap fun r => (s.sourcePool (rSrcType r) (rSrc r)).map fun q => (q, readDemand s r)

/-- Extents of a pool on channel k, and in all. -/
def State.poolShare (s : State) (p k : Nat) : Nat × Nat :=
  let all := (tget (fun _ => []) s.fs.place p).flatMap id
  ((all.filter fun c => c == k).length, all.length)

/-- The demand on a channel, rounded up. -/
def channelDemand (s : State) (ds : List (Nat × Nat)) (k : Nat) : Nat :=
  sumOf (ds.map fun d => let sh := s.poolShare d.1 k; divUp (d.2 * sh.1) (max 1 sh.2))

/-- The images do not raise the C0 demand, in all or on a channel, above R28 and R196; `before` are those that stand without them. -/
def c0DemandOk (s : State) (before images : List Nat) : Bool :=
  let ds := demands s images fun r => rClass r == 0
  let old := demands s before fun r => rClass r == 0
  decide (sumOf (ds.map (·.2)) ≤ max (32000000000 * 100) (sumOf (old.map (·.2)))) &&
    (List.range 8).all fun k => decide (channelDemand s ds k ≤ max (12000000000 * 100) (channelDemand s old k))

/-- Samples per 100 s, doubled, of a frame of a pool read or written at a rate (R236). -/
def poolSamples (s : State) (p rate : Nat) : Nat :=
  let r := s.poolRec p
  pWidth r * pHeight r * samples2 (pChroma r) * rate

/-- The streams that intake writes to a pool of their own: those with an accepted format that the pool fits (R52, R185). -/
def poolWritten (s : State) (k : Nat) : Bool :=
  (match (s.ins k).mode with
    | .announced | .live | .stalled => true
    | _ => false) && s.poolFits k

/-- Encode and decode loads of an engine under the images of a plan, in half samples per 100 s (R236). -/
def encodeLoad (s : State) (images : List Nat) (e : Nat) : Nat :=
  let written := ((List.range 512).filterMap fun k =>
      match s.streamPool k with
      | some p => if pComp (s.poolRec p) = e ∧ poolWritten s k then some (k, p, dRate (s.ins k).desc) else none
      | none => none) ++
    images.flatMap fun r => (windowWrites s r).filter fun w => pComp (s.poolRec w.2.1) == e
  sumOf (written.eraseDups.map fun w => poolSamples s w.2.1 w.2.2) +
    sumOf (images.map fun r => if rKind r = 1 ∧ rComp r = e then
      let d := s.outDesc (fld (rDst r) 7 0)
      dWidth d * dHeight d * samples2 (dChroma d) * dRate d else 0)

/-- The decode load of one compressed input stream (R221). -/
def streamDecodeLoad (d : Nat) : Nat := dWidth d * dHeight d * samples2 (dChroma d) * dRate d

def decodeLoad (s : State) (images : List Nat) (e : Nat) : Nat :=
  sumOf ((List.range 512).map fun k =>
      if (s.ins k).engine = some e ∧ (s.ins k).mode ≠ .absent ∧ (s.ins k).mode ≠ .gone then
        streamDecodeLoad (s.ins k).desc else 0) +
    sumOf ((storedImages images fun r => rDstType r != 2).map fun r =>
      match s.sourcePool (rSrcType r) (rSrc r) with
      | some p => if pComp (s.poolRec p) = e then
          poolSamples s p ((destTiming s s.outPlan r).rate * readsPerFrame s r (s.force (Reg.convSetup (rConvFirst r)))) else 0
      | none => 0)

/-- 2.0 Gsample/s in half samples per 100 s. -/
def engineLimit : Nat := 2000000000 * 2 * 100

def enginesOk (s : State) (images : List Nat) : Bool :=
  (List.range 16).all fun e =>
    s.cmpRole e == 0 || decide (encodeLoad s images e ≤ engineLimit ∧ decodeLoad s images e ≤ engineLimit)

/-- B, in words of 4 bytes, of the compressed flow that a record brings to an output stream: its engine's, or unchanged that of the
input stream that passes through (R220, R235). -/
def codedWords (s : State) (r : Nat) : Nat :=
  if rKind r = 0 then match s.srcStream (rSrcType r) (rSrc r) with
    | some k => (s.ins k).blockWords
    | none => 0
  else if rComp r = 0x1F then 0 else s.blockBytes (rComp r) / 4

/-- Demand of an output stream's flow and the slots that its calendar needs (R235, R383, R414; R83 code 0x08). -/
def streamFolios (d words : Nat) : Nat :=
  if dCompressed d then codedFolios (dWidth d) (dChroma d) words
  else lineFolios (dWidth d) (dChroma d) (dDepth d)

/-- The stream's transmit calendar gives a route's class the slots that the route needs. -/
def slotsOk (s : State) (r : Nat) : Bool :=
  rDstType r != 0 ||
    (let k := fld (rDst r) 7 0
     let d := s.outDesc k
     let l := s.link (s.calLane (dLane d))
     let have_ := ((calList l.txCal).filter fun e => isData e && entryFlow e == k && (rClass r != 0 || entryClass e == 0)).length
     let rate := (s.lane (dLane d)).rate
     decide (0 < have_) &&
       decide (slotsNeeded (flowDemand d (streamFolios d (codedWords s r)) l.authenticated) (2 ^ dBond d) rate ≤ have_))

/-- Two images feed one destination (R67). -/
def sharesDest (images : List Nat) (r : Nat) : Bool :=
  decide (1 < ((images.filter fun x => x != 0).filter fun x => rDestKey x == rDestKey r).length)

/-- A stored stream source without a pool (R185). -/
def noPool (s : State) (r : Nat) : Bool :=
  rKind r == 2 && decide (rSrcType r < 2) && (s.sourcePool (rSrcType r) (rSrc r)).isNone

/-- The load of a record's units, or the layer capacities of its output (R153, R260, R267). -/
def recordCapacity (s : State) (images : List Nat) (r : Nat) : Bool :=
  (rGang r == 0 || loadsOk s r (s.force (Reg.convSetup (rConvFirst r)))) && !noPool s r &&
    (!rToLayer r || outputCode s s.outPlan images (rEngine r) != 0x07)

/-- A record takes part in a breach that the resulting state has as a whole: C0 demand on the DRAM (R28, R196), or the load of an
engine that it codes or decodes with (R236). -/
def takesPart (s : State) (images : List Nat) (r : Nat) : Bool :=
  (rKind r == 2 && rClass r == 0 && !c0DemandOk s ((plannedImages s.planned).filter fun r => r != 0) images) ||
    (List.range 16).any fun e => s.cmpRole e != 0 &&
      !decide (encodeLoad s images e ≤ engineLimit ∧ decodeLoad s images e ≤ engineLimit) &&
      ((rKind r == 1 && rComp r == e) || (rKind r == 2 && ((writesOf s r).any (fun w => pComp (s.poolRec w.2.1) == e) ||
        (match s.sourcePool (rSrcType r) (rSrc r) with
          | some p => pComp (s.poolRec p) == e
          | none => false))))

/-- Step 3, with the index of the record at fault. -/
def stateCode (s : State) (plan : Tbl Nat) (recs : List Nat) : Nat × Nat :=
  let images := (plannedImages plan).filter fun r => r != 0
  let at_ (p : Nat → Bool) : Option Nat :=
    let i := recs.findIdx fun k => trOp k != 1 && p (plannedImage plan (trRoute k))
    if i < recs.length then some i else none
  match at_ (sharesDest images) with
  | some i => (0x0C, i)
  | none =>
    match at_ fun r => !recordCapacity s images r || takesPart s images r with
    | some i => (0x07, i)
    | none => match at_ fun r => !slotsOk s r with
      | some i => (0x08, i)
      | none => (0, 0xFF)

/-- Step 2 over the records, with the index of the first that fails. -/
def recordsCode (s : State) (plan : Tbl Nat) (group : List Nat) : List Nat → List Nat → Nat → Nat × Nat
  | [], _, _ => (0, 0xFF)
  | k :: ks, earlier, i =>
    let c := recordCode s plan group earlier k
    if c ≠ 0 then (c, i) else recordsCode s plan group ks (earlier ++ [trRoute k]) (i + 1)

/-- The plan that a group would leave. -/
def planWith (s : State) (recs : List Nat) : Tbl Nat :=
  recs.foldl (fun m k => tset (fun _ => 0) m (trRoute k)
    (takenImage s (trOp k) (plannedImage m (trRoute k)) (trImage k))) s.planned

/-- Steps 2 and 3 over the records of a group. -/
def recordsStateCode (s : State) (recs : List Nat) : Nat × Nat :=
  let plan := planWith s recs
  let c := recordsCode s plan (recs.map trRoute) recs [] 0
  if c.1 ≠ 0 then c else stateCode s plan recs

/-- The code of a group and the record at fault (R83). -/
def groupCode (s : State) (data : List Nat) : Nat × Nat :=
  let h := groupHeader data
  let n := ghCount h
  if s.retired then (0x0E, 0xFF)
  else if n < 1 ∨ 64 < n ∨ data.length ≠ 16 + 36 * n then (0x01, 0xFF)
  else if s.str.groups.any fun g => !g.restore && g.id == ghId h then (0x10, 0xFF)
  else if 8 ≤ (s.str.groups.filter fun g => !g.restore).length then (0x0A, 0xFF)
  else if !ghImmediate h && decide (s.dt + s.reg Reg.takeMaxLead * ms < ghEffective h) then (0x09, 0xFF)
  else recordsStateCode s ((List.range n).map (takeRecord data))

end Sys2Proof.Machine
end

