-- ==== Sys2Proof/Machine/Takes.lean ====
section
/-! DEFINITION. Takes (R80 to R89): acceptance, the latch at the effective DT, what a take does at its boundary, flips and
completion; the commands on take groups and on single routes' times (R69, R72). -/

namespace Sys2Proof.Machine

/-! Acceptance. -/

/-- A group joins those that wait, in order of effective DT and then of acceptance (R88). -/
def insertGroup (g : Group) : List Group → List Group
  | [] => [g]
  | x :: xs => if g.eff < x.eff then g :: x :: xs else x :: insertGroup g xs

/-- A refusal (R83): the result entries, TAKE_REFUSED, nothing else. -/
def refuseTake (id code index : Nat) (s : State) : State :=
  ((s.setReg Reg.takeLastResult code).setReg Reg.takeLastIndex index).raise Ev.takeRefused [id, code]

/-- Routes that accepted groups set out of EMPTY are PENDING (R69). -/
def markPending (takes : List Take) (s : State) : State :=
  s.each (takes.filter fun k => k.op == 0 && (s.route k.route).mode == .empty) fun s k => rtMove k.route .pending 0 s

/-- TAKE_GROUP (R81 to R84, R87, R497). -/
def takeGroupOp (data : List Nat) (s : State) : State × Nat :=
  let h := groupHeader data
  let id := ghId h
  let c := groupCode s data
  let s := s.setReg Reg.takeLastId id
  if c.1 ≠ 0 then (refuseTake id c.1 c.2 s, if c.1 = 0x01 then stLength else stValue)
  else
    let recs := (List.range (ghCount h)).map (takeRecord data)
    let plan := s.planned
    let takes := recs.map fun k : Nat =>
      ({ route := trRoute k, op := trOp k, image := takenImage s (trOp k) (plannedImage plan (trRoute k)) (trImage k) } : Take)
    let floor := s.dt + ms
    let eff := if ghImmediate h then floor else max floor (ghEffective h)
    let moved := !ghImmediate h && decide (ghEffective h < floor)
    let s := markPending takes { s with str := { s.str with groups := insertGroup { id, moved, eff, takes } s.str.groups } }
    let s := (s.setReg Reg.takeLastResult 0).setReg Reg.takeLastIndex 0xFF
    (s.whenever (bit (s.reg Reg.takeNotify) 0) fun s => s.raise Ev.takeAccepted [id, eff], stDone)

/-- A group is gone: routes that only it set go back to EMPTY. -/
def dropGroup (g : Group) (s : State) : State :=
  let s := { s with str := { s.str with groups := s.str.groups.erase g } }
  s.each (g.takes.filter fun k => (s.route k.route).mode == .pending &&
      !s.str.groups.any fun x => x.takes.any fun y => y.route == k.route && y.op == 0) fun s k => rtMove k.route .empty 0 s

/-- TAKE_CANCEL (R88). -/
def takeCancelOp (id : Nat) (s : State) : State × Nat :=
  match s.str.groups.find? fun g => !g.restore && g.id == id && decide (s.dt < g.eff) with
  | some g => (((dropGroup g s).setReg Reg.takeLastResult 0).setReg Reg.takeLastIndex 0xFF, stDone)
  | none => (refuseTake id 0x0F 0xFF s, stValue)

/-! The latch (R86). -/

/-- Complete frames of a stored record's pool for a stream, newest first: they are readable and not excluded by R78. -/
def storedFrames (s : State) (r : Nat) : List Nat :=
  match s.srcStream (rSrcType r) (rSrc r) with
  | some k => (s.framesOf k).filter fun b => !(rAuthPolicy r == 0 && tagBad r (s.buf b))
  | none => []

/-- The newest frame that R86 allows at a DT; a token keeps it until it is shown. -/
def firstFrame (s : State) (r t : Nat) : Option Nat :=
  if rKind r = 2 ∧ rSrcType r < 2 then
    (storedFrames s r).find? fun b =>
      let f := s.buf b
      decide (f.done ≤ t ∧ f.start ≤ t) && (rChase r || decide (t - f.start ≤ rMaxAge r * ms))
  else none

/-- The image that a take leaves now. -/
def takeImage (s : State) (k : Take) : Nat :=
  match k.op with
  | 2 => sourceImage (s.route k.route).image k.image
  | 3 => (s.route k.route).image
  | _ => k.image

/-- An earlier group has still to change the route (R88). -/
def changesBefore (earlier : List Group) (route : Nat) : Bool :=
  earlier.any fun g => g.takes.any fun k => k.route == route && k.applied.isNone

/-- A CLEAR or SOURCE of a route that nothing has set, or will set before it, finds nothing to do: it counts as applied and
flipped (log entry 50). -/
def takeIdle (s : State) (earlier : List Group) (k : Take) : Bool :=
  (k.op == 1 || k.op == 2) && !rValid (s.route k.route).image && !changesBefore earlier k.route

/-- The takes of a group see the source state of now (R86). -/
def latchTake (s : State) (earlier : List Group) (eff : Time) (k : Take) : Take :=
  let old := (s.route k.route).image
  if takeIdle s earlier k then { k with applied := some eff, flipped := true }
  else if k.op = 1 then (if rValid old then { k with c0 := rClass old == 0, dest := old } else k)
  else
    let r := takeImage s k
    let own := s.sourceReason r
    { k with
      c0 := rClass r == 0, dest := r, reason := if own = 0 ∧ !(rUnits r).all s.unitActive then 6 else own, fallback := s.fallbackUsable r, first := firstFrame s r eff }

/-- The state of a group is latched, after the groups that run before it. -/
def latchGroup (s : State) (earlier : List Group) (g : Group) : Group :=
  if g.latched then g else { g with latched := true, takes := g.takes.map (latchTake s earlier g.eff) }

/-- The groups, each that p selects latched in its place. -/
def latchList (s : State) (p : Group → Bool) : List Group → List Group → List Group
  | _, [] => []
  | earlier, g :: gs =>
    let g := if p g then latchGroup s earlier g else g
    g :: latchList s p (earlier ++ [g]) gs

/-- The frames that the takes of the groups p chose are held for them (R86). -/
def holdFirst (before : List Group) (s : State) : State :=
  s.each ((s.str.groups.filter fun g => g.latched && !(before.contains g)).flatMap fun g => g.takes) fun s k =>
    match k.first with
    | some b => takeToken b (.take k.route) s
    | none => s

/-- The groups that p selects are latched. -/
def latchThose (p : Group → Bool) (s : State) : State :=
  let before := s.str.groups
  holdFirst before { s with str := { s.str with groups := latchList s p [] before } }

/-- Groups whose effective DT has come are latched. -/
def latchDue (s : State) : State := latchThose (fun g => decide (g.eff ≤ s.dt)) s

/-! A take at its boundary (R69, R85, R168, R169). -/

/-- The boundary of a take: the destination that it gives the route, or clears (log entry 20). -/
def takeBnd (s : State) (k : Take) : Bnd :=
  if k.op = 1 then rBnd (s.route k.route).image else rBnd (takeImage s k)

/-- Units of the new image are free or the route's own (R169). -/
def unitsFree (s : State) (k : Take) : Bool :=
  k.op == 1 || (rUnits (takeImage s k)).all fun u => match (s.unit u).holder with
    | some h => h == k.route
    | none => true

/-- The units a route holds become those of its image. -/
def holdUnits (r : Nat) (units : List Nat) (s : State) : State :=
  let s := s.each ((s.route r).units.filter fun u => !units.contains u) fun s u => unitRelease r u s
  (s.each units fun s u => s.modUnit u fun v => { v with holder := some r }).modRoute r fun x => { x with units := units }

/-- A take's image is installed (R69): its units are taken, and its first frame is the one chosen at the latch. -/
def installTake (k : Take) (image : Nat) (s : State) : State :=
  let r := k.route
  let s := holdUnits r (rUnits image) (rtEndHold r (rtDropShown r (rtDropFirst r s)))
  let x := s.route r
  s.setRoute r { x with
    image := image, gen := (x.gen + 1) % 65536, first := k.first, tile := s.tileRec (fld (rSrc image) 9 0)
    tileDue := false, slipped := false, fresh := true, intra := none, usableSince := none, returnDue := false, holdEnd := none }

/-- A take applies whose source was not usable at the effective DT, for the reason latched then (R69). -/
def orphanTake (k : Take) (image : Nat) (s : State) : State :=
  let r := k.route
  let s := (((rtDropFirst r s).count Reg.rtOrphanTotal 1)).raise Ev.routeOrphaned [r, k.reason]
  if k.fallback then ((rtMove r .fallback k.reason s).count Reg.rtFallbackTotal 1).raise Ev.routeFallback [r]
  else
    let s := (rtMove r .colour k.reason s).raise Ev.routeFallback [r]
    s.whenever (rToLayer image) fun s => s.raise (Ev.noSource (rEngine image)) [r]

/-- One take applies. The change of a tile applies only while the route still waits for it (R62). -/
def applyTake (k : Take) (s : State) : State :=
  let r := k.route
  if k.op = 1 then rtClear r s
  else if k.op = 3 && !(s.route r).tileDue then s
  else
    let image := takeImage s k
    let s := installTake k image s
    if k.reason = 0 then rtCheck true r (rtMove r .active 0 s) else orphanTake k image s

/-- A take that is due at a boundary: it waits for its group's latch, for earlier changes of its route (R88) and for its units. -/
def takeDue (b : Bnd) (earlier : List Group) (s : State) (k : Take) : Bool :=
  k.applied.isNone && takeBnd s k == b && !changesBefore earlier k.route && unitsFree s k

/-- The input stream that a route-follow crosspoint listens to (R325): until a take of the route flips, the one before it. -/
def State.followStream (s : State) (r : Nat) : Option Nat :=
  match (s.str.groups.flatMap (·.takes)).find? fun k => k.route == r && k.applied.isSome && !k.flipped with
  | some k => k.heard
  | none => match shownSource s r with
    | some (t, src) => s.srcStream t src
    | none => none

/-- A take as applied at a boundary. -/
def takeApplied (b : Bnd) (s : State) (k : Take) : Take :=
  let dest := if k.op = 1 then (s.route k.route).image else takeImage s k
  { k with
    applied := some s.dt, bnd := some b, dest := dest, c0 := rClass dest == 0, heard := s.followStream k.route
    flipped := k.op == 3 && !(s.route k.route).tileDue }

/-- Units that a take gives up for another route of its group are released at its boundary, even while the take itself waits for units
(R169). -/
def releaseGiven (b : Bnd) (earlier : List Group) (g : Group) (s : State) : State :=
  s.each (g.takes.filter fun k => k.applied.isNone && takeBnd s k == b && !changesBefore earlier k.route) fun s k =>
    let kept := if k.op = 1 then [] else rUnits (takeImage s k)
    let given := (s.route k.route).units.filter fun u => !kept.contains u && g.takes.any fun x =>
      x.route != k.route && x.applied.isNone && x.op != 1 && (rUnits (takeImage s x)).contains u
    (s.each given fun s u => unitRelease k.route u s).modRoute k.route fun x => { x with
      units := x.units.filter fun u => !given.contains u }

/-- The takes of one group that are due at a boundary, applied. -/
def applyGroup (b : Bnd) (earlier : List Group) (g : Group) (s0 : State) : Group × State :=
  if !g.latched || decide (s0.dt ≤ g.eff) then (g, s0)
  else
    let s := releaseGiven b earlier g s0
    g.takes.foldl (fun (a : Group × State) k =>
      if k.applied.isNone && takeIdle a.2 earlier k then
        ({ a.1 with takes := a.1.takes ++ [{ k with applied := some a.2.dt, flipped := true }] }, a.2)
      else if takeDue b earlier a.2 k then
        ({ a.1 with takes := a.1.takes ++ [takeApplied b a.2 k] }, applyTake k a.2)
      else ({ a.1 with takes := a.1.takes ++ [k] }, a.2)) ({ g with takes := [] }, s)

/-- A take that applied at a boundary of this destination and has not flipped. -/
def flipsHere (b : Bnd) (k : Take) : Bool := k.applied.isSome && !k.flipped && k.bnd == some b

/-! Flips and completion (R87, R92, R306). -/

/-- The route of a safe record has flipped (R92). -/
def safeFlip (r : Nat) (s : State) : State :=
  if 2016 ≤ r then (s.setReg Reg.safeLiveMask (setBit (s.reg Reg.safeLiveMask) (r - 2016))).setReg Reg.safeLiveDt s.dt else s

/-- One take flips. -/
def flipTake (at_ : Time) (g : Group) (k : Take) (s : State) : State :=
  let s := s.modRoute k.route fun x => { x with flip := at_ }
  let s := if k.c0 && !g.restore then
      s.setReg Reg.takeC0Worst (max (s.reg Reg.takeC0Worst) ((at_ - g.eff) / us)) else s
  if g.safe then safeFlip k.route s else s

/-- A group whose takes have all flipped is complete (R87). -/
def finishGroups (s : State) : State :=
  s.each (s.str.groups.filter fun g => g.latched && g.takes.all fun k => k.flipped) fun s g =>
    let s := { s with str := { s.str with groups := s.str.groups.erase g } }
    if g.restore then s
    else
      let s := s.whenever (g.takes.any (·.c0)) routeDigest
      let s := ((s.setReg Reg.takeDoneId g.id).setReg Reg.takeDoneDt g.lastFlip).count Reg.takeCount 1
      s.whenever (bit (s.reg Reg.takeNotify) 1) fun s => s.raise Ev.takeDone [g.id]

/-- Every take that waits for this boundary applies, in the order of R88. -/
def applyTakes (b : Bnd) (s : State) : State :=
  let s := latchDue s
  let r := s.str.groups.foldl (fun (a : List Group × State) g =>
    let x := applyGroup b a.1 g a.2
    (a.1 ++ [x.1], x.2)) ([], s)
  finishGroups { r.2 with str := { r.2.str with groups := r.1 } }

/-- The takes of a destination flip at a DT. -/
def flipTakes (at_ : Time) (b : Bnd) (s : State) : State :=
  let hit := s.str.groups.flatMap fun g => (g.takes.filter (flipsHere b)).map fun k => (g, k)
  let s := s.each hit fun s x => flipTake at_ x.1 x.2 s
  let groups := s.str.groups.map fun g =>
    if g.takes.any (flipsHere b) then
      { g with lastFlip := max g.lastFlip at_, takes := g.takes.map fun k => if flipsHere b k then { k with flipped := true } else k }
    else g
  finishGroups { s with str := { s.str with groups := groups } }

/-! Commands. -/

def execTakeGroup (t : Nat) (src : Src) (data : List Nat) (s : State) : Res :=
  .next (answer src Reg.takeGroup false (takeGroupOp data) (s.begin t))

/-- A group's effective DT (R86): the source state is latched. -/
def execTakeEffectiveDt (t id : Nat) (s : State) : Res :=
  let s := s.begin t
  .next (finishGroups (latchThose (fun g => !g.restore && g.id == id && decide (g.eff ≤ s.dt)) s))

/-- The frame period of a take's destination, ns. -/
def takePeriod (s : State) (k : Take) : Nat :=
  let r := if k.dest = 0 then (s.route k.route).image else k.dest
  100 * sec / (destTiming s s.outPlan r).rate

/-- A C0 destination has not flipped within 2 of its frame periods (R87). -/
def takeOverdue (s : State) (g : Group) (k : Take) : Bool :=
  !k.flipped && !k.overdue && rClass (if k.dest = 0 then (s.route k.route).image else k.dest) == 0 &&
    decide (g.eff + 2 * takePeriod s k ≤ s.dt)

/-- The named take of a group is overdue. -/
def dueOverdue (s : State) (id route : Nat) (g : Group) (k : Take) : Bool :=
  !g.restore && g.id == id && k.route == route && takeOverdue s g k

/-- A group with its overdue takes marked. -/
def markOverdue (s : State) (id route : Nat) (g : Group) : Group :=
  { g with takes := g.takes.map fun k => if dueOverdue s id route g k then { k with overdue := true } else k }

def execC0TakeOverdue (t id route : Nat) (s : State) : Res :=
  let s := s.begin t
  .next (if s.str.groups.any fun g => g.takes.any (dueOverdue s id route g) then
      let s : State := { s with str := { s.str with groups := s.str.groups.map (markOverdue s id route) } }
      (s.count Reg.takeOverdueCount 1).raiseAs Ev.c0TakeOverdue [id, route] .tied
    else s)

def takeStatsClearOp (s : State) : State × Nat :=
  (s.clear [Reg.takeC0Worst, Reg.takeOverdueCount, Reg.takeCount], stDone)

def execTakeStatsClear (t : Nat) (src : Src) (s : State) : Res :=
  .next (answer src Reg.takeStatsClear false takeStatsClearOp (s.begin t))

/-- HOLD_EXPIRED (R69): the reason stands. -/
def execHoldExpired (t route : Nat) (s : State) : Res :=
  let s := s.begin t
  let x := s.route route
  let due := match x.holdEnd with
    | some u => decide (u ≤ s.dt)
    | none => false
  .next (if x.mode == .hold && due then rtFall route x.reason s else s)

/-- A returned source has been usable for RT_RESTORE_DELAY (R69, R76). -/
def execRestoreDelayExpired (t route : Nat) (s : State) : Res :=
  let s := s.begin t
  let x := s.route route
  let due := match x.usableSince with
    | some u => decide (u + s.reg Reg.rtRestoreDelay * ms ≤ s.dt)
    | none => false
  .next (if rtOrphaned x.mode && due then s.modRoute route fun x => { x with returnDue := true } else s)

end Sys2Proof.Machine
end

