-- ==== Sys2Proof/Machine/Streams.lean ====
section
/-! DEFINITION. Input streams: their IDs, states and descriptors (R49 to R56), endpoints and heartbeats (R409 to R412),
commits of output streams and tiles (R57 to R62), and the safe set (R90 to R92, R629). -/

namespace Sys2Proof.Machine

/-! Changes of STR_IN_TABLE. -/

def strChanged (s : State) : State := s.count Reg.strChangeSeq 1

/-- A frame that is arriving is given up (R53): its buffers are abandoned (R189). -/
def abandonFrame (k : Nat) (s : State) : State :=
  match (s.ins k).frame with
  | none => s
  | some f =>
    let s := match f.buf with
      | some b => abandonWrite b s
      | none => s
    let s := s.each f.wins fun s w => abandonWrite w.2 s
    s.modIns k fun i => { i with frame := none }

/-- An ID becomes free (R50): its audio channels with it (R317). -/
def releaseId (k : Nat) (s : State) : State :=
  strChanged ({ s with aud := { s.aud with bind := oset s.aud.bind k none } } : State) |>.setIns k {}

/-- With STR_ENDPOINT_KEEP 0x01, GONE IDs that nothing names are free (R50). -/
def releaseUnnamed (s : State) : State :=
  if s.reg Reg.strEndpointKeep = 1 then
    s.each ((s.str.ins.filter fun e => e.2.mode == .gone).map (·.1)) fun s k => if s.streamNamed k then s else releaseId k s
  else s

/-- LEFT (R52). -/
def streamLeft (k : Nat) (s : State) : State :=
  let i := s.ins k
  if i.mode = .absent ∨ i.mode = .gone then s
  else
    let s := (abandonFrame k s).modIns k fun i => { i with
      mode := .gone, leftAt := s.dt, engine := none, untagged := none, secondNext := false
      tagState := 0, lapsed := false, bare := false }
    recheck (releaseUnnamed ((strChanged s).raise Ev.streamLeft [k]))

/-! The ID of a pair (R49 to R51). -/

/-- The ID bound to a pair. -/
def State.boundId (s : State) (identity number : Nat) : Option Nat :=
  (s.str.ins.find? fun e => e.2.mode != .absent && e.2.identity == identity && e.2.number == number).map (·.1)

/-- The GONE ID that no record names and that has been GONE longest. -/
def State.oldestGone (s : State) : Option Nat :=
  let held := (s.str.ins.filter fun e => e.2.mode == .gone && !s.streamNamed e.1).map fun e => (e.2.leftAt, e.1)
  ((held.mergeSort fun a b => decide (a.1 ≤ b.1)).head?).map (·.2)

/-- The ID for a new pair. -/
def newId (s : State) : Option (Nat × State) :=
  match lowest 512 fun k => (s.ins k).mode == .absent with
  | some k => some (k, s)
  | none => s.oldestGone.map fun k => (k, releaseId k s)

/-! What an announced stream is given. -/

/-- The link-role engine with the most free decode capacity that can take a load (R221). -/
def pickEngine (s : State) (load : Nat) : Option Nat :=
  let free := (List.range 16).filterMap fun e =>
    let used := decodeLoad s s.liveImages e
    if s.cmpRole e = 2 ∧ s.engineActive e ∧ used + load ≤ engineLimit then some (engineLimit - used, e) else none
  ((free.mergeSort fun a b => decide (b.1 ≤ a.1)).head?).map (·.2)

/-- The lowest run of c free embedded input channels (R317). -/
def freeRun (s : State) (c : Nat) : Option Nat :=
  let used := s.aud.bind.filterMap fun e => e.2
  (lowest (2048 - 128) fun i => let a := 128 + i
    decide (a + c ≤ 2048) && used.all fun u => decide (a + c ≤ u.1 ∨ u.1 + u.2 ≤ a)).map (128 + ·)

/-- Audio channels of a stream follow its AUDIO_CH (R317). -/
def bindAudio (k : Nat) (s : State) : State :=
  let c := dAudioCh (s.ins k).desc
  let put (v : Option (Nat × Nat)) (s : State) : State := { s with aud := { s.aud with bind := oset s.aud.bind k v } }
  let have_ : Bool := match oget s.aud.bind k with
    | some b => b.2 == c
    | none => false
  if have_ then s
  else
    let s := put none s
    if c = 0 then s
    else match freeRun s c with
      | some a => put (some (a, c)) s
      | none => s.raise Ev.audioChannelsFull [k]

/-! Safe records (R91, R92). -/

/-- A take group of the U3264's own, with the present DT as its effective DT, at which it is latched. -/
def ownGroup (safe : Bool) (takes : List Take) (s : State) : State :=
  let g : Group := { id := 0, moved := false, eff := s.dt, takes := takes, restore := true, safe := safe }
  let s := latchDue { s with str := { s.str with groups := insertGroup g s.str.groups } }
  markPending takes s

/-- The restore group of R94, or (`safe`) a safe record that binds: R92 names no effective DT for it, and the model takes the DT
of the ANNOUNCE, at which the stream is not yet LIVE (log entry 51). -/
def restoreGroup (safe : Bool) (images : List (Nat × Nat)) (s : State) : State :=
  ownGroup safe (images.map fun x => ({ route := x.1, op := 0, image := setImage s x.2 } : Take)) s

/-- The image of a safe record whose source is bound to stream k. -/
def safeBound (r k : Nat) : Nat := if rSrcType r = 0 then putFld r 223 200 k else r

/-- Safe records that name the pair of a stream bind. -/
def bindSafe (k : Nat) (s : State) : State :=
  let i := s.ins k
  s.each (okeys s.str.safeWait) fun s n =>
    match oget s.str.safeWait n with
    | some r =>
      if rSrcType r = 0 ∧ rLabel r = i.identity ∧ fld (rSrc r) 7 0 = i.number then
        restoreGroup true [(2016 + n, safeBound r k)] { s with str := { s.str with safeWait := oset s.str.safeWait n none } }
      else s
    | none => s

/-! ANNOUNCE (R409). -/

def sbEp (b : Nat) : Nat := fld b 118 109

/-- The descriptor that a stream record gives, without STATE, AUTH and SLOTS: those follow the link (R54). -/
def recordDesc (s : State) (lane index b : Nat) : Nat :=
  let bond := match s.bondOf lane with
    | some (_, n) => Nat.log2 n
    | none => 0
  pack [(3, 0), (1, fld b 91 91), (10, index), (5, s.calLane lane), (3, bond), (1, 0),
    (1, fld b 90 90), (14, fld b 88 75), (14, fld b 74 61), (14, fld b 60 47), (16, fld b 46 31), (10, fld b 30 21),
    (1, fld b 89 89), (3, 0), (9, 0), (6, fld b 20 15), (2, fld b 14 13), (15, 0)]

/-- A stream takes a descriptor: ANNOUNCED or UNSUPPORTED (R52, R221; a compressed one that R222 rules out too, log entry 63). A stream that keeps its place keeps what its tags have
shown (R77). -/
def enterFormat (k desc flow words : Nat) (joined : Bool) (s : State) : State :=
  let was := (s.ins k).mode
  let s := (abandonFrame k s).modIns k fun i => { i with engine := none }
  let engine := if dCompressed desc && codedOk desc && formatAccepted desc then pickEngine s (streamDecodeLoad desc) else none
  let ok := formatAccepted desc && (!dCompressed desc || engine.isSome)
  let s := s.modIns k fun i => { i with
    mode := if ok then .announced else .unsupported
    desc := desc, flow := flow, blockWords := words, engine := engine, frame := none, untagged := none
    secondNext := false, lastSecond := 0, last := [], audioSeq := none }
  let s := strChanged s
  let s := if ok then (if joined then s.raise Ev.streamJoined [k] else s)
    else if was = .unsupported then s else s.raise Ev.streamUnsupported [k]
  recheck (bindSafe k (bindAudio k s))

/-- An ANNOUNCE stream record. -/
def streamRecordOp (lane b : Nat) (s : State) : State :=
  let home := s.calLane lane
  match (okeys s.eps.table).find? fun e => match s.endpoint e with
      | some p => p.lane == home && p.ep == sbEp b
      | none => false with
  | none => s
  | some e =>
    let identity := match s.endpoint e with
      | some p => p.identity
      | none => 0
    let number := fld b 108 101
    let flow := fld b 100 92
    let words := fld b 12 7
    let desc := recordDesc s lane e b
    match s.boundId identity number with
    | some k =>
      let i := s.ins k
      if i.mode = .gone then enterFormat k desc flow words true s
      else if dFormat i.desc ≠ dFormat desc ∨ i.blockWords ≠ words then enterFormat k desc flow words false s
      else if i.desc ≠ desc ∨ i.flow ≠ flow then strChanged (s.setIns k { i with desc := desc, flow := flow })
      else s
    | none =>
      match newId s with
      | none => s.raise Ev.streamUnsupported [e]
      | some (k, s) => enterFormat k desc flow words true (s.setIns k { identity := identity, number := number })

/-! Endpoints (R410 to R412). -/

def epChanged (s : State) : State := s.count Reg.lnkEpSeq 1

/-- The endpoint of a partner's number on a lane or bond. -/
def State.endpointAt (s : State) (lane ep : Nat) : Option Nat :=
  (okeys s.eps.table).find? fun e => match s.endpoint e with
    | some p => p.lane == s.calLane lane && p.ep == ep
    | none => false

/-- Streams of an endpoint index. -/
def State.streamsOf (s : State) (e : Nat) : List Nat :=
  (s.str.ins.filter fun x => x.2.mode != .absent && x.2.mode != .gone && dEndpoint x.2.desc == e).map (·.1)

/-- An endpoint leaves with its streams. -/
def endpointLeave (e : Nat) (s : State) : State :=
  let s := s.each (s.streamsOf e) fun s k => streamLeft k s
  epChanged (s.setEndpoint e none)

/-- The departed endpoint kept for a lane and EP (R411). -/
def State.keptAt (s : State) (lane ep : Nat) : Option Departed :=
  s.eps.departed.find? fun d => d.lane == s.calLane lane && d.ep == ep

def forgetDeparted (lane ep : Nat) (s : State) : State :=
  { s with eps := { s.eps with departed := s.eps.departed.filter fun d => !(d.lane == s.calLane lane && d.ep == ep) } }

/-- A new endpoint takes the lowest free index. -/
def createEndpoint (lane b : Nat) (s : State) : State :=
  match lowest 1024 fun e => (s.endpoint e).isNone with
  | none => s.count Reg.lnkEpRefused 1
  | some e =>
    let s := forgetDeparted lane (sbEp b) s
    epChanged (s.setEndpoint e (some
      { sink := bit b 67, lane := s.calLane lane, ep := sbEp b, streams := fld b 76 68
        windowEnd := s.dt + ms, identity := fld b 108 77 }))

/-- An ANNOUNCE endpoint record. -/
def endpointRecordOp (lane b : Nat) (s : State) : State :=
  let ep := sbEp b
  let identity := fld b 108 77
  let silent : Bool := match s.keptAt lane ep with
    | some d => d.identity == identity && !d.alive
    | none => false
  let elsewhere : Bool := (okeys s.eps.table).any fun e => (match s.endpoint e with
    | some p => p.identity == identity && !(p.lane == s.calLane lane && p.ep == ep)
    | none => false)
  if elsewhere then s.count Reg.lnkEpRefused 1
  else match s.endpointAt lane ep with
    | some e =>
      match s.endpoint e with
      | some p =>
        if p.identity ≠ identity then createEndpoint lane b (forgetDeparted lane ep (endpointLeave e s))
        else
          let q := { p with sink := bit b 67, streams := fld b 76 68 }
          if q = p then s else epChanged (s.setEndpoint e (some q))
      | none => s
    | none => if silent then s else createEndpoint lane b s

/-- The windows of an endpoint count (R411). -/
def windowsCount (s : State) (lane : Nat) : Bool :=
  (s.bondLanes lane).any fun n => (s.link n).mode == .up || !(s.link n).held

/-- Bits of a HEARTBEAT. -/
def heartbeatOp (lane b : Nat) (s : State) : State :=
  let base := fld b 119 110
  let hit (ep : Nat) : Bool := decide (base ≤ ep ∧ ep < base + 96) && bit b (ep - base)
  let s := s.each (okeys s.eps.table) fun s e => match s.endpoint e with
    | some p => if p.lane = s.calLane lane ∧ hit p.ep then
        s.setEndpoint e (some { p with heard := true, missed := 0, lastHeard := s.dt }) else s
    | none => s
  let mark (d : Departed) : Departed := if d.lane = s.calLane lane ∧ hit d.ep then { d with alive := true } else d
  { s with eps := { s.eps with departed := s.eps.departed.map mark } }

/-! Sending stream records (R409). -/

/-- The body of the record of output stream k. -/
def outRecord (s : State) (k : Nat) : Nat :=
  let d := s.outDesc k
  let ep := match s.endpoint (dEndpoint d) with
    | some p => p.ep
    | none => 0
  let words := if !dCompressed d then 0 else match s.liveImages.find? fun r => rDstType r == 0 && fld (rDst r) 7 0 == k with
    | some r => codedWords s r
    | none => 0
  pack [(1, 1), (10, ep), (8, k), (9, k), (1, dMedia d), (1, ofBool (dInterlaced d)), (1, ofBool (dCompressed d)),
    (14, dWidth d), (14, dHeight d), (14, dTotal d), (16, dRate d), (10, dColour d), (6, dAudioCh d), (2, dAudioRate d),
    (6, words), (7, 0)]

/-- The record of an output stream is announced on its lane, when the link is UP. -/
def announceOut (k : Nat) (s : State) : State :=
  let d := s.outDesc k
  if outUsed d && (s.link (dLane d)).mode == .up then pushCtl (dLane d) 0x06 (outRecord s k) s else s

/-- The records of the output streams of a lane, when its link comes UP. -/
def announceLane (lane : Nat) (s : State) : State :=
  s.each ((List.range 256).filter fun k => outUsed (s.outDesc k) && dLane (s.outDesc k) == lane) fun s k => announceOut k s

/-- The link enters UP, and what the U3264 sends there is announced (R409). -/
def linkUp (lane : Nat) (resumed : Bool) (s : State) : State := announceLane lane (enterUp lane resumed s)

/-! STR_COMMIT (R57 to R62). -/

/-- Records of width w whose shadow differs from the value in force. -/
def changedRecords (shadow force w n : Nat) : List Nat :=
  (List.range n).filter fun i => record shadow 0 w i != record force 0 w i

/-- A route of class C0 uses output stream k (R59): it is its destination, or feeds a Spine layer of its engine. -/
def c0Uses (s : State) (k : Nat) : Bool :=
  let d := s.outDesc k
  s.liveImages.any fun r => rClass r == 0 &&
    ((rDstType r == 0 && fld (rDst r) 7 0 == k) || (rToLayer r && dEngineDriven d && dEngine d == rEngine r))

/-- The code with which a changed output descriptor is refused, 0 for none (R55, R57 to R59, R250, R286). For a STATE other than 0
and 2 the spec states no code; the model answers 0x02 (log entry 46). -/
def outDescCode (s : State) (k : Nat) (d : Nat) : Nat :=
  if dState d ≠ 0 ∧ dState d ≠ 2 then 0x02
  else if outUsed (s.outDesc k) && c0Uses s k then 0x05
  else if !outUsed d then 0
  else
    let n := dEngine d
    let t := s.outTables n
    if !formatAccepted d || (dCompressed d && !codedOk d) then 0x0D
    else if dEngineDriven d && (dInterlaced d || (raMode t.raster != 0 && dGeometry d != raGeometry t.raster) ||
        fld d 39 38 != csPrimaries t.setup || fld d 37 36 != csTransfer t.setup) then 0x0D
    else 0

/-- The code with which a changed tile is refused (R61). The spec states the refusal without a code, and nothing of a tile whose
stream is ABSENT; the model answers 0x0D to both (log entry 45). -/
def tileCode (s : State) (t : Nat) : Nat :=
  if !tValid t || ((s.ins (tStream t)).mode != .absent && tileFits t (s.ins (tStream t)).desc) then 0 else 0x0D

/-- The destination of output stream k has a running timing (R62). -/
def outTiming (s : State) (k : Nat) : Bool :=
  let d := s.outDesc k
  if !outUsed d then false
  else if dEngineDriven d then (s.outp (dEngine d)).raster != .off && (s.outp (dEngine d)).raster != .unpowered
  else s.liveImages.any fun r => rDstType r == 0 && fld (rDst r) 7 0 == k &&
    match s.srcStream (rSrcType r) (rSrc r) with
    | some i => (s.ins i).mode == .live
    | none => true

/-- A descriptor comes into force and is announced. -/
def putOutDesc (k d : Nat) (s : State) : State :=
  announceOut k (s.setForce Reg.strOutTable (putFld (s.force Reg.strOutTable) (128 * k + 127) (128 * k) d))

/-- Changes of a commit wait for their boundaries. -/
def State.strWaiting (s : State) : Bool :=
  (okeys s.str.outWait) != [] || s.str.routes.any fun e => e.2.tileDue

/-- The destination of a route has a running timing. -/
def routeTiming (s : State) (r : Nat) : Bool :=
  match rDstType r with
  | 0 => outTiming s (fld (rDst r) 7 0)
  | 2 => true
  | _ => (s.outp (rEngine r)).raster != .off && (s.outp (rEngine r)).raster != .unpowered

/-- STR_COMMIT (R57 to R62). The change of a tile in use is a take of the U3264's own on each route that uses it. -/
def strCommitOp (s : State) : State × Nat :=
  let outs := changedRecords (s.reg Reg.strOutTable) (s.force Reg.strOutTable) 128 256
  let tiles := changedRecords (s.reg Reg.strTileTable) (s.force Reg.strTileTable) 96 1024
  let codes := (outs.map fun k => outDescCode s k (record (s.reg Reg.strOutTable) 0 128 k)) ++
    tiles.map fun i => tileCode s (record (s.reg Reg.strTileTable) 0 96 i)
  if s.strWaiting then (s, stBusy)
  else match codes.find? (· != 0) with
    | some c => ({ s with str := { s.str with commitCode := c } }, stValue)
    | none =>
      let s : State := { s with str := { s.str with commitCode := 0 } }
      let s := s.each outs fun s k =>
        let d := record (s.reg Reg.strOutTable) 0 128 k
        if outTiming s k then { s with str := { s.str with outWait := oset s.str.outWait k (some d) } }
        else putOutDesc k d s
      let s := s.apply Reg.strTileTable
      let users := s.routeKeys.filter fun r =>
        let x := (s.route r).image
        rValid x && rSrcType x == 1 && tiles.contains (fld (rSrc x) 9 0)
      let s := s.each users fun s r =>
        let x := s.route r
        if routeTiming s x.image then s.setRoute r { x with tileDue := true }
        else s.setRoute r { x with tile := s.tileRec (fld (rSrc x.image) 9 0) }
      let waits := users.filter fun r => (s.route r).tileDue
      let s := if waits = [] then s else ownGroup false (waits.map fun r => ({ route := r, op := 3, image := 0 } : Take)) s
      (recheck (releaseUnnamed s), stDone)

/-- A route of the safe route set that is not cleared uses output stream k. -/
def safeUses (s : State) (k : Nat) : Bool :=
  let d := s.outDesc k
  s.routeKeys.any fun r =>
    let x := (s.route r).image
    decide (2016 ≤ r) && ((rDstType x == 0 && fld (rDst x) 7 0 == k) || (rToLayer x && dEngineDriven d && dEngine d == rEngine x))

/-- Descriptors held at S10 come into force once no safe route uses their streams (R94). -/
def heldApply (s : State) : State :=
  if s.start.next < 11 ∨ (s.start.next = 11 ∧ s.start.working = false) then s
  else s.each (okeys s.str.outHeld) fun s k =>
    match oget s.str.outHeld k with
    | some v =>
      if safeUses s k then s
      else putOutDesc k v { s with str := { s.str with outHeld := oset s.str.outHeld k none } }
    | none => s

/-- At a boundary of the destination, waiting descriptors take effect (R62). -/
def strBoundary (b : Bnd) (s : State) : State :=
  let s := s.each (okeys s.str.outWait) fun s k =>
    let d := s.outDesc k
    let here := if dEngineDriven d then b == .output (dEngine d) else b == .stream k
    match oget s.str.outWait k with
    | some v => if here then putOutDesc k v { s with str := { s.str with outWait := oset s.str.outWait k none } } else s
    | none => s
  heldApply s

/-! SAFE_SET_COMMIT (R90, R91, R629). -/

/-- The safe records and descriptors as written. -/
def State.safeCount (s : State) : Nat := s.reg (2 ^ 24 + Reg.safeSet) / 32
def State.safeOutCount (s : State) : Nat := s.reg (2 ^ 24 + Reg.safeOutTable) / 16
def State.safeRec (s : State) (i : Nat) : Nat := record (s.reg Reg.safeSet) 0 256 i

/-- A safe record is admitted (R91). -/
def safeOk (s : State) (r : Nat) : Bool :=
  let outs := (List.range s.safeOutCount).map fun j => record (s.reg Reg.safeOutTable) 0 128 j
  let dest := match rDstType r with
    | 0 =>
      let k := fld (rDst r) 7 0
      let d := if 248 ≤ k ∧ k < 248 + outs.length then nth outs (k - 248) 0 else s.outDesc k
      (dLanes d).all reserveLane
    | 3 => reserveOutput (rEngine r)
    | _ => false
  decide (rClass r = 0 ∧ (rKind r = 0 ∨ rKind r = 3)) && dest && decide (rFbType r ≠ 2)

/-- The safe image without its CRC. -/
def safeImage (s : State) : List Nat :=
  leBytes 2 1 ++ [s.safeCount, s.safeOutCount] ++ leBytes (32 * s.safeCount) (s.reg Reg.safeSet) ++
    leBytes (16 * s.safeOutCount) (s.reg Reg.safeOutTable) ++
    ((List.range 8).flatMap fun i =>
      leBytes 16 (s.force (Reg.outCompSetup (8 * i))) ++ leBytes 288 (s.force (Reg.outSpineTable (8 * i)))) ++
    leBytes 512 (s.reg Reg.chimeTable)

def safeSetCommitOp (ok : Bool) (s : State) : State × Nat :=
  if !((List.range s.safeCount).all fun i => safeOk s (s.safeRec i)) then (s, stValue)
  else if !ok then (s, stNvm)
  else
    let img := safeImage s
    let crc := crc32c img
    let s : State := { s with nvm := { s.nvm with safe := img ++ leBytes 4 crc } }
    (releaseUnnamed ((((s.setReg Reg.safeSetCount s.safeCount).setReg Reg.safeSetDigest crc).setReg Reg.safeSetState 1).setReg
      Reg.chimeSafeDigest (crc32c (leBytes 512 (s.reg Reg.chimeTable)))), stDone)

/-- A cancelled group names its streams no more (R50, R88). -/
def takeCancelled (id : Nat) (s : State) : State × Nat :=
  let r := takeCancelOp id s
  (releaseUnnamed r.1, r.2)

/-! Commands. -/

def execTakeCancel (t : Nat) (src : Src) (id : Nat) (s : State) : Res :=
  .next (answer src Reg.takeCancel false (takeCancelled id) (s.begin t))

def execEndpointRecord (t lane body : Nat) (s : State) : Res :=
  .next (received lane (endpointRecordOp lane body) (s.begin t))

def execStreamRecord (t lane body : Nat) (s : State) : Res :=
  .next (received lane (streamRecordOp lane body) (s.begin t))

/-- A WITHDRAW (R412). -/
def withdrawOp (lane body : Nat) (s : State) : State :=
  let ep := fld body 119 110
  let number := fld body 109 102
  match s.endpointAt lane ep with
  | none => forgetDeparted lane ep s
  | some e =>
    if number = 0xFF then forgetDeparted lane ep (endpointLeave e s)
    else s.each ((s.streamsOf e).filter fun k => (s.ins k).number == number) fun s k => streamLeft k s

def execWithdrawFolio (t lane body : Nat) (s : State) : Res := .next (received lane (withdrawOp lane body) (s.begin t))

def execHeartbeatFolio (t lane body : Nat) (s : State) : Res :=
  .next (received lane (heartbeatOp lane body) (s.begin t))

def execHeartbeatWindowEnd (t ep : Nat) (s : State) : Res :=
  let s := s.begin t
  .next (match s.endpoint ep with
    | none => s
    | some p =>
      if s.dt < p.windowEnd then s
      else if !windowsCount s p.lane then s.setEndpoint ep (some { p with windowEnd := p.windowEnd + ms })
      else if p.heard then
        s.setEndpoint ep (some { p with heard := false, missed := 0, windowEnd := p.windowEnd + ms })
      else if p.missed + 1 < 8 then
        s.setEndpoint ep (some { p with missed := p.missed + 1, windowEnd := p.windowEnd + ms })
      else
        let s := endpointLeave ep s
        { s with eps := { s.eps with
          departed := s.eps.departed ++ [{ lane := p.lane, ep := p.ep, identity := p.identity }] } })

def execDeviceHeartbeatSend (t : Nat) (s : State) : Res :=
  let s := s.begin t
  .next (if s.dt < s.eps.nextHeartbeat then s
    else
      let s : State := { s with eps := { s.eps with nextHeartbeat := s.dt + ms } }
      s.each ((List.range 32).filter fun n => (s.link n).mode == .up) fun s n => pushCtl n 0x08 0 s)

def execStreamRecordRepeat (t : Nat) (s : State) : Res :=
  let s := s.begin t
  .next (if s.dt < s.eps.nextRepeat then s
    else
      let s : State := { s with eps := { s.eps with nextRepeat := s.dt + sec } }
      s.each (List.range 256) fun s k => announceOut k s)

/-- STALL (R52): a frame that was arriving never completes. -/
def execStallTimeout (t stream : Nat) (s : State) : Res :=
  let s := s.begin t
  let i := s.ins stream
  .next (if i.mode = .live ∧ i.lastStart + s.reg Reg.strStallTime * ms ≤ s.dt then
      let s := (abandonFrame stream s).modIns stream fun i => { i with mode := .stalled }
      recheck ((strChanged s).raise Ev.streamStalled [stream])
    else s)

def execStrCommit (t : Nat) (src : Src) (s : State) : Res :=
  .next (answer src Reg.strCommit true strCommitOp (s.begin t))

def stvClearOp (s : State) : State × Nat :=
  (s.modIns (s.reg Reg.strViewSelect) fun i => { i with frames := 0, lineFail := 0, tagFail := 0 }, stDone)

def execStvClear (t : Nat) (src : Src) (s : State) : Res :=
  .next (answer src Reg.stvClear false stvClearOp (s.begin t))

def execSafeSetCommit (t : Nat) (src : Src) (ok : Bool) (s : State) : Res :=
  .next (answer src Reg.safeSetCommit true (safeSetCommitOp ok) (s.begin t))

end Sys2Proof.Machine
end

