-- ==== Sys2Proof/Machine/Quiesce.lean ====
section
/-! DEFINITION. The quiesce contract (R595) as converter units, compression engines and output engines share it: kinds and
instances (R562), the DT of changes, what ends a drain. -/

namespace Sys2Proof.Machine

/-- QS_SELECT of a function. -/
def qsKey (kind inst : Nat) : Nat := kind * 256 + inst

abbrev qsLane : Nat := 1
abbrev qsConv : Nat := 2
abbrev qsCmp : Nat := 3
abbrev qsOut : Nat := 4
abbrev qsStore : Nat := 5
abbrev qsAudio : Nat := 6
abbrev qsShared : Nat := 7
abbrev qsTdm : Nat := 8

/-- A function has changed state now. -/
def qsChanged (kind inst : Nat) (s : State) : State :=
  { s with sup := { s.sup with qsSince := tset (fun _ => 0) s.sup.qsSince (qsKey kind inst) s.dt } }

/-- Work that a drain limit cut off is counted, with its event. -/
def qsForced (kind inst lost : Nat) (s : State) : State :=
  let n := tget (fun _ => 0) s.sup.qsDiscarded (qsKey kind inst) + lost
  let s : State := { s with sup := { s.sup with qsDiscarded := tset (fun _ => 0) s.sup.qsDiscarded (qsKey kind inst) n } }
  (s.count Reg.qsForcedCount 1).raise Ev.quiesceForced [kind, inst, lost]

/-- The Spine ports of the function that owns a shared port, as `spineIsolated` counts them (R101, R114). -/
def spinePorts (p : Nat) : List Nat :=
  if p < 32 then [p, 128 + p]
  else if p < 80 then [p, 144 + p]
  else if 96 ≤ p ∧ p < 104 then [p - 16, 128 + p]
  else if 104 ≤ p ∧ p < 120 then [56 + p]
  else if 120 ≤ p ∧ p < 124 then [88]
  else []

/-- A port that passed its retest, with its owner's Spine ports, is back in service (R128). -/
def portReturned (p : Nat) (s : State) : State :=
  let spine := spinePorts p
  if (s.port p).isolated || spine.any s.fab.spineIsolated.contains then
    let s := s.modPort p fun v => { v with isolated := false }
    let s : State := { s with fab := { s.fab with
      spineIsolated := s.fab.spineIsolated.filter fun x => !spine.contains x } }
    s.raise Ev.portRestored [p]
  else s

/-- A subsystem reset is done (R562). -/
def subsystemDone (kind inst : Nat) (s : State) : State :=
  if s.pwr.subsystem = some (qsKey kind inst) then
    let ports := if kind = qsLane then [inst] else if kind = qsConv then [32 + inst] else if kind = qsCmp then [80 + inst]
      else if kind = qsOut then [104 + inst / 4] else if kind = qsStore then [96, 97, 98, 99, 100, 101, 102, 103]
      else if kind = qsAudio then [120, 121, 122, 123]
      else if kind = qsShared then List.range 128 else []
    let s := if s.pwr.subPass then s.each ports fun s p => portReturned p s else s
    (({ s with pwr := { s.pwr with subsystem := none } } : State).setReg Reg.rstResult 0).raise Ev.resetDone [kind, inst]
  else s

/-- The state in which a drain ends: the retest of a reset may leave it isolated; an enable that came meanwhile, and a
reset, bring it back to Active. -/
def qsAfter (reset pass reEnable : Bool) : QsMode :=
  if reset && !pass then .isolated else if reEnable then .active else .idle

/-- The longest frame period of the live input streams that p selects, in ns. -/
def longestFrame (s : State) (p : Nat → Bool) : Nat :=
  (s.str.ins.filter fun e => e.2.mode == .live && p e.1).foldl (fun m e => max m (100 * sec / max 1 (dRate e.2.desc))) 0

/-! Converter units. -/

/-- A unit's drain has ended (R171, R562). -/
def unitDrained (u : Nat) (s : State) : State :=
  let v := s.unit u
  if v.mode ≠ .draining then s
  else
    let m := qsAfter v.resetDue s.pwr.subPass v.reEnable
    let s := qsChanged qsConv u (s.setUnit u { v with
      mode := m, reEnable := false, resetDue := false, linesLate := v.linesLate })
    recheck (if v.resetDue then subsystemDone qsConv u s else s)

/-! Compression engines. -/

/-- The user of an engine codes with the setup in force from its next boundary on (R239). -/
def userBoundary (user : Nat) (s : State) : State :=
  s.each ((s.cmp.filter fun e => e.2.due.any fun d => d.1 == user).map (·.1)) fun s e =>
    s.modEngine e fun v => { v with due := v.due.filter fun d => d.1 != user }

/-- Streams whose engine could not be found are tried again (R221). -/
def retryStreams (s : State) : State :=
  s.each ((s.str.ins.filter fun e => e.2.mode == .unsupported && dCompressed e.2.desc && formatAccepted e.2.desc).map (·.1))
    fun s k =>
      let i := s.ins k
      if (pickEngine s (streamDecodeLoad i.desc)).isSome then enterFormat k i.desc i.flow i.blockWords false s else s

/-- An engine stops (R240): frames of its pools that intake was writing are abandoned, and its link input streams go STALLED, a frame
under way abandoned. -/
def engineStops (e : Nat) (s : State) : State :=
  let cutOff := (s.fs.bufs.filter fun b => b.2.mode == .writing && pComp (s.poolRec (handlePool b.1)) == e).map (·.1)
  let s := forgetBufs cutOff (s.each cutOff fun s b => abandonWrite b s)
  let s := s.each ((s.str.ins.filter fun x => x.2.engine == some e && x.2.mode == .live).map (·.1)) fun s k =>
    (strChanged ((abandonFrame k s).modIns k fun i => { i with mode := .stalled })).raise Ev.streamStalled [k]
  recheck s

/-- An engine's drain has ended (R240, R562). -/
def engineDrained (e : Nat) (s : State) : State :=
  let v := s.engine e
  if v.mode ≠ .draining then s
  else
    let m := qsAfter v.resetDue s.pwr.subPass v.reEnable
    let s := qsChanged qsCmp e (s.setEngine e { v with mode := m, reEnable := false, resetDue := false })
    let s := engineStops e (if v.resetDue then subsystemDone qsCmp e s else s)
    if m = .active then recheck (retryStreams s) else s

/-- An engine or unit is isolated by a handshake timeout (R127, R173, R241). -/
def engineIsolate (e : Nat) (s : State) : State :=
  engineStops e (qsChanged qsCmp e (s.modEngine e fun v => { v with mode := .isolated, resetDue := false, reEnable := false }))

def unitIsolate (u : Nat) (s : State) : State :=
  recheck (qsChanged qsConv u (s.modUnit u fun v => { v with mode := .isolated, resetDue := false, reEnable := false }))

end Sys2Proof.Machine
end

