-- ==== Sys2Proof/Machine/Compression.lean ====
section
/-! DEFINITION. Compression engines at work (R224 to R234, R239 to R245): coding rows of a pool, decoding rows of a pool or
of a link-compressed stream, counts and events, and the commands of an engine. -/

namespace Sys2Proof.Machine

/-! Users whose frames an engine codes (R239): buffers that are written, and output streams. -/

def bufUser (key : Nat) : Nat := 2 * key
def outUser (k : Nat) : Nat := 2 * k + 1

/-- The setup with which an engine codes for a user: until its next frame boundary the one it began the frame with. -/
def State.userSetup (s : State) (e user : Nat) : Nat :=
  match (s.engine e).due.find? fun d => d.1 == user with
  | some d => d.2
  | none => s.force (Reg.cmpSetup e)

/-- QMAX for a user. -/
def State.qmax (s : State) (e user : Nat) : Nat := fld (s.userSetup e user) 119 117

/-- Blocks coded for a user, as counts and events (R230 to R232, R244, R245). -/
def noteCoded (e user : Nat) (cs : List Coded) (s : State) : State :=
  let raw := (cs.filter (·.raw)).length
  let lossy := (cs.filter (·.lossy)).length
  let s := s.modEngine e fun v => { v with raw := v.raw + raw, requant := v.requant + lossy }
  let s := s.count Reg.cmpRawTotal raw
  if raw ≠ 0 ∧ bit (s.userSetup e user) 116 then
    s.each (List.range raw) fun s _ => s.raiseLimited sec (Ev.rawFallback e) []
  else s

/-- Blocks found invalid (R233). -/
def noteInvalid (e n : Nat) (s : State) : State :=
  let s := (s.modEngine e fun v => { v with invalid := v.invalid + n }).count Reg.cmpInvalidTotal n
  s.each (List.range n) fun s _ => s.raiseLimited sec (Ev.blockInvalid e) []

/-- The bytes of a coded block row of a pool, filled out to its row size (R224). -/
def rowData (size : Nat) (cs : List Coded) : List Nat :=
  let d := cs.flatMap (·.data)
  d ++ List.replicate (size - d.length) 0

/-- Block j of a block row from what the row holds: none in the place of a block that cannot be had, which is taken from
`old`, the same row of the previous frame, or is open when there is none. -/
def fillBlock (old : List (List Nat)) (r j : Nat) : Option (List Nat) → List Nat
  | some b => b
  | none => (old[j]?).getD ((List.range 128).map fun i => Config.noFrame (r * 4096 + j) i)

/-- The blocks of a row of decoded lines. -/
def oldBlocks (chroma r : Nat) (lines : List (List Nat)) : List (List Nat) :=
  if lines = [] then [] else (rowPlanes chroma r lines).flatMap fun p => blocksOf p.1 p.2

/-- Rows r, r + 1, … of a frame or field, given as their blocks, back as lines in stream order. -/
def blocksToLines (width chroma : Nat) (rows : List (List (List Nat))) : List (List Nat) :=
  streamLines chroma (rows.map (rowLines width chroma))

/-! Commands of an engine (R239 to R243). -/

/-- Input streams that an engine works for: those it decodes, those written to its pools and those of the routes that name it. -/
def engineStream (s : State) (e k : Nat) : Bool :=
  (s.ins k).engine == some e ||
    (match s.streamPool k with
      | some p => pComp (s.poolRec p) == e
      | none => false) ||
    s.liveImages.any fun r => rComp r == e && s.srcStream (rSrcType r) (rSrc r) == some k

/-- Something uses an engine: a pool, a route, an input stream. -/
def engineUsed (s : State) (e : Nat) : Bool :=
  ((List.range 64).any fun p => pValid (s.poolRec p) && pComp (s.poolRec p) == e) ||
    s.liveImages.any (fun r => rComp r == e) || s.waitingImages.any (fun r => rComp r == e) ||
    s.str.ins.any fun x => x.2.engine == some e

/-- Users with a frame that an engine codes. -/
def engineUsers (s : State) (e : Nat) : List Nat :=
  ((s.fs.bufs.filter fun b => b.2.mode == .writing && pComp (s.poolRec (handlePool b.1)) == e).map fun b => bufUser b.1) ++
    ((s.liveImages.filter fun r => rKind r == 1 && rComp r == e).map fun r => outUser (fld (rDst r) 7 0))

def cmpSetupOk (v : Nat) : Bool :=
  decide (fld v 127 126 < 3 ∧ 5 ≤ fld v 125 120 ∧ fld v 125 120 ≤ 49 ∧ fld v 119 117 ≤ 4)

def cmpApplyOp (e : Nat) (s : State) : State × Nat :=
  let new := s.reg (Reg.cmpSetup e)
  let old := s.force (Reg.cmpSetup e)
  if !cmpSetupOk new || (fld new 127 120 != fld old 127 120 && engineUsed s e) then (s, stValue)
  else
    let s := (s.modEngine e fun v => { v with due := (engineUsers s e).map fun u => (u, s.userSetup e u) }).apply (Reg.cmpSetup e)
    (recheck (retryStreams s), stDone)

def cmpDisableOp (e : Nat) (s : State) : State × Nat :=
  let v := s.engine e
  match v.mode with
  | .active =>
    let limit := longestFrame s (engineStream s e) + ms
    let s := s.setEngine e { v with mode := .draining, drainEnd := s.dt + limit, reEnable := false }
    (qsChanged qsCmp e s, stDone)
  | .draining => (s.setEngine e { v with reEnable := false }, stDone)
  | _ => (s, stDone)

def cmpEnableOp (e : Nat) (s : State) : State × Nat :=
  let v := s.engine e
  match v.mode with
  | .idle =>
    (recheck (retryStreams (qsChanged qsCmp e (s.setEngine e { v with mode := .active }))), stDone)
  | .draining => (s.setEngine e { v with reEnable := true }, stDone)
  | _ => (s, stDone)

/-- R172: refused on an engine that is not isolated. -/
def cmpRetestOp (e : Nat) (pass : Bool) (s : State) : State × Nat :=
  let v := s.engine e
  if v.mode = .isolated ∧ pass then
    let s := qsChanged qsCmp e (s.setEngine e { v with mode := .active })
    (recheck (retryStreams (portReturned (80 + e) s)), stDone)
  else (s, if v.mode = .isolated then stDone else stValue)

def execCmpApply (t : Nat) (src : Src) (engine : Nat) (s : State) : Res :=
  .next (answer src (Reg.cmpControl engine) true (cmpApplyOp engine) (s.begin t))

def execCmpDisable (t : Nat) (src : Src) (engine : Nat) (s : State) : Res :=
  .next (answer src (Reg.cmpControl engine) false (cmpDisableOp engine) (s.begin t))

def execCmpEnable (t : Nat) (src : Src) (engine : Nat) (s : State) : Res :=
  .next (answer src (Reg.cmpControl engine) false (cmpEnableOp engine) (s.begin t))

def execCmpRetest (t : Nat) (src : Src) (engine : Nat) (pass : Bool) (s : State) : Res :=
  .next (answer src (Reg.cmpControl engine) false (cmpRetestOp engine pass) (s.begin t))

def cmpClearOp (engine : Nat) (s : State) : State × Nat :=
  (s.modEngine engine fun v => { v with raw := 0, invalid := 0, requant := 0 }, stDone)

def execCmpClearCounters (t : Nat) (src : Src) (engine : Nat) (s : State) : Res :=
  .next (answer src (Reg.cmpControl engine) false (cmpClearOp engine) (s.begin t))

def cmpStatsClearOp (s : State) : State × Nat :=
  let s := s.clear [Reg.cmpRawTotal, Reg.cmpInvalidTotal]
  (s.each (List.range 16) fun s e => s.modEngine e fun v => { v with raw := 0, invalid := 0, requant := 0 }, stDone)

def execCmpStatsClear (t : Nat) (src : Src) (s : State) : Res :=
  .next (answer src Reg.cmpStatsClear false cmpStatsClearOp (s.begin t))

end Sys2Proof.Machine
end

