-- ==== Sys2Proof/Machine/Governor.lean ====
section
/-! DEFINITION. The slack governor's set point and what margin sweeps mean for it (R555 to R557). -/

namespace Sys2Proof.Machine

def State.modGov (s : State) (f : GovState → GovState) : State := { s with pwr := { s.pwr with gov := f s.pwr.gov } }

/-- ENABLE of GOV_SETUP in force (R558). -/
def govEnabled (s : State) : Bool := bit (s.force Reg.govSetup) 63

/-- A VoltageWrite (R555, R556): the set point changes, and the lowest one since the start is kept. -/
def govWrite (mv : Nat) (s : State) : State :=
  let s := (s.setReg Reg.govVcoreSet mv).setReg Reg.govVcoreLowest (min (s.reg Reg.govVcoreLowest) mv)
  (s.setReg Reg.govLastStepDt s.dt).emit (.avs mv)

/-- The power-on voltage is set, where it differs. -/
def govNominal (s : State) : State := if s.reg Reg.govVcoreSet = 750 then s else govWrite 750 s

/-- A margin sweep is about to start: one later than the first of the start pauses a governor that trims (R557). -/
def govSweepStarts (s : State) : State :=
  if s.reg Reg.govState = 2 then
    ((govNominal s).setReg Reg.govState 3).modGov fun g => { g with bySweep := true, run := 0 }
  else s

/-- A margin sweep has ended; `whole` is the sweep of R202. -/
def govSweepEnds (whole : Bool) (s : State) : State :=
  if s.reg Reg.govState = 1 ∧ whole then s.setReg Reg.govState 2
  else if s.reg Reg.govState = 3 ∧ s.pwr.gov.bySweep then
    (s.setReg Reg.govState 2).modGov fun g => { g with bySweep := false }
  else s

end Sys2Proof.Machine
end

