-- ==== Sys2Proof/Machine/RefCore.lean ====
section
/-! DEFINITION. Reference sources and timing domains as their commands, the lanes and the supplies share them: the states
of a source (R435), disagreement (R436), the states of a domain (R440), selection (R441, R442) and holdover (R443). -/

namespace Sys2Proof.Machine

def State.src (s : State) (n : Nat) : RefSource := tget (fun _ => {}) s.clk.srcs n
def State.setSrc (s : State) (n : Nat) (v : RefSource) : State :=
  { s with clk := { s.clk with srcs := tset (fun _ => {}) s.clk.srcs n v } }
def State.modSrc (s : State) (n : Nat) (f : RefSource → RefSource) : State := s.setSrc n (f (s.src n))

def State.dom (s : State) (n : Nat) : Domain := tget (fun _ => {}) s.clk.doms n
def State.setDom (s : State) (n : Nat) (v : Domain) : State :=
  { s with clk := { s.clk with doms := tset (fun _ => {}) s.clk.doms n v } }
def State.modDom (s : State) (n : Nat) (f : Domain → Domain) : State := s.setDom n (f (s.dom n))

/-! Fields of REF_SETUP (R430), REF_LIMITS (R434) and DOM_SETUP (R439). -/

def rsEnable (v : Nat) : Bool := bit v 63
def rsPulse (v : Nat) : Bool := bit v 62
def rsEdge (v : Nat) : Bool := bit v 61
def rsRank (v : Nat) : Nat := fld v 60 57
def rsLane (v : Nat) : Nat := fld v 56 52
def rsNominal (v : Nat) : Nat := fld v 51 20

def rlAccept (v : Nat) : Int := 10 * (fld v 127 112 : Nat)
def rlReject (v : Nat) : Int := 10 * (fld v 111 96 : Nat)
def rlDrift (v : Nat) : Nat := fld v 95 80
def rlWindow (v : Nat) : Nat := fld v 79 64
def rlQual (v : Nat) : Time := fld v 63 48 * sec
def rlMarginal (v : Nat) : Time := fld v 47 32 * sec

def dsEnable (v : Nat) : Bool := bit v 127
def dsBandwidth (v : Nat) : Nat := fld v 126 124
def dsRevertive (v : Nat) : Bool := bit v 123
def dsPhaseMode (v : Nat) : Bool := bit v 122
def dsForce (v : Nat) : Nat := fld v 121 118
def dsWtr (v : Nat) : Time := fld v 117 102 * sec
def dsFrameRate (v : Nat) : Nat := fld v 101 86
def dsFrameOffset (v : Nat) : Nat := fld v 85 56
def dsSlew (v : Nat) : Nat := fld v 55 40

def State.refSetup (s : State) (n : Nat) : Nat := s.force (Reg.refSetup n)
def State.refLimits (s : State) (n : Nat) : Nat := s.force (Reg.refLimits n)
def State.domSetup (s : State) (d : Nat) : Nat := s.force (Reg.domSetup d)

/-- Types of source (R429). -/
inductive SrcType where
  | clock | pps | frame | lane | net
  deriving DecidableEq, Repr

def State.srcType (s : State) (n : Nat) : SrcType :=
  if n < 4 then (if rsPulse (s.refSetup n) then .pps else .clock)
  else if n < 8 then .frame else if n < 11 then .lane else .net

/-- The largest bandwidth that a type of source allows, as its code (R438). -/
def SrcType.widest : SrcType → Nat
  | .pps => 1
  | .net => 2
  | .frame => 3
  | .clock | .lane => 6

/-- The loop bandwidth that domain d uses on source n: the smaller of BANDWIDTH and what the type of the source allows (R438). -/
def State.loopBandwidth (s : State) (d n : Nat) : Nat := min (dsBandwidth (s.domSetup d)) (s.srcType n).widest

/-- W of a source in units of 10 ms (R434). -/
def State.srcWindow (s : State) (n : Nat) : Nat :=
  let w := rlWindow (s.refLimits n)
  if w ≠ 0 then w else match s.srcType n with
    | .pps | .net => 1600
    | _ => 100

/-- A domain runs. -/
def State.domRuns (s : State) (d : Nat) : Bool := (s.dom d).mode != .off

/-- Source n is in the set C of domain d (R441). -/
def State.eligible (s : State) (d n : Nat) : Bool :=
  bit (s.force (Reg.domSources d)) n && rsEnable (s.refSetup n) && decide (rsRank (s.refSetup n) < 15)

/-- Domains that select the source or could select it. -/
def State.refDomains (s : State) (n : Nat) : List Nat :=
  (List.range 16).filter fun d => s.domRuns d && ((s.dom d).selected == some n || s.eligible d n)

/-- Numbers as the mask that has their bits. -/
def maskOf (l : List Nat) : Nat := l.foldl setBit 0

/-- "Best" of R441: the QUALIFIED source of the lowest RANK in C; between equal ranks the one selected, else the lowest
number. -/
def State.bestSource (s : State) (d : Nat) : Option Nat :=
  let c := (List.range 12).filter fun n => s.eligible d n && (s.src n).mode == .qualified
  let rank (n : Nat) : Nat := 2 * rsRank (s.refSetup n) + (if (s.dom d).selected = some n then 0 else 1)
  c.foldl (fun (b : Option Nat) n => match b with
    | none => some n
    | some m => if rank n < rank m then some n else some m) none

/-! Holdover (R443). -/

/-- T_end of a domain that loses source n now; none when it would lie before DT 0. -/
def State.holdEnd (s : State) (n : Nat) : Option Time :=
  let entry := match (s.src n).marginalAt with
    | some m => min s.dt m
    | none => s.dt
  let guardTime := s.reg Reg.refGuardFactor * s.srcWindow n * (10 * ms)
  if guardTime ≤ entry then some (entry - guardTime) else none

/-- The counted seconds over which the holdover frequency is the mean: the last REF_HOLD_AVG that end by T_end. -/
def State.holdSeconds (s : State) (d n : Nat) : List (Time × Int) :=
  match s.holdEnd n with
  | none => []
  | some e => ((s.dom d).hist.filter fun h => decide (h.1 ≤ e)).take (s.reg Reg.refHoldAvg)

/-- The mean of frequencies. -/
def meanOf (l : List (Time × Int)) : Int := roundTo (l.foldl (fun a x => a + x.2) 0) (max 1 l.length)

/-- Domains that go into holdover when their source n is lost now. -/
def State.holdoverDomains (s : State) (n : Nat) : List Nat :=
  (List.range 16).filter fun d =>
    (s.dom d).selected == some n && (s.bestSource d).isNone && !(s.holdSeconds d n).isEmpty

/-! Records (R454, R582). -/

/-- The REF_SWITCH record of a domain. -/
def refRecord (d : Nat) (prev new : Option Nat) (reason : Nat) (s : State) : State :=
  let v := s.dom d
  cbWrite 9 ([d, prev.getD 0xFF, new.getD 0xFF, reason] ++ leBytes 4 (ofInt 32 v.buildOut) ++
    leBytes 4 (ofInt 32 v.holdFreq)) s

/-! Sources. -/

/-- A source changes state. -/
def refTo (n : Nat) (mode : RefMode) (s : State) : State :=
  s.modSrc n fun v => { v with
    mode := mode, since := s.dt, within := none, runIn := 0, agree := none, disagree := []
    majority := if mode = .outvoted then v.majority else []
    marginalAt := if mode = .marginal then some s.dt
      else if mode = .qualifying ∨ mode = .qualified then none else v.marginalAt }

/-- REF_LOST for a source that a domain selects or could select, with the domains that enter holdover (R460). -/
def refLostEvent (n reason : Nat) (s : State) : State :=
  let m := maskOf (s.refDomains n)
  if m = 0 then s else s.raise (Ev.refLost n) [n, m, reason, maskOf (s.holdoverDomains n)]

/-- INACTIVE of R435. -/
def refInactive (n : Nat) (s : State) : State :=
  let v := s.src n
  if v.mode = .disabled ∨ v.mode = .absent then s
  else
    let s := s.modSrc n fun v => { v with losses := v.losses + 1, good := 0, offsets := [] }
    refLostEvent n 1 (refTo n .absent s)

/-- ACTIVE of R435. -/
def refActive (n : Nat) (s : State) : State :=
  if (s.src n).mode = .absent then refTo n .qualifying (s.modSrc n fun v => { v with offsets := [] }) else s

/-- REQUALIFY of R435. -/
def refRequalify (n : Nat) (s : State) : State :=
  let v := s.src n
  if v.mode = .disabled ∨ v.mode = .absent then s
  else refLostEvent n 5 (refTo n .qualifying (s.modSrc n fun v => { v with offsets := [], good := 0 }))

/-- The lane of a lane clock leaves READY, or is READY (R432). -/
def laneClock (lane : Nat) (ready : Bool) (s : State) : State :=
  s.each [8, 9, 10] fun s n =>
    if rsEnable (s.refSetup n) && rsLane (s.refSetup n) == lane then
      (if ready then refActive n s else refInactive n s)
    else s

/-- Offset inside ACCEPT with a drift rate within DRIFT_LIMIT (R435). -/
def refWithin (s : State) (n : Nat) (offset : Int) (driftNum : Int) (driftDen : Nat) : Bool :=
  let l := s.refLimits n
  decide (offset.natAbs ≤ (rlAccept l).natAbs ∧ driftNum.natAbs ≤ rlDrift l * driftDen)

/-- The drift rate of R433 as a fraction in ppb/s: with w the window in 10 ms, a quarter of 100 / w of the sum. 0 until four
windows stand. -/
def driftRate (w : Nat) : List Int → Int × Nat
  | a :: b :: c :: d :: _ => (25 * (a + b - c - d), w)
  | _ => (0, 1)

/-- The states of a source at the end of a window (R435). -/
def refWindow (n : Nat) (offset : Int) (s : State) : State :=
  let w := s.srcWindow n
  let offsets := (offset :: (s.src n).offsets).take 4
  let d := driftRate w offsets
  let s := s.modSrc n fun v => { v with offsets := offsets, drift := roundTo d.1 (max 1 d.2) }
  let s := (s.setReg (Reg.refOffset n) (ofInt 32 offset)).setReg (Reg.refDrift n) (ofInt 32 (s.src n).drift)
  let ok := refWithin s n offset d.1 d.2
  let l := s.refLimits n
  let far := decide ((rlReject l).natAbs < offset.natAbs)
  let rejected (s : State) : State :=
    refLostEvent n 2 (refTo n .rejected (s.modSrc n fun v => { v with rejects := v.rejects + 1 }))
  match (s.src n).mode with
  | .qualifying =>
    s.modSrc n fun v => { v with within := if ok then some (v.within.getD s.dt) else none }
  | .qualified =>
    if far then rejected s
    else if ok then s
    else (refTo n .marginal (s.modSrc n fun v => { v with marginals := v.marginals + 1 })).raise (Ev.refMarginal n)
      [n, maskOf (s.refDomains n)]
  | .marginal =>
    if far then rejected s
    else if !ok then s.modSrc n fun v => { v with runIn := 0 }
    else if 3 ≤ (s.src n).runIn + 1 then refTo n .qualified s
    else s.modSrc n fun v => { v with runIn := v.runIn + 1 }
  | .rejected =>
    if offset.natAbs ≤ (rlAccept l).natAbs then refTo n .qualifying s else s
  | _ => s

/-! Equal ranks that disagree (R436). -/

/-- The newest offset of a source. -/
def State.offsetOf (s : State) (n : Nat) : Int := (s.src n).offsets.headD 0

/-- Two sources lie within REF_DISAGREE_LIMIT of each other. -/
def State.agreeing (s : State) (a b : Nat) : Bool :=
  decide ((s.offsetOf a - s.offsetOf b).natAbs ≤ 10 * s.reg Reg.refDisagreeLimit)

/-- A source stands for comparison: QUALIFIED or MARGINAL. -/
def State.comparable (s : State) (n : Nat) : Bool := (s.src n).mode == .qualified || (s.src n).mode == .marginal

/-- The third sources of R436: QUALIFIED, and in the mask of some domain. -/
def State.thirds (s : State) (a b : Nat) : List Nat :=
  (List.range 12).filter fun m => m != a && m != b && (s.src m).mode == .qualified &&
    (List.range 16).any fun d => bit (s.force (Reg.domSources d)) m

/-- A source is outvoted by its equal and the thirds that agree with that one. No domain is concerned by itself: the record
carries free values there. -/
def refOutvote (n : Nat) (by_ : List Nat) (s : State) : State :=
  let s := s.modSrc n fun v => { v with outvotes := v.outvotes + 1, majority := by_ }
  let s := s.raise (Ev.refDisagree n) [n, maskOf (s.refDomains n)]
  let s := refLostEvent n 3 (refTo n .outvoted s)
  let b := s.drawBytes 10
  cbWrite 9 ([nth b.1 0 0, n, nth b.1 1 0, 6] ++ b.1.drop 2) b.2

/-- The pair a, b is compared at the end of a window of `a`, whose W is the longer. -/
def refCompare (a b : Nat) (s : State) : State :=
  if !(s.comparable a && s.comparable b) || rsRank (s.refSetup a) != rsRank (s.refSetup b) || s.agreeing a b then
    s.modSrc a fun v => { v with disagree := tset (fun _ => 0) v.disagree b 0 }
  else
    let k := tget (fun _ => 0) (s.src a).disagree b + 1
    let s := s.modSrc a fun v => { v with disagree := tset (fun _ => 0) v.disagree b k }
    let count (s : State) (n : Nat) : State := s.modSrc n fun v => { v with disagrees := v.disagrees + 1 }
    let s := if k = 3 then count (count s a) b else s
    let withA := (s.thirds a b).filter fun m => s.agreeing m a && !s.agreeing m b
    let withB := (s.thirds a b).filter fun m => s.agreeing m b && !s.agreeing m a
    if k < 3 then s
    else if withA ≠ [] ∧ withB = [] then refOutvote b (a :: withA) s
    else if withB ≠ [] ∧ withA = [] then refOutvote a (b :: withB) s
    else if k = 3 then
      (s.raise (Ev.refDisagree a) [a, maskOf (s.refDomains a)]).raise (Ev.refDisagree b) [b, maskOf (s.refDomains b)]
    else s

/-- The comparisons that end with a window of n: with each source of a shorter W, or of the same W and a higher number. -/
def refDisagreements (n : Nat) (s : State) : State :=
  s.each ((List.range 12).filter fun m => m != n &&
      (decide (s.srcWindow m < s.srcWindow n) || (s.srcWindow m == s.srcWindow n && decide (n < m))))
    fun s m => refCompare n m s

/-- An OUTVOTED source agrees with the majority, or does not (R435). -/
def refAgreement (n : Nat) (s : State) : State :=
  let v := s.src n
  if v.mode ≠ .outvoted then s
  else
    let standing := v.majority.filter s.comparable
    let ok := standing != [] && standing.all fun m => s.agreeing n m
    s.setSrc n { v with agree := if ok then some (v.agree.getD s.dt) else none }

/-! Domains. -/

def domTo (d : Nat) (mode : DomMode) (s : State) : State :=
  s.modDom d fun v => if v.mode = mode then v else { v with mode := mode, since := s.dt, near := 0 }

/-- A source within 0.05 ppm of the domain. -/
def domNear (s : State) (d n : Nat) : Bool := decide ((s.offsetOf n - (s.dom d).freq).natAbs ≤ 50)

/-- A domain's loop follows its setup and the type of the source it has selected (R438). -/
def domLoop (d : Nat) (s : State) : State :=
  s.modDom d fun v => { v with bandwidth := v.selected.map fun n => s.loopBandwidth d n }

/-- The domain takes source n with its build-out (R440, R442); a first selection is a switch as well. -/
def domSwitch (d n reason : Nat) (build : List (Nat × Int)) (s : State) : State :=
  let v := s.dom d
  let prev := v.selected
  let phase := ((build.find? fun x => x.1 == d).map (·.2)).getD 0
  let near := v.mode == .locked && domNear s d n
  let s := s.setDom d { v with
    selected := some n, bandwidth := some (s.loopBandwidth d n), buildOut := phase, buildSince := s.dt, switches := v.switches + 1, near := 0 }
  let s := domTo d (if near then .locked else .acquiring) s
  let s := refRecord d prev (some n) reason (s.count Reg.refSwitchTotal 1)
  s.raise (Ev.refSwitch n) [n, 2 ^ d, prev.getD 0xFF, reason]

/-- The domain finds no source: HOLDOVER, or FREE_RUN without history (R440, R443). -/
def domLost (d prev reason : Nat) (s : State) : State :=
  let v := s.dom d
  let h := s.holdSeconds d prev
  if h = [] then
    let s := domTo d .freeRun (s.setDom d { v with selected := none, bandwidth := none, freq := 0 })
    if v.mode = .locked then refRecord d (some prev) none reason s else s
  else
    let f := meanOf h
    let s := domTo d .holdover (s.setDom d { v with
      selected := none, bandwidth := none, freq := f, holdFreq := f, switches := v.switches + 1 })
    refRecord d (some prev) none reason s

/-- One evaluation of R441 of one domain. -/
def domEval (build : List (Nat × Int)) (d : Nat) (s : State) : State :=
  let v := s.dom d
  let set := s.domSetup d
  let best := s.bestSource d
  let f := dsForce set
  let rest (s : State) : State :=
    match v.selected with
    | none => match best with
      | some b => domSwitch d b 5 build s
      | none => s
    | some x =>
      let m := (s.src x).mode
      let out := !s.eligible d x
      if out || !(m == .qualified || m == .marginal) then
        let reason := if !out && m == .outvoted then 6 else 1
        match best with
        | some b => domSwitch d b reason build s
        | none =>
          let deselected := !bit (s.force (Reg.domSources d)) x
          let held := !(s.holdSeconds d x).isEmpty
          let s := domLost d x reason s
          if deselected then s.raise (Ev.refLost x) [x, 2 ^ d, 4, if held then 2 ^ d else 0] else s
      else match best with
        | none => s
        | some b =>
          if m == .marginal && decide ((s.src x).since + rlMarginal (s.refLimits x) ≤ s.dt) && b != x then
            domSwitch d b 2 build s
          else if dsRevertive set && decide (rsRank (s.refSetup b) < rsRank (s.refSetup x)) &&
              decide ((s.src b).since + dsWtr set ≤ s.dt) then
            domSwitch d b 3 build s
          else s
  if v.mode = .off then s
  else if f < 12 ∧ s.eligible d f = true then
    (if v.selected = some f then (if s.comparable f then s else rest s)
     else if (s.src f).mode = .qualified then domSwitch d f 4 build s
     else rest s)
  else rest s

end Sys2Proof.Machine
end

