-- ==== Sys2Proof/Machine/LaneCore.lean ====
section
/-! DEFINITION. A lane below the link: the fields of its setup (R371), and the states and holds that its commands, its
happenings and the margin sweeps share (R342, R348, R349, R354). -/

namespace Sys2Proof.Machine

/-! Fields of PHY_SETUP (R371). -/

def psEnable (v : Nat) : Bool := bit v 127
def psRateMax (v : Nat) : Nat := fld v 126 124
def psRateMin (v : Nat) : Nat := fld v 123 121
def psAmp (v : Nat) : Nat := fld v 120 116
/-- PRE and POST in force of a setup: the preset's, or the custom values (R342). -/
def psFfe (v : Nat) : Nat × Nat :=
  if bit v 115 then (fld v 111 107, fld v 106 102)
  else nth [(0, 0), (0, 6), (0, 12), (4, 8), (4, 14), (8, 10), (2, 18), (6, 18)] (fld v 114 112) (0, 0)
def psLowPower (v : Nat) : Nat := fld v 99 98
def psEcho (v : Nat) : Bool := bit v 96
def psQuietDelay (v : Nat) : Nat := fld v 95 80 * us
def psDormantDelay (v : Nat) : Nat := fld v 79 64 * ms
def psFloatPin (v : Nat) : Bool := bit v 63
def psFloatPos (v : Nat) : List Nat := (List.range 8).map fun i => fld v (62 - 6 * i) (57 - 6 * i)
def psMarginMin (v : Nat) : Nat := fld v 14 8

/-- PHY_SETUP in force of a lane. -/
def State.phySetup (s : State) (lane : Nat) : Nat := s.force (Reg.phySetup lane)

/-- A setup within the ranges of R371. -/
def phySetupOk (v : Nat) : Bool :=
  let f := psFloatPos v
  decide (psRateMax v < 6 ∧ psRateMin v < 6 ∧ psRateMax v ≤ psRateMin v ∧ psAmp v < 29 ∧ fld v 111 107 ≤ 16 ∧
    fld v 106 102 ≤ 24 ∧ fld v 111 107 + fld v 106 102 ≤ 24 ∧ psLowPower v < 3 ∧ 1 ≤ fld v 95 80 ∧
    1 ≤ fld v 79 64 ∧ 5 ≤ psMarginMin v ∧ psMarginMin v ≤ 40) &&
  (!psFloatPin v || (f.all (fun p => decide (7 ≤ p ∧ p ≤ 40)) && decide f.Nodup))

/-- The present value of a ramp toward `target`: one code every 10 µs (R342). -/
def rampNow (r : Ramp) (target t : Nat) : Nat :=
  let n := (t - r.since) / (10 * us)
  if r.start ≤ target then min target (r.start + n) else max target (r.start - n)

/-- The amplitude code that a setup asks for: above 24 acts as 24 at PAM4 rates (R371). -/
def psAmpAt (v rate : Nat) : Nat := if ratePam4 rate then min 24 (psAmp v) else psAmp v

/-- Amplitude, PRE and POST as they are driven now. -/
def ffeNow (s : State) (lane : Nat) : Nat × Nat × Nat :=
  let l := s.lane lane
  let v := s.phySetup lane
  (rampNow l.amp (psAmpAt v l.rate) s.dt, rampNow l.pre (psFfe v).1 s.dt, rampNow l.post (psFfe v).2 s.dt)

/-- The fields that wait for the next training: rates, polarity and float settings (R371). -/
def trainingFields (v : Nat) : List Nat := [fld v 126 121, fld v 101 100, fld v 63 15]

/-- v with the training fields of w. -/
def withTrainingFields (v w : Nat) : Nat :=
  putFld (putFld (putFld v 126 121 (fld w 126 121)) 101 100 (fld w 101 100)) 63 15 (fld w 63 15)

/-! Lane states (R354). -/

/-- The frames under way of an unbonded lane's streams can no longer be whole (log entry 14). -/
def breakFrames (lane : Nat) (s : State) : State :=
  if (s.bondOf lane).isSome then s
  else s.each ((s.str.ins.filter fun e => e.2.frame.isSome && (dLanes e.2.desc).contains lane).map (·.1)) fun s k =>
    s.modIns k fun i => { i with frame := i.frame.map fun f => { f with broken := true } }

/-- A lane that is phased to this one loses its phase (R129). -/
def phaseLost (lane : Nat) (s : State) : State :=
  s.each ((List.range 32).filter fun n =>
      (s.phase n).source == some lane && ((s.phase n).state == 1 || (s.phase n).state == 2)) fun s n =>
    (s.setPhase n { (s.phase n) with state := 3 }).raise Ev.phaseLost [n]

/-- What a lane that leaves READY takes with it: its recovered clock (R432), the phase of others (R129) and frames under
way. -/
def leaveReady (lane : Nat) (s : State) : State :=
  if (s.lane lane).mode = .ready then phaseLost lane (breakFrames lane (laneClock lane false s)) else s

/-- A rate brought within RATE_MAX and RATE_MIN of a setup (log entry 72). -/
def rateWithin (v rate : Nat) : Nat := min (max rate (psRateMax v)) (psRateMin v)

/-- The lane begins to train: fields that waited apply, and the attempts count anew (R354, R371). -/
def startTraining (lane : Nat) (s : State) : State :=
  let s := leaveReady lane s
  let l := s.lane lane
  let s := match l.nextSetup with
    | some v => s.setForce (Reg.phySetup lane) (withTrainingFields (s.phySetup lane) v)
    | none => s
  let rate := match l.nextSetup with
    | some v => rateWithin v l.rate
    | none => l.rate
  s.setLane lane { l with mode := .training, rate := rate, nextSetup := none, attempts := 0, trainings := l.trainings + 1 }

/-- LOCK_LOST of R354, with its event and the effect on the link. -/
def lockLost (lane : Nat) (s : State) : State :=
  let s := (leaveReady lane s).modLane lane fun l => { l with
    mode := .retraining, attempts := 0, lockLosses := l.lockLosses + 1 }
  linkPhyDown lane (s.raise (Ev.lockLost lane) [lane])

/-- A lane is OFF: ENABLE 0 is applied (R354). -/
def laneOff (lane : Nat) (s : State) : State :=
  linkPhyDown lane ((leaveReady lane s).modLane lane fun l => { l with mode := .off, attempts := 0, holdReason := 0 })

/-- Adaptation is held (R348, R349). A margin shortfall under another hold lengthens that one to the retraining. -/
def holdAdaptation (lane reason : Nat) (s : State) : State :=
  let l := s.lane lane
  if l.holdReason ≠ 0 then s.whenever (reason = 3) fun s => s.setLane lane { l with holdReason := 3 }
  else (s.setLane lane { l with holdReason := reason, heldData := 0, holds := l.holds + 1 }).raiseLimited sec
    (Ev.adaptHeld lane) [reason]

/-- A hold for the first two reasons ends after 256 data folios with the last window within limits (R349). -/
def endHold (lane : Nat) (s : State) : State :=
  let l := s.lane lane
  if (l.holdReason = 1 ∨ l.holdReason = 2) ∧ 256 ≤ l.heldData ∧ l.windowOk then
    s.setLane lane { l with holdReason := 0, heldData := 0 }
  else s

/-- The link reports a data folio during a hold (R349). -/
def countHeldData (lane : Nat) (s : State) : State :=
  if (s.lane lane).holdReason = 0 then s
  else endHold lane (s.modLane lane fun l => { l with heldData := l.heldData + 1 })

/-- The lane, or the bond that it belongs to, holds a data slot in a calendar of either direction (R356). -/
def laneHasData (s : State) (lane : Nat) : Bool :=
  let l := s.link (s.calLane lane)
  calHasData l.txCal || calHasData l.rxCal

/-- The lane's calendars hold C0 slots (R366). -/
def laneHasC0 (s : State) (lane : Nat) : Bool :=
  let l := s.link (s.calLane lane)
  (calList l.txCal).any isC0 || (calList l.rxCal).any isC0

/-- The in-service training of a lane starts (R366); a bond member's traffic is moved first, with OP 1 (R418). -/
def laneRetrain (lane : Nat) (s : State) : State :=
  let s := s.modLane lane fun l => { l with inService := true, retrainDue := false, retrains := l.retrains + 1 }
  let s := s.modLink lane fun l => { l with held := true }
  match s.bondOf lane with
  | some (f, _) =>
    if bit (s.link f).txExcluded (lane - f) then linkPhyDown lane (startTraining lane s)
    else
      let s := sendBond 1 lane s
      (s.modLink f fun l => { l with
        rxExcluded := setBit l.rxExcluded (lane - f), txCleared := setBit l.txCleared (lane - f) }).modLane lane
        fun l => { l with retrainDue := true, retrains := l.retrains - 1 }
  | none => linkPhyDown lane (startTraining lane s)

end Sys2Proof.Machine
end

