-- ==== Sys2Proof/Machine/DramCore.lean ====
section
/-! DEFINITION. DRAM channels: extents and where they lie (R180, R184), evacuation, retraining and retirement (R200, R203 to
R206), the margin sweep (R202, R364 to R366), and the one in-service change at a time (R600). -/

namespace Sys2Proof.Machine

/-! Extents (R180, R184). -/

/-- Extents of pool space in one channel. -/
def channelExtents : Nat := 11840

/-- The channels of every extent of a pool, buffer by buffer. -/
def State.poolPlace (s : State) (p : Nat) : List (List Nat) := tget (fun _ => []) s.fs.place p
def State.setPlace (s : State) (p : Nat) (v : List (List Nat)) : State :=
  { s with fs := { s.fs with place := tset (fun _ => []) s.fs.place p v } }

/-- How often channel k stands in a placement. -/
def placedOn (k : Nat) (v : List (List Nat)) : Nat := sumOf (v.map fun e => (e.filter fun c => c == k).length)

/-- Extents that lie on a channel. -/
def State.chanExtents (s : State) (k : Nat) : Nat := sumOf (s.fs.place.map fun e => placedOn k e.2)

/-- A channel takes new extents: it is in service and not being emptied (R203). -/
def takesExtents (c : Chan) : Bool :=
  match c.mode with
  | .fast | .slow | .sweeping => !c.retiring
  | _ => false

/-- Free extents per channel, those that take none counted as full. -/
def State.freeExtents (s : State) : List Nat :=
  (List.range 8).map fun k => if takesExtents (s.chan k) then channelExtents - s.chanExtents k else 0

/-- The position in `chans`, from i in turn, of a channel with a free extent. -/
def nextChan (free chans : List Nat) (i : Nat) : Option Nat :=
  ((List.range chans.length).map fun j => (i + j) % chans.length).find? fun p => nth free (nth chans p 0) 0 != 0

/-- n extents round robin from position i. -/
def placeFrom (chans : List Nat) : Nat → Nat → List Nat → Option (List Nat × List Nat)
  | 0, _, free => some ([], free)
  | n + 1, i, free =>
    match nextChan free chans i with
    | none => none
    | some p =>
      let c := nth chans p 0
      match placeFrom chans n (p + 1) (free.set c (nth free c 0 - 1)) with
      | some (l, f) => some (c :: l, f)
      | none => none

/-- The position of the channel with the most free extents, the lowest of equals. -/
def freest (free chans : List Nat) : Nat :=
  (List.range chans.length).foldl (fun b i => if nth free (nth chans b 0) 0 < nth free (nth chans i 0) 0 then i else b) 0

/-- m buffers of n extents each. -/
def placeBuffers (chans : List Nat) (n : Nat) : Nat → List Nat → Option (List (List Nat) × List Nat)
  | 0, free => some ([], free)
  | m + 1, free =>
    match placeFrom chans n (freest free chans) free with
    | none => none
    | some (b, f) =>
      match placeBuffers chans n m f with
      | some (bs, f) => some (b :: bs, f)
      | none => none

/-- The channels that a pool record names. -/
def poolChannels (r : Nat) : List Nat := (List.range 8).filter (bit (pChannels r))

/-! Moving extents away from a channel (R203, R204). -/

/-- One extent of a pool moved off channel k, to the other channel of the pool with the most free extents. -/
def moveExtent (k : Nat) (chans free : List Nat) (c : Nat) : Nat × List Nat :=
  if c ≠ k then (c, free)
  else
    let others := chans.filter fun x => x != k && nth free x 0 != 0
    match others with
    | [] => (c, free)
    | _ => let d := nth others (freest free others) 0; (d, free.set d (nth free d 0 - 1))

/-- At most `m` extents of a buffer list move: the placement, the free extents, and how many may still move. -/
def moveList (k : Nat) (chans : List Nat) (v : List (List Nat)) (free : List Nat) (m : Nat) :
    List (List Nat) × List Nat × Nat :=
  v.foldl (fun a e =>
    let r := e.foldl (fun (b : List Nat × List Nat × Nat) c =>
      if b.2.2 = 0 then (b.1 ++ [c], b.2)
      else
        let x := moveExtent k chans b.2.1 c
        (b.1 ++ [x.1], x.2, if x.1 = c then b.2.2 else b.2.2 - 1)) ([], a.2.1, a.2.2)
    (a.1 ++ [r.1], r.2)) ([], free, m)

/-- Pools in the order in which evacuation copies them: C0 pools first. -/
def evacOrder (s : State) : List Nat :=
  let ps := s.fs.place.map (·.1)
  (ps.filter fun p => pClass (s.poolRec p) == 0) ++ ps.filter fun p => pClass (s.poolRec p) != 0

/-- At most m extents of channel k move to the other channels of their pools. -/
def evacMove (k m : Nat) (s : State) : State :=
  let r := (evacOrder s).foldl (fun (a : State × List Nat × Nat) p =>
    let x := moveList k (poolChannels (s.poolRec p)) (a.1.poolPlace p) a.2.1 a.2.2
    (a.1.setPlace p x.1, x.2)) (s, s.freeExtents.set k 0, m)
  r.1

/-- The other channels of the pools have room for everything on channel k. -/
def evacFits (k : Nat) (s : State) : Bool := (evacMove k (s.chanExtents k) s).chanExtents k == 0

/-! Losing buffers (R189, R205). -/

/-- The bytes of a buffer are gone: an unlisted byte reads 0. -/
def wipeBuf (key : Nat) (s : State) : State :=
  { s with fs := { s.fs with mem := s.fs.mem.filter fun c => c.1 / 2 ^ 32 != key } }

/-- Buffers of a pool with an extent on a channel that p selects. -/
def buffersOn (s : State) (pool : Nat) (p : Nat → Bool) : List Nat :=
  ((List.range (s.poolPlace pool).length).filter fun i => (nth (s.poolPlace pool) i []).any p).map (pool * 2 ^ 18 + ·)

/-- A route reads one of these buffers: its source names it, or it shows a frame from it. -/
def readsBuf (s : State) (keys : List Nat) (r : Nat) : Bool :=
  let x := s.route r
  let named := rKind x.image == 2 && rSrcType x.image == 2 && keys.contains (rSrc x.image % 2 ^ 24)
  rtShowing x.mode && (named || (match x.shown with
    | some f => keys.contains f.buf
    | none => false))

/-- Buffers become LOST, their readers lose their source, and host buffers raise one event for each pool (R205). A buffer that leaves FREE
this way takes a new generation too (R188). -/
def loseBuffers (keys : List Nat) (s : State) : State :=
  let held := keys.filter fun b => (s.buf b).mode != .free && (s.buf b).mode != .lost && !pStream (s.poolRec (handlePool b))
  let readers := s.routeKeys.filter (readsBuf s keys)
  let s := s.each keys fun s b => s.modBuf b fun v => { v with mode := .lost, born := if v.mode = .free then v.born + 1 else v.born }
  let s := forgetBufs keys s
  let s : State := { s with fs := { s.fs with writes := s.fs.writes.filter fun w => !keys.contains w.key } }
  let s := s.each readers fun s r => rtLose r 1 (rtDropShown r s)
  s.each (held.map handlePool).eraseDups fun s p => s.raise Ev.bufferLost [p]

/-- Pools of C0 whose demand the channels in service do not carry (R196, R214); their routes take REASON 0x6. -/
def checkC0Pools (s : State) : State :=
  let images := s.liveImages
  let ds := demands s images fun r => rClass r == 0
  let heavy := (List.range 8).filter fun k => decide (12000000000 * 100 < channelDemand s ds k)
  let loaded := if heavy = [] then []
    else ((ds.map (·.1)).eraseDups).filter fun p => heavy.any fun k => (s.poolShare p k).1 != 0
  if loaded = s.fs.overPools then s else recheck { s with fs := { s.fs with overPools := loaded } }

/-- The FS_CH_CMD of an op on channel k runs; it ends with a result, which shows unless a later command has taken its place (R215). -/
def chCmdRuns (op k : Nat) (s : State) : State :=
  ({ s with fs := { s.fs with chCmd := op * 256 + k } } : State).setReg Reg.fsChResult 1

def chCmdEnds (op k code : Nat) (s : State) : State :=
  if s.fs.chCmd = op * 256 + k then ({ s with fs := { s.fs with chCmd := 0 } } : State).setReg Reg.fsChResult code else s

/-- What is left on channel k is lost, and the channel is retired (R205). -/
def finishRetire (k : Nat) (s : State) : State :=
  let keys := s.fs.place.flatMap fun e => buffersOn s e.1 fun c => c == k
  let s := loseBuffers keys (s.modChan k fun c => { c with
    mode := .retired, retiring := false, retryAt := none, recent := [] })
  checkC0Pools (recheck ((chCmdEnds 1 k 0 s).raiseAs (Ev.channelRetired k) [k] .tied))

/-! In-service changes (R600). -/

/-- INSERVICE_ACTIVE of a lane and of a DRAM channel. -/
def laneChange (lane : Nat) : Nat := 0x100 + lane
def dramChange (k : Nat) : Nat := 0x500 + k
def firmwareChange : Nat := 0x900

/-- An evacuation begins (R203); one that lacks room is blocked and tried again after 10 s (R204). A retirement goes on as
far as there is room. -/
def startEvac (k : Nat) (s : State) : State :=
  let c := s.chan k
  if c.retiring then
    (s.setChan k { c with mode := .evacuating, limit := s.dt + s.reg Reg.fsWqTimeout * ms, retryAt := none }).whenever
      (!evacFits k s) fun s => s.raise Ev.evacuationBlocked [k]
  else if evacFits k s then s.setChan k { c with mode := .evacuating, retryAt := none }
  else
    (s.setChan k { c with mode := if c.slow then .slow else .fast, retryAt := some (s.dt + 10 * sec) }).raise
      Ev.evacuationBlocked [k]

/-- A change comes into force; what it does first may end it at once. -/
def runChange (key : Nat) (s : State) : State :=
  let inst := key % 256
  if key / 256 = 1 then laneRetrain inst s
  else if (s.chan inst).restoring then s.modChan inst fun c => { c with mode := .retraining }
  else startEvac inst s

/-- A change that has been started is over at once: a blocked evacuation. -/
def changeOver (key : Nat) (s : State) : Bool :=
  key / 256 == 5 && (match (s.chan (key % 256)).mode with
    | .evacuating | .retraining => false
    | _ => true)

/-- Changes that wait come into force one after another, until one is under way; at most n are tried. -/
def nextChange : Nat → State → State
  | 0, s => s
  | n + 1, s =>
    match s.sup.inservice, s.sup.waiting with
    | none, k :: ks =>
      let s := runChange k { s with sup := { s.sup with inservice := some k, waiting := ks } }
      if changeOver k s then nextChange n { s with sup := { s.sup with inservice := none } } else s
    | _, _ => s

/-- A DRAM or lane change falls due. -/
def askChange (key : Nat) (s : State) : State :=
  if s.sup.inservice = some key ∨ s.sup.waiting.contains key then s
  else nextChange 64 { s with sup := { s.sup with waiting := s.sup.waiting ++ [key] } }

/-- The parts of a sweep in order (R202, R364): after each DRAM channel four lanes. -/
def sweepPart (p : Nat) : Nat := if p % 5 = 0 then 0x400 + p / 5 else 0x500 + p / 5 * 4 + (p % 5 - 1)

/-- A part can be swept: a channel in service, a lane in READY. -/
def sweepable (s : State) (part : Nat) : Bool :=
  if part / 256 = 4 then (match (s.chan (part % 256)).mode with
    | .fast | .slow | .sweeping => true
    | _ => false)
  else (s.lane (part % 256)).mode == .ready

/-- The part under way, if any. -/
def sweepNow (s : State) : Option Nat :=
  let w := s.fs.sweep
  if w.paused then none else if w.state = 1 then some (sweepPart w.part) else w.single.head?

/-- A part begins: a DRAM channel reads sweeping. -/
def beginPart (part : Nat) (s : State) : State :=
  if part / 256 = 4 then s.modChan (part % 256) fun c => { c with mode := .sweeping } else s

/-- The next single part that can be swept begins; those that cannot are dropped. -/
def nextSingle (s : State) : State :=
  let l := s.fs.sweep.single.dropWhile fun p => !sweepable s p
  let s : State := { s with fs := { s.fs with sweep := { s.fs.sweep with single := l } } }
  match l with
  | p :: _ => beginPart p (govSweepStarts s)
  | [] => s

/-- The sweep goes to the first part from p on that can be swept, or is done. -/
def sweepFrom (p : Nat) (s : State) : State :=
  match ((List.range 40).drop p).find? fun i => sweepable s (sweepPart i) with
  | some i => beginPart (sweepPart i) { s with fs := { s.fs with sweep := { s.fs.sweep with part := i, paused := false } } }
  | none =>
    let s : State := { s with fs := { s.fs with sweep := { s.fs.sweep with state := 2, paused := false } } }
    nextSingle (govSweepEnds true s)

/-- A single part is to be swept on command; it waits while another part is under way (R202, R364). -/
def sweepSingle (part : Nat) (s : State) : State :=
  let idle := (sweepNow s).isNone && !s.fs.sweep.paused
  let s : State := { s with fs := { s.fs with sweep := { s.fs.sweep with single := s.fs.sweep.single ++ [part] } } }
  if idle then nextSingle s else s

/-- A change has ended: the next one starts, and a sweep that waited for a retraining goes on (R202). -/
def endChange (key : Nat) (s : State) : State :=
  let s := if s.sup.inservice = some key then
      nextChange 64 { s with sup := { s.sup with inservice := none } }
    else { s with sup := { s.sup with waiting := s.sup.waiting.erase key } }
  if key / 256 = 5 ∧ s.fs.sweep.paused ∧ s.fs.sweep.state = 1 ∧ sweepPart s.fs.sweep.part = 0x400 + key % 256 then
    sweepFrom (s.fs.sweep.part + 1) s
  else s

/-- A retirement that R200 triggers runs at once; it joins a change of the same channel (R600). -/
def retireNow (k : Nat) (s : State) : State :=
  let s := s.modChan k fun c => { c with retiring := true, restoring := false }
  let s : State := { s with sup := { s.sup with
    waiting := s.sup.waiting.erase (dramChange k)
    inservice := if s.sup.inservice.isNone then some (dramChange k) else s.sup.inservice } }
  startEvac k s

/-! Lanes in service. -/

/-- A lane's retraining of R366: at once when it is a bond member or holds no data slot, else once it holds none. -/
def askRetrain (lane : Nat) (s : State) : State :=
  if (s.bondOf lane).isSome || !laneHasData s lane then askChange (laneChange lane) s
  else s.modLane lane fun l => { l with retrainDue := true }

/-- The calendars of a lane have changed: a retraining that waited for an empty calendar falls due (R366). -/
def calendarEmptied (lane : Nat) (s : State) : State :=
  if (s.lane lane).retrainDue && (s.bondOf lane).isNone && !laneHasData s lane then askChange (laneChange lane) s else s

/-- A lane change is over. -/
def laneChangeEnds (lane : Nat) (s : State) : State :=
  if s.sup.inservice = some (laneChange lane) then endChange (laneChange lane) s else s

end Sys2Proof.Machine
end

