-- ==== Sys2Proof/Machine/Phy.lean ====
section
/-! DEFINITION. The lane electrical layer (10_lane_phy.md): setup, training, low power, loops, adaptation holds and
retraining, R337 to R374. -/

namespace Sys2Proof.Machine

/-- PHY_STATE (R370). -/
def phyCode : PhyMode → Nat
  | .off => 0 | .calibrating => 1 | .training => 2 | .ready => 3 | .quiet => 4 | .dormant => 5 | .waking => 6
  | .loop => 7 | .retraining => 8 | .failed => 9 | .unpowered => 10

/-! Control commands (R370). -/

/-- A change of the rates of a FAILED lane from setup `old` to `v` lets it train at once (R354, log entry 72). -/
def retryRates (lane v old : Nat) (s : State) : State :=
  if (s.lane lane).mode = .failed ∧ fld v 126 121 ≠ fld old 126 121 then startTraining lane s else s

/-- PHY_CONTROL 0x01 (R371). -/
def phyApplyOp (lane : Nat) (s : State) : State × Nat :=
  let v := s.reg (Reg.phySetup lane)
  let old := s.phySetup lane
  if !phySetupOk v || (!psEnable v && laneUsed s lane) then (s, stValue)
  else
    let now := ffeNow s lane
    let s := s.setForce (Reg.phySetup lane) (withTrainingFields v old)
    let s := s.modLane lane fun l => { l with
      amp := ⟨now.1, s.dt⟩, pre := ⟨now.2.1, s.dt⟩, post := ⟨now.2.2, s.dt⟩
      nextSetup := if trainingFields v = trainingFields old then none else some v
      emptySince := if l.emptySince.isSome then some s.dt else none }
    (if psEnable v then retryRates lane v old s else laneChangeEnds lane (laneOff lane s), stDone)

/-- PHY_CONTROL 0x02 (R354, R366). -/
def phyRetrainOp (lane : Nat) (s : State) : State × Nat :=
  if laneHasC0 s lane || (s.lane lane).mode != .ready then (s, stValue)
  else (askChange (laneChange lane) s, stDone)

/-- PHY_CONTROL 0x03 and 0x04: entry is requested of the partner in a RATE folio; from Quiet a lane moves to Dormant at
once (R356). -/
def phyLowPowerOp (lane op : Nat) (s : State) : State × Nat :=
  let l := s.lane lane
  if laneHasData s lane then (s, stValue)
  else if l.mode = .quiet ∧ op = 4 then
    (s.setLane lane { l with mode := .dormant, dormants := l.dormants + 1, quietSince := s.dt }, stDone)
  else if l.mode = .ready ∧ sleepAskable s lane op then
    (pushCtl lane 0x12 (rateBody op 0) (s.setLane lane { l with lpAsked := op }), stDone)
  else (s, stValue)

/-- A lane wakes (R358): it sends its burst. -/
def wakeLane (lane : Nat) (s : State) : State :=
  let l := s.lane lane
  if l.mode = .quiet ∨ l.mode = .dormant then
    (s.setLane lane { l with mode := .waking, fromDormant := l.mode == .dormant }).emit (.wakeBurst lane)
  else s

/-- PHY_CONTROL 0x05 (R358). -/
def phyWakeOp (lane : Nat) (s : State) : State × Nat := (wakeLane lane s, stDone)

/-- A loop runs on the lane (R354, R360); the link is in LOOP. -/
def beginLoop (lane kind pattern duration : Nat) (s : State) : State :=
  let s := (leaveReady lane s).modLane lane fun l => { l with
    mode := .loop
    loop := ⟨kind, pattern, if duration = 0 then none else some (s.dt + duration * ms), 0, 0, 1⟩ }
  let s := if (s.link lane).mode = .up then leaveUp lane s else s
  s.modLink lane fun l => { l with mode := if l.mode = .down then .down else .loop, loopAsked := false }

/-- PHY_CONTROL 0x06 (R360 to R363): a far-end loop asks the partner first. -/
def phyLoopStartOp (lane : Nat) (s : State) : State × Nat :=
  let v := s.reg (Reg.phyLoop lane)
  let kind := fld v 63 62
  let duration := fld v 57 32
  if laneUsed s lane || lanePending s lane || kind == 0 || decide (4 < fld v 61 59) || (s.lane lane).mode != .ready then
    (s, stValue)
  else if kind = 3 then
    if (s.link lane).mode = .up ∧ capUsed (s.link lane) 4 then
      (pushCtl lane 0x11 (loopBody 0 duration) (s.modLink lane fun l => { l with loopAsked := true }), stDone)
    else (s, stValue)
  else (beginLoop lane kind (fld v 61 59) duration s, stDone)

/-- A loop ends and the lane trains (R354). The partner of a far-end loop is told. -/
def endLoop (lane lstate bits errors : Nat) (s : State) : State :=
  let l := s.lane lane
  let s := if l.loop.kind = 3 then s.emit (.control lane 0x11 (loopBody 3 0)) else s
  startTraining lane <| s.setLane lane { l with
    loop := { l.loop with until_ := none, lstate := lstate, bits := bits, errors := errors } }

/-- PHY_CONTROL 0x07 (R354). -/
def phyLoopStopOp (lane : Nat) (s : State) : State × Nat :=
  let l := s.lane lane
  if l.mode = .loop then (endLoop lane (if l.loop.lstate = 1 then 2 else l.loop.lstate) l.loop.bits l.loop.errors s, stDone)
  else (s, stDone)

/-- PHY_CONTROL 0x08: one lane is swept at any time (R364). -/
def phySweepOp (lane : Nat) (s : State) : State × Nat :=
  if (s.lane lane).mode = .ready then
    (sweepSingle (0x500 + lane) s, stDone)
  else (s, stValue)

/-- PHY_CONTROL 0x09 (R370, R373): the counts of PHY_COUNTS. -/
def phyClearCountsOp (lane : Nat) (s : State) : State × Nat :=
  (s.modLane lane fun l => { l with
    lockLosses := 0, holds := 0, quiets := 0, dormants := 0, trainings := 0, quietWorst := 0, dormantWorst := 0 }, stDone)

def execPhyApply (t : Nat) (src : Src) (lane : Nat) (s : State) : Res :=
  .next (answer src (Reg.phyControl lane) true (phyApplyOp lane) (s.begin t))

def execPhyRetrain (t : Nat) (src : Src) (lane : Nat) (s : State) : Res :=
  .next (answer src (Reg.phyControl lane) false (phyRetrainOp lane) (s.begin t))

def execPhyQuiet (t : Nat) (src : Src) (lane : Nat) (s : State) : Res :=
  .next (answer src (Reg.phyControl lane) false (phyLowPowerOp lane 3) (s.begin t))

def execPhyDormant (t : Nat) (src : Src) (lane : Nat) (s : State) : Res :=
  .next (answer src (Reg.phyControl lane) false (phyLowPowerOp lane 4) (s.begin t))

def execPhyWake (t : Nat) (src : Src) (lane : Nat) (s : State) : Res :=
  .next (answer src (Reg.phyControl lane) false (phyWakeOp lane) (s.begin t))

def execPhyLoopStart (t : Nat) (src : Src) (lane : Nat) (s : State) : Res :=
  .next (answer src (Reg.phyControl lane) false (phyLoopStartOp lane) (s.begin t))

def execPhyLoopStop (t : Nat) (src : Src) (lane : Nat) (s : State) : Res :=
  .next (answer src (Reg.phyControl lane) false (phyLoopStopOp lane) (s.begin t))

def execPhySweep (t : Nat) (src : Src) (lane : Nat) (s : State) : Res :=
  .next (answer src (Reg.phyControl lane) false (phySweepOp lane) (s.begin t))

def execPhyClearCounts (t : Nat) (src : Src) (lane : Nat) (s : State) : Res :=
  .next (answer src (Reg.phyControl lane) false (phyClearCountsOp lane) (s.begin t))

/-! Happenings of the lane (R354 to R359). -/

/-- CALIBRATED (R354): the first training tries RATE_MAX (R355). -/
def execCalibrationDone (t lane : Nat) (s : State) : Res :=
  let s := s.begin t
  .next (if (s.lane lane).mode = .calibrating then
    startTraining lane (s.modLane lane fun l => { l with
      rate := psRateMax (match l.nextSetup with | some v => v | none => s.phySetup lane), initial := true })
    else s)

/-- The 8 positions from 7 to 40 with the largest residue, the nearer position winning a tie (R346). -/
def floatPlaces (residue : List Nat) : List Nat :=
  (List.range 8).foldl (fun (chosen : List Nat) _ =>
    let left := (List.range 34).filter fun i => !chosen.contains (i + 7)
    match left with
    | [] => chosen
    | i :: rest =>
      let best := rest.foldl (fun b j => if nth residue b 0 < nth residue j 0 then j else b) i
      chosen ++ [best + 7]) []

/-- The lane reaches READY (R354). A training of R366 ends here, and a margin hold with it (R349). -/
def laneReady (lane : Nat) (afterQuiet : Bool) (s : State) : State :=
  let l := s.lane lane
  let s := s.setLane lane { l with
    mode := .ready, attempts := 0, initial := false, inService := false
    holdReason := if l.holdReason = 3 then 0 else l.holdReason
    emptySince := some s.dt }
  laneChangeEnds lane (laneClock lane true (linkPhyReady lane afterQuiet s))

/-- TRAINED, or an attempt without convergence; at the third with signal TRAIN_FAILED (R354), in the first training of a
start after every rate down to RATE_MIN (R564). -/
def trainingOutcome (lane : Nat) (converged : Bool) (residue : List Nat) (s : State) : State :=
  let l := s.lane lane
  let v := s.phySetup lane
  if converged then
    laneReady lane false (s.setLane lane { l with
      floats := if psFloatPin v then psFloatPos v else floatPlaces residue })
  else if l.attempts + 1 < 3 then s.setLane lane { l with attempts := l.attempts + 1 }
  else if l.initial ∧ l.rate < psRateMin v then
    s.setLane lane { l with rate := l.rate + 1, attempts := 0, trainings := l.trainings + 1 }
  else laneChangeEnds lane (linkPhyDown lane (s.setLane lane { l with mode := .failed, attempts := 3, inService := false }))

def execTrainingDone (t lane : Nat) (converged : Bool) (residue : List Nat) (s : State) : Res :=
  let s := s.begin t
  .next (if (s.lane lane).mode = .training then trainingOutcome lane converged residue s else s)

/-- NO_SIGNAL (R354): full training is repeated every 100 ms without stepping down in rate. -/
def execNoSignalTimeout (t lane : Nat) (s : State) : Res :=
  let s := s.begin t
  .next (if (s.lane lane).mode = .training then
    s.modLane lane fun l => { l with mode := .retraining, attempts := 0 } else s)

/-- RELOCKED, or after three full trainings with signal and no lock TRAIN_FAILED (R354). -/
def execRelockDone (t lane : Nat) (locked full signal : Bool) (s : State) : Res :=
  let s := s.begin t
  let l := s.lane lane
  .next (if l.mode ≠ .retraining then s
    else
      let l := if full then { l with trainings := l.trainings + 1 } else l
      if locked then laneReady lane false (s.setLane lane l)
      else if full && signal then
        if 3 ≤ l.attempts + 1 then
          laneChangeEnds lane (s.setLane lane { l with mode := .failed, attempts := 3, inService := false })
        else s.setLane lane { l with attempts := l.attempts + 1 }
      else s.setLane lane (if signal then l else { l with attempts := 0 }))

/-- RETRY of R354. -/
def execFailedRetry (t lane : Nat) (s : State) : Res :=
  let s := s.begin t
  .next (if (s.lane lane).mode = .failed then startTraining lane s else s)

/-- QUIET_ENTER by LP_POLICY (R356): Quiet is requested of the partner. -/
def execQuietDelayExpiry (t lane : Nat) (s : State) : Res :=
  let s := s.begin t
  let l := s.lane lane
  let v := s.phySetup lane
  let due := match l.emptySince with
    | some u => decide (u + psQuietDelay v ≤ s.dt)
    | none => false
  .next (if l.mode == .ready && due && psLowPower v != 0 && !laneHasData s lane && sleepAskable s lane 3 then
    pushCtl lane 0x12 (rateBody 3 0) (s.setLane lane { l with lpAsked := 3 }) else s)

/-- DORMANT_ENTER by LP_POLICY (R356). -/
def execDormantDelayExpiry (t lane : Nat) (s : State) : Res :=
  let s := s.begin t
  let l := s.lane lane
  let v := s.phySetup lane
  .next (if l.mode == .quiet && psLowPower v == 2 && decide (l.quietSince + psDormantDelay v ≤ s.dt) then
    s.setLane lane { l with mode := .dormant, dormants := l.dormants + 1 } else s)

/-- A wake burst: a sleeping lane wakes and answers with its own burst; an entry under way is abandoned (R358, R369). -/
def execWakeBurst (t lane : Nat) (s : State) : Res :=
  let s := s.begin t
  let l := s.lane lane
  .next (if l.mode = .quiet ∨ l.mode = .dormant then wakeLane lane s
    else if l.lpEntry ≠ 0 then
      (s.setLane lane { l with lpEntry := 0, lpAsked := 0 }).modLink lane fun k =>
        { k with mode := if k.mode = .lowPower then .up else k.mode }
    else s)

/-- WOKEN (R354, R359): the exit is reported; one beyond its bound also writes a casebook record. -/
def execWakeDone (t lane exit : Nat) (s : State) : Res :=
  let s := s.begin t
  let l := s.lane lane
  .next (if l.mode ≠ .waking then s
    else
      let late := if l.fromDormant then decide (2 * ms < exit) else decide (200 < exit)
      let s := s.setLane lane (if l.fromDormant then { l with dormantWorst := max l.dormantWorst (exit / us) }
        else { l with quietWorst := max l.quietWorst exit })
      let s := laneReady lane (!l.fromDormant) s
      s.raiseAs (Ev.lowPowerExit lane) [exit] (if late then .tied else .auto))

/-- LOOP_END by DURATION (R354); the checker's counts are as read (R361). -/
def execLoopDurationExpiry (t lane bits errors : Nat) (s : State) : Res :=
  let s := s.begin t
  let l := s.lane lane
  let due := match l.loop.until_ with
    | some u => decide (u ≤ s.dt)
    | none => false
  .next (if l.mode == .loop && due then
    endLoop lane (if l.loop.lstate = 1 then 2 else l.loop.lstate) bits errors s else s)

/-- No synchronisation within 1 ms (R361). -/
def execLoopSyncTimeout (t lane : Nat) (s : State) : Res :=
  let s := s.begin t
  let l := s.lane lane
  .next (if l.mode = .loop ∧ l.loop.lstate = 1 then
    s.setLane lane { l with loop := { l.loop with lstate := 3 } } else s)

/-- The balance limits of R348: 20 % to 30 % for each PAM4 level, 45 % to 55 % for each NRZ level. -/
def levelsOk (rate : Nat) (levels : List Nat) : Bool :=
  levels.all fun x => if ratePam4 rate then decide (200 ≤ x ∧ x ≤ 300) else decide (450 ≤ x ∧ x ≤ 550)

/-- A histogram window ends (R348, R349). -/
def execHistogramWindow (t lane : Nat) (levels : List Nat) (s : State) : Res :=
  let s := s.begin t
  let l := s.lane lane
  let ok := levelsOk l.rate levels
  let s := s.setLane lane { l with windowOk := ok, levelMin := levels.foldl min 1000 }
  .next (if l.mode ≠ .ready then s else if ok then endHold lane s else holdAdaptation lane 1 s)

/-- 4,096 consecutive idle folios (R348). -/
def execIdleRun (t lane : Nat) (s : State) : Res :=
  let s := s.begin t
  .next (if (s.lane lane).mode = .ready then holdAdaptation lane 2 s else s)

end Sys2Proof.Machine
end

