-- ==== Sys2Proof/Machine/Wire.lean ====
section
/-! DEFINITION. Folios on the wire (R376 to R378): the order and the scrambling of their bits, the levels of their symbols, and stuffing;
and the folios of output streams that wait for slots of their flows (R381, R390). -/

namespace Sys2Proof.Machine

/-! Scrambling (R376). `h` holds the last 31 scrambled bits of a direction, the newest in bit 0. -/

/-- The scrambler's bit over history h, and the receiver's inverse: the two are one function. -/
def wireBit (h : Nat) (b : Bool) : Bool := b != (bit h 27 != bit h 30)

/-- One scrambled bit joins the history. -/
def shiftIn (h : Nat) (b : Bool) : Nat := (2 * h + ofBool b) % 2 ^ 31

/-- Payload bits scrambled, with the history after them. -/
def scramble : Nat → List Bool → List Bool × Nat
  | h, [] => ([], h)
  | h, d :: ds =>
    let b := wireBit h d
    let r := scramble (shiftIn h b) ds
    (b :: r.1, r.2)

/-- Scrambled bits recovered, with the history after them. -/
def descramble : Nat → List Bool → List Bool × Nat
  | h, [] => ([], h)
  | h, b :: bs =>
    let r := descramble (shiftIn h b) bs
    (wireBit h b :: r.1, r.2)

/-- A folio as one number: its header in bits [129:128], its payload below. -/
def dataFolio (payload : Nat) : Nat := 2 ^ 128 + payload % 2 ^ 128
def controlFolio (type body : Nat) : Nat := 2 ^ 129 + type % 256 * 2 ^ 120 + body % 2 ^ 120
def folioIsData (f : Nat) : Bool := f / 2 ^ 128 == 1
def folioType (f : Nat) : Nat := fld f 127 120
def folioBody (f : Nat) : Nat := f % 2 ^ 120

/-- The bits of a folio as they are sent: header bit 1, header bit 0, then the scrambled payload from bit 0 on. -/
def folioBits (h f : Nat) : List Bool × Nat :=
  let r := scramble h (bitsUp 128 f)
  (bit f 129 :: bit f 128 :: r.1, r.2)

/-- The number whose bits, from bit 0 on, are these. -/
def bitsValue : List Bool → Nat
  | [] => 0
  | b :: bs => ofBool b + 2 * bitsValue bs

/-- The folio of 130 bits that arrived. -/
def bitsFolio (h : Nat) (bits : List Bool) : Nat × Nat :=
  let r := descramble h (bits.drop 2)
  (ofBool (bits.getD 0 false) * 2 ^ 129 + ofBool (bits.getD 1 false) * 2 ^ 128 + bitsValue r.1, r.2)

/-! Symbols (R377). -/

/-- The level of a pair of bits on PAM4, the high bit first. -/
def pamLevel : Bool → Bool → Int
  | false, false => -3
  | false, true => -1
  | true, true => 1
  | true, false => 3

/-- The level of a bit on NRZ. -/
def nrzLevel (b : Bool) : Int := if b then 1 else 0

/-- Bits as symbols. -/
def levels (pam4 : Bool) : List Bool → List Int
  | a :: b :: bs => if pam4 then pamLevel a b :: levels pam4 bs else nrzLevel a :: nrzLevel b :: levels pam4 bs
  | [b] => [nrzLevel b]
  | [] => []

/-- The bits that a symbol carries. -/
def levelBits (pam4 : Bool) (x : Int) : List Bool := if pam4 then [decide (0 < x), x == -1 || x == 1] else [decide (0 < x)]

/-! Stuffing (R378). A run is a level and how often it has come in a row. -/

/-- The length of a run after which a stuff symbol stands. -/
def runLimit (pam4 : Bool) : Nat := if pam4 then 24 else 48

/-- The stuff symbol after a run: two levels away, or the opposite bit. -/
def stuffLevel (pam4 : Bool) (x : Int) : Int := if pam4 then (if x < 0 then x + 4 else x - 4) else 1 - x

def runAfter (run : Int × Nat) (x : Int) : Int × Nat := if x = run.1 ∧ 0 < run.2 then (x, run.2 + 1) else (x, 1)

/-- Symbols with their stuff symbols, how many of those there are, and the run after them. -/
def stuffed (pam4 : Bool) : Int × Nat → List Int → List Int × Nat × (Int × Nat)
  | run, [] => ([], 0, run)
  | run, x :: xs =>
    let run := runAfter run x
    if run.2 = runLimit pam4 then
      let y := stuffLevel pam4 x
      let r := stuffed pam4 (y, 1) xs
      (x :: y :: r.1, r.2.1 + 1, r.2.2)
    else
      let r := stuffed pam4 run xs
      (x :: r.1, r.2)

/-- What `destuffed` finds: the symbols taken, how many were deleted, the run after them, and the symbols left. -/
structure Destuffed where
  taken : List Int
  deleted : Nat
  run : Int × Nat
  rest : List Int
  deriving DecidableEq, Repr

/-- The next n symbols of a received stream: the one that follows a full run is deleted, whatever its level. -/
def destuffed (pam4 : Bool) : Int × Nat → Nat → List Int → Destuffed
  | run, _, [] => ⟨[], 0, run, []⟩
  | run, n, x :: xs =>
    if run.2 = runLimit pam4 then
      let r := destuffed pam4 (x, 1) n xs
      { r with deleted := r.deleted + 1 }
    else match n with
      | 0 => ⟨[], 0, run, x :: xs⟩
      | n + 1 =>
        let r := destuffed pam4 (runAfter run x) n xs
        { r with taken := x :: r.taken }

/-- Symbols of a folio (R377). -/
def folioSymbols (rate : Nat) : Nat := if ratePam4 rate then 65 else 130

/-- A folio onto the wire: its symbols, the stuff symbols among them counted, and the direction after it. -/
def wireFolio (pam4 : Bool) (w : Wire) (f : Nat) : List Int × Nat × Wire :=
  let b := folioBits w.bits f
  let r := stuffed pam4 (w.level, w.run) (levels pam4 b.1)
  (r.1, r.2.1, ⟨b.2, r.2.2.1, r.2.2.2⟩)

/-- A folio from destuffed symbols. -/
def wireRead (pam4 : Bool) (h : Nat) (symbols : List Int) : Nat × Nat := bitsFolio h (symbols.flatMap (levelBits pam4))

/-- A SKIP leaves on a lane, outside the slots (R382, R384). -/
def sendSkip (lane : Nat) (s : State) : State :=
  let l := s.link lane
  let r := wireFolio (ratePam4 (s.lane lane).rate) l.txWire (controlFolio 0x02 0)
  ((s.setLink lane { l with txWire := r.2.2, txStuff := l.txStuff + r.2.1 }).emit (.control lane 0x02 0)).emit (.symbols lane r.1)

/-- The body of the IDLE folio with a count (R397). -/
def idleBody (count : Nat) : Nat := pack [(64, count % 2 ^ 64), (56, 2 ^ 56 - 1 - count % 2 ^ 56)]

/-- An IDLE folio leaves on a lane (R381). -/
def sendIdle (lane : Nat) (s : State) : State :=
  let l := s.link lane
  let body := idleBody l.idleCount
  let r := wireFolio (ratePam4 (s.lane lane).rate) l.txWire (controlFolio 0x03 body)
  ((s.setLink lane { l with idleCount := l.idleCount + 1, txWire := r.2.2, txStuff := l.txStuff + r.2.1 }).emit
    (.control lane 0x03 body)).emit (.symbols lane r.1)

/-! Folios of output streams that wait for slots of their flows (R381). -/

/-- A folio joins those that wait on the flow of output stream k. On a link that is not UP nothing waits. -/
def sendFolio (k folio : Nat) (s : State) : State :=
  let up := (s.link (s.calLane (dLane (s.outDesc k)))).mode == .up
  s.setSend k { s.send k with queue := if up then (s.send k).queue ++ [folio] else [] }

/-- A flow-type control folio of output stream k. -/
def sendFlow (k type body : Nat) (s : State) : State := sendFolio k (controlFolio type body) s

/-- A LINE_CHECK or POISON. -/
def folioChecks (f : Nat) : Bool := !folioIsData f && (folioType f == 0x09 || folioType f == 0x0A)

/-- The POISON with REASON 3 that replaces the check of a stopped line (R390, R398). -/
def poisonLate (f : Nat) : Nat := controlFolio 0x0A (fld f 119 79 * 2 ^ 79 + 3 * 2 ^ 75)

/-- A line that is not sent whole when the next one is ready stops: its folios go, and a POISON stands for it (R390). -/
def lineStopped (q : List Nat) : List Nat :=
  let line := q.takeWhile fun f => !folioChecks f
  match q.drop line.length with
  | check :: rest =>
    if line.any folioIsData then (line.filter fun f => !folioIsData f) ++ poisonLate check :: rest else q
  | [] => q

/-- The next line of output stream k is ready: the one before it, if it is not sent whole, stops. -/
def lineReady (k : Nat) (s : State) : State := s.setSend k { s.send k with queue := lineStopped (s.send k).queue }

end Sys2Proof.Machine
end

