-- ==== Sys2Proof/Machine/Intake.lean ====
section
/-! DEFINITION. Intake: flows and their folios (R386 to R396), frames and their lines (R46, R53, R183 to R186, R208, R225,
R234), tags (R77, R78, R394, R528) and embedded audio (R393). -/

namespace Sys2Proof.Machine

/-! Flows. -/

/-- The flow of a data slot of the receive calendar. -/
def slotFlow (s : State) (lane slot : Nat) : Option Nat :=
  let e := nth (s.entries false lane) (slot - 1) 0
  if 1 ≤ slot ∧ isData e then some (entryFlow e) else none

/-- The input stream of a flow on a lane or bond. -/
def flowStream (s : State) (lane flow : Nat) : Option Nat :=
  (s.str.ins.find? fun e => e.2.mode != .absent && e.2.mode != .gone && e.2.flow == flow &&
    dLane e.2.desc == s.calLane lane).map (·.1)

/-- Pass-through routes that carry stream k, with their output streams (R63). -/
def passRoutes (s : State) (k : Nat) : List (Nat × Nat) :=
  s.routeKeys.filterMap fun r =>
    let i := (s.route r).image
    if rKind i = 0 ∧ rDstType i = 0 ∧ shownSource s r = some (0, k) then some (r, fld (rDst i) 7 0) else none

/-- Output streams to which pass-through routes carry stream k. -/
def passOuts (s : State) (k : Nat) : List Nat := (passRoutes s k).map (·.2)

/-- Lines of a field, or of a frame of a progressive stream. -/
def fieldHeight (d : Nat) : Nat := if dInterlaced d then dHeight d / 2 else dHeight d

/-- Data folios of a line of a stream (R387). -/
def streamLineFolios (i : InStream) : Nat :=
  if dCompressed i.desc then codedFolios (dWidth i.desc) (dChroma i.desc) i.blockWords
  else lineFolios (dWidth i.desc) (dChroma i.desc) (dDepth i.desc)

/-- The frame of a stream that is arriving, changed. -/
def State.modFrame (s : State) (k : Nat) (g : Arrival → Arrival) : State :=
  s.modIns k fun i => { i with frame := i.frame.map g }

/-! Writing lines into buffers (R183, R224, R225). -/

/-- Part of a line: the columns of a tile. -/
def cropLine (chroma x w : Nat) (l : List Nat) : List Nat :=
  let n := samples2 chroma
  (l.drop (x * n / 2)).take (w * n / 2)

/-- The bytes of a stored line. -/
def lineStored (depth : Nat) (l : List Nat) : List Nat := l.flatMap (leBytes (storeBytes depth))

/-- Block rows of a field coded into a buffer: `lines` are the field's lines so far, of which those from `done` on are new;
`base` is the first line of the field in the frame. -/
def storeRows (key base done : Nat) (lines : List (List Nat)) (s : State) : State :=
  let p := handlePool key
  let r := s.poolRec p
  let e := pComp r
  let g := 2 * rowGroup (pChroma r)
  let rows := (List.range (lines.length / g * g / 2)).drop (done / g * g / 2)
  s.each rows fun s row =>
    let cs := encodeRow (depthBits (pDepth r)) (s.blockBytes e) (s.qmax e (bufUser key)) (pChroma r) row lines
    let s := noteCoded e (bufUser key) cs s
    let s := dramTraffic (s.rowBytes r) (s.writeBytes (bufAddr key ((base / 2 + row) * s.rowBytes r)) (rowData (s.rowBytes r) cs))
    s.modBuf key fun b => { b with lines := b.lines + 2, times := b.times ++ [s.dt, s.dt] }

/-- New lines of a field written into a buffer. -/
def storeLines (key base done : Nat) (lines : List (List Nat)) (s : State) : State :=
  let r := s.poolRec (handlePool key)
  if pComp r < 16 then storeRows key base done lines s
  else
    s.each ((List.range lines.length).drop done) fun s i =>
      let s := dramTraffic (s.poolLine r) (s.writeBytes (bufAddr key ((base + i) * s.poolLine r)) (lineStored (pDepth r) (nth lines i [])))
      s.modBuf key fun b => { b with lines := b.lines + 1, times := b.times ++ [s.dt] }

/-- Intake can write into a pool: its engine, if it has one, is Active (R240). -/
def poolActive (s : State) (p : Nat) : Bool :=
  s.storeActive && (decide (16 ≤ pComp (s.poolRec p)) || s.engineActive (pComp (s.poolRec p)))

/-! Frame starts (R53, R186, R208). -/

/-- A buffer begins a frame of a stream. -/
def beginWrite (key k : Nat) (s : State) : State :=
  let s := userBoundary (bufUser key) (bufTake key .writing s)
  s.modBuf key fun b => { b with
    stream := k, start := s.dt, second := 0, verdict := if s.streamAuth k then 1 else 0
    first := (s.ins k).mode == .announced }

/-- Windows that record a stream: those of showing routes, with what the route takes of it. -/
def winFeeds (s : State) (k : Nat) : List (Nat × Nat) :=
  s.routeKeys.filterMap fun r =>
    let i := (s.route r).image
    if rDstType i = 2 ∧ (shownSource s r).isSome ∧ s.srcStream (rSrcType i) (rSrc i) = some k then
      some (fld (rDst i) 5 0, if rSrcType i = 1 then (s.route r).tile else 0) else none

/-- A window releases one frame. -/
def winDrop (w key : Nat) (s : State) : State :=
  let s := s.modWin w fun v => { v with frames := v.frames.filter fun f => f.1 != key }
  let b := s.buf key
  if b.mode = .complete ∧ b.tokens = [] then bufFree key s else s

/-- Frames older than DURATION go (R208). -/
def winAge (w : Nat) (s : State) : State :=
  let limit := fld (s.winRec w) 111 80 * ms
  s.each ((s.win w).frames.filter fun f => decide (f.2 + limit < s.dt)) fun s f =>
    if (s.buf f.1).tokens = [] then winDrop w f.1 s else s

/-- A buffer for a window's next frame, with what making room costs. -/
def winRoom (w : Nat) (s : State) : Option Nat × State :=
  let p := fld (s.winRec w) 126 121
  match s.freeBuf p with
  | some b => (some b, s)
  | none =>
    match (s.win w).frames with
    | f :: _ =>
      if (s.buf f.1).tokens = [] then
        let s := winDrop w f.1 s
        (s.freeBuf p, s)
      else
        (none, (s.modWin w fun v => { v with dropped := v.dropped + 1 }).raise Ev.windowOverrun [w])
    | [] => (none, (s.modWin w fun v => { v with dropped := v.dropped + 1 }).raise Ev.windowOverrun [w])

/-- One window at a frame start of its source: an idle one begins to record. -/
def winFrameStart (k w : Nat) (s : State) : State :=
  let s := if (s.win w).mode = .idle ∧ bit (s.winRec w) 127 then s.modWin w fun v => { v with mode := .recording } else s
  if (s.win w).mode ≠ .recording ∧ (s.win w).mode ≠ .post then s
  else if !poolActive s (fld (s.winRec w) 126 121) then s
  else
    let r := winRoom w (winAge w s)
    match r.1 with
    | none => r.2
    | some b =>
      let s := (beginWrite b k r.2).modBuf b fun v => { v with window := true }
      s.modFrame k fun f => { f with wins := f.wins ++ [(w, b)] }

/-- A frame of a stream whose AUTH is 0 has come without a TAG: it counts for the routes that require one (R65, R77). -/
def tagAbsent (k : Nat) (bufs : List Nat) (s : State) : State :=
  let s := s.each bufs fun s b => s.modBuf b fun v => { v with verdict := 5 }
  recheck (s.modIns k fun i => { i with bare := true, untagged := none })

/-- A missing or wrong tag (R77): the frame is never selected again, and the stream is unverified. -/
def tagFailed (k : Nat) (bufs : List Nat) (s : State) : State :=
  let s := s.each bufs fun s b => s.modBuf b fun v => { v with verdict := 3 }
  recheck (s.modIns k fun i => { i with tagFail := i.tagFail + 1, tagState := 2, untagged := none })

/-- A valid tag; `c0`: the slot of its session has C0_PERMITTED (R518). -/
def tagPassed (k : Nat) (c0 : Bool) (bufs : List Nat) (s : State) : State :=
  let s := s.each bufs fun s b => s.modBuf b fun v => { v with verdict := if c0 then 2 else 4 }
  recheck (s.modIns k fun i => { i with tagState := if c0 then 1 else 3, lapsed := false, bare := false, untagged := none })

/-- The slot of a lane's tag session has C0_PERMITTED. -/
def sessionC0 (s : State) (lane : Nat) : Bool :=
  match s.tagSession lane with
  | some x => kaC0 (s.keySlot x.slot).attr
  | none => false

/-! Lines. -/

/-- Sample positions of a line that is concealed from the same line of the previous frame (R46). -/
def concealLine (i : InStream) (field line : Nat) : List Nat :=
  let n := field * fieldHeight i.desc + line
  match i.last[n]? with
  | some l => l
  | none => (List.range (lineCount (dWidth i.desc) (dChroma i.desc))).map (Config.noFrame n)

/-- The lines that a group of coded lines of a link-compressed stream gives (R233, R234). `coded` holds, per line, its bytes,
or nothing for a failed line; a block with a byte in a failed line is concealed. The second number counts the other blocks that are
invalid. -/
def decodeGroup (i : InStream) (field row : Nat) (coded : List (List Nat)) : List (List Nat) × Nat :=
  let d := i.desc
  let c := dChroma d
  let size := 4 * i.blockWords
  let n := blocksPerRow (dWidth d) c
  let h := fieldHeight d
  let old := (i.last.drop (field * h)).take h
  let one (j : Nat) : List (Bool × Option (List Nat)) :=
    let a := nth coded (2 * j) []
    let b := nth coded (2 * j + 1) []
    let half := n * size / 2
    let bytes := (if a = [] then List.replicate half 0 else a.take half) ++ (if b = [] then List.replicate half 0 else b.take half)
    (List.range n).map fun q =>
      let lo := q * size
      let hit := (a = [] && decide (lo < half)) || (b = [] && decide (half < lo + size))
      (hit, if hit then none else decodeBlock (depthBits (dDepth d)) ((bytes.drop lo).take size))
  let rows := (List.range (coded.length / 2)).map fun j =>
    let o := oldBlocks c (row + j) old
    (List.range n).map fun q => fillBlock o (row + j) q (nth (one j) q (true, none)).2
  (blocksToLines (dWidth d) c rows, sumOf ((List.range (coded.length / 2)).map fun j => ((one j).filter fun b => !b.1 && b.2.isNone).length))

/-- The stream's lines go into its own buffer and those of windows. -/
def storeArrived (k done : Nat) (s : State) : State :=
  let i := s.ins k
  match i.frame with
  | none => s
  | some f =>
    let base := if f.second then fieldHeight i.desc else 0
    let here := (List.range (f.lines.length - base)).map fun y =>
      if f.dropped.contains (base + y) then concealLine i (if f.second then 1 else 0) y else nth f.lines (base + y) []
    let s := match f.buf with
      | some b => storeLines b base done here s
      | none => s
    s.each f.wins fun s w =>
      let tile := ((winFeeds s k).find? fun x => x.1 == w.1).map (·.2)
      match tile with
      | some t =>
        if t = 0 then storeLines w.2 base done here s
        else
          let y := if dInterlaced i.desc then tY t / 2 else tY t
          let h := if dInterlaced i.desc then tH t / 2 else tH t
          let cropped := (here.drop y |>.take h).map (cropLine (dChroma i.desc) (tX t) (tW t))
          storeLines w.2 (if f.second then h else 0) (min h (done - y)) cropped s
      | none => s

/-- Lines of a group of coded lines that hold concealed blocks: both lines of a block row of which either failed. -/
def codedBad (coded : List (List Nat)) (first : Nat) : List Nat :=
  ((List.range coded.length).filter fun i => nth coded (i / 2 * 2) [] == [] || nth coded (i / 2 * 2 + 1) [] == []).map (first + ·)

/-- Signatures of the tiles of a stream in a frame (R310). -/
def tileSignatures (s : State) (k : Nat) (lines : List (List Nat)) : List (Nat × Nat) :=
  ((List.range 1024).filter fun t => tValid (s.tileRec t) && tStream (s.tileRec t) == k).map fun t =>
    let x := s.tileRec t
    (t, Config.inputSignature ((lines.drop (tY x) |>.take (tH x)).map
      (cropLine (dChroma (s.ins k).desc) (tX x) (tW x))) % 2 ^ 32)

/-- One line has been evaluated (R53): its samples, or nothing for a failed line, join the frame. -/
def lineDone (k : Nat) (samples : Option (List Nat)) (coded : List Nat) (s : State) : State :=
  let i := s.ins k
  match i.frame with
  | none => s
  | some f =>
    let field := if f.second then 1 else 0
    let done := f.line
    if dCompressed i.desc then
      let pending := f.coded ++ [coded]
      let g := 2 * rowGroup (dChroma i.desc)
      if pending.length < g then
        s.setIns k { i with frame := some { f with coded := pending, line := f.line + 1, payloads := [], lost := false } }
      else
        let r := decodeGroup i field ((f.line + 1 - g) / 2) pending
        let s := s.setIns k { i with frame := some { f with
          coded := [], lines := f.lines ++ r.1, line := f.line + 1, payloads := [], lost := false
          bad := f.bad ++ codedBad pending (field * fieldHeight i.desc + f.line + 1 - g) } }
        let s := match i.engine with
          | some e => if r.2 = 0 then s else noteInvalid e r.2 s
          | none => s
        storeArrived k (done + 1 - g) s
    else
      let bad := if samples.isNone then [field * fieldHeight i.desc + f.line] else []
      let l := match samples with
        | some l => l
        | none => concealLine i field f.line
      storeArrived k done (s.setIns k { i with frame := some { f with
        lines := f.lines ++ [l], bad := f.bad ++ bad, line := f.line + 1, payloads := [], lost := false } })

/-- Lines that did not come whole are concealed, up to line n. -/
def concealTo (k n : Nat) (s : State) : State :=
  match (s.ins k).frame with
  | none => s
  | some f => s.each (List.range (n - f.line)) fun s _ => lineDone k none [] s

/-- A failed line is counted and reported (R46, R391). -/
def lineFailed (lane k reason : Nat) (s : State) : State :=
  let s := s.modIns k fun i => { i with lineFail := i.lineFail + 1 }
  (s.modCounts lane fun c => { c with lineFails := c.lineFails + 1 }).raiseLimited sec (Ev.lineCheckFailed lane) [reason]

/-- Lines of which something came since the last line that was evaluated (R53, R391): the one under way counts when any of its
folios came. -/
def linesCome (i : InStream) (f : Arrival) : Nat := divUp f.payloads.length (max 1 (streamLineFolios i))

/-- Lines before line n whose LINE_CHECK was lost fail and are concealed (R391), when something came of every line before line
`upto`; of lines that never came the frame never completes (R53). -/
def linesMissed (lane k n upto : Nat) (s : State) : State :=
  let i := s.ins k
  match i.frame with
  | none => s
  | some f =>
    if n ≤ f.line then s
    else
      let came := decide (upto ≤ f.line + linesCome i f)
      let s := if came then s.each (List.range (n - f.line)) fun s _ => lineFailed lane k 4 s
        else s.modFrame k fun f => { f with broken := true }
      concealTo k n s

/-- A frame whose last active line has been evaluated (R53): FIRST_FRAME or RESUMED of R52, and the buffers complete. -/
def frameComplete (k : Nat) (s : State) : State :=
  let i := s.ins k
  match i.frame with
  | none => s
  | some f =>
    let bufs := (match f.buf with
      | some b => [b]
      | none => []) ++ f.wins.map (·.2)
    let joined : Bool := match i.mode with
      | .announced | .stalled => true
      | _ => false
    let signature := Config.inputSignature f.lines % 2 ^ 32
    let sigs := tileSignatures s k f.lines
    let s := s.setIns k { i with
      mode := if joined then .live else i.mode
      frame := none, secondNext := false, frames := i.frames + 1, last := f.lines, lastBad := f.bad
      signature := signature, sigs := sigs
      untagged := some ⟨f.number, f.sent, bufs⟩ }
    let s := s.each (bufs.filter fun b => (s.buf b).mode == .writing) fun s b => s.modBuf b fun v => { v with
      mode := .complete, done := s.dt, times := [], frame := f.number, bad := (v.bad ++ f.bad ++ f.dropped).eraseDups, sigs := (1024, signature) :: sigs }
    let s := s.each f.wins fun s w => s.modWin w.1 fun v => { v with frames := v.frames ++ [(w.2, f.start)] }
    let s := rotate k s
    if joined then recheck (strChanged s) else s

/-- The end of a field or frame. -/
def fieldDone (k : Nat) (s : State) : State :=
  let i := s.ins k
  match i.frame with
  | none => s
  | some f =>
    if f.line < fieldHeight i.desc || f.broken then abandonFrame k s
    else if dInterlaced i.desc && !f.second then
      s.each (match f.buf with
        | some b => [b]
        | none => []) (fun s b => s.modBuf b fun v => { v with firstDone := s.dt }) |>.setIns k { i with secondNext := true }
    else frameComplete k s

/-- What is left of a frame when the next one starts: a frame whose last line came without its LINE_CHECK is completed by that
failed line (R391); a frame of which a line never came is abandoned (R53, R189). -/
def closeFrame (k : Nat) (s : State) : State :=
  match (s.ins k).frame with
  | none => s
  | some f =>
    let h := fieldHeight (s.ins k).desc
    let s := linesMissed (dLane (s.ins k).desc) k h h s
    if dInterlaced (s.ins k).desc && !f.second then abandonFrame k s else fieldDone k s

/-- A new frame begins: intake takes a buffer, and windows take theirs. -/
def openFrame (k : Nat) (s : State) : State :=
  let s := match (s.ins k).untagged with
    | some u => if s.streamAuth k then tagFailed k u.bufs s else tagAbsent k u.bufs s
    | none => s
  let i := s.ins k
  let s := s.setIns k { i with
    frame := some { start := s.dt }, secondNext := false
    prevStart := i.lastStart, lastStart := s.dt, lastSecond := 0, period := if i.lastStart = 0 then 0 else s.dt - i.lastStart }
  let s := match s.streamPool k with
    | some p =>
      if s.poolFits k && poolActive s p then
        match s.freeBuf p with
        | some b => (beginWrite b k s).modFrame k fun f => { f with buf := some b }
        | none => (s.count Reg.fsExhaustCount 1).raise Ev.poolExhausted [p]
      else s
    | none => s
  s.each (winFeeds s k).eraseDups fun s w => winFrameStart k w.1 s

/-- A stream with an accepted format whose engine, when it is compressed, does its part. -/
def intakeWith (p : Nat → Bool) (s : State) (k : Nat) : Bool :=
  let i := s.ins k
  (match i.mode with
    | .announced | .live | .stalled => true
    | _ => false) && (!dCompressed i.desc || i.engine.any p)

/-- A stream whose folios intake takes. -/
def intakeOpen (s : State) (k : Nat) : Bool := intakeWith s.engineServes s k

/-- A stream of which intake takes a new frame: an engine that drains begins none (R240). -/
def intakeBegins (s : State) (k : Nat) : Bool := intakeWith s.engineActive s k

/-- A new frame of a stream, when one may begin. -/
def nextFrame (k : Nat) (s : State) : State := s.whenever (intakeBegins s k) (openFrame k)

/-- The first data folio of a frame or field (R53, R148, R388). -/
def frameStart (k : Nat) (s : State) : State :=
  if !intakeOpen s k || dMedia (s.ins k).desc == 1 then s
  else
    let i := s.ins k
    match i.frame with
    | some f =>
      if i.secondNext then
        let s := s.setIns k { i with
          lastSecond := s.dt, secondNext := false, frame := some { f with second := true, line := 0, payloads := [], coded := [], lost := false } }
        s.each (match f.buf with
          | some b => b :: f.wins.map (·.2)
          | none => f.wins.map (·.2)) fun s b => s.modBuf b fun v => { v with second := s.dt }
      else nextFrame k (closeFrame k s)
    | none => nextFrame k s

/-! Sending on (R391, R394). -/

/-- The fields of a LINE_CHECK or POISON for an output stream. -/
def flowHead (out body : Nat) : List (Nat × Nat) := [(9, out), (32, fld body 110 79)]

/-- The tag of a frame that the U3264 sends on an authenticated lane (R528). -/
def sendTag (out frame : Nat) (payloads : List Nat) (s : State) : State :=
  let lane := dLane (s.outDesc out)
  match s.tagSession lane with
  | some x =>
    if (s.link (s.calLane lane)).authenticated then
      sendFlow out 0x0B (pack [(9, out), (16, frame), (8, x.txEpoch), (23, 0),
        (64, frameTag x x.lower out frame x.txEpoch payloads)]) s
    else s
  | none => s

/-- The line under way of a stream, with the start of its frame. -/
def lineUnderWay (i : InStream) : Option (Time × Nat) :=
  i.frame.map fun f => (i.lastStart, (if f.second then fieldHeight i.desc else 0) + f.line)

/-- A folio of the line under way was dropped on the way to the route's destination (R127). -/
def lineHurt (s : State) (r k : Nat) : Bool :=
  match lineUnderWay (s.ins k) with
  | some x => (s.route r).hurt.any fun h => h.1 == x.1 && h.2.1 == x.2
  | none => false

/-- The line under way of a route that no frame store feeds is concealed at its destination (R46, R127). -/
def routeHurt (r : Nat) (s : State) : State :=
  match shownSource s r with
  | some (t, src) =>
    match s.srcStream t src with
    | some k =>
      let i := s.ins k
      match i.frame, lineUnderWay i with
      | some f, some x =>
        if lineHurt s r k then s
        else s.modRoute r fun v => { v with
          hurt := (v.hurt.filter fun h => h.1 == i.lastStart || h.1 == i.prevStart) ++
            [(x.1, x.2, concealLine i (if f.second then 1 else 0) f.line)] }
      | _, _ => s
    | none => s
  | none => s

/-- The line under way of a stream is lost on its way to the store. -/
def storeHurt (k : Nat) (s : State) : State :=
  match lineUnderWay (s.ins k) with
  | some x => s.modFrame k fun f => { f with dropped := if f.dropped.contains x.2 then f.dropped else f.dropped ++ [x.2] }
  | none => s

/-- Samples of a stream's embedded audio are missing: its input channels fall silent for a moment (R393). -/
def audioGap (k : Nat) (s : State) : State :=
  match oget s.aud.bind k with
  | some (a, n) => s.each (List.range n) fun s c => s.setAudIn (a + c) { s.audIn (a + c) with gapAt := s.dt }
  | none => s

/-- The check of a line is sent on on the pass-through routes of a stream: `reason` 0 as LINE_CHECK. -/
def forwardCheck (k body reason : Nat) (payloads sent : List Nat) (s : State) : State :=
  s.each (passRoutes s k) fun s x =>
    let out := x.2
    let s := lineReady out s
    let reason := if reason = 0 ∧ lineHurt s x.1 k then 2 else reason
    let s := if reason = 0 then
        sendFlow out 0x09 (pack (flowHead out body ++ [(16, crc16Line payloads), (63, 0)])) s
      else sendFlow out 0x0A (pack (flowHead out body ++ [(4, reason), (75, 0)])) s
    if bit body 95 && (!dInterlaced (s.ins k).desc || bit body 96) then sendTag out (fld body 94 79) sent s else s

/-- The field that the line of a check belongs to is under way (R147): a second field's first check starts it, and so does one of another
frame number. -/
def lineField (k body : Nat) (s : State) : State :=
  let s := if (s.ins k).secondNext && bit body 96 then frameStart k s else s
  let stale : Bool := match (s.ins k).frame with
    | some f => decide (0 < f.line ∧ f.number ≠ fld body 94 79)
    | none => true
  if stale then frameStart k (s.modIns k fun i => { i with secondNext := false }) else s

/-- The end of a line of the frame under way. Of the folios that came since the last line evaluated, the last ones are the line's. -/
def lineChecked (lane k body : Nat) (poison : Option Nat) (f : Arrival) (s : State) : State :=
  let line := fld body 110 97
  let s := s.modFrame k fun f => { f with number := fld body 94 79 }
  let i := s.ins k
  let n := streamLineFolios i
  let whole := decide (f.line ≤ line ∧ f.payloads.length = (line - f.line + 1) * n) && !f.lost
  let mine := if f.line < line then f.payloads.drop (f.payloads.length - n) else f.payloads
  let good := whole && fld body 78 63 == crc16Line mine && poison.isNone
  let reason := poison.getD (if whole then 1 else 4)
  let s := linesMissed lane k (min line (fieldHeight i.desc)) (line + 1) s
  let s := forwardCheck k body (if good then 0 else reason) mine f.sent s
  let s := if good then s else lineFailed lane k reason s
  s.whenever (decide (line < fieldHeight i.desc ∧ f.line ≤ line)) fun s =>
    if good then lineDone k (some (unpackLine (dWidth i.desc) (dChroma i.desc) (dDepth i.desc) mine)) (mine.flatMap (leBytes 16)) s
    else lineDone k none [] s

/-- The end of a line: LINE_CHECK, or POISON with its REASON. -/
def endLine (lane body : Nat) (poison : Option Nat) (s : State) : State :=
  match flowStream s lane (fld body 119 111) with
  | none => s
  | some k =>
    if !intakeOpen s k then s
    else
      let s := lineField k body s
      match (s.ins k).frame with
      | none => s
      | some f => (lineChecked lane k body poison f s).whenever (bit body 95) (fieldDone k)

/-! Tags (R394, R528, R529). -/

/-- A received tag verifies under the session of the lane, and in which epoch. -/
def tagValid (s : State) (lane body : Nat) (u : Untagged) : Bool :=
  match s.tagSession lane with
  | none => false
  | some x =>
    let epoch := fld body 94 87
    (epoch == x.rxEpoch || epoch == (x.rxEpoch + 1) % 256) && u.number == fld body 110 95 &&
      frameTag x (!x.lower) (fld body 119 111) (fld body 110 95) epoch u.sent == fld body 63 0

/-- The window of epochs moves when the next one first verifies (R529). -/
def moveEpoch (lane epoch : Nat) (s : State) : State :=
  let next (x : TagSession) : TagSession := if epoch = x.rxEpoch then x else { x with rxEpoch := epoch, rxSince := s.dt }
  s.modLink (s.calLane lane) fun l => { l with session := l.session.map next }

/-! Commands. -/

def execInputFrameStart (t stream : Nat) (s : State) : Res := .next (frameStart stream (s.begin t))

/-- A data folio joins its line. What carries it on for a pass-through route is a Spine transfer, or a flit of the shared plane. -/
def dataFolioOp (lane slot payload : Nat) (s : State) : State :=
  if slot = 0 then turnMiss lane s
  else match slotFlow s lane slot with
    | none => s
    | some flow =>
      match flowStream s lane flow with
      | none => s
      | some k =>
        let i := s.ins k
        let s := if i.frame.isNone || i.secondNext then frameStart k s else s
        s.modFrame k fun f =>
          { f with payloads := f.payloads ++ [payload % 2 ^ 128], sent := f.sent ++ [payload % 2 ^ 128] }

def execDataFolio (t lane slot payload : Nat) (s : State) : Res :=
  .next (received lane (dataFolioOp lane slot payload) (countHeldData lane (s.begin t)))

/-- A TAG (R394). -/
def tagFolioOp (lane body : Nat) (s : State) : State :=
  match flowStream s lane (fld body 119 111) with
    | none => s
    | some k =>
      match (s.ins k).untagged with
      | none => s
      | some u =>
        if !s.streamAuth k then s
        else if tagValid s lane body u then tagPassed k (sessionC0 s lane) u.bufs (moveEpoch lane (fld body 94 87) s)
        else tagFailed k u.bufs s

def execTagFolio (t lane body : Nat) (s : State) : Res := .next (received lane (tagFolioOp lane body) (s.begin t))

/-- Embedded audio (R393, R318): SEQ of its sample period; the folio travels on with pass-through routes. -/
def audioFolioOp (lane body : Nat) (s : State) : State :=
  match flowStream s lane (fld body 119 111) with
    | none => s
    | some k =>
      let seq := fld body 102 96
      let gap : Bool := match (s.ins k).audioSeq with
        | some e => seq != e && (seq + 1) % 128 != e
        | none => false
      let s := s.modIns k fun i => { i with audioSeq := some ((seq + 1) % 128) }
      let s := if gap then audioGap k s else s
      s.each (passOuts s k) fun s out => sendFlow out 0x0C (pack [(9, out), (111, fld body 110 0)]) s

def execAudioFolio (t lane body : Nat) (s : State) : Res := .next (received lane (audioFolioOp lane body) (s.begin t))

end Sys2Proof.Machine
end

