-- ==== Sys2Proof/Machine/Audio.lean ====
section
/-! DEFINITION. The audio engine (09_audio.md): what output channels hear, commits and their block boundary, TDM ports, chimes
and sounds (R316 to R336). -/

namespace Sys2Proof.Machine

/-! Records (R319, R324, R326). -/

def xpValid (x : Nat) : Bool := bit x 63
def xpFollow (x : Nat) : Bool := fld x 62 61 == 1
def xpSrc (x : Nat) : Nat := fld x 60 50
def xpCh (x : Nat) : Nat := fld x 49 44
def xpOut (x : Nat) : Nat := fld x 43 35
def xpGain (x : Nat) : Nat := fld x 34 19
def xpMute (x : Nat) : Bool := bit x 18

def aoValid (r : Nat) : Bool := bit r 95
def aoStream (r : Nat) : Nat := fld r 94 87
def aoCh (r : Nat) : Nat := fld r 86 81
def aoDelay (r : Nat) : Nat := fld r 80 60

def tsEnable (v : Nat) : Bool := bit v 63
def tsSlave (v : Nat) : Bool := bit v 62
def tsIn (v : Nat) : Nat := fld v 55 51
def tsOut (v : Nat) : Nat := fld v 50 46
/-- The frame rate of a port, mHz. -/
def tsRate (v : Nat) : Nat := nth [32000000, 44100000, 48000000, 96000000] (fld v 61 60) 0

def State.tdmSetup (s : State) (p : Nat) : Nat := s.force (Reg.tdmSetup p)

/-- Valid crosspoints of a table. -/
def xpoints (table : Nat) : List Nat := ((List.range 4096).map fun i => record table 0 64 i).filter xpValid

/-! What an output channel hears (R323, R325, R334). -/

/-- An input channel carries sound: its TDM port runs and receives the slot, or its stream is LIVE. -/
def State.inputLive (s : State) (c : Nat) : Bool :=
  if c < 128 then (s.tdm (c / 16)).mode == .running && decide (c % 16 < tsIn (s.tdmSetup (c / 16)))
  else s.aud.bind.any fun e => match e.2 with
    | some (a, n) => decide (a ≤ c ∧ c < a + n) && (s.ins e.1).mode == .live
    | none => false

/-- The input channel behind a crosspoint. -/
def State.xpInput (s : State) (x : Nat) : Option Nat :=
  if xpFollow x then
    match s.followStream (xpSrc x) with
    | some k => match oget s.aud.bind k with
      | some (a, n) => if xpCh x < n then some (a + xpCh x) else none
      | none => none
    | none => none
  else some (xpSrc x)

/-- Inputs with their gains that output channel o hears of crosspoints. -/
def State.hears (s : State) (xs : List Nat) (o : Nat) : List (Nat × Nat) :=
  if !s.aud.running || s.aud.muted then []
  else (xs.filter fun x => xpOut x == o && !xpMute x).filterMap fun x =>
    (s.xpInput x).bind fun c =>
      if s.inputLive c && !(s.audIn c).unlocked.contains o then some (c, xpGain x) else none

/-- An output channel is in use: a TDM channel with a record, an embedded one whose stream has its channel (R326, R334). -/
def State.audCarries (s : State) (o : Nat) : Bool :=
  let r := s.audOutRec o
  aoValid r && (decide (o < 128) || (let d := s.outDesc (aoStream r); outUsed d && decide (aoCh r < dAudioCh d)))

/-- A crossfade starts on an output channel (R323). -/
def crossfade (o : Nat) (s : State) : State :=
  (s.modAudOut o fun a => { a with xfade := some s.dt }).count Reg.audXfadeCount 1

/-- Every output channel whose sound has changed crossfades; `moved`: channels whose delay changed. -/
def audioFollow (moved : List Nat) (s : State) : State :=
  let xs := xpoints (s.force Reg.audXpointTable)
  s.each (List.range 512) fun s o =>
    let now := if s.audCarries o then s.hears xs o else []
    if now = (s.audOut o).heard ∧ !moved.contains o then s
    else crossfade o (s.modAudOut o fun a => { a with heard := now })

/-! AUD_COMMIT (R328). -/

def xpointOk (x : Nat) : Bool :=
  let g := toInt 16 (xpGain x)
  decide (fld x 62 61 < 2 ∧ (-6144 : Int) ≤ g ∧ g ≤ 1536 ∧ fld x 17 0 = 0 ∧ (fld x 62 61 = 1 → xpCh x ≤ 62))

def audOutOk (r : Nat) : Bool := decide (aoDelay r ≤ 2000000 ∧ fld r 59 54 ≤ 60 ∧ fld r 53 32 = 0)

def tdmOk (v : Nat) : Bool := decide (tsIn v ≤ 16 ∧ tsOut v ≤ 16 ∧ fld v 43 0 = 0)

/-- The code of the first check that the tables fail, 0 when none. -/
def audCheck (s : State) (xt ot : Nat) (tdm : List Nat) : Nat :=
  let xs := (List.range 4096).map fun i => record xt 0 64 i
  let os := (List.range 512).map fun o => (o, record ot 0 96 o)
  let emb := os.filter fun o => decide (128 ≤ o.1) && aoValid o.2
  let names := emb.map fun o => (aoStream o.2, aoCh o.2)
  if !(xs.all xpointOk) || !(os.all fun o => audOutOk o.2) || !(tdm.all tdmOk) then 0x02
  else if emb.any fun o =>
      let d := s.outDesc (aoStream o.2)
      !(outUsed d && dEngineDriven d) || decide (dAudioCh d ≤ aoCh o.2) then 0x05
  else if (List.range 512).any fun o => decide (16 < (xs.filter fun x => xpValid x && xpOut x == o).length) then 0x07
  else if names.eraseDups.length ≠ names.length then 0x0C
  else 0

/-- AUD_COMMIT ← 0x01: checked whole; the accepted tables wait for the next block boundary. -/
def audCommitOp (s : State) : State × Nat :=
  let xt := s.reg Reg.audXpointTable
  let ot := s.reg Reg.audOutTable
  let tdm := (List.range 8).map fun p => s.reg (Reg.tdmSetup p)
  let code := audCheck s xt ot tdm
  if code ≠ 0 then ((s.setReg Reg.audCommitResult code).raise Ev.audCommitRefused [code], stValue)
  else
    let s : State := { s with aud := { s.aud with waiting := some ⟨s.dt, xt, ot, tdm⟩ } }
    (s.setReg Reg.audCommitResult 1, stDone)

def execAudCommit (t : Nat) (src : Src) (s : State) : Res :=
  .next (answer src Reg.audCommit true audCommitOp (s.begin t))

/-- A port's setup comes into force: it starts, stops, or goes on. -/
def tdmApply (p v : Nat) (s : State) : State :=
  let port := s.tdm p
  let s := s.setForce (Reg.tdmSetup p) v
  if !tsEnable v then s.setTdm p { port with mode := .off, good := 0 }
  else if port.mode = .off then s.setTdm p { port with mode := .running, good := 0 } else s

/-- Waiting tables apply, with a crossfade on each channel whose sources, gains or delay change, and the ducking of the new chime masks. -/
def audApply (c : AudCommit) (s : State) : State :=
  let moved := (List.range 512).filter fun o =>
    aoDelay (record c.outs 0 96 o) != aoDelay (s.audOutRec o) && aoValid (record c.outs 0 96 o)
  let s := (s.setForce Reg.audXpointTable c.xpoints).setForce Reg.audOutTable c.outs
  let s := s.each (List.range 8) fun s p => tdmApply p (nth c.tdm p 0) s
  let s := (s.setReg Reg.audCommitResult 0).setReg Reg.audCommitDt s.dt
  (audioFollow moved { s with aud := { s.aud with waiting := none } }).each (List.range 512) duckChannel

/-- The key of a measured value of a channel among `readings` of a block: 1 peak of an output channel, 2 peak and 3 rate of an
input channel. -/
def readingKey (kind channel : Nat) : Nat := kind * 65536 + channel

/-- One measured value: AUD_LAT_MEAN by its own key, those of channels by `readingKey`. -/
def takeReading (s : State) (x : Nat × Nat) : State :=
  let c := x.1 % 65536
  match x.1 / 65536 with
  | 1 => s.modAudOut c fun a => { a with peak := x.2 }
  | 2 => s.setAudIn c { s.audIn c with peak := x.2 }
  | 3 => s.setAudIn c { s.audIn c with rate := x.2 }
  | _ => if x.1 = Reg.audLatMean then s.setReg x.1 x.2 else s

/-- A 1 ms block boundary. -/
def execAudioBlockBoundary (t : Nat) (clipped readings : List (Nat × Nat)) (s : State) : Res :=
  let s := s.begin t
  .next (if !s.aud.running then s
    else
      let s := match s.aud.waiting with
        | some c => audApply c s
        | none => audioFollow [] s
      let s := s.each clipped fun s x =>
        let s := (s.modAudOut x.1 fun a => { a with clips := a.clips + x.2 }).count Reg.audClips x.2
        if x.2 = 0 then s else s.raiseLimited sec Ev.audioClip [x.1]
      s.each readings takeReading)

/-- AUD_MUTE_ALL (R335): program fades out, or comes back. -/
def audMuteOp (value : Nat) (s : State) : State × Nat :=
  if 1 < value then (s, stValue)
  else
    let on := value == 1
    let s : State := (s.setReg Reg.audMuteAll value)
    let s : State := { s with aud := { s.aud with
      muted := on, muteSince := if on = s.aud.muted then s.aud.muteSince else s.dt } }
    (audioFollow [] s, stDone)

def execAudMuteAll (t : Nat) (src : Src) (value : Nat) (s : State) : Res :=
  .next (answer src Reg.audMuteAll false (audMuteOp value) (s.begin t))

/-- A converter's ratio error (R321): beyond ±1,000 ppm the input is silent on that output, within it sounds again. -/
def execAsrcUnlock (t input out ratio : Nat) (s : State) : Res :=
  let s := s.begin t
  let a := s.audIn input
  .next (if !s.aud.running then s
    else if 100000 < (toInt 32 ratio).natAbs then
      if a.unlocked.contains out then s.setAudIn input { a with ratio := ratio }
      else
        let s := s.setAudIn input { a with unlocked := a.unlocked ++ [out], unlocks := a.unlocks + 1, ratio := ratio }
        (audioFollow [] s).raise Ev.asrcUnlock [input, out]
    else audioFollow [] (s.setAudIn input { a with unlocked := a.unlocked.filter (· != out), ratio := ratio }))

/-- AUD_STATS_CLEAR (R335). -/
def audStatsClearOp (s : State) : State × Nat :=
  let s := s.clear [Reg.audClips, Reg.audCrcMutes, Reg.audXfadeCount, Reg.chimeCount]
  let s := s.each (s.aud.outs.map (·.1)) fun s o => s.modAudOut o fun a => { a with clips := 0 }
  let s := s.each (s.aud.ins.map (·.1)) fun s c => s.setAudIn c { s.audIn c with unlocks := 0 }
  (s.each (List.range 8) fun s p => s.setTdm p { s.tdm p with frames := 0, errors := 0 }, stDone)

def execAudStatsClear (t : Nat) (src : Src) (s : State) : Res :=
  .next (answer src Reg.audStatsClear false audStatsClearOp (s.begin t))

/-! TDM ports (R319, R320). -/

/-- A port leaves its frames: its inputs fade and its outputs stop driving. -/
def tdmFault (p : Nat) (mode : TdmMode) (event : Nat) (s : State) : State :=
  let v := s.tdm p
  if v.mode = mode then s.setTdm p { v with good := 0 }
  else (audioFollow [] (s.setTdm p { v with mode := mode, errors := v.errors + 1, good := 0 })).raise event [p]

/-- A frame of a port, with the frame rate measured. -/
def execTdmFrame (t port rate : Nat) (s : State) : Res :=
  let s := s.begin t
  let v := s.tdm port
  let setup := s.tdmSetup port
  let nominal : Int := tsRate setup
  .next (if v.mode = .off ∨ s.aud.running = false then s
    else
      let s := s.setTdm port { v with frames := v.frames + 1, rate := rate }
      if !tsSlave setup then s
      else if nominal < 1000 * ((rate : Int) - nominal).natAbs then tdmFault port .rateError (Ev.tdmRateError port) s
      else if v.mode = .running then s
      else if 64 ≤ v.good + 1 then audioFollow [] (s.setTdm port { s.tdm port with mode := .running, good := 0 })
      else s.setTdm port { s.tdm port with good := v.good + 1 })

/-- No FS edge for four expected frames. -/
def execTdmClockTimeout (t port : Nat) (s : State) : Res :=
  let s := s.begin t
  .next (if (s.tdm port).mode = .off ∨ s.aud.running = false ∨ tsSlave (s.tdmSetup port) = false then s
    else tdmFault port .clockLost (Ev.tdmClockLost port) s)

def tdmClearOp (port : Nat) (s : State) : State × Nat :=
  (s.setTdm port { s.tdm port with frames := 0, errors := 0 }, stDone)

def execTdmClearCounts (t : Nat) (src : Src) (port : Nat) (s : State) : Res :=
  .next (answer src (Reg.tdmControl port) false (tdmClearOp port) (s.begin t))

/-- TDM_CONTROL 0x02: good frames count anew. -/
def tdmResyncOp (port : Nat) (s : State) : State × Nat :=
  (s.setTdm port { s.tdm port with good := 0 }, stDone)

def execTdmResync (t : Nat) (src : Src) (port : Nat) (s : State) : Res :=
  .next (answer src (Reg.tdmControl port) false (tdmResyncOp port) (s.begin t))

/-! Chimes (R330, R332). -/

/-- CHIME_CMD op 0x01; `latency` µs pass from the trigger to the first sample. -/
def chimeStartOp (g latency : Nat) (s : State) : State × Nat :=
  if !chimeEnable (s.chimeRec g) then (s, stValue)
  else if !s.chimeUsable g then (s, stDone)
  else
    let s := (chimeBegin g s).setReg Reg.chimeWorst (max latency (s.reg Reg.chimeWorst))
    let s := s.raise (Ev.chimePlayed g) [g]
    (if 1000 < latency then s.raiseAs Ev.chimeLate [g, latency] .tied else s, stDone)

/-- CHIME_CMD op 0x02: a generator that plays fades out. -/
def chimeStop (g : Nat) (s : State) : State := if (s.chime g).playing then chimeEnd g s else s

def execChimeStart (t : Nat) (src : Src) (g latency : Nat) (s : State) : Res :=
  .next (answer src Reg.chimeCmd false (chimeStartOp g latency) (s.begin t))

def chimeStopOp (g : Nat) (s : State) : State × Nat :=
  (chimeStop g s, stDone)

def execChimeStop (t : Nat) (src : Src) (g : Nat) (s : State) : Res :=
  .next (answer src Reg.chimeCmd false (chimeStopOp g) (s.begin t))

def chimeStopAllOp (s : State) : State × Nat :=
  (s.each (List.range 32) fun s g => chimeStop g s, stDone)

def execChimeStopAll (t : Nat) (src : Src) (s : State) : Res :=
  .next (answer src Reg.chimeCmd false chimeStopAllOp (s.begin t))

def execChimePatternStep (t g : Nat) (s : State) : Res := .next (chimeStep g (s.begin t))

/-! Sounds (R333). -/

/-- Bytes of a sound in the store, and of the whole store in use. -/
def soundBytes (x : Sound) : Nat := x.data.length
def State.soundsUsed (s : State) : Nat :=
  sumOf (s.nvm.sounds.map fun e => match e.2 with
    | some x => soundBytes x
    | none => 0)

/-- The chime table of the stored safe image (R629). -/
def State.safeChimes (s : State) : List Nat := (s.nvm.safe.drop (s.nvm.safe.length - 516)).take 512

/-- Sounds that enabled generators of a table name. -/
def tableSounds (table : Nat) : List Nat :=
  (((List.range 32).map fun g => record table 0 128 g).filter fun r => chimeEnable r && chimeSource r == 1).map chimeSound
    |>.eraseDups

/-- A range of CHIME_TABLE is broken (R329). -/
def chimeRecOk (r : Nat) : Bool :=
  let level := toInt 16 (fld r 64 49)
  decide (100 ≤ fld r 113 100 ∧ fld r 113 100 ≤ 8000 ∧ 1 ≤ chimeOn r ∧ chimeRepeat r ≠ 0 ∧
    (chimeTrigger r < 1152 ∨ chimeTrigger r = 0x7FF) ∧ (-6144 : Int) ≤ level ∧ level ≤ 0 ∧
    (chimeSource r = 1 → chimeSound r ≠ 0))

/-- The sounds of a table fit the keeper chime memory. -/
def soundsFit (s : State) (table : Nat) : Bool :=
  decide (sumOf ((tableSounds table).map fun i => match oget s.nvm.sounds i with
    | some x => soundBytes x
    | none => 0) ≤ 2097152)

/-- The sounds of the chime table in force are loaded; `bad`: those whose CRC fails twice. One that the store lacks is missing
as well. -/
def loadSounds (bad : List Nat) (s : State) : State :=
  let names := tableSounds (s.reg Reg.chimeTable)
  let gone := names.filter fun i => bad.contains i || (oget s.nvm.sounds i).isNone
  let new := gone.filter fun i => !s.aud.missing.contains i
  let loaded := (names.filter fun i => !gone.contains i).filterMap fun i => (oget s.nvm.sounds i).map fun x => (i, x)
  let s : State := { s with aud := { s.aud with chimeMem := loaded, missing := gone } }
  s.each new fun s i => s.raise Ev.soundMissing [i]

/-- The generators follow a new table: one that is not usable any more ends, and ducking follows DUCK and PRIORITY (R329 to R331). -/
def chimesFollow (s : State) : State :=
  let s := s.each ((List.range 32).filter fun g => (s.chime g).playing && !s.chimeUsable g) fun s g => chimeEnd g s
  s.each (List.range 512) duckChannel

/-- A write of CHIME_TABLE (R329, R333). -/
def chimeTableOp (value : Nat) (s : State) : State × Nat :=
  if !((List.range 32).all fun g =>
      let r := record value 0 128 g
      !chimeEnable r || chimeRecOk r) || !soundsFit s value then (s, stValue)
  else (chimesFollow (loadSounds [] (s.setReg Reg.chimeTable value)), stDone)

/-- SOUND_WRITE: header, CRC-32C, length and room are checked, reserved bytes ignored (R8); `ok`: the NVM took the sound. -/
def soundWriteOp (data : List Nat) (ok : Bool) (s : State) : State × Nat :=
  let id := leNat (data.take 2)
  let length := leNat ((data.drop 8).take 4)
  let crc := leNat ((data.drop 12).take 4)
  let old := match oget s.nvm.sounds id with
    | some x => soundBytes x
    | none => 0
  if data.length < 16 ∨ length ≠ data.length - 16 then (s, stLength)
  else if id = 0 ∨ 0xFFF < id ∨ length % 3 ≠ 0 ∨ 1440000 < length ∨
      crc32c (data.take 12 ++ data.drop 16) ≠ crc then (s, stValue)
  else if 33554432 < s.soundsUsed - old + data.length then (s, stResources)
  else if !ok then (s, stNvm)
  else ({ s with nvm := { s.nvm with sounds := oset s.nvm.sounds id (some ⟨data, crc⟩) } }, stDone)

/-- SOUND_DELETE: not of a sound that the stored safe image names. -/
def soundDeleteOp (id : Nat) (s : State) : State × Nat :=
  if (oget s.nvm.sounds id).isNone || (tableSounds (leNat s.safeChimes)).contains id then (s, stValue)
  else ({ s with nvm := { s.nvm with sounds := oset s.nvm.sounds id none } }, stDone)

def execSoundWrite (t : Nat) (src : Src) (data : List Nat) (ok : Bool) (s : State) : Res :=
  .next (answer src Reg.soundWrite false (soundWriteOp data ok) (s.begin t))

def execSoundDelete (t : Nat) (src : Src) (id : Nat) (s : State) : Res :=
  .next (answer src Reg.soundDelete false (soundDeleteOp id) (s.begin t))

/-! The main supply (R334). -/

/-- The mixer, converters, delay lines and TDM ports stop; chimes go on. -/
def audioStops (s : State) : State :=
  let s : State := { s with aud := { s.aud with running := false } }
  let s := s.each (List.range 8) fun s p => s.setTdm p { s.tdm p with mode := .off, good := 0 }
  s.each (s.aud.outs.map (·.1)) fun s o => s.modAudOut o fun a => { a with heard := [], xfade := none }

/-- The audio engine runs: ports start and the program fades in. -/
def audioStarts (s : State) : State :=
  let s : State := { s with aud := { s.aud with running := true } }
  let s := s.each (List.range 8) fun s p => tdmApply p (s.tdmSetup p) s
  audioFollow [] s

end Sys2Proof.Machine
end

