-- ==== Sys2Proof/Machine/FrameStore.lean ====
section
/-! DEFINITION. The commands of the frame store (05_frame_store.md): pools, buffers, channels, sweeps, bursts and windows. -/

namespace Sys2Proof.Machine

/-! Pools (R182 to R185, R219, R222, R236). -/

/-- The format of a pool record keeps R55 and, when compressed, R222. -/
def poolFormatOk (r : Nat) : Bool :=
  let w := pWidth r
  let h := pHeight r
  decide (64 ≤ w ∧ w ≤ 7680 ∧ 64 ≤ h ∧ h ≤ 4320 ∧ pChroma r < 3 ∧ pDepth r < 3 ∧ pEncoding r < 2 ∧ pPrimaries r < 2 ∧
      pTransfer r < 3 ∧ 1 ≤ pCount r ∧ 1 ≤ pDepthQueue r ∧ pDepthQueue r ≤ 64) &&
    (pChroma r == 0 || (w % 2 == 0 && pEncoding r == 1)) && (pChroma r != 2 || h % 2 == 0) &&
    (pComp r == 0x1F || codedHeightOk h (pChroma r))

/-- Code 0x19 of a pool record (R184, R219). -/
def poolRefused (s : State) (r : Nat) : Bool :=
  pValid r && (!poolFormatOk r || (pClass r == 0 && (decide (popCount 8 (pChannels r) < 4) || pComp r != 0x1F)) ||
    (pComp r != 0x1F && (!pStream r || !(decide (pComp r < 16) && s.cmpRole (pComp r) == 1))))

/-- The fields of a pool record that a host writes. -/
def poolFields (r : Nat) : Nat := fld r 127 32

/-- The record with COUNT and WQ_DEPTH taken out. -/
def poolFixed (r : Nat) : Nat := putFld (putFld (fld r 127 32 * 2 ^ 32) 110 93 0) 47 40 0

/-- A buffer of the pool is in use. -/
def poolBusy (s : State) (p : Nat) : Bool :=
  s.fs.bufs.any fun e => handlePool e.1 == p && e.2.mode != .free && e.2.mode != .lost

/-- Code 0x1A: a change to a pool in use beyond a higher COUNT or WQ_DEPTH (R184). -/
def poolChangeBad (s : State) (p r : Nat) : Bool :=
  let old := s.poolRec p
  poolBusy s p && (poolFixed old != poolFixed r || decide (pCount r < pCount old) ||
    decide (pDepthQueue r < pDepthQueue old))

/-- The extents of one changed pool placed; a pool in use keeps what it has. -/
def placePool (p r : Nat) (s : State) : Option State :=
  let keep := if poolBusy s p then s.poolPlace p else []
  let s0 := s.setPlace p keep
  if !pValid r then some s0
  else match placeBuffers (poolChannels r) (s.poolExtents r) (pCount r - keep.length) s0.freeExtents with
    | some (bs, _) =>
      let s := s0.setPlace p (keep ++ bs)
      if keep = [] then
        some (s.each (List.range (pCount r)) fun s i =>
          wipeBuf (p * 2 ^ 18 + i) (s.modBuf (p * 2 ^ 18 + i) fun b => { b with mode := .free }))
      else some s
    | none => none

/-- All changed pools placed in order: the state, or the first pool that does not fit. -/
def placePools (new : Nat → Nat) : List Nat → State → State ⊕ Nat
  | [], s => .inl s
  | p :: ps, s =>
    match placePool p (new p) s with
    | some s => placePools new ps s
    | none => .inr p

/-- The stream-pool entries (R185): 0x10 for a pool not VALID, 0x19 for one of KIND 0. -/
def streamPoolCode (pool : Nat → Nat) (table : Nat) : Nat :=
  let es := ((List.range 512).map fun k => record table 0 8 k).filter fun p => p != 0xFF
  if es.any fun p => decide (64 ≤ p) || !pValid (pool p) then 0x10
  else if es.any fun p => !pStream (pool p) then 0x19 else 0

/-- A compressed pool is assigned a present interlaced stream of its size whose fields compression does not take (R219, R222). -/
def fieldsBad (s : State) (pool : Nat → Nat) (table : Nat) : Bool :=
  (List.range 512).any fun k =>
    let p := record table 0 8 k
    let d := (s.ins k).desc
    decide (p < 64) && pComp (pool p) != 0x1F && (s.ins k).mode != .absent && dInterlaced d && pHeight (pool p) == dHeight d && !codedOk d

/-- The tables applied, or the code that refuses them (R184, R185, R236). -/
def applyPools (s : State) : State × Nat :=
  let table := s.reg Reg.fsPoolTable
  let new (p : Nat) : Nat := record table 0 128 p
  let changed := (List.range 64).filter fun p => poolFields (new p) != poolFields (s.poolRec p)
  if !s.storeActive then (s, 0x17)
  else if changed.any fun p => poolChangeBad s p (new p) then (s, 0x1A)
  else if (changed.any fun p => poolRefused s (new p)) || fieldsBad s new (s.reg Reg.fsStreamPool) then (s, 0x19)
  else if changed.any fun p => pValid (new p) && !(poolChannels (new p)).any fun k => takesExtents (s.chan k) then (s, 0x17)
  else
    let freed := s.each (changed.filter fun p => !poolBusy s p) fun s p => s.setPlace p []
    match placePools new changed freed with
    | .inr _ => (s, 0x16)
    | .inl t =>
      let c := streamPoolCode new (s.reg Reg.fsStreamPool)
      if c ≠ 0 then (s, c)
      else
        let t := (t.apply Reg.fsPoolTable).apply Reg.fsStreamPool
        if !enginesOk t t.liveImages then (s, 0x07) else (recheck t, 0)

/-- FS_POOL_COMMIT. -/
def fsPoolCommitOp (s : State) : State × Nat :=
  let r := applyPools s
  (r.1.setReg Reg.fsPoolResult r.2, if r.2 = 0 then stDone else stValue)

/-! Buffer commands (R188 to R194). -/

/-- FS_BUF_RESULT and the status that goes with it. -/
def bufResult (code : Nat) (s : State) : State × Nat :=
  (s.setReg Reg.fsBufResult code, if code < 0x10 then stDone else stValue)

/-- The handle word names a live buffer: 0, or the code. -/
def handleCode (s : State) (word : Nat) : Nat :=
  let key := word / 256 % 2 ^ 24
  if !s.storeActive then 0x17
  else if !s.bufExists key then 0x10
  else if s.bufGen key ≠ word % 256 then 0x11 else 0

/-- A command's OP and reserved field (R193, R194): R8 has reserved fields ignored, and the table of R194 gives this one code 0x1B (log
entry 44). -/
def cmdBad (cmd op : Nat) : Bool := fld cmd 63 56 != op || fld cmd 55 32 != 0

/-- ALLOC (R189, R193): INDEX 0x3FFFF takes the lowest FREE buffer. -/
def fsAllocOp (cmd : Nat) (s : State) : State × Nat :=
  let word := fld cmd 31 0
  let p := word / 2 ^ 26
  let r := s.poolRec p
  let index := fld word 25 8
  if cmdBad cmd 1 then bufResult 0x1B s
  else if !s.storeActive then bufResult 0x17 s
  else if !pValid r then bufResult 0x10 s
  else if pStream r then bufResult 0x12 s
  else
    let take (key : Nat) : State × Nat :=
      let s := bufTake key .allocated s
      bufResult 0 (s.setReg Reg.fsBufSelect (s.handleWord key))
    if index = 0x3FFFF then
      match s.freeBuf p with
      | some key => take key
      | none => bufResult 0x16 s
    else if pCount r ≤ index then bufResult 0x10 s
    else if (s.buf (p * 2 ^ 18 + index)).mode = .free then take (p * 2 ^ 18 + index)
    else bufResult 0x12 s

/-- FREE (R189, R191). -/
def fsFreeOp (cmd : Nat) (s : State) : State × Nat :=
  let word := fld cmd 31 0
  let key := word / 256
  if cmdBad cmd 2 then bufResult 0x1B s
  else if handleCode s word ≠ 0 then bufResult (handleCode s word) s
  else
    let b := s.buf key
    if b.mode ≠ .allocated then bufResult 0x12 s
    else if b.tokens = [] ∧ !(s.fs.writes.any fun w => w.key == key) then bufResult 0 (recheck (bufFree key s))
    else
      let s := s.setBuf key { b with mode := .releasing }
      bufResult 0x02 (recheck (if b.tokens = [] then bufReleased key s else s))

/-- Cancel queued writes. -/
def fsCancelQueuedOp (cmd : Nat) (s : State) : State × Nat :=
  let word := fld cmd 31 0
  let key := word / 256
  if cmdBad cmd 3 then bufResult 0x1B s
  else if handleCode s word ≠ 0 then bufResult (handleCode s word) s
  else match (s.buf key).mode with
    | .allocated | .releasing =>
      bufResult 0 { s with fs := { s.fs with writes := s.fs.writes.filter fun w => w.key != key } }
    | _ => bufResult 0x12 s

/-- Bytes waiting in the staging area of 512 MiB (R179, R192). -/
def stagingUsed (s : State) : Nat := sumOf (s.fs.writes.map fun w => w.data.length)

/-- A host write (R192, R193). -/
def fsBufWriteOp (header : Nat) (data : List Nat) (s : State) : State × Nat :=
  let word := fld header 127 96
  let key := word / 256
  let offset := fld header 95 64
  let len := fld header 63 32
  let hold := bit header 0
  if data.length ≠ len ∨ len = 0 ∨ 16 * 1024 * 1024 < len then (s, stLength)
  else if fld header 31 1 ≠ 0 then bufResult 0x1B s
  else if handleCode s word ≠ 0 then bufResult (handleCode s word) s
  else
    let r := s.poolRec (handlePool key)
    let b := s.buf key
    let waiting := s.fs.writes.filter fun w => handlePool w.key == handlePool key
    if pStream r ∨ b.mode ≠ .allocated then bufResult 0x12 s
    else if s.poolFrame r < offset + len then bufResult 0x15 s
    else
      let direct := !hold && b.tokens == []
      if !direct && decide (pDepthQueue r ≤ waiting.length) then bufResult 0x13 s
      else if !direct && decide (512 * 1024 * 1024 < stagingUsed s + len) then bufResult 0x14 s
      else
        let s : State := { s with fs := { s.fs with writes := s.fs.writes ++ [⟨key, offset, data, hold, s.dt⟩] } }
        if direct then bufResult 0 (runWrites key s) else bufResult 0x01 s

/-- The bytes that FS_BUF_READ_SEL selects: handle word [95:64], offset [63:32], length [31:0]. A read holds a token only
while it runs (R190); RELEASING and LOST grant none. -/
def fsBufReadOp (s : State) : Option (List Nat) :=
  let sel := s.reg Reg.fsBufReadSel
  let word := fld sel 95 64
  let key := word / 256
  let offset := fld sel 63 32
  let len := fld sel 31 0
  if handleCode s word ≠ 0 ∨ 1024 * 1024 < len ∨ s.poolFrame (s.poolRec (handlePool key)) < offset + len then none
  else match (s.buf key).mode with
    | .allocated | .complete => some (s.readBytes (bufAddr key offset) len)
    | _ => none

/-- Groups of waiting writes of a buffer: each ends with a write without HOLD. -/
def writeGroups (ws : List QWrite) : List (List QWrite) :=
  (ws.foldl (fun (a : List (List QWrite) × List QWrite) w =>
    if w.hold then (a.1, a.2 ++ [w]) else (a.1 ++ [a.2 ++ [w]], [])) ([], [])).1

/-- A queued write has waited FS_WQ_TIMEOUT (R192): it is dropped with the writes held with it. -/
def dropQueued (key : Nat) (s : State) : State :=
  let late (g : List QWrite) : Bool := match g.getLast? with
    | some w => decide (w.at_ + s.reg Reg.fsWqTimeout * ms ≤ s.dt)
    | none => false
  match (writeGroups (s.fs.writes.filter fun w => w.key == key)).find? late with
  | none => s
  | some g =>
    let s : State := { s with fs := { s.fs with writes := s.fs.writes.filter fun w => !g.contains w } }
    (s.setReg Reg.fsBufResult 0x18).raise Ev.writeRefused [s.handleWord key]

def execFsPoolCommit (t : Nat) (src : Src) (s : State) : Res :=
  .next (answer src Reg.fsPoolCommit true fsPoolCommitOp (s.begin t))

def execFsAlloc (t : Nat) (src : Src) (cmd : Nat) (s : State) : Res :=
  .next (answer src Reg.fsBufCmd false (fsAllocOp cmd) (s.begin t))

def execFsFree (t : Nat) (src : Src) (cmd : Nat) (s : State) : Res :=
  .next (answer src Reg.fsBufCmd false (fsFreeOp cmd) (s.begin t))

def execFsCancelQueued (t : Nat) (src : Src) (cmd : Nat) (s : State) : Res :=
  .next (answer src Reg.fsBufCmd false (fsCancelQueuedOp cmd) (s.begin t))

def execFsBufWrite (t : Nat) (src : Src) (header : Nat) (data : List Nat) (s : State) : Res :=
  .next (answer src Reg.fsBufWrite false (fsBufWriteOp header data) (s.begin t))

def execQueuedWriteTimeout (t handle : Nat) (s : State) : Res := .next (dropQueued handle (s.begin t))

/-! Channels (R202 to R206). -/

/-- The channel is in service and no change of it is under way. -/
def channelSteady (s : State) (k : Nat) : Bool :=
  (match (s.chan k).mode with
    | .fast | .slow => true
    | _ => false) && s.sup.inservice != some (dramChange k) && !s.sup.waiting.contains (dramChange k)

def channelRefused (s : State) : State × Nat := (s.setReg Reg.fsChResult 0x17, stValue)

/-- FS_CH_CMD op 0x01 (R205, R600). -/
def fsChRetireOp (k : Nat) (s : State) : State × Nat :=
  if !channelSteady s k then channelRefused s
  else (askChange (dramChange k) ((chCmdRuns 1 k s).modChan k fun c => { c with retiring := true }), stDone)

/-- FS_CH_CMD op 0x02 (R205). -/
def fsChRestoreOp (k : Nat) (s : State) : State × Nat :=
  if (s.chan k).mode ≠ .retired ∨ s.pwr.vddqHold then channelRefused s
  else (askChange (dramChange k) ((chCmdRuns 2 k s).modChan k fun c => { c with restoring := true, fails := 0 }), stDone)

/-- FS_CH_CMD op 0x03 (R202). -/
def fsChSweepOp (k : Nat) (s : State) : State × Nat :=
  if !channelSteady s k then channelRefused s else (sweepSingle (0x400 + k) (chCmdRuns 3 k s), stDone)

def execFsChRetire (t : Nat) (src : Src) (k : Nat) (s : State) : Res :=
  .next (answer src Reg.fsChCmd false (fsChRetireOp k) (s.begin t))

def execFsChRestore (t : Nat) (src : Src) (k : Nat) (s : State) : Res :=
  .next (answer src Reg.fsChCmd false (fsChRestoreOp k) (s.begin t))

def execFsChSweep (t : Nat) (src : Src) (k : Nat) (s : State) : Res :=
  .next (answer src Reg.fsChCmd false (fsChSweepOp k) (s.begin t))

/-- The sweep of the start begins. -/
def sweepBegins (s : State) : State :=
  let g := govSweepStarts s
  sweepFrom 0 { g with fs := { g.fs with sweep := { g.fs.sweep with state := 1, since := g.dt, due := false } } }

/-- FS_LOAD of the last 1 ms, in 0.1 % of 480 GB/s, passes FS_SWEEP_LOAD (R202): once in each start, after SERVICE_READY, and not during
a firmware trial (R601). One part is swept at a time: a single part under way comes first. -/
def execMarginSweepStart (t load : Nat) (s : State) : Res :=
  let s := s.begin t
  let s : State := { s with fs := { s.fs with traffic := [(s.dt, load * 480000)] } }
  .next (if s.fs.sweep.state = 0 ∧ 12 ≤ s.start.next ∧ s.sup.trial = none ∧ s.pwr.bulk ∧
      s.reg Reg.fsSweepLoad * 10 < load then
    if s.fs.sweep.single = [] then sweepBegins s else { s with fs := { s.fs with sweep := { s.fs.sweep with due := true } } }
  else s)

/-- A DRAM channel has been swept (R202): a low margin is reported and the channel retrained. -/
def channelSwept (k margin : Nat) (s : State) : State :=
  let c := s.chan k
  let s := s.setChan k { c with mode := if c.slow then .slow else .fast, margin := margin }
  if margin < s.reg Reg.fsMarginMin then
    askChange (dramChange k) ((s.raise (Ev.marginLow k) [k, margin]).modChan k fun c => { c with fails := 0 })
  else s

/-- The lane asks its link for a rate one step lower (R366, R420). -/
def askLowerRate (lane : Nat) (s : State) : State :=
  let rate := (s.lane lane).rate + 1
  if rate ≤ psRateMin (s.phySetup lane) ∧ (s.link lane).mode = .up then
    pushCtl lane 0x12 (rateBody 0 rate) (s.modLink lane fun l => { l with rateAsked := some rate })
  else s

/-- A lane has been swept (R364 to R366). -/
def laneSwept (lane margin : Nat) (s : State) : State :=
  let s := s.modLane lane fun l => { l with sweepMargin := margin, marginLow := false }
  let v := s.phySetup lane
  if psMarginMin v ≤ margin then s.modLane lane fun l => { l with lowRun := 0 }
  else
    let s := s.modLane lane fun l => { l with marginLow := true }
    if 2 ≤ (s.lane lane).lowRun ∧ (s.lane lane).rate = psRateMin v then s
    else if 2 ≤ (s.lane lane).lowRun then askLowerRate lane (s.modLane lane fun l => { l with lowRun := 0 })
    else askRetrain lane (holdAdaptation lane 3 (s.modLane lane fun l => { l with lowRun := l.lowRun + 1 }))

/-- The part under way has been swept. -/
def execSweepPartDone (t margin : Nat) (s : State) : Res :=
  let s := s.begin t
  .next (match sweepNow s with
    | none => s
    | some part =>
      let i := part % 256
      let s := if part / 256 = 4 then channelSwept i margin s else laneSwept i margin s
      if s.fs.sweep.state = 1 then
        let busy := part / 256 == 4 && (s.sup.inservice == some (dramChange i) || s.sup.waiting.contains (dramChange i))
        if busy then { s with fs := { s.fs with sweep := { s.fs.sweep with paused := true } } }
        else sweepFrom (s.fs.sweep.part + 1) s
      else
        let s : State := { s with fs := { s.fs with sweep := { s.fs.sweep with single := s.fs.sweep.single.drop 1 } } }
        let s := s.whenever (part / 256 == 4) (chCmdEnds 3 i 0)
        if s.fs.sweep.due then sweepBegins s
        else if s.fs.sweep.single = [] then govSweepEnds false s else nextSingle s)

/-- Everything that can be copied off the channel has been (R203 to R205): the channel retrains, or is retired. -/
def execEvacuationDone (t k : Nat) (s : State) : Res :=
  let s := s.begin t
  let c := s.chan k
  .next (if c.mode ≠ .evacuating then s
    else
      let s := evacMove k (s.chanExtents k) s
      if c.retiring then endChange (dramChange k) (finishRetire k s)
      else if s.chanExtents k = 0 then s.modChan k fun c => { c with mode := .retraining }
      else endChange (dramChange k) ((s.setChan k { c with
        mode := if c.slow then .slow else .fast, retryAt := some (s.dt + 10 * sec) }).raise Ev.evacuationBlocked [k]))

/-- A blocked evacuation is tried again (R204). -/
def execEvacuationRetry (t k : Nat) (s : State) : Res :=
  let s := s.begin t
  let due := match (s.chan k).retryAt with
    | some u => decide (u ≤ s.dt)
    | none => false
  .next (if due then askChange (dramChange k) s else s)

/-- LOST buffers whose extents all lie on channels in service are wiped and FREE (R189, R205). -/
def recoverLost (s : State) : State :=
  s.each (s.fs.place.flatMap fun e => (List.range e.2.length).filterMap fun i =>
      let key := e.1 * 2 ^ 18 + i
      if (s.buf key).mode = .lost ∧ (nth e.2 i []).all (fun k => takesExtents (s.chan k)) then some key else none)
    fun s key => bufFree key (wipeBuf key s)

/-- A training of R204 or R205 has ended. -/
def execChannelRetrainDone (t k : Nat) (trained slow : Bool) (margin : Nat) (s : State) : Res :=
  let s := s.begin t
  let c := s.chan k
  let good := trained && decide (s.reg Reg.fsMarginMin ≤ margin)
  .next (if c.mode ≠ .retraining then s
    else if good then
      let s := s.setChan k { c with
        mode := if slow then .slow else .fast, slow := slow, fails := 0, restoring := false
        retiring := false, retrains := if c.restoring then c.retrains else c.retrains + 1 }
      let s := if c.restoring then checkC0Pools (recoverLost (chCmdEnds 2 k 0 s)) else s
      let s := s.whenever (slow && (c.restoring || !c.slow)) fun s => s.raise (Ev.speedFallback k) [k]
      endChange (dramChange k) (recheck (s.raise (Ev.retrainDone k) [k]))
    else if c.restoring then
      endChange (dramChange k) ((chCmdEnds 2 k 0x17 (s.setChan k { c with mode := .retired, restoring := false })).raise
        (Ev.retrainFailed k) [k])
    else if 2 ≤ c.fails + 1 then
      endChange (dramChange k) (checkC0Pools
        ((s.setChan k { c with mode := .retired, fails := 0 }).raise (Ev.retrainFailed k) [k]))
    else s.setChan k { c with fails := c.fails + 1 })

/-! Bursts (R46, R197, R199, R200, R225, R327). -/

/-- The previous complete frame of the stream of a stored frame, in the same pool. -/
def previousFrame (s : State) (key : Nat) : Option Nat :=
  let b := s.buf key
  let older := s.fs.bufs.filter fun e => e.2.mode == .complete && e.2.stream == b.stream && handlePool e.1 == handlePool key &&
    e.1 != key && decide (e.2.start < b.start)
  (older.foldl (fun (m : Option (Nat × Buffer)) e => match m with
    | some x => if x.2.start < e.2.start then some e else some x
    | none => some e) none).map (·.1)

/-- Bytes of a stored frame replaced by those of the previous complete frame. -/
def concealBytes (key offset n : Nat) (s : State) : State :=
  match previousFrame s key with
  | some p => s.writeBytes (bufAddr key offset) (s.readBytes (bufAddr p offset) n)
  | none => s.writeBytes (bufAddr key offset) ((List.range n).map fun i => Config.noFrame offset i % 256)

/-- Lines of a stored frame hold concealed samples (R48). -/
def markBad (key : Nat) (lines : List Nat) (s : State) : State :=
  s.modBuf key fun b => { b with bad := (b.bad ++ lines).eraseDups }

/-- n bytes of a stored frame are damaged: exactly the lines' bytes, or the blocks that hold them, are concealed (R46, R199,
R225). -/
def concealStored (key offset n : Nat) (s : State) : State :=
  let r := s.poolRec (handlePool key)
  if pComp r < 16 then
    let size := s.blockBytes (pComp r)
    let row := s.rowBytes r
    let inRow := offset % row
    let first := inRow / size
    let last := min ((inRow + n - 1) / size) (blocksPerRow (pWidth r) (pChroma r) - 1)
    let s := s.each ((List.range (last + 1)).drop first) fun s j => concealBytes key (offset / row * row + j * size) size s
    markBad key [2 * (offset / row), 2 * (offset / row) + 1] s
  else markBad key [offset / max 1 (s.poolLine r)] (concealBytes key offset n s)

/-- A 64-byte burst of a buffer failed every read (R199, R225): exactly what is damaged is concealed, or a host buffer is
DAMAGED. -/
def burstLost (key offset : Nat) (s : State) : State :=
  let o := offset / 64 * 64
  if pStream (s.poolRec (handlePool key)) then concealStored key o 64 s
  else s.modBuf key fun b => { b with damaged := if b.damaged.contains o then b.damaged else b.damaged ++ [o] }

/-- A burst of a frame was not written (R127): its line is damaged, and readers conceal it. -/
def lineDamaged (key offset : Nat) (s : State) : State :=
  let r := s.poolRec (handlePool key)
  if !pStream r then s
  else let n := max 1 (s.poolLine r); concealStored key (offset / n * n) n s

/-- What a burst serves when all its reads failed. -/
def burstFailed (use : BurstUse) (s : State) : State :=
  match use with
  | .video key offset => burstLost key offset s
  | .delay out => (s.count Reg.audCrcMutes 1).raise Ev.delayCrcMute [out]
  | .asset _ => s

/-- One step of a CRC-16 with polynomial 0x1_8BB7 and initial value 0, most significant bit first. -/
def crcBurstBit (c : Nat) (b : Bool) : Nat :=
  let x := 2 * c + ofBool b
  if x < 65536 then x else x ^^^ 0x18BB7

/-- A read of a burst fails its check (R181). The code is linear, so what it finds of the inverted bits of data, address and code does
not depend on what the burst holds; the address enters with 32 bits (log entry 59). -/
def burstBad (x : BurstRead) : Bool :=
  let bits := (bitsUp 512 (x.flips % 2 ^ 512) ++ bitsUp 32 x.stray ++ List.replicate 16 false)
  bits.foldl crcBurstBit 0 != x.flips / 2 ^ 512 % 65536

/-- An access of class C1 to C3 takes its time (R215): the latencies look back 1 s. -/
def sharedFetch (time : Nat) (s : State) : State :=
  { s with fs := { s.fs with times := (s.fs.times.filter fun e => decide (s.dt < e.1 + sec)) ++ [(s.dt, time)] } }

/-- Fetches of class C0 are counted, each access on its own (R30, R47, R215). -/
def c0Fetch (k time : Nat) (s : State) : State :=
  let s : State := { s with fs := { s.fs with fetches := s.fs.fetches + 1, fetchSum := s.fs.fetchSum + time } }
  let s := s.setReg Reg.fsC0FetchWorst (max (s.reg Reg.fsC0FetchWorst) time)
  if 1000 < time then s.raiseAs (Ev.c0FetchLate k) [k, time] .tied else s

def execDramBurstRead (t k : Nat) (use : BurstUse) (c0 : Bool) (reads : List BurstRead) (s : State) : Res :=
  let s := s.begin t
  let bad := ((reads.take 3).takeWhile burstBad).length
  let done := reads.take (min 3 (bad + 1))
  let s := dramTraffic (64 * done.length) s
  let s := s.each done fun s x => if c0 then c0Fetch k x.time s else sharedFetch x.time s
  .next (if bad = 0 then s
    else if bad < (reads.take 3).length then (s.modChan k fun c => { c with retries := c.retries + 1 }).raise (Ev.crcRetry k) [k]
    else
      let s := (burstFailed use s).raise (Ev.crcConceal k) [k]
      let recent := ((s.chan k).recent.filter fun u => decide (s.dt < u + sec)) ++ [s.dt]
      let s := s.modChan k fun c => { c with conceals := c.conceals + 1, recent := recent }
      let live := takesExtents (s.chan k) || (s.chan k).mode == .evacuating
      if live && !(s.chan k).retiring && decide (s.reg Reg.fsCrcRetireLimit ≤ recent.length) then retireNow k s else s)

/-! Windows (R207 to R210). -/

/-- A window record within R207. -/
def winOk (s : State) (table w : Nat) : Bool :=
  let r := record table 0 128 w
  let p := fld r 126 121
  !bit r 127 ||
    (decide (1000 ≤ fld r 111 80 ∧ fld r 111 80 ≤ 3600000) && pValid (s.poolRec p) && pStream (s.poolRec p) &&
      (List.range 64).all (fun v => v == w || !bit (record table 0 128 v) 127 || fld (record table 0 128 v) 126 121 != p) &&
      (List.range 512).all fun k => s.streamPool k != some p)

/-- A window gives up its tokens (R209). -/
def winTokens (w : Nat) (s : State) : State :=
  (returnAll (.window w) s).modWin w fun v => { v with released := true }

/-- A frame that is being written for a window is given up. -/
def winAbandon (w : Nat) (s : State) : State :=
  s.each (s.str.ins.flatMap fun e => match e.2.frame with
      | some f => (f.wins.filter fun x => x.1 == w).map fun x => (e.1, x.2)
      | none => []) fun s x =>
    abandonWrite x.2 (s.modFrame x.1 fun f => { f with wins := f.wins.filter fun y => y.1 != w })

/-- A window is emptied: its frames go. -/
def winEmpty (w : Nat) (s : State) : State :=
  let frames := (s.win w).frames.map (·.1)
  let s := (winAbandon w (winTokens w s)).modWin w fun v => { v with frames := [], mode := .idle }
  s.each (frames.filter fun b => (s.buf b).mode == .complete && (s.buf b).tokens == []) fun s b => bufFree b s

/-- The fields of a window record that a host writes. -/
def winFields (r : Nat) : Nat := putFld (fld r 127 64) 56 55 0

def fsWinCommitOp (s : State) : State × Nat :=
  let table := s.reg Reg.fsWinTable
  if !(List.range 64).all (winOk s table) then (s, stValue)
  else
    let moved := (List.range 64).filter fun w =>
      fld (record table 0 128 w) 127 121 != fld (s.winRec w) 127 121
    ((s.each moved fun s w => winEmpty w s).apply Reg.fsWinTable, stDone)

/-- FS_WIN_CMD op 0x01: ignored in post-trigger and when frozen (R209). -/
def fsWinTriggerOp (w : Nat) (s : State) : State × Nat :=
  if bit (s.winRec w) 127 then (winTrigger w s, stDone) else (s, stValue)

/-- FS_WIN_CMD op 0x02 (R209). -/
def fsWinReleaseOp (w : Nat) (s : State) : State × Nat :=
  if (s.win w).mode = .frozen then (winTokens w s, stDone) else (s, stValue)

/-- FS_WIN_CMD op 0x03: a released window records again. -/
def fsWinRestartOp (w : Nat) (s : State) : State × Nat :=
  if (s.win w).mode = .frozen ∧ (s.win w).released then (s.modWin w fun v => { v with mode := .recording, freezeDt := 0 }, stDone)
  else (s, stValue)

def execFsWinTrigger (t : Nat) (src : Src) (w : Nat) (s : State) : Res :=
  .next (answer src Reg.fsWinCmd false (fsWinTriggerOp w) (s.begin t))

def execFsWinRestart (t : Nat) (src : Src) (w : Nat) (s : State) : Res :=
  .next (answer src Reg.fsWinCmd false (fsWinRestartOp w) (s.begin t))

/-- The post-trigger phase ends: the window freezes, each frame held by a token (R209). -/
def execWindowPostExpiry (t w : Nat) (s : State) : Res :=
  let s := s.begin t
  let v := s.win w
  .next (if v.mode = .post ∧ v.postEnd ≤ s.dt then
      let s := (winAbandon w s).setWin w { v with mode := .frozen, freezeDt := s.dt, released := false }
      (s.each v.frames fun s f => takeToken f.1 (.window w) s).raise Ev.windowFrozen [w]
    else s)

def fsStatsClearOp (s : State) : State × Nat :=
  let s := s.clear [Reg.fsC0FetchWorst, Reg.fsExhaustCount]
  let s : State := { s with fs := { s.fs with fetches := 0, fetchSum := 0 } }
  (s.each (List.range 64) fun s w => s.modWin w fun v => { v with dropped := 0 }, stDone)

def execFsStatsClear (t : Nat) (src : Src) (s : State) : Res :=
  .next (answer src Reg.fsStatsClear false fsStatsClearOp (s.begin t))

/-! The frame store as a whole (R211 to R213). -/

/-- Every buffer is FREE, every window and queue empty; `gen` gives the generations when a DRAM wipe does this (R188). -/
def storeEmpty (gen : Option Nat) (s : State) : State :=
  let keepBorn (e : Nat × Buffer) : Option (Nat × Buffer) :=
    if gen.isSome ∨ e.2.born = 0 then none else some (e.1, { born := e.2.born })
  let s : State := { s with fs := { s.fs with
    bufs := s.fs.bufs.filterMap keepBorn, writes := [], mem := [], wins := [],
    genBase := gen.getD s.fs.genBase } }
  s.each (s.str.ins.map (·.1)) fun s k => s.modIns k fun i => { i with
    frame := i.frame.map fun f => { f with buf := none, wins := [] }
    untagged := i.untagged.map fun u => { u with bufs := [] } }

/-- Routes show nothing of what the store held. -/
def forgetShown (s : State) : State :=
  s.each s.routeKeys fun s r => s.modRoute r fun x => { x with shown := none, first := none }

end Sys2Proof.Machine
end

