-- ==== Sys2Proof/Machine/Convert.lean ====
section
/-! DEFINITION. Converter units (04_conversion.md): setup and tables, load and speed, holding and disabling, R132 to R178. -/

namespace Sys2Proof.Machine

/-! Fields of CONV_SETUP (R174). -/

def cvHFilter (v : Nat) : Nat := fld v 127 125
def cvVFilter (v : Nat) : Nat := fld v 124 122
def cvColourMode (v : Nat) : Nat := fld v 121 120
def cvInRange (v : Nat) : Nat := fld v 119 118
def cvOutRange (v : Nat) : Nat := fld v 117 116
def cvDeint (v : Nat) : Nat := fld v 115 114
def cvBottomFirst (v : Nat) : Bool := bit v 113
def cvDither (v : Nat) : Bool := bit v 112
def cvMotionLow (v : Nat) : Nat := fld v 111 104
def cvMotionHigh (v : Nat) : Nat := fld v 103 96
def cvSdrWhite (v : Nat) : Nat := fld v 95 86
def cvHdrPeak (v : Nat) : Nat := fld v 85 72
def cvGuard (v : Nat) : Nat := fld v 71 56 * us

/-- A setup within R174. -/
def convSetupOk (v : Nat) : Bool :=
  decide (cvHFilter v < 5 ∧ cvVFilter v < 5 ∧ cvColourMode v < 3 ∧ cvInRange v < 3 ∧ cvOutRange v < 3 ∧ cvDeint v < 3 ∧
    cvMotionLow v < cvMotionHigh v ∧ 80 ≤ cvSdrWhite v ∧ cvSdrWhite v ≤ 1000 ∧ 400 ≤ cvHdrPeak v ∧ cvHdrPeak v ≤ 10000 ∧
    fld v 71 56 ≤ 20000)

/-! CONV_TABLES (R175). -/

/-- Horizontal and vertical coefficients by phase and tap. -/
def ctH (t phase tap : Nat) : Int := toInt 16 (record t 0 16 (8 * phase + tap))
def ctV (t phase tap : Nat) : Int := toInt 16 (record t 8192 16 (6 * phase + tap))
/-- Matrix coefficients, row and column; column 3 is the offset. -/
def ctMatrix (t row col : Nat) : Int := toInt 16 (record t 14336 16 (4 * row + col))
def ctInLut (t c i : Nat) : Nat := record t 14528 16 (1024 * c + i)
def ctOutLut (t c i : Nat) : Nat := record t 63680 16 (1024 * c + i)

/-- The tables of a CUSTOM shape sum to 0x1000 in every phase (R139). -/
def convTablesOk (v t : Nat) : Bool :=
  (cvHFilter v != 4 || (List.range 64).all fun p => sumInt ((List.range 8).map (ctH t p)) == 0x1000) &&
    (cvVFilter v != 4 || (List.range 64).all fun p => sumInt ((List.range 6).map (ctV t p)) == 0x1000)

/-- Setup and tables with which a route's units work: those of the lead unit (R170). -/
def routeSetup (s : State) (image : Nat) : Nat := s.force (Reg.convSetup (rConvFirst image))
def routeTables (s : State) (image : Nat) : Nat := s.force (Reg.convTables (rConvFirst image))

/-- The image of the route that holds a unit. -/
def unitImage (s : State) (u : Nat) : Option Nat := (s.unit u).holder.map fun r => (s.route r).image

/-- CONV_CONTROL 0x01 (R149, R153, R170). -/
def convApplyOp (u : Nat) (s : State) : State × Nat :=
  let v := s.reg (Reg.convSetup u)
  let t := s.reg (Reg.convTables u)
  let fits : Bool := match unitImage s u with
    | some r => !(rKind r == 1 && cvDeint v == 2) && (rConvFirst r != u || loadsOk s r v)
    | none => true
  if !(convSetupOk v && convTablesOk v t && fits) then (s, stValue)
  else
    let s := s.modUnit u fun x => { x with wait := some (v, t) }
    (if (s.unit u).holder.isSome then s else unitApply u s, stDone)

/-- Units whose route has this boundary take up what waits (R170). -/
def convBoundary (b : Bnd) (s : State) : State :=
  s.each ((s.conv.units.filter fun e => e.2.wait.isSome).map (·.1)) fun s u =>
    match unitImage s u with
    | some r => if rBnd r = b then unitApply u s else s
    | none => unitApply u s

/-- The input frame period of a route: its stream's, or the frame period at its destination. -/
def inputPeriod (s : State) (image : Nat) : Nat :=
  match s.srcStream (rSrcType image) (rSrc image) with
  | some k => 100 * sec / max 1 (dRate (s.ins k).desc)
  | none => 100 * sec / max 1 (destTiming s s.outTables image).rate

/-- One unit goes Draining. -/
def unitDrains (until_ : Time) (u : Nat) (s : State) : State :=
  if (s.unit u).mode = .active then
    qsChanged qsConv u (s.modUnit u fun v => { v with mode := .draining, drainEnd := until_, reEnable := false })
  else s

/-- CONV_CONTROL 0x02 (R171, R595): any member drains the whole gang. The route keeps its source until the units are Idle. -/
def convDisableOp (u : Nat) (s : State) : State × Nat :=
  match (s.unit u).mode with
  | .active =>
    match unitImage s u with
    | some r =>
      if rClass r = 0 then (s, stValue)
      else
        let until_ := s.dt + inputPeriod s r + ms
        (s.each (rUnits r) fun s m => unitDrains until_ m s, stDone)
    | none => (qsChanged qsConv u (s.modUnit u fun v => { v with mode := .idle }), stDone)
  | .draining => (s.modUnit u fun v => { v with reEnable := false }, stDone)
  | _ => (s, stDone)

/-- CONV_CONTROL 0x03 (R171, R595). -/
def convEnableOp (u : Nat) (s : State) : State × Nat :=
  match (s.unit u).mode with
  | .idle => (recheck (qsChanged qsConv u (s.modUnit u fun v => { v with mode := .active })), stDone)
  | .draining => (s.modUnit u fun v => { v with reEnable := true }, stDone)
  | _ => (s, stDone)

/-- CONV_CONTROL 0x04 (R128, R172): refused on a unit that is not isolated. -/
def convRetestOp (u : Nat) (pass : Bool) (s : State) : State × Nat :=
  if (s.unit u).mode ≠ .isolated then (s, stValue)
  else if pass then
    (recheck (portReturned (32 + u) (qsChanged qsConv u (s.modUnit u fun v => { v with mode := .active }))), stDone)
  else (s, stDone)

def execConvApply (t : Nat) (src : Src) (unit : Nat) (s : State) : Res :=
  .next (answer src (Reg.convControl unit) true (convApplyOp unit) (s.begin t))

def execConvDisable (t : Nat) (src : Src) (unit : Nat) (s : State) : Res :=
  .next (answer src (Reg.convControl unit) false (convDisableOp unit) (s.begin t))

def execConvEnable (t : Nat) (src : Src) (unit : Nat) (s : State) : Res :=
  .next (answer src (Reg.convControl unit) false (convEnableOp unit) (s.begin t))

def execConvRetest (t : Nat) (src : Src) (unit : Nat) (pass : Bool) (s : State) : Res :=
  .next (answer src (Reg.convControl unit) false (convRetestOp unit pass) (s.begin t))

def convClearOp (unit : Nat) (s : State) : State × Nat :=
  (s.modUnit unit fun v => { v with linesLate := 0, frames := 0 }, stDone)

def execConvClearCounts (t : Nat) (src : Src) (unit : Nat) (s : State) : Res :=
  .next (answer src (Reg.convControl unit) false (convClearOp unit) (s.begin t))

/-! Speed (R155 to R157). -/

/-- The load of a unit in 0.01 pixel/s, 0 when it holds no route (R153). -/
def unitLoad (s : State) (u : Nat) : Nat :=
  match unitImage s u with
  | some r => memberLoad s s.outTables r (routeSetup s r) (u - rConvFirst r)
  | none => 0

/-- a / b rounded to the nearest. -/
def roundDiv (a b : Nat) : Nat := (2 * a + b) / (2 * b)

/-- A slack in 0.1 %: 1,000 less what the measured cycle time is of the required one, which is `work` / `demand` ps. -/
def slackOf (measured demand work : Nat) : Int :=
  if demand = 0 then 1000 else 1000 - (roundDiv (1000 * measured * demand) work : Int)

/-- The slack of a cluster with a cycle time: two pixels in a cycle (R155, R156). -/
def clusterSlack (s : State) (c speed : Nat) : Int :=
  slackOf speed (((List.range 4).map fun i => unitLoad s (4 * c + i)).foldl max 0) (200 * 10 ^ 12)

/-- The array slack: the smallest of the last update. -/
def arraySlack (s : State) : Int := (List.range 12).foldl (fun m c => min m (s.convCluster c).slack) 1000

/-- UNIT_SLOW for each unit of a cluster that holds a route. -/
def clusterSlow (c : Nat) (s : State) : State :=
  s.each ((List.range 4).filter fun i => (s.unit (4 * c + i)).holder.isSome) fun s i =>
    let u := 4 * c + i
    s.raise (Ev.unitSlow u) [u, ((s.unit u).holder).getD 0xFFFF]

/-- One reporter at an update: UNIT_SLOW comes with the first update above 1,667 ps and with the tenth of a run of negative
slacks. -/
def clusterUpdate (c speed : Nat) (s : State) : State :=
  let old := s.convCluster c
  let slack := clusterSlack s c speed
  let run := if slack < 0 then old.negative + 1 else 0
  let s := s.setConvCluster c { speed := speed, slack := slack, negative := run }
  if (1667 < speed ∧ old.speed ≤ 1667) ∨ run = 10 then clusterSlow c s else s

def execConvSpeedUpdate (t : Nat) (speeds : List Nat) (s : State) : Res :=
  let s := s.begin t
  .next (if s.pwr.bulk then s.each ((List.range 12).zip speeds) fun s x => clusterUpdate x.1 x.2 s else s)

/-- A destination line was not complete at its deadline (R173). -/
def lineLate (r : Nat) (s : State) : State :=
  let image := (s.route r).image
  s.each ((rUnits image).take 1) fun s u =>
    (s.modUnit u fun v => { v with linesLate := v.linesLate + 1 }).raise (Ev.lineLate u) [u, r]

end Sys2Proof.Machine
end

