-- ==== Sys2Proof/Machine/Pixels.lean ====
section
/-! DEFINITION. The arithmetic of pixels: the stages of the converter units (R135 to R150, R162), the fetch path (R251),
blending (R252) and stage 5 of an output (R250). Components are 16-bit values between stages 1 and 14. -/

namespace Sys2Proof.Machine

def clip16 (v : Int) : Nat := (max 0 (min 65535 v)).toNat

/-- A code of d bits extended to 16 bits by bit replication (R135). -/
def norm16 (d v : Nat) : Nat := v * 2 ^ (16 - d) + v / 2 ^ (2 * d - 16)

/-- A 10-bit code extended to 12 bits. -/
def ten12 (v : Nat) : Nat := v * 4 + v / 256

/-- A line as its three components. -/
abbrev Line3 := List (List Nat)

/-- A component of a line at a column, held at the edges. -/
def atCol (l : List Nat) (x : Int) : Nat := nth l (max 0 (min ((l.length - 1 : Nat) : Int) x)).toNat 0

/-- A format as the converter units see it. -/
structure Fmt where
  chroma : Nat
  depth : Nat
  encoding : Nat
  primaries : Nat
  transfer : Nat
  deriving DecidableEq, Repr

def fmtOf (colour : Nat) : Fmt := ⟨fld colour 9 8, fld colour 7 6, fld colour 5 4, fld colour 3 2, fld colour 1 0⟩

/-- The working format of an engine (R250). -/
def workFmt (setup : Nat) : Fmt := ⟨0, 2, 0, csPrimaries setup, csTransfer setup⟩

/-! Stages 1 and 3: to 4:4:4 (R146). -/

/-- Chroma samples of a line copied where co-sited, with the midpoints between them. -/
def upsample (width : Nat) (c : List Nat) : List Nat :=
  (List.range width).map fun x =>
    let k : Int := (x / 2 : Nat)
    let a (i : Int) : Int := (atCol c (k + i) : Nat)
    if x % 2 = 0 then atCol c k else clip16 (roundTo (9 * (a 0 + a 1) - a (-1) - a 2) 16)

/-- The chroma of line y of a 4:2:0 picture of h lines: Cb for which = 0, Cr for 1. -/
def chroma420 (d h : Nat) (line : Nat → List Nat) (which y : Nat) : List Nat :=
  let row (i : Int) : List Nat :=
    let j := (max 0 (min ((h / 2 - 1 : Nat) : Int) i)).toNat
    (nth (components 2 (line (2 * j + which))) 1 []).map (norm16 d)
  let j : Int := (y / 2 : Nat)
  let rows := if y % 2 = 0 then [row (j + 1), row j, row (j - 1), row (j - 2)] else [row (j - 1), row j, row (j + 1), row (j + 2)]
  (List.range (nth rows 1 []).length).map fun x => Config.chromaQuarter (rows.map fun r => nth r x 0) % 65536

/-- Line y of a picture of h lines of w pixels, as three components of 16 bits. -/
def line444 (w h chroma depth : Nat) (line : Nat → List Nat) (y : Nat) : Line3 :=
  let d := depthBits depth
  let cs := (components chroma (line y)).map fun c => c.map (norm16 d)
  match chroma with
  | 0 => cs
  | 1 => [nth cs 0 [], upsample w (nth cs 1 []), upsample w (nth cs 2 [])]
  | _ => [nth cs 0 [], upsample w (chroma420 d h line 0 y), upsample w (chroma420 d h line 1 y)]

/-! Stage 5: scaling (R138, R139). -/

/-- A coefficient: shape, tables, axis, sizes, phase, tap; n taps, tap c reading the whole position. The residue of a
built-in shape is on the centre tap. -/
def coefficient (shape : Nat) (table : Nat → Nat → Int) (vertical : Bool) (n c sIn sOut phase tap : Nat) : Int :=
  match shape with
  | 4 => table phase tap
  | 3 =>
    let next := decide (32 < phase) || (phase == 32 && Config.roundUp 1 2)
    if tap = (if next then c + 1 else c) then 0x1000 else 0
  | 2 => if tap = c then 0x1000 - 64 * (phase : Int) else if tap = c + 1 then 64 * (phase : Int) else 0
  | _ => shapeTap shape vertical n c sIn sOut phase tap

/-- One filtered value. -/
def filtered (coef : Nat → Int) (value : Nat → Nat) (n : Nat) : Nat :=
  clip16 (roundTo (sumInt ((List.range n).map fun i => coef i * ((value i : Nat) : Int))) 0x1000)

/-- A source of lines: its height, the quarter lines by which a field lies off (R149), and line y as three components. -/
structure Prov where
  width : Nat
  height : Nat
  quarter : Int
  line : Nat → Line3

/-- Line y of a picture of `hOut` lines made of a source by the vertical filter. -/
def vertical (setup tables hOut : Nat) (p : Prov) (y : Nat) : Line3 :=
  let t := lineAt p.height hOut y p.quarter
  let row (i : Nat) : Line3 := p.line (max 0 (min ((p.height - 1 : Nat) : Int) (t.1 - 2 + (i : Int)))).toNat
  let rows := (List.range 6).map row
  let coef := coefficient (cvVFilter setup) (ctV tables) true 6 2 p.height hOut t.2
  (List.range 3).map fun c =>
    (List.range p.width).map fun x => filtered coef (fun i => nth (nth (nth rows i []) c []) x 0) 6

/-- A line of `wOut` pixels made of a line by the horizontal filter. -/
def horizontal (setup tables wOut : Nat) (l : Line3) : Line3 :=
  l.map fun c =>
    (List.range wOut).map fun x =>
      let t := tapAt ((((2 * x + 1) * c.length : Nat) : Int) - (wOut : Int)) (2 * wOut)
      filtered (coefficient (cvHFilter setup) (ctH tables) false 8 3 c.length wOut t.2)
        (fun i => atCol c (t.1 - 3 + (i : Int))) 8

/-- Stage 5 whole: unchanged when both ratios are 1 and no filter is CUSTOM. -/
def scaled (setup tables wOut hOut : Nat) (p : Prov) (y : Nat) : Line3 :=
  if p.width = wOut ∧ p.height = hOut ∧ p.quarter = 0 ∧ cvHFilter setup ≠ 4 ∧ cvVFilter setup ≠ 4 then p.line y
  else
    let v := vertical setup tables hOut p y
    horizontal setup tables wOut v

/-! Stage 2: deinterlacing (R149, R150). -/

/-- A field as a source of lines: a quarter of a line down or up. -/
def fieldProv (w h : Nat) (top : Bool) (line : Nat → Line3) : Prov := ⟨w, h, if top then 1 else -1, line⟩

/-- Largest motion on the upper 8 bits around a luma sample: 3 × 3 in lines of the field. -/
def motion (h : Nat) (now before : Nat → Line3) (k x : Nat) : Nat :=
  let at_ (f : Nat → Line3) (dk dx : Int) : Nat :=
    let y := (max 0 (min ((h - 1 : Nat) : Int) ((k : Int) + dk))).toNat
    atCol (nth (f y) 0 []) ((x : Int) + dx) / 256
  ([-1, 0, 1].flatMap fun (dk : Int) => [-1, 0, 1].map fun (dx : Int) =>
    let a := at_ now dk dx
    let b := at_ before dk dx
    max a b - min a b).foldl max 0

/-- The progressive frame of field n, motion-adaptively from fields n, n - 1 and n - 2 of h lines each. Chroma of a format
with half the chroma columns is built where it is co-sited. -/
def adaptive (setup tables w h : Nat) (top : Bool) (half : Bool) (f0 f1 f2 : Nat → Line3) : Prov :=
  let line (y : Nat) : Line3 :=
    let k := y / 2
    if (y % 2 == 0) == top then f0 k
    else
      let intra := vertical setup tables (2 * h) (fieldProv w h top f0) y
      let weave := f1 k
      let mixed := (List.range 3).map fun c => (List.range w).map fun x =>
        let m := motion h f0 f2 k x
        let a := nth (nth weave c []) x 0
        let b := nth (nth intra c []) x 0
        let lo := cvMotionLow setup
        let hi := cvMotionHigh setup
        if m ≤ lo then a else if hi ≤ m then b
        else clip16 (roundTo ((a : Int) * ((hi - m : Nat) : Int) + (b : Int) * ((m - lo : Nat) : Int)) (hi - lo))
      if half then (nth mixed 0 []) :: ((mixed.drop 1).map fun c => upsample w (every 2 0 c)) else mixed
  ⟨w, 2 * h, 0, line⟩

/-! Stage 4: blend (R162). -/

def blendLines (w : Nat) (a b : Line3) : Line3 :=
  (a.zip b).map fun p => (p.1.zip p.2).map fun q => (q.1 * (64 - w) + q.2 * w + 32) / 64

/-- Two sources blended; fields of unlike parity are first brought to frames. -/
def blendProv (setup tables w : Nat) (a b : Prov) : Prov :=
  if a.quarter = b.quarter then ⟨a.width, a.height, a.quarter, fun y => blendLines w (a.line y) (b.line y)⟩
  else
    let full (p : Prov) (y : Nat) : Line3 := vertical setup tables (2 * p.height) p y
    ⟨a.width, 2 * a.height, 0, fun y => blendLines w (full a y) (full b y)⟩

/-- The columns and lines of a tile. -/
def tileProv (t : Nat) (p : Prov) : Prov :=
  let field : Nat := if p.quarter = 0 then 1 else 2
  ⟨tW t, tH t / field, p.quarter, fun y => (p.line (y + tY t / field)).map fun c => (c.drop (tX t)).take (tW t)⟩

/-! Stages 6 to 12: colour (R141 to R145). A pixel is three values of 16 bits. -/

abbrev Px := Nat × Nat × Nat

def pxMap (f : Nat → Nat → Nat) (p : Px) : Px := (f 0 p.1, f 1 p.2.1, f 2 p.2.2)

/-- The range is narrow: by the setup, or by encoding (R141). -/
def narrowRange (code encoding : Nat) : Bool := code == 2 || (code == 0 && encoding == 1)

/-- A narrow-range code of 8 bits at d bits, as 16 bits. -/
def narrow16 (d v : Nat) : Nat := norm16 d (v * 2 ^ (d - 8))

/-- Three rows of a matrix with 13 fraction bits on a pixel. -/
def matrixPx (m : Nat → Nat → Int) (a b c : Int) (row : Nat) : Int :=
  roundTo (m row 0 * a + m row 1 * b + m row 2 * c) (2 ^ 13)

/-- Stage 6: to R'G'B' full range. -/
def decodePx (f : Fmt) (narrow : Bool) (p : Px) : Px :=
  let d := depthBits f.depth
  let lo : Int := (narrow16 d 16 : Nat)
  let span (hi : Nat) : Nat := narrow16 d hi - narrow16 d 16
  let luma (v : Nat) : Int := if narrow then roundTo (((v : Int) - lo) * 65535) (span 235) else (v : Int)
  if f.encoding = 0 then (clip16 (luma p.1), clip16 (luma p.2.1), clip16 (luma p.2.2))
  else
    let mid : Int := (narrow16 d 128 : Nat)
    let diff (v : Nat) : Int := if narrow then roundTo (((v : Int) - mid) * 65535) (span 240) else (v : Int) - mid
    let row := matrixPx (Config.matrixTap f.primaries) (luma p.1) (diff p.2.1) (diff p.2.2)
    (clip16 (row 0), clip16 (row 1), clip16 (row 2))

/-- Stage 12: to the encoding and range of the destination. -/
def encodePx (f : Fmt) (narrow : Bool) (p : Px) : Px :=
  let d := depthBits f.depth
  let lo : Int := (narrow16 d 16 : Nat)
  let span (hi : Nat) : Int := ((narrow16 d hi - narrow16 d 16 : Nat) : Int)
  let luma (v : Int) : Nat := clip16 (if narrow then lo + roundTo (v * span 235) 65535 else v)
  if f.encoding = 0 then (luma (p.1 : Nat), luma (p.2.1 : Nat), luma (p.2.2 : Nat))
  else
    let mid : Int := (narrow16 d 128 : Nat)
    let diff (v : Int) : Nat := clip16 (mid + if narrow then roundTo (v * span 240) 65535 else v)
    let row := matrixPx (Config.matrixTap (2 + f.primaries)) (p.1 : Nat) (p.2.1 : Nat) (p.2.2 : Nat)
    (luma (row 0), diff (row 1), diff (row 2))

/-- Entry i of an identity LUT (log entry 10). -/
def lutCode (i : Nat) : Nat := (2 * i * 65535 + 1023) / 2046

/-- A LUT at a 16-bit input (R143). -/
def lutAt (e : Nat → Nat) (x : Nat) : Nat :=
  let i := x * 1023 / 65535
  let r := x * 1023 % 65535
  if r = 0 then e i
  else clip16 (roundTo (((e i : Nat) : Int) * 65535 + (r : Int) * (((e (i + 1) : Nat) : Int) - ((e i : Nat) : Int))) 65535)

/-! Light (R135, R142). A curve is inverted exactly: the code is the greatest whose lower half step still lies at or below the light.
A light l counts 2^-32 of 10,000 cd/m², a place n of a code 44,694,870 parts of the full one: 341 to a half step of a 16-bit code,
43,690 to an entry of a LUT. -/

/-- The greatest number of n bits for which p holds, when it holds up to it; 0 when for none. -/
def lastCode (p : Nat → Bool) : Nat → Nat → Nat
  | 0, c => c
  | n + 1, c => lastCode p n (if p (c + 2 ^ n) then c + 2 ^ n else c)

/-- The 16-bit code of a light from the test that a place of the code lies at or below it. -/
def codeOf (below : Nat → Bool) : Nat := lastCode (fun c => below (341 * (2 * c - 1))) 16 0

/-- The PQ code of a light, from the test that a light lies at or below it. -/
def pqCodeOf (below : Nat → Bool) : Nat := codeOf fun n => below (Config.pqLight n)

/-- Stage 8: linear light, 65,535 for 10,000 cd/m². -/
def eotf (x : Nat) : Nat := min 65535 ((2 * Config.pqLight (682 * x) * 65535 + 2 ^ 32) / 2 ^ 33)

/-- Stage 10 of a clipped light. -/
def inverseEotf (v : Nat) : Nat := pqCodeOf fun l => decide (l * 65535 ≤ v * 2 ^ 32)

/-- Stage 9: one row of the matrix with 13 fraction bits, its offset in 2^-15 of 10,000 cd/m² (R144). -/
def lightRow (m : Nat → Nat → Int) (a b c row : Nat) : Nat :=
  clip16 (roundTo (4 * (m row 0 * (a : Int) + m row 1 * (b : Int) + m row 2 * (c : Int)) + m row 3 * 65535) (2 ^ 15))

/-- A LUT of three components, or none for the identity, on a pixel. -/
def lutPx (e : Option (Nat → Nat → Nat)) (p : Px) : Px :=
  match e with
  | some e => pxMap (fun c v => lutAt (e c) v) p
  | none => p

/-- Stages 7 to 11 with given LUTs and matrix (R144). -/
def lightPath (inLut outLut : Option (Nat → Nat → Nat)) (m : Nat → Nat → Int) (p : Px) : Px :=
  let q := lutPx inLut p
  let out (row : Nat) : Nat := inverseEotf (lightRow m (eotf q.1) (eotf q.2.1) (eotf q.2.2) row)
  lutPx outLut (out 0, out 1, out 2)

def identityMatrix (row col : Nat) : Int := if row = col then 0x2000 else 0

/-- Entry i of the SDR input LUT: W × (i / 1,023)^2.4 as a PQ code. -/
def sdrIn (w i : Nat) : Nat := pqCodeOf fun l => decide ((l * 10000) ^ 5 * 1023 ^ 12 ≤ i ^ 12 * (2 ^ 32 * w) ^ 5)

/-- Entry i of the HLG input LUT: H × (scene light)^1.2 as a PQ code. -/
def hlgIn (h i : Nat) : Nat :=
  pqCodeOf fun l => decide ((l * 10000) ^ 5 * 2 ^ 192 ≤ Config.hlgScene (43690 * i) ^ 6 * (2 ^ 32 * h) ^ 5)

/-- The SDR code of a light of num / den of W: the power 5 / 12. -/
def sdrCode (num den : Nat) : Nat := lastCode (fun c => decide ((2 * c - 1) ^ 12 * den ^ 5 ≤ num ^ 5 * 131070 ^ 12)) 16 0

/-- The tone map of R142 and the inverse SDR curve on a light, W and H in cd/m². A light below 0 has code 0; where H is the knee itself the
formula divides by 0 and the value is free (log entry 60). -/
def toneCode (w h l : Nat) : Nat :=
  let x : Int := ((l * 100000 : Nat) : Int)
  let knee : Int := ((8 * w * 2 ^ 32 : Nat) : Int)
  let span : Int := ((10 * h * 2 ^ 32 : Nat) : Int) - knee
  let white : Int := ((10 * w * 2 ^ 32 : Nat) : Int)
  if x ≤ knee then sdrCode (l * 100000) (10 * w * 2 ^ 32)
  else if span = 0 then Config.toneAtKnee w l % 65536
  else
    let num := (knee * span + ((2 * w * 2 ^ 32 : Nat) : Int) * (x - knee)) * span
    let den := white * (span * span)
    sdrCode (max 0 (min den num)).toNat den.toNat

/-- Entry i of an SDR output LUT for light that came as SDR, and as PQ or HLG. -/
def sdrOut (fromSdr : Bool) (w h i : Nat) : Nat :=
  let l := Config.pqLight (43690 * i)
  if fromSdr then sdrCode (min (l * 10000) (w * 2 ^ 32)) (w * 2 ^ 32) else toneCode w h l

/-- Entry i of the HLG output LUT. -/
def hlgOut (h i : Nat) : Nat :=
  let l := Config.pqLight (43690 * i)
  codeOf fun n => decide (Config.hlgScene n ^ 6 * (2 ^ 32 * h) ^ 5 ≤ (l * 10000) ^ 5 * 2 ^ 192)

/-- The LUT of an AUTO input: transfer, SDR_WHITE, HDR_PEAK. -/
def autoIn (transfer w h : Nat) : Option (Nat → Nat → Nat) :=
  match transfer with
  | 1 => none
  | 0 => some fun _ => sdrIn w
  | _ => some fun _ => hlgIn h

/-- The LUT of an AUTO output. -/
def autoOut (from_ transfer w h : Nat) : Option (Nat → Nat → Nat) :=
  match transfer with
  | 1 => none
  | 0 => some fun _ => sdrOut (from_ == 0) w h
  | _ => some fun _ => hlgOut h

/-- Stages 7 to 11 of a setup (R142, R145). -/
def colourPx (setup tables : Nat) (a b : Fmt) (p : Px) : Px :=
  let w := cvSdrWhite setup
  let h := cvHdrPeak setup
  match cvColourMode setup with
  | 2 => p
  | 1 =>
    let same := (List.range 3).all fun r => (List.range 4).all fun c => ctMatrix tables r c == identityMatrix r c
    let flat (t : Nat → Nat → Nat) : Bool := (List.range 3).all fun c => (List.range 1024).all fun i => t c i == lutCode i
    let lut (t : Nat → Nat → Nat) : Option (Nat → Nat → Nat) := if flat t then none else some t
    if same && flat (ctInLut tables) && flat (ctOutLut tables) then p
    else lightPath (lut (ctInLut tables)) (lut (ctOutLut tables)) (ctMatrix tables) p
  | _ =>
    if a.primaries = b.primaries ∧ a.transfer = b.transfer then p
    else
      let m := if a.primaries = b.primaries then identityMatrix
        else fun r c => if c = 3 then 0 else Config.matrixTap (if a.primaries = 0 then 4 else 5) r c
      lightPath (autoIn a.transfer w h) (autoOut a.transfer b.transfer w h) m p

/-- Stages 6 to 12. With all five properties shared, AUTO is exact (R145). -/
def convertPx (setup tables : Nat) (a b : Fmt) (p : Px) : Px :=
  let nIn := narrowRange (cvInRange setup) a.encoding
  let nOut := narrowRange (cvOutRange setup) b.encoding
  if cvColourMode setup = 0 ∧ a.primaries = b.primaries ∧ a.transfer = b.transfer ∧ a.encoding = b.encoding ∧
      a.depth = b.depth ∧ nIn = nOut then p
  else encodePx b nOut (colourPx setup tables a b (decodePx a nIn p))

/-- A line of components as pixels. -/
def toPixels (l : Line3) : List Px :=
  (List.range (nth l 0 []).length).map fun x => (nth (nth l 0 []) x 0, nth (nth l 1 []) x 0, nth (nth l 2 []) x 0)

/-- Line y of a destination through stages 5 to 12. -/
def convertLine (setup tables : Nat) (a b : Fmt) (wOut hOut : Nat) (p : Prov) (y : Nat) : List Px :=
  (toPixels (scaled setup tables wOut hOut p y)).map (convertPx setup tables a b)

/-! Stages 13 and 14. -/

/-- Stage 14 (R147): a value at a column and line of the destination. -/
def quantiseAt (d : Nat) (dither : Bool) (x y v : Nat) : Nat :=
  if dither then min (2 ^ d - 1) ((v * (2 ^ d - 1) + Config.ditherThreshold (x % 4) (y % 4)) / 65535)
  else (2 * v * (2 ^ d - 1) + 65535) / 131070

/-- Horizontal downsampling (R146). -/
def downsample (c : List Nat) : List Nat :=
  (List.range (c.length / 2)).map fun (k : Nat) =>
    let a (i : Int) : Int := ((atCol c (2 * (k : Int) + i) : Nat) : Int)
    clip16 (roundTo (a (-1) + 2 * a 0 + a 1) 4)

/-- The samples of line y of a destination from its line of pixels and, for 4:2:0, the pixels of its pair of lines. -/
def finishLine (f : Fmt) (dither : Bool) (y : Nat) (own : List Px) (pair : List Px × List Px) : List Nat :=
  let d := depthBits f.depth
  let q (c : List Nat) : List Nat := (List.range c.length).map fun x => quantiseAt d dither x y (nth c x 0)
  let pick (i : Nat) (l : List Px) : List Nat := l.map fun p => if i = 0 then p.1 else if i = 1 then p.2.1 else p.2.2
  match f.chroma with
  | 0 => fromComponents 0 [q (pick 0 own), q (pick 1 own), q (pick 2 own)]
  | 1 => fromComponents 1 [q (pick 0 own), q (downsample (pick 1 own)), q (downsample (pick 2 own))]
  | _ =>
    let i := 1 + y % 2
    let a := downsample (pick i pair.1)
    let b := downsample (pick i pair.2)
    let c := (List.range a.length).map fun x => clip16 (roundTo (((nth a x 0 + nth b x 0 : Nat)) : Int) 2)
    fromComponents 2 [q (pick 0 own), q c]

/-! Engines: 12 bits per component (R250 to R252). -/

/-- The fetch path (R251): to R'G'B' of 12 bits. -/
def fetchPx (f : Fmt) (p : Px) : Px :=
  pxMap (fun _ v => v / 16) (decodePx f (narrowRange 0 f.encoding) p)

/-- The weight and the blend of R252. -/
def blendWeight (pixel layer : Nat) : Nat := (pixel * layer + 127) / 255
def blendOver (a : Nat) (s d : Px) : Px :=
  let one (x y : Nat) : Nat := (x * a + y * (255 - a) + 127) / 255
  (one s.1 d.1, one s.2.1 d.2.1, one s.2.2 d.2.2)

/-- A 30-bit colour at 12 bits. -/
def colour12 (c : Nat) : Px := (ten12 (fld c 29 20), ten12 (fld c 19 10), ten12 (fld c 9 0))

/-- Stage 5 of one pixel: a working pixel of 12 bits to 16 bits in the descriptor's encoding. -/
def stage5 (d : Fmt) (p : Px) : Px := encodePx d (narrowRange 0 d.encoding) (pxMap (fun _ v => norm16 12 v) p)

/-- A pixel of an asset at 12 bits in a working format (R270). -/
def assetPx (setup : Nat) (p : Px) : Px :=
  pxMap (fun _ v => quantiseAt 12 false 0 0 v)
    (convertPx (entryDefault (Reg.convSetup 0)) 0 ⟨0, 0, 0, 0, 0⟩ (workFmt setup) (pxMap (fun _ v => norm16 8 v) p))

/-- Column x and line y of an asset: its pixel and its alpha; outside it nothing shows. -/
def assetAt (a : Asset) (x y : Nat) : Px × Nat :=
  if a.width ≤ x ∨ a.height ≤ y then ((0, 0, 0), 0)
  else
    let i := y * a.width + x
    let at_ : Nat := if a.format = 0 then 4 * i else 4 * nth a.payload (1024 + i) 0
    ((nth a.payload at_ 0, nth a.payload (at_ + 1) 0, nth a.payload (at_ + 2) 0), nth a.payload (at_ + 3) 0)

end Sys2Proof.Machine
end

