-- ==== Sys2Proof/Machine/Select.lean ====
section
/-! DEFINITION. Frame selection on stored routes (R78, R86, R161 to R167), the tokens of what is shown (R190), and stored and
arriving pictures as sources of lines (R146 to R150, R162). -/

namespace Sys2Proof.Machine

/-! Stored lines. -/

/-- Stored bytes as samples (R183). -/
def samplesOf : Nat → List Nat → List Nat
  | 2, a :: b :: r => (a + 256 * b) :: samplesOf 2 r
  | 1, l => l
  | _, _ => []

/-- The blocks of a block row of a buffer, as its engine decodes them (R224); none for an invalid one (R233). -/
def storedBlocks (s : State) (key row : Nat) : List (Option (List Nat)) :=
  let r := s.poolRec (handlePool key)
  let size := s.blockBytes (pComp r)
  (List.range (blocksPerRow (pWidth r) (pChroma r))).map fun q =>
    decodeBlock (depthBits (pDepth r)) (s.readBytes (bufAddr key (row * s.rowBytes r + q * size)) size)

/-- Rows of blocks read back, group by group: an invalid block is concealed from the previous complete frame of the pool (R233). -/
def bufferRows (s : State) (key group : Nat) : List (List Nat) :=
  let r := s.poolRec (handlePool key)
  let g := rowGroup (pChroma r)
  blocksToLines (pWidth r) (pChroma r) ((List.range g).map fun i =>
    let row := group * g + i
    let bs := storedBlocks s key row
    (List.range bs.length).map fun q => fillBlock [] row q ((nth bs q none).or
      ((previousFrame s key).bind fun p => nth (storedBlocks s p row) q none)))

/-- A frame of a compressed pool has been read: its invalid blocks are counted and reported (R233, R245). -/
def bufDecoded (key : Nat) (s : State) : State :=
  let r := s.poolRec (handlePool key)
  if 16 ≤ pComp r then s
  else
    let n := sumOf ((List.range ((s.buf key).lines / 2)).map fun row => ((storedBlocks s key row).filter (·.isNone)).length)
    s.whenever (n != 0) (noteInvalid (pComp r) n)

/-- Line y of a buffer as it lies there, the first field of an interlaced frame first. -/
def bufferLine (s : State) (key y : Nat) : List Nat :=
  let r := s.poolRec (handlePool key)
  if pComp r < 16 then
    let g := 2 * rowGroup (pChroma r)
    nth (bufferRows s key (y / g)) (y % g) []
  else
    let n := storeBytes (pDepth r)
    samplesOf n (s.readBytes (bufAddr key (y * s.poolLine r)) (lineCount (pWidth r) (pChroma r) * n))

/-! Sources of lines. -/

/-- A progressive picture from its lines of samples. -/
def pictureProv (w h : Nat) (f : Fmt) (line : Nat → List Nat) : Prov := ⟨w, h, 0, line444 w h f.chroma f.depth line⟩

/-- Field i of an interlaced picture from the lines as they are stored. -/
def fieldLines (w h : Nat) (f : Fmt) (i : Nat) (line : Nat → List Nat) : Nat → Line3 :=
  line444 w (h / 2) f.chroma f.depth fun y => line (i * (h / 2) + y)

/-- The top field is the first one unless BOTTOM_FIRST is set (R149). -/
def topField (setup i : Nat) : Bool := (i == 0) != cvBottomFirst setup

/-- A frame of an interlaced stream that no unit deinterlaces: its fields woven. -/
def wovenProv (w h : Nat) (f : Fmt) (setup : Nat) (line : Nat → List Nat) : Prov :=
  ⟨w, h, 0, line444 w h f.chroma f.depth fun y => line ((if topField setup 0 then y % 2 else 1 - y % 2) * (h / 2) + y / 2)⟩

/-- A frame shown from the store (R149, R150): `units` says whether units deinterlace it; `hurt`: lines that were dropped on the way
from the store, as those that conceal them (R127); `first`: the field that is the first since the route's take. -/
def storedProv (s : State) (units : Bool) (setup tables : Nat) (first : Option (Nat × Time)) (hurt : List (Time × Nat × List Nat)) (key start : Nat) : Prov :=
  let r := s.poolRec (handlePool key)
  let w := pWidth r
  let h := pHeight r
  let f := fmtOf (pColour r)
  let b := s.buf key
  let interlaced := pStream r && dInterlaced (s.ins b.stream).desc
  let lines (k : Nat) : Nat → List Nat := fun y =>
    match hurt.find? fun h => k == key && h.1 == b.start && h.2.1 == y with
    | some h => h.2.2
    | none => bufferLine s k y
  if !interlaced then pictureProv w h f (lines key)
  else if !units then wovenProv w h f setup (lines key)
  else
    let i := if b.second ≠ 0 ∧ start = b.second then 1 else 0
    let intra := fieldProv w (h / 2) (topField setup i) (fieldLines w h f i (lines key))
    if cvDeint setup = 1 ∨ b.first ∨ first = some (key, start) then intra
    else match previousFrame s key with
      | none => intra
      | some p =>
        let f1 := if i = 1 then fieldLines w h f 0 (lines key) else fieldLines w h f 1 (lines p)
        adaptive setup tables w (h / 2) (topField setup i) (f.chroma != 0) (fieldLines w h f i (lines key)) f1
          (fieldLines w h f i (lines p))

/-- What a stored route shows, as a source of lines (R162). -/
def shownProv (s : State) (route : Route) (setup tables tile : Nat) (x : Shown) : Prov :=
  let units := rGang route.image != 0
  let one (key start : Nat) : Prov := storedProv s units setup tables route.intra route.hurt key start
  let p := match x.mix with
    | some (b, at_, w) => blendProv setup tables w (one x.buf x.start) (one b at_)
    | none => one x.buf x.start
  if tile = 0 then p else tileProv tile p

/-- The lines of a stream that have arrived, of the frame under way or of the newest complete one. -/
def arrivedLines (i : InStream) (now : Bool) : List (List Nat) :=
  if now then match i.frame with
    | some f => f.lines
    | none => i.last
  else i.last

/-- A stream as it arrives (R149: intra-field). The field under way is the one that is shown. -/
def liveProv (s : State) (image setup tile k : Nat) (now : Bool) : Prov :=
  let i := s.ins k
  let d := i.desc
  let ls := arrivedLines i now
  let w := dWidth d
  let h := dHeight d
  let f := fmtOf (dColour d)
  let line (y : Nat) : List Nat := nth ls y []
  let second : Nat := if now then (match i.frame with
    | some f => if f.second then 1 else 0
    | none => 1) else 1
  let p := if !dInterlaced d then pictureProv w h f line
    else if rGang image = 0 then wovenProv w h f setup line
    else fieldProv w (h / 2) (topField setup second) (fieldLines w h f second line)
  if tile = 0 then p else tileProv tile p

/-- The state as a route sees its stream: lines dropped on the way stand concealed (R127). -/
def hurtView (s : State) (r k : Nat) : State :=
  let hurt := (s.route r).hurt
  if hurt = [] then s
  else
    let i := s.ins k
    let fix (start : Time) (l : List (List Nat)) : List (List Nat) :=
      (hurt.filter fun h => h.1 == start).foldl (fun l h => l.set h.2.1 h.2.2) l
    let bad (start : Time) : List Nat := (hurt.filter fun h => h.1 == start).map (·.2.1)
    let whole := if i.frame.isSome then i.prevStart else i.lastStart
    s.setIns k { i with
      frame := i.frame.map fun f => { f with lines := fix i.lastStart f.lines, bad := f.bad ++ bad i.lastStart }
      last := fix whole i.last, lastBad := i.lastBad ++ bad whole }

/-! Selection (R86, R161). -/

/-- A record's units deinterlace its stream: each field is a frame (R148). -/
def byField (s : State) (r k : Nat) : Bool := rGang r != 0 && dInterlaced (s.ins k).desc

/-- The first field of the frame that is being written, once it is complete. -/
def firstWritten (s : State) (r k : Nat) : List (Nat × Time × Time) :=
  match (s.ins k).frame.bind (·.buf) with
  | some b =>
    let v := s.buf b
    if byField s r k && v.mode == .writing && v.firstDone != 0 && !(rAuthPolicy r == 0 && tagBad r v) then [(b, v.start, v.firstDone)] else []
  | none => []

/-- Frames, or fields where units deinterlace, that a record may select, newest first: buffer, start, completion. -/
def choices (s : State) (r : Nat) : List (Nat × Time × Time) :=
  match s.srcStream (rSrcType r) (rSrc r) with
  | none => []
  | some k => firstWritten s r k ++ (storedFrames s r).flatMap fun b =>
      let f := s.buf b
      if byField s r k && f.second != 0 then [(b, f.second, f.done), (b, f.start, f.firstDone)] else [(b, f.start, f.done)]

/-- The frame, or the field where units deinterlace, that is being written for a stream: buffer, start, lines written in its field. -/
def writing (s : State) (r k : Nat) : Option (Nat × Time × Nat) :=
  match (s.ins k).frame with
  | some f =>
    match f.buf with
    | some b =>
      let v := s.buf b
      if v.mode ≠ .writing then none
      else if f.second then some (b, if byField s r k then v.second else v.start, v.lines - fieldHeight (s.ins k).desc)
      else if byField s r k && v.firstDone != 0 then none else some (b, v.start, v.lines)
    | none => none
  | none => none

/-- The measured input frame or field period (R161). -/
def framePeriod (i : InStream) : Nat := if dInterlaced i.desc then i.period / 2 else i.period

/-- A tile's offset and the lines that a record reads of its stream, in the lines of a field for an interlaced one (R158, R164). -/
def readWindow (s : State) (r : Nat) : Nat × Nat :=
  let h := (s.srcSize (rSrcType r) (rSrc r)).2
  let y := if rSrcType r = 1 then tY (s.tileRec (fld (rSrc r) 9 0)) else 0
  match s.srcStream (rSrcType r) (rSrc r) with
  | some k => if dInterlaced (s.ins k).desc then (y / 2, h / 2) else (y, h)
  | none => (y, h)

/-- The quarters of a line by which a field that units deinterlace lies off (R149). -/
def readQuarter (s : State) (r : Nat) (second : Bool) : Int :=
  match s.srcStream (rSrcType r) (rSrc r) with
  | some k => if !byField s r k then 0 else if topField (routeSetup s r) (ofBool second) then 1 else -1
  | none => 0

/-- The last input line that output line j of a record needs of a field or frame (R164). -/
def needLine (s : State) (r : Nat) (second : Bool) (j hOut : Nat) : Nat :=
  let w := readWindow s r
  w.1 + windowEnd w.2 hOut j (rGang r != 0) (readQuarter s r second)

/-- Lines of the field or frame that is read (R165). -/
def sourceLines (s : State) (k : Nat) : Nat := fieldHeight (s.ins k).desc

/-- The lines of a frame, the first field's first, that output line j of a record reads. -/
def readLines (s : State) (r : Nat) (second : Bool) (j hOut : Nat) : List Nat :=
  match s.srcStream (rSrcType r) (rSrc r) with
  | some k =>
    let e := needLine s r second j hOut
    if rGang r ≠ 0 then
      (List.range 6).map fun i => (e - i) + if second && dInterlaced (s.ins k).desc then sourceLines s k else 0
    else if dInterlaced (s.ins k).desc then
      let y := j + 2 * (readWindow s r).1
      [(if topField (routeSetup s r) 0 then y % 2 else 1 - y % 2) * sourceLines s k + y / 2]
    else [e]
  | none => [j]

/-- A choice is the second field of its frame. -/
def showsSecond (s : State) (c : Shown) : Bool := (s.buf c.buf).second != 0 && c.start == (s.buf c.buf).second

/-- Lines of the field or frame of a choice that were written by a DT (R165). -/
def writtenBy (s : State) (k : Nat) (c : Shown) (by_ : Time) : Nat :=
  let v := s.buf c.buf
  let n := sourceLines s k
  if v.mode ≠ .writing then n
  else
    let done := (v.times.filter fun t => decide (t ≤ by_)).length
    if showsSecond s c then done - n else min done n

/-- Lines that must be written before output line j of a choice is read (R165). -/
def gutterLines (s : State) (r k : Nat) (second : Bool) (j hOut : Nat) : Nat :=
  min (needLine s r second j hOut + 1 + rGutter r) (sourceLines s k)

/-- The read deadline of line j of a destination whose output frame starts at t (R166, R258). -/
def readDeadline (s : State) (r t j : Nat) : Nat :=
  if rToLayer r then
    let plan := s.outTables (rEngine r)
    let l := if rDstType r = 1 then layerRec plan.layers (rLayer r) else spineRec plan.spine (rLayer r)
    t + raLines plan.raster (lrY l + j) - raLines plan.raster 2
  else
    let d := s.outDesc (fld (rDst r) 7 0)
    t + (j + 1) * (100 * sec) / max 1 (dTotal d * dRate d)

/-- The projection test of R163 for the frame being written. -/
def projected (s : State) (r k t hOut : Nat) (second : Bool) (written : Nat) : Bool :=
  let i := s.ins k
  [0, hOut - 1].all fun j =>
    let line := min (needLine s r second j hOut + rGutter r) (sourceLines s k - 1)
    decide (s.dt + divUp ((line + 1 - written) * i.period) (max 1 (dTotal i.desc)) ≤ readDeadline s r t j)

/-- The weight of R162, halves rounded up. -/
def mixWeight (t a b : Nat) : Nat := min 64 ((2 * 64 * (t - a) + (b - a)) / (2 * max 1 (b - a)))

/-- The line of the field or frame shown that a stored route brings next to its destination (R164): of the line composed or sent next. -/
def nextSource (s : State) (r : Nat) (second : Bool) : Option Nat :=
  let x := (s.route r).image
  if rToLayer x then
    let n := rEngine x
    let t := s.outTables n
    let l := if rDstType x = 1 then layerRec t.layers (rLayer x) else spineRec t.spine (rLayer x)
    let j := (s.outp n).nextLine - lrY l
    if lrH l ≤ j then none else (readLines s x second j (lrH l)).head?
  else if rDstType x = 0 then
    let k := fld (rDst x) 7 0
    let j := (s.send k).next
    let h := dHeight (s.outDesc k)
    if h ≤ j then none else (readLines s x second j h).head?
  else none

/-- That line was dropped on the way from the store: the previous frame's stands in its place (R46, R127). -/
def storedHurt (r : Nat) (s : State) : State :=
  match (s.route r).shown with
  | none => s
  | some c =>
    match nextSource s r (showsSecond s c) with
    | none => s
    | some y =>
      let b := s.buf c.buf
      let line := match previousFrame s c.buf with
        | some p => bufferLine s p y
        | none => (List.range (bufferLine s c.buf y).length).map (Config.noFrame y)
      s.modRoute r fun v => { v with hurt := (v.hurt.filter fun h => h.1 == b.start) ++ [(b.start, y, line)] }

/-- What a record shows at an output frame start t, none when no frame qualifies (R161). -/
def chooseFrame (s : State) (r t hOut : Nat) : Option Shown :=
  match s.srcStream (rSrcType r) (rSrc r) with
  | none => none
  | some k =>
    let all := choices s r
    let w := (writing s r k).filter fun x => !(rAuthPolicy r == 0 && tagBad r (s.buf x.1))
    let q := all.filter fun f => decide (t - f.2.1 ≤ rMaxAge r * ms)
    let newest (l : List (Nat × Time × Time)) : Option Shown := l.head?.map fun f => { buf := f.1, start := f.2.1 }
    let guard := cvGuard (routeSetup s r)
    if rChase r then
      match w with
      | some f => some { buf := f.1, start := f.2.1, chase := true }
      | none => newest all
    else match rFrc r with
      | 1 => newest (q.filter fun f => decide (f.2.2 + guard ≤ t))
      | 2 =>
        let tt := t - (2 * framePeriod (s.ins k) + guard)
        let after := all.takeWhile fun f => decide (tt < f.2.1)
        match all.find? fun f => decide (f.2.1 ≤ tt), after.getLast? with
        | some a, some b =>
          if q.contains a then
            some { buf := a.1, start := a.2.1, mix := some (b.1, b.2.1, mixWeight tt a.2.1 b.2.1) }
          else newest q
        | _, _ => newest q
      | 3 =>
        match w with
        | some f =>
          if projected s r k t hOut (f.2.1 == (s.buf f.1).second) f.2.2 then some { buf := f.1, start := f.2.1, chase := true } else newest q
        | none => newest q
      | _ => newest q

/-! What is shown, with its tokens. -/

/-- The buffers that a choice reads. -/
def shownBufs (x : Shown) : List Nat :=
  x.buf :: (x.mix.map fun (m : Nat × Nat × Nat) => m.1).toList ++ x.alpha.toList

/-- The last line of what a route shows has been read. -/
def shownRead (r : Nat) (s : State) : State :=
  rtReadDone r (match (s.route r).shown with
    | some c => s.each (shownBufs c) fun s b => bufDecoded b s
    | none => s)

/-- A route shows a choice, or nothing, from now on. What it read before is given back first, so that queued writes find their moment
(R192). -/
def rtShow (r : Nat) (x : Option Shown) (s : State) : State :=
  let who := Reader.dest (rDestKey (s.route r).image)
  let s := rtDropShown r s
  let s := match x with
    | some x => s.each (shownBufs x) fun s b => takeToken b who s
    | none => s
  s.modRoute r fun v => { v with shown := x }

/-- The units of a stored route begin to read its frame: tokens on it, and on the frame before it where they deinterlace from three
fields (R190). -/
def unitReads (r : Nat) (s : State) : State :=
  let x := s.route r
  match x.shown with
  | some c =>
    let adaptive : Bool := match s.srcStream (rSrcType x.image) (rSrc x.image) with
      | some k => byField s x.image k && cvDeint (routeSetup s x.image) != 1
      | none => false
    let bufs := c.buf :: (c.mix.map fun (m : Nat × Nat × Nat) => m.1).toList ++ if adaptive then (previousFrame s c.buf).toList else []
    s.each x.units fun s u => s.each bufs fun s b => takeToken b (.conv u) s
  | none => s

/-- The alpha plane of a layer record, when it is allocated with the generation named (R255, R263). -/
def alphaPlane (s : State) (l : Nat) : Option Nat :=
  let key := lrAlphaHandle l / 256
  if lrAlphaSrc l = 3 ∧ s.bufUsable key (lrAlphaHandle l % 256) then some key else none

/-- A buffer source as a choice. -/
def bufferShown (s : State) (src : Nat) : Shown := { buf := src % 2 ^ 24, start := (s.buf (src % 2 ^ 24)).start }

/-- A stored route shows a frame from its output frame start t on: `l` is its layer record. -/
def showFrame (r t l : Nat) (c : Shown) (s : State) : State :=
  rtDropFirst r (rtShow r (some { c with alpha := alphaPlane s l })
    (s.modRoute r fun v => { v with
      slipped := false, age := t - c.start
      fresh := false, intra := if v.fresh then some (c.buf, c.start) else v.intra }))

/-- The frame in a buffer that a take selected (R86), as a choice: its second field, where fields are frames of their own. -/
def firstShown (s : State) (image b : Nat) : Shown :=
  let f := s.buf b
  let fields := ((s.srcStream (rSrcType image) (rSrc image)).map (byField s image)).getD false
  { buf := b, start := if !fields || f.second = 0 then f.start else f.second }

/-- An active route finds no qualifying frame at its output frame start t. With STALE_POLICY 1 an ACTIVE route goes to its fallback, and
to COLOUR when none is usable (R69; log entry 49); any other keeps what it shows and counts one. -/
def findsNone (r t : Nat) (s : State) : State :=
  let x := s.route r
  if x.mode = .active && rStaleFallback x.image && !rChase x.image then
    rtFall r 5 (rtShow r none ((s.count Reg.rtOrphanTotal 1).raise Ev.routeOrphaned [r, 5]))
  else
    let kept := (x.shown.filter (shownIntact s)).map fun c => { c with chase := false }
    (rtDropFirst r (rtShow r kept s)).modRoute r fun v => { v with
      stale := v.stale + 1, slipped := false
      age := match v.shown with
        | some c => t - c.start
        | none => v.age }

/-- A stored route selects at its output frame start t: `l` is its layer record, `hOut` the lines of its destination. -/
def selectRoute (r t l hOut : Nat) (s : State) : State :=
  let x := s.route r
  let image := x.image
  match x.mode with
  | .active | .unverified =>
    if rSrcType image = 2 then showFrame r t l (bufferShown s (rSrc image)) s
    else
      match x.first.filter fun b => (s.buf b).mode == .complete && !(rAuthPolicy image == 0 && tagBad image (s.buf b)) with
      | some b => showFrame r t l (firstShown s image b) s
      | none =>
        match chooseFrame s image t hOut with
        | some c => showFrame r t l c s
        | none => findsNone r t s
  | .fallback =>
    if rFbType image = 2 then showFrame r t l (bufferShown s (rFbSrc image)) s
    else if rFbType image = 1 then
      match chooseFrame s (putFld (putFld image 250 249 0) 223 200 (rFbSrc image)) t hOut with
      | some c => showFrame r t l c s
      | none => s.modRoute r fun v => { v with stale := v.stale + 1 }
    else rtShow r none s
  | .hold => s
  | _ => rtShow r none s

/-! Chase reads (R165 to R167). -/

/-- Output line j of a chase read cannot be read by its deadline: it slips to the previous complete frame. The event carries the lead
unit, 0xFF for none, and the route (R178). -/
def chaseSlip (r : Nat) (s : State) : State :=
  let image := (s.route r).image
  let unit := ((s.route r).units.head?).getD 0xFF
  let s := s.modRoute r fun v => { v with slips := v.slips + 1, slipped := true }
  let s := match (choices s image).find? fun f => (s.buf f.1).mode != .writing with
    | some f => rtShow r (some { buf := f.1, start := f.2.1, alpha := none }) s
    | none => rtShow r none s
  if rClass image = 0 then s.raiseAs Ev.chaseSlip [unit, r] .tied else s.raise Ev.chaseSlip [unit, r]

/-- A chase read has not the lines that output line j needs at its deadline. -/
def chaseMisses (s : State) (r k j hOut : Nat) (c : Shown) (deadline : Time) : Bool :=
  let v := s.buf c.buf
  v.mode == .releasing || v.mode == .free || v.mode == .lost ||
    decide (writtenBy s k c deadline < gutterLines s (s.route r).image k (showsSecond s c) j hOut)

/-- Output line j of hOut of a chase read is due at a deadline. -/
def chaseLine (r j hOut : Nat) (deadline : Time) (s : State) : State :=
  let x := s.route r
  match x.shown, s.srcStream (rSrcType x.image) (rSrc x.image) with
  | some c, some k => if c.chase && !x.slipped && chaseMisses s r k j hOut c deadline then chaseSlip r s else s
  | _, _ => s

end Sys2Proof.Machine
end

