-- ==== Sys2Proof/Machine/Compose.lean ====
section
/-! DEFINITION. Composition (R247 to R269): what each layer of an output shows, coverage, underruns, the pixels of a line, and
what leaves as lines of an output stream (R248, R250, R389, R394). -/

namespace Sys2Proof.Machine

/-! Layers of an output: 0 to 15 engine layers, 16 to 23 Spine layers. -/

/-- The record in force of a layer; an engine whose descriptor fetch failed works with the table of the frame before
(R594). -/
def State.layerOf (s : State) (n i : Nat) : Nat :=
  if i < 16 then layerRec ((s.outp n).keptLayers.getD (s.force (Reg.outLayerTable n))) i else spineRec (s.force (Reg.outSpineTable n)) (i - 16)

/-- The route that feeds a layer. -/
def State.layerRoute (s : State) (n i : Nat) : Option Nat :=
  s.routeKeys.find? fun r =>
    let x := (s.route r).image
    rEngine x == n && (if i < 16 then rDstType x == 1 && rLayer x == i else rDstType x == 3 && rLayer x == i - 16)

/-- Valid zones in force of an output. -/
def State.zonesOf (s : State) (n : Nat) : List Nat := zones (s.force (Reg.outSpineTable n))

/-- A layer shows on line j of this frame; and it counts for the coverage of line j (R259, R261). -/
def layerShows (l : Layer) (j : Nat) : Bool :=
  match l.mode with
  | .notFed => false
  | .shown | .covered => true
  | _ => match l.offFrom with
    | some k => decide (j < k)
    | none => false

def layerCovers (l : Layer) (j : Nat) : Bool :=
  match l.mode, l.offFrom with
  | .shown, _ | .covered, _ => true
  | .notFed, _ | _, none => false
  | _, some _ => match l.uncovers with
    | some k => decide (j ≤ k)
    | none => true

/-- Line j crosses a rectangle's lines. -/
def onLine (y h j : Nat) : Bool := decide (y ≤ j ∧ j < y + h)

/-- What is left of a span once spans are cut out of it. -/
def spanLeft (lo hi : Nat) (spans : List (Nat × Nat)) : List (Nat × Nat) :=
  spans.foldl (fun rest sp => rest.flatMap fun (a : Nat × Nat) =>
    [(a.1, min a.2 sp.1), (max a.1 sp.2, a.2)].filter fun x => decide (x.1 < x.2)) [(lo, hi)]

/-- Line j of engine layer i is covered (R259). -/
def lineCovered (s : State) (n i j : Nat) : Bool :=
  let l := s.layerOf n i
  let above := (List.range 16).filter fun k =>
    let m := s.layerOf n k
    lrEnable m && decide (lrZ l < lrZ m) && lrAlphaSrc m == 0 && lrAlpha m == 0xFF && layerCovers (s.layer n k) j &&
      onLine (lrY m) (lrH m) j
  let spans := (above.map fun k => let m := s.layerOf n k; (lrX m, lrX m + lrW m)) ++
    ((s.zonesOf n).filter fun z => onLine (znY z) (znH z) j).map fun z => (znX z, znX z + znW z)
  spanLeft (lrX l) (lrX l + lrW l) spans == []

/-- No fetch is issued for line j of layer i: a rotated band only when all its lines are covered (R258, R259). -/
def lineSkipped (s : State) (n i j : Nat) : Bool :=
  let l := s.layerOf n i
  if lrRotate l % 2 = 0 then lineCovered s n i j
  else
    let first := lrY l + (j - lrY l) / 64 * 64
    (List.range (min 64 (lrY l + lrH l - first))).all fun d => lineCovered s n i (first + d)

/-- Covered lines of an engine layer. -/
def coveredLines (s : State) (n i : Nat) : Nat :=
  let l := s.layerOf n i
  ((List.range (lrH l)).filter fun d => lineSkipped s n i (lrY l + d)).length

/-- Coverage of the shown engine layers, computed anew; after an underrun on line j without the layers that are off (R259, R261). -/
def coverage (n : Nat) (after : Option Nat) (s : State) : State :=
  let s := s.each (List.range 16) fun s i =>
    let l := s.layer n i
    if l.offFrom.isSome && l.uncovers.isNone then s.setLayer n i { l with uncovers := after } else s
  let marks := (List.range 16).map fun i => (i, coveredLines s n i)
  s.each marks fun s m =>
    let l := s.layer n m.1
    match l.mode with
    | .shown | .covered =>
      let whole := decide (0 < lrH (s.layerOf n m.1) ∧ m.2 = lrH (s.layerOf n m.1))
      s.setLayer n m.1 { l with mode := if whole then .covered else .shown, covered := m.2 }
    | _ => s

/-- A layer reads a DAMAGED buffer: the one that its route shows, or its alpha plane (R199). -/
def readsDamaged (s : State) (r l : Nat) : Bool :=
  let source : Bool := match shownSource s r with
    | some (2, src) => (s.buf (src % 2 ^ 24)).damaged != []
    | _ => false
  source || (match alphaPlane s l with
    | some b => (s.buf b).damaged != []
    | none => false)

/-- FRAME_START of R263 for one layer. -/
def layerStart (n i : Nat) (s : State) : State :=
  let l := s.layerOf n i
  let old := s.layer n i
  let put (m : LayerMode) : State := s.setLayer n i { mode := m, underruns := old.underruns }
  match s.layerRoute n i with
  | none => put .notFed
  | some r =>
    let x := s.route r
    let fed : Bool := lrEnable l && (match x.mode with
      | .empty | .pending | .stopped => false
      | _ => true)
    let plane := lrAlphaSrc l != 3 || i ≥ 16 || (alphaPlane s l).isSome
    if !fed then put .notFed else if !plane || readsDamaged s r l then put .offDamaged else put .shown

/-! Pictures. -/

/-- A picture in the working format: its lines of pixels of 12 bits with their alpha. -/
abbrev Picture := Nat → List (Px × Nat)

/-- An asset as an engine uses it: the copy in its cache, else the store's (R270). -/
def State.assetOf (s : State) (n id : Nat) : Option Asset :=
  match (tget (fun _ => []) s.comp.caches n).find? fun a => a.1 == id with
  | some a => some a.2
  | none => if s.comp.missing.contains id then none else oget s.nvm.assets id

/-- ALPHA_SRC 1 (R255) of a source's R'G'B' code at 16 bits. -/
def keyAlpha (l : Nat) (p : Px) : Nat :=
  let k := lrKey l
  if p.1 / 64 = fld k 29 20 ∧ p.2.1 / 64 = fld k 19 10 ∧ p.2.2 / 64 = fld k 9 0 then 0 else 255

/-- The R'G'B' code of a source pixel that KEY is compared with: that of stage 1 of R135; of a Y'CbCr source, which has none there,
the one that stage 6 decodes (log entry 64). -/
def keyPx (f : Fmt) (p : Px) : Px := decodePx f (narrowRange 0 f.encoding) p

/-- α_p of a pixel that is not an asset's, from its source code; `plane` is the alpha plane's code. -/
def pixelAlpha (l plane : Nat) (p : Px) : Nat :=
  match lrAlphaSrc l with
  | 1 => keyAlpha l p
  | 3 => plane
  | _ => 255

/-- The source sample nearest to a position (log entry 64). -/
def nearestTap (n : Nat) (t : Int × Nat) : Nat :=
  (max 0 (min ((n - 1 : Nat) : Int) (if t.2 ≤ 32 then t.1 else t.1 + 1))).toNat

/-- The source pixels nearest to those of output line y of a layer that units feed. -/
def nearestLine (l : Nat) (p : Prov) (y : Nat) : List Px :=
  let row := toPixels (p.line (nearestTap p.height (lineAt p.height (lrH l) y p.quarter)))
  (List.range (lrW l)).map fun x => nth row (nearestTap p.width (lineAt p.width (lrW l) x 0)) (0, 0, 0)

/-- Lines of pixels made of a source of lines, through units or by the fetch path (R136, R251), each with its source code. -/
def workLine (s : State) (n image l : Nat) (f : Fmt) (p : Prov) (y : Nat) : List (Px × Px) :=
  if rGang image = 0 then (toPixels (p.line y)).map fun q => (fetchPx f q, keyPx f q)
  else
    let setup := routeSetup s image
    let row := convertLine setup (routeTables s image) f (workFmt (s.force (Reg.outCompSetup n))) (lrW l) (lrH l) p y
    let source := nearestLine l p y
    (List.range row.length).map fun x =>
      (pxMap (fun _ v => quantiseAt 12 (cvDither setup) x y v) (nth row x (0, 0, 0)), keyPx f (nth source x (0, 0, 0)))

/-- A picture of an asset under a layer record. -/
def assetPicture (s : State) (n l : Nat) (a : Asset) : Picture := fun y =>
  (List.range a.width).map fun x =>
    let p := assetAt a x y
    let px := assetPx (s.force (Reg.outCompSetup n)) p.1
    (px, match lrAlphaSrc l with
      | 1 => keyAlpha l (pxMap (fun _ v => norm16 8 v) p.1)
      | 2 => p.2
      | _ => 255)

/-- The frame under way of a stream is the one that belongs to line j of an output locked to it: its start and OFFSET lie
within half a line of the output frame's start; for a raster that runs free, whether the lines for line d of the layer have come. -/
def liveNow (s : State) (n image k j hOut : Nat) (d : Nat) : Bool :=
  let o := s.outp n
  let a := s.rasterOf n
  match (s.ins k).frame with
  | none => false
  | some f =>
    if o.raster = .locked ∧ raSyncType a = 2 ∧ raSyncId a = k then
      decide (2 * f.start + raLines a (2 * o.offsetUsed) + raLines a (2 * j) ≤ 2 * s.dt + raLines a 3)
    else decide (needLine s image f.second d hOut < f.line)

/-- The tile record in force of a route, 0 when its source is no tile. -/
def routeTile (s : State) (r : Nat) : Nat :=
  match shownSource s r with
  | some (1, _) => (s.route r).tile
  | _ => 0

/-- What layer i shows, for a line j of the output; none when nothing. -/
def layerPicture (s : State) (n i j : Nat) : Option Picture :=
  let l := s.layerOf n i
  match s.layerRoute n i with
  | none => none
  | some r =>
    let x := s.route r
    let image := x.image
    let setup := routeSetup s image
    let tables := routeTables s image
    let plane (y u : Nat) : Nat := match x.shown.bind (·.alpha) with
      | some b => nth (nth (components 2 (bufferLine s b y)) 0 []) u 0
      | none => 255
    let withAlpha (row : Nat → List (Px × Px)) : Picture := fun y =>
      let ps := row y
      (List.range ps.length).map fun u => let p := nth ps u ((0, 0, 0), (0, 0, 0)); (p.1, pixelAlpha l (plane y u) p.2)
    match x.mode with
    | .colour => some (withAlpha fun _ => List.replicate (max (lrW l) (lrH l))
        (let c := colour12 (rColour image); (c, pxMap (fun _ v => 16 * v) c)))
    | .empty | .pending | .stopped => none
    | _ =>
      match shownSource s r, x.shown with
      | some (3, src), _ => (s.assetOf n (fld src 15 0)).map (assetPicture s n l)
      | _, some c =>
        if rKind image = 2 then
          let f := fmtOf (pColour (s.poolRec (handlePool c.buf)))
          some (withAlpha (workLine s n image l f (shownProv s x setup tables (routeTile s r) c)))
        else none
      | some (t, src), none =>
        if rKind image = 2 ∨ t = 2 then none
        else match s.srcStream t src with
          | some k =>
            let now := liveNow s n image k j (lrH l) (j - lrY l)
            some (withAlpha (workLine s n image l (fmtOf (dColour (s.ins k).desc)) (liveProv (hurtView s r k) image setup (routeTile s r) k now)))
          | none => none
      | none, none => none

/-- Line y of a layer's rectangle: mirrored in source coordinates, then rotated (R256). -/
def oriented (l : Nat) (p : Picture) (y : Nat) : List (Px × Nat) :=
  let w := if lrRotate l % 2 = 0 then lrW l else lrH l
  let h := if lrRotate l % 2 = 0 then lrH l else lrW l
  let at_ (x : Nat) : Nat × Nat := match lrRotate l with
    | 0 => (x, y)
    | 1 => (y, h - 1 - x)
    | 2 => (w - 1 - x, h - 1 - y)
    | _ => (w - 1 - y, x)
  let src (x : Nat) : Nat × Nat :=
    let q := at_ x
    (if lrMirrorH l then w - 1 - q.1 else q.1, if lrMirrorV l then h - 1 - q.2 else q.2)
  let row := p (src 0).2
  (List.range (lrW l)).map fun x =>
    nth (if lrRotate l % 2 = 0 then row else p (src x).2) (src x).1 ((0, 0, 0), 0)

/-! Concealment of Spine layers (R262, R268). -/

/-- The format of the concealment store. -/
def concealFmt (setup : Nat) : Fmt := ⟨1, 0, 1, csPrimaries setup, csTransfer setup⟩

/-- A line of pixels as the concealment store keeps it, and back. -/
def concealPut (setup : Nat) (l : List Px) : List Nat := finishLine (concealFmt setup) false 0 (l.map (stage5 (concealFmt setup))) ([], [])
def concealGet (setup w : Nat) (l : List Nat) : List Px :=
  (toPixels (line444 w 1 1 0 (fun _ => l) 0)).map (fetchPx (concealFmt setup))

/-- The source lines of layer i for output line j hold a concealed one (R48). -/
def sourceConcealed (s : State) (n i j : Nat) : Bool :=
  let l := s.layerOf n i
  match s.layerRoute n i with
  | none => false
  | some r =>
    let x := s.route r
    let lines (second : Bool) : List Nat := readLines s x.image second (j - lrY l) (lrH l)
    match shownSource s r, x.shown with
    | some (3, _), _ => false
    | _, some c =>
      let b := s.buf c.buf
      (lines (showsSecond s c)).any fun y => b.bad.contains y || x.hurt.any fun h => h.1 == b.start && h.2.1 == y
    | some (t, src), none =>
      match s.srcStream t src with
      | some k =>
        let v := (hurtView s r k).ins k
        let now := liveNow s n x.image k j (lrH l) (j - lrY l)
        let bad := if now then (v.frame.map (·.bad)).getD [] else v.lastBad
        let second := !now || (v.frame.map (·.second)).getD true
        (lines second).any fun y => bad.contains y
      | none => false
    | none, none => false

/-- A Spine layer fed by a pass-through or converted route. -/
def streamedSpine (s : State) (n i : Nat) : Bool :=
  i ≥ 16 && (match s.layerRoute n i with
    | some r => rKind (s.route r).image < 2 && (match shownSource s r with
      | some (3, _) | none => false
      | _ => true)
    | none => false)

/-- Line j of a Spine layer comes from the concealment store. -/
def spineMissing (s : State) (n i j : Nat) (late : List Nat) : Bool :=
  streamedSpine s n i && (late.contains i || (match s.layerRoute n i with
    | some r => rKind (s.route r).image == 0 && sourceConcealed s n i j
    | none => false))

/-- The zone that a layer lies in. -/
def zoneColour (s : State) (n l : Nat) : Px :=
  match (s.zonesOf n).find? fun z => onLine (znY z) (znH z) (lrY l) && decide (znX z ≤ lrX l ∧ lrX l < znX z + znW z) with
  | some z => colour12 (znColour z)
  | none => (0, 0, 0)

/-- The pixels of layer i on output line j, with their alpha. -/
def layerLine (s : State) (n i j : Nat) (late : List Nat) : List (Px × Nat) :=
  let l := s.layerOf n i
  if spineMissing s n i j late then
    let setup := s.force (Reg.outCompSetup n)
    let kept := (tget (fun _ => []) (s.outp n).conceal (i - 16)).find? fun e => e.1 == j - lrY l
    (match kept with
      | some e => concealGet setup (lrW l) e.2
      | none => List.replicate (lrW l) (zoneColour s n l)).map fun p => (p, 255)
  else match layerPicture s n i j with
    | some p => oriented l p (j - lrY l)
    | none => []

/-! A line of the output (R248, R252, R266). -/

/-- Cells laid over a line from column x0. -/
def overlay (x0 alpha : Nat) (cells : List (Px × Nat)) (base : List Px) : List Px :=
  (List.range base.length).map fun x =>
    let d := nth base x (0, 0, 0)
    if x < x0 ∨ x0 + cells.length ≤ x then d
    else
      let c := nth cells (x - x0) ((0, 0, 0), 0)
      blendOver (blendWeight c.2 alpha) c.1 d

/-- Cells that replace a line's from column x0. -/
def fillSpan (x0 w : Nat) (p : Px) (base : List Px) : List Px :=
  (List.range base.length).map fun x => if x0 ≤ x ∧ x < x0 + w then p else nth base x (0, 0, 0)

/-- Layers of a list in ascending Z. -/
def byZ (s : State) (n : Nat) (is : List Nat) : List Nat :=
  (List.range 16).flatMap fun z => is.filter fun i => lrZ (s.layerOf n i) == z

/-- Layers that show on line j. -/
def shownOn (s : State) (n j : Nat) (is : List Nat) : List Nat :=
  byZ s n (is.filter fun i =>
    let l := s.layerOf n i
    lrEnable l && layerShows (s.layer n i) j && onLine (lrY l) (lrH l) j)

/-- The background of an output (R249, R274). -/
def backgroundOf (s : State) (n : Nat) : Px :=
  let o := s.outp n
  colour12 (if o.comp = .reserve then o.background else csBackground (s.force (Reg.outCompSetup n)))

/-- Stripes of isolated engines of a gang show BACKGROUND, and so does the picture of an engine that works alone (R279, log entry 70). -/
def deadStripes (s : State) (n : Nat) (base : List Px) : List Px :=
  let g := csGang (s.force (Reg.outCompSetup n))
  let w := base.length
  ((List.range g).filter fun i => (s.outp (n + i)).comp == .isolated).foldl
    (fun b i => fillSpan (i * divUp w g) (stripe w g i) (backgroundOf s n) b) base

/-- The UNVERIFIED marker of a Spine layer on line j, clipped to its rectangle (R79, R266). -/
def markerLine (s : State) (n i j : Nat) (base : List Px) : List Px :=
  let l := s.layerOf n i
  match s.layerRoute n i with
  | none => base
  | some r =>
    let x := s.route r
    if x.mode ≠ .unverified ∨ rAuthPolicy x.image ≠ 1 then base
    else match s.assetOf n (fld (s.reg Reg.unvAsset) 15 0) with
      | none => base
      | some a =>
        let px := fld (s.reg Reg.unvPosition) 15 0
        let py := fld (s.reg Reg.unvPosition) 31 16
        let d := j - lrY l
        if d < py ∨ py + a.height ≤ d then base
        else
          let cells := ((List.range a.width).map fun u =>
            let q := assetAt a u (d - py)
            (assetPx (s.force (Reg.outCompSetup n)) q.1, q.2)).take (lrW l - px)
          overlay (lrX l + px) 255 cells base

/-- Stages 1 to 4 of line j of output n. -/
def composeLine (s : State) (n j : Nat) (late : List Nat) : List Px :=
  let w := raWidth (s.rasterOf n)
  let base := List.replicate w (backgroundOf s n)
  let put (b : List Px) (i : Nat) : List Px :=
    overlay (lrX (s.layerOf n i)) (lrAlpha (s.layerOf n i)) (layerLine s n i j late) b
  let engine := if (s.outp n).comp = .reserve then base
    else deadStripes s n (((shownOn s n j (List.range 16)).filter fun i => !lineSkipped s n i j).foldl put base)
  let zoned := ((s.zonesOf n).filter fun z => onLine (znY z) (znH z) j).foldl
    (fun b z => fillSpan (znX z) (znW z) (colour12 (znColour z)) b) engine
  let spine := shownOn s n j ((List.range 8).map (16 + ·))
  let drawn := spine.foldl put zoned
  spine.foldl (fun b i => markerLine s n i j b) drawn

/-- Line j of output n in the format of a descriptor (stage 5). -/
def sentLine (s : State) (n d j : Nat) (late : List Nat) (own : List Px) : List Nat :=
  let f := fmtOf (dColour d)
  let pair := if f.chroma ≠ 2 then ([], [])
    else if j % 2 = 0 then (own, composeLine s n (j + 1) late) else (composeLine s n (j - 1) late, own)
  finishLine f (csDither (s.force (Reg.outCompSetup n))) j (own.map (stage5 f))
    (pair.1.map (stage5 f), pair.2.map (stage5 f))

/-! Sending lines of an output stream (R387 to R389, R394). -/

/-- One line of output stream k is ready: its data folios, which carry `payloads`, and its check join those that wait for slots of the
flow; `last` on the last line of a frame, whose tag follows on an authenticated lane. -/
def sendLine (k line : Nat) (last : Bool) (samples payloads : List Nat) (s : State) : State :=
  let lane := dLane (s.outDesc k)
  let v := s.send k
  let auth := (s.link (s.calLane lane)).authenticated
  let s := lineReady k (s.emit (.line k line samples))
  let s := s.each payloads fun s p => sendFolio k (dataFolio p) s
  let s := sendFlow k 0x09 (pack [(9, k), (14, line), (1, 0), (1, ofBool last), (16, v.frame), (16, crc16Line payloads), (63, 0)]) s
  let sent := if auth then v.payloads ++ payloads else []
  if last then
    let s := sendTag k v.frame sent s
    s.setSend k { s.send k with frame := (v.frame + 1) % 65536, payloads := [] }
  else s.setSend k { s.send k with payloads := sent }

/-- A line of samples leaves uncompressed. -/
def sendSamples (k line : Nat) (last : Bool) (samples : List Nat) (s : State) : State :=
  sendLine k line last samples (packLine (dDepth (s.outDesc k)) samples) s

/-! Underruns (R261). -/

/-- A layer goes off from line j on. -/
def layerOff (n i j : Nat) (mode : LayerMode) (s : State) : State :=
  let l := s.layer n i
  let s := s.setLayer n i { l with
    mode := mode, offFrom := some j, underruns := if mode = .offUnderrun then l.underruns + 1 else l.underruns }
  match s.layerRoute n i with
  | some r => rtShow r none s
  | none => s

/-- An engine layer that is late on line j underruns when it would be fetched there. -/
def underrunHit (s : State) (n j i : Nat) : Bool :=
  let l := s.layerOf n i
  let m := (s.layer n i).mode
  decide (i < 16) && lrEnable l && (m == .shown || m == .covered) && onLine (lrY l) (lrH l) j && !lineSkipped s n i j

/-- The underruns of one line: one event for each output frame, with the mask. -/
def underruns (n j : Nat) (late : List Nat) (s : State) : State :=
  let hit := late.eraseDups.filter (underrunHit s n j)
  if hit = [] then s
  else
    let s := s.each hit fun s i => layerOff n i j .offUnderrun s
    let mask := hit.foldl (fun m i => setBit m i) (s.outp n).underran
    let first := (s.outp n).underran = 0
    let s := s.modOutp n fun o => { o with underran := mask, underruns := if first then o.underruns + 1 else o.underruns }
    let s := coverage n (some j) s
    if first then s.raise (Ev.underrun n) [n, mask] else s

end Sys2Proof.Machine
end

