-- ==== Sys2Proof/Machine/Raster.lean ====
section
/-! DEFINITION. Outputs in time: the output engine (R246 to R283), raster and commits (R284 to R306, R312 to R315), freeze watch
(R307 to R311), pushes (R293 to R296), and frames of output streams that routes feed (R85, R158 to R167, R234, R394). -/

namespace Sys2Proof.Machine

/-! Routes of a boundary. -/

/-- The routes whose destination has boundary b. -/
def boundaryRoutes (s : State) (b : Bnd) : List Nat := s.routeKeys.filter fun r => rBnd (s.route r).image == b

/-- DESTINATION_RESTORED (R69). -/
def rtRestored (r : Nat) (s : State) : State :=
  if (s.route r).mode = .stopped ∧ s.start.next = 12 ∧ s.pwr.bulk then rtCheck true r (rtMove r .active 0 s) else s

/-- A stale route comes back only when a frame qualifies again (R75, R76). -/
def staleAgain (s : State) (r t hOut : Nat) : Bool :=
  (s.route r).reason == 5 && (chooseFrame s (s.route r).image t hOut).isNone

/-- The newest frame of a stream that arrives for a route, or its newest field where units deinterlace, with the DT that it carries
(R148). -/
def streamedStart (s : State) (image k : Nat) : Time :=
  let i := s.ins k
  if byField s image k && i.lastSecond != 0 then i.lastSecond else i.lastStart

/-- The age of what a pass-through or converted route shows at its output frame start. -/
def streamedAge (r t : Nat) (s : State) : State :=
  match shownSource s r with
  | some (type, src) =>
    match s.srcStream type src with
    | some k => s.modRoute r fun v => { v with age := t - streamedStart s v.image k }
    | none => s
  | none => s

/-- What a boundary brings for the routes of a destination: sources lost and returned, and the frame selected. `t` is the
output frame start. -/
def routesAt (b : Bnd) (t : Nat) (s : State) : State :=
  s.each (boundaryRoutes s b) fun s r =>
    let image := (s.route r).image
    let i := if rDstType image = 1 then rLayer image else 16 + rLayer image
    let l := if rToLayer image then s.layerOf (rEngine image) i else 0
    let hOut := (destTiming s s.outTables image).height
    let s := rtCheck true r (rtRestored r s)
    let s := if staleAgain s r t hOut then s else rtReturn r s
    let s := if rtShowing (s.route r).mode then
        s.each (s.route r).units fun s u => s.modUnit u fun v => { v with frames := v.frames + 1 } else s
    if rKind image ≠ 2 then streamedAge r t s
    else if rDstType image = 2 then s
    else if rToLayer image && !lrEnable l then rtShow r none s
    else selectRoute r t l hOut s

/-! Engine states (R277, R278). -/

/-- A raster that has stopped or started takes its engine with it. -/
def engineRaster (n : Nat) (runs : Bool) (s : State) : State :=
  let o := s.outp n
  match o.comp, runs with
  | .off, true => qsChanged qsOut n (s.setOutp n { o with comp := .active })
  | .active, false => qsChanged qsOut n (s.setOutp n { o with comp := .off })
  | _, _ => s

/-- The drain of an output engine has ended. -/
def outDrained (n : Nat) (s : State) : State :=
  let o := s.outp n
  if o.comp ≠ .draining then s
  else
    let m : CompMode := match qsAfter o.resetDue s.pwr.subPass o.reEnable with
      | .active => .active
      | .isolated => .isolated
      | _ => .idle
    let reset := o.resetDue
    let s := qsChanged qsOut n (s.setOutp n { o with comp := m, reEnable := false, resetDue := false })
    recheck (if reset then subsystemDone qsOut n s else s)

/-- An engine is isolated by a handshake timeout (R127, R277, R279). -/
def outIsolate (n : Nat) (s : State) : State :=
  match (s.outp n).comp with
  | .active | .draining | .member =>
    recheck (qsChanged qsOut n (s.modOutp n fun o => { o with comp := .isolated, resetDue := false, reEnable := false }))
  | _ => s

/-- Members that a setup names beside its lead. -/
def gangOf (n setup : Nat) : List Nat := (List.range (csGang setup - 1)).map (n + 1 + ·)

/-- GANG_JOINED and GANG_LEFT (R272, R277). -/
def gangChange (n old new : Nat) (s : State) : State :=
  let s := s.each ((gangOf n old).filter fun m => !(gangOf n new).contains m) fun s m =>
    if (s.outp m).comp = .member then qsChanged qsOut m (s.modOutp m fun o => { o with comp := .active, lead := none }) else s
  s.each ((gangOf n new).filter fun m => !(gangOf n old).contains m) fun s m =>
    match (s.outp m).comp with
    | .active | .off => qsChanged qsOut m (s.modOutp m fun o => { o with comp := .member, lead := some n })
    | _ => s

/-! Freeze watch (R307 to R311). -/

/-- The rectangle of a region and the layer of a CHANGE region. -/
def regionRect (s : State) (n w : Nat) : Nat × Nat × Nat × Nat :=
  if waMode w = 1 then
    let l := s.layerOf n (if waSpine w then 16 + waLayer w else waLayer w)
    (lrX l, lrY l, lrW l, lrH l)
  else (waX w, waY w, waW w, waH w)

def regionLayer (w : Nat) : Nat := if waSpine w then 16 + waLayer w else waLayer w

/-- The bytes of pixels as a signature takes them (R309). -/
def pixelBytes (l : List Px) : List Nat := l.flatMap fun p => leBytes 2 p.1 ++ leBytes 2 p.2.1 ++ leBytes 2 p.2.2

def crcMore (c : Nat) (bytes : List Nat) : Nat := bytes.foldl crc32cByte c

/-- FREEZE with its casebook record (R311, R582). -/
def freezeEvent (n r kind : Nat) (s : State) : State :=
  let w := watchRec (s.force (Reg.outWatchTable n)) r
  let g := s.region n r
  let route := (s.layerRoute n (regionLayer w)).getD 0xFFFF
  s.raiseAs (Ev.freeze n) [n, r, kind, route, g.sig]
    (.as 5 ([n, r, kind, 0] ++ leBytes 2 route ++ [g.srcRun, g.devRun] ++ leBytes 4 g.sig ++ leBytes 4 (waExpected w)))

/-- Any alarm of a region ends. -/
def endAlarm (n r : Nat) (s : State) : State :=
  if (s.region n r).wstate = 0 then s
  else freezeEvent n r 0 (s.setRegion n r { s.region n r with wstate := 0 })

/-- An alarm begins. -/
def startAlarm (n r kind : Nat) (s : State) : State :=
  if (s.region n r).wstate = kind then s
  else freezeEvent n r kind (s.setRegion n r { s.region n r with wstate := kind })

/-- The signature and the start of the input frame that a layer shows (R310); both fields of an interlaced frame are of one input
frame. -/
def inputShown (s : State) (r : Nat) : Nat × Time :=
  let x := s.route r
  let tile : Nat := if rSrcType x.image = 1 then fld (rSrc x.image) 9 0 else 1024
  let find (l : List (Nat × Nat)) : Nat := ((l.find? fun e => e.1 == tile).map (·.2)).getD 0
  match x.shown with
  | some c => (find (s.buf c.buf).sigs, (s.buf c.buf).start)
  | none =>
    match s.srcStream (rSrcType x.image) (rSrc x.image) with
    | some k =>
      let i := s.ins k
      (if tile = 1024 then i.signature else find i.sigs, if i.frame.isSome then i.prevStart else i.lastStart)
    | none => (0, 0)

/-- A CHANGE region whose layer a route feeds that shows. -/
def changeRegion (n r route : Nat) (sig old : Nat) (limit : Nat) (s : State) : State :=
  let g := s.region n r
  let now := inputShown s route
  let put (a b : Nat) : State := s.setRegion n r { s.region n r with
    srcRun := min 255 a, devRun := min 255 b, prevIn := some now.1, prevFrame := some now.2 }
  if g.concealed ∨ g.prevFrame = some now.2 then put g.srcRun g.devRun
  else if g.prevIn = some now.1 then
    let s := put (g.srcRun + 1) 0
    if (s.region n r).srcRun = limit then startAlarm n r 1 s else s
  else if g.prevIn.isSome ∧ sig = old then
    let s := put 0 (g.devRun + 1)
    if (s.region n r).devRun = limit then startAlarm n r 2 s else s
  else endAlarm n r (put 0 0)

/-- One region is evaluated on the frame that has just ended (R310). -/
def evalRegion (n r : Nat) (s : State) : State :=
  let w := watchRec (s.force (Reg.outWatchTable n)) r
  let g := s.region n r
  let old := g.sig
  let sig := g.acc ^^^ 0xFFFFFFFF
  if waMode w = 0 then s
  else
    let s := s.setRegion n r { g with sig := sig }
    match waMode w with
    | 1 =>
      match s.layerRoute n (regionLayer w) with
      | some route =>
        if rtShowing (s.route route).mode && !g.flipped then changeRegion n r route sig old (waLimit w) s
        else
          let now := inputShown s route
          endAlarm n r (s.setRegion n r { s.region n r with srcRun := 0, devRun := 0, prevIn := some now.1, prevFrame := some now.2 })
      | none => endAlarm n r (s.setRegion n r { s.region n r with srcRun := 0, devRun := 0, prevIn := none, prevFrame := none })
    | 2 =>
      if g.concealed then s
      else if sig = waExpected w then endAlarm n r (s.setRegion n r { s.region n r with devRun := 0 })
      else
        let s := s.setRegion n r { s.region n r with devRun := min 255 (g.devRun + 1) }
        if (s.region n r).devRun = waLimit w then startAlarm n r 3 s else s
    | _ => s

/-- A new frame for every region. -/
def regionsAfresh (n : Nat) (s : State) : State :=
  s.each (List.range 8) fun s r => s.setRegion n r { s.region n r with acc := 0xFFFFFFFF, concealed := false, flipped := false }

/-- Line j of the composed frame enters the regions that it crosses. -/
def regionLine (n j : Nat) (line : List Px) (hurt : List Nat) (s : State) : State :=
  s.each (List.range 8) fun s r =>
    let w := watchRec (s.force (Reg.outWatchTable n)) r
    let q := regionRect s n w
    if waMode w = 0 || !onLine q.2.1 q.2.2.2 j then s
    else
      let g := s.region n r
      let held := hurt.any fun i =>
        let l := s.layerOf n i
        decide (lrX l < q.1 + q.2.2.1 ∧ q.1 < lrX l + lrW l)
      s.setRegion n r { g with
        acc := crcMore g.acc (pixelBytes ((line.drop q.1).take q.2.2.1)), concealed := g.concealed || held }

/-! Flips (R306). -/

/-- The flip of an output at a DT. -/
def outFlip (n : Nat) (at_ : Time) (s : State) : State :=
  let b : Bnd := .output n
  let routes := s.str.groups.flatMap fun g => (g.takes.filter (flipsHere b)).map fun k => k.route
  if !(s.outp n).flipDue && routes == [] then s
  else
    let s := s.each (List.range 8) fun s r =>
      let w := watchRec (s.force (Reg.outWatchTable n)) r
      match waMode w, s.layerRoute n (regionLayer w) with
      | 1, some route => if routes.contains route then s.setRegion n r { s.region n r with flipped := true } else s
      | _, _ => s
    let s := s.modOutp n fun o => { o with flipDue := false, lastFlip := at_, flipFrame := o.frameCount }
    (flipTakes at_ b s).raise (Ev.flip n) [n, (s.outp n).frameCount]

/-! Pushes (R293 to R296). -/

def tileCols (a : Nat) : Nat := divUp (raWidth a) 64
def tileRows (a : Nat) : Nat := divUp (raHeight a) 64

/-- Line j of the composed frame enters its tiles. -/
def tileLine (n j : Nat) (line : List Px) (s : State) : State :=
  let add (m : Tbl Nat) (c : Nat) : Tbl Nat :=
    let k := j / 64 * 128 + c
    tset (fun _ => 0xFFFFFFFF) m k (crcMore (tget (fun _ => 0xFFFFFFFF) m k) (pixelBytes ((line.drop (64 * c)).take 64)))
  s.modOutp n fun o => { o with tileAcc := (List.range (divUp line.length 64)).foldl add o.tileAcc }

/-- Maximal runs in a list of flags: first column and length. -/
def runsOf : Nat → List Bool → List (Nat × Nat)
  | _, [] => []
  | c, false :: r => runsOf (c + 1) r
  | c, true :: r =>
    match runsOf (c + 1) r with
    | (d, n) :: rest => if d = c + 1 then (c, n + 1) :: rest else (c, 1) :: (d, n) :: rest
    | [] => [(c, 1)]

/-- The regions of a push: tile row, first column, columns. -/
def dirtyRegions (o : OutState) (a : Nat) : List (Nat × Nat × Nat) :=
  (List.range (tileRows a)).flatMap fun row =>
    (runsOf 0 ((List.range (tileCols a)).map fun c =>
      tget (fun _ => 0xFFFFFFFF) o.tileAcc (row * 128 + c) != tget (fun _ => 0xFFFFFFFF) o.tileSent (row * 128 + c))).map
      fun x => (row, x.1, x.2)

def allTiles (a : Nat) : List (Nat × Nat × Nat) := (List.range (tileRows a)).map fun row => (row, 0, tileCols a)

/-- Readers of the frames of a push (R295). -/
def pushReader (n : Nat) : Reader := .dest (2 ^ 30 + n)

/-- A push begins: the tokens on its frames are kept. -/
def pushBegins (n : Nat) (full : Bool) (regions : List (Nat × Nat × Nat)) (s : State) : State :=
  let o := s.outp n
  let s := s.setOutp n { o with
    push := some ⟨o.pushes % 65536, full, regions⟩, pushes := o.pushes + 1, tileSent := o.tileAcc
    lastFull := if full then some s.dt else o.lastFull, fullDue := if full then false else o.fullDue }
  let bufs := (List.range 24).flatMap fun i => match s.layerRoute n i with
    | some r => ((s.route r).shown.map shownBufs).getD []
    | none => []
  s.each bufs fun s b => takeToken b (pushReader n) s

/-- One region is sent: the REGION_PUSH and its lines, composed a second time (R295, R397, R399). -/
def pushRegion (n : Nat) (full last : Bool) (number : Nat) (x : Nat × Nat × Nat) (s : State) : State :=
  match s.engineStream n with
  | none => s
  | some k =>
    let a := s.rasterOf n
    let d := s.outDesc k
    let y := 64 * x.1
    let h := min 64 (raHeight a - y)
    let c := 64 * x.2.1
    let w := min (64 * x.2.2) (raWidth a - c)
    let s := sendFlow k 0x10 (pack [(9, k), (14, c), (14, y), (14, w), (14, h), (1, ofBool full),
      (1, ofBool last), (16, number), (37, 0)]) s
    s.each (List.range h) fun s i =>
      let line := sentLine s n d (y + i) [] (composeLine s n (y + i) [])
      sendSamples k (y + i) (last && i + 1 == h) (cropLine (dChroma d) c w line) s

/-- The frame that a push carries has been composed (R294, R306). -/
def pushEvaluate (n : Nat) (s : State) : State :=
  let o := s.outp n
  let a := s.rasterOf n
  if !o.pushFrame then s
  else if o.pushLive then s.setOutp n { o with pushFrame := false, pushLive := false, tileSent := o.tileAcc }
  else
    let s := s.setOutp n { o with pushFrame := false }
    let regions := dirtyRegions o a
    let tiles := sumOf (regions.map fun x => x.2.2)
    let refresh := raRefresh a != 0 && (match o.lastFull with
      | some t => decide (t + raRefresh a * sec ≤ s.dt)
      | none => true)
    let full := o.fullDue || refresh || decide (tileRows a * tileCols a < 2 * tiles) || decide (64 < regions.length)
    let list := if full then allTiles a else regions
    if list = [] then outFlip n o.lastFrame s
    else
      let s := outFlip n s.dt (pushBegins n full list s)
      let number := o.pushes % 65536
      s.each (List.range list.length) fun s i =>
        pushRegion n full (i + 1 == list.length) number (nth list i (0, 0, 0)) s

/-! Commits (R302 to R305, R286, R292, R299). -/

/-- The raster of an output runs. -/
def rasterRuns (o : OutState) : Bool :=
  match o.raster with
  | .off | .unpowered => false
  | _ => true

/-- OFFSET in force (R288): the automatic one lies one output line period above the need of R289. -/
def offsetOf (s : State) (n : Nat) : Nat :=
  let a := s.rasterOf n
  if raOffset a = 0x3FFF then offsetNeed s (s.outTables n) (s.liveImages) n + 1 else raOffset a

/-- A sync change (R292). -/
def syncChange (n : Nat) (s : State) : State :=
  let cut := raCut (s.rasterOf n)
  s.modOutp n fun o => match o.raster with
    | .locked => if cut then { o with cutNext := true } else { o with raster := .slewing }
    | .slewing => { o with cutNext := cut }
    | _ => o

/-- The computed OFFSET is taken up; a change is a sync change. -/
def offsetUpdate (n : Nat) (s : State) : State :=
  let new := offsetOf s n
  let old := (s.outp n).offsetUsed
  let s := s.modOutp n fun o => { o with offsetUsed := new }
  if new = old then s else syncChange n s

/-- The descriptor of the engine's output stream takes the geometry of its raster (R286). -/
def rasterFormat (n : Nat) (s : State) : State :=
  match s.engineStream n with
  | none => s
  | some k => putOutDesc k (putFld (s.outDesc k) 103 46 (raGeometry (s.rasterOf n))) s

/-- RASTER_START to the partner (R300, R397). -/
def rasterStart (n : Nat) (s : State) : State :=
  match s.engineStream n with
  | none => s
  | some k =>
    let v := s.send k
    let s := s.setSend k { v with starts := (v.starts + 1) % 256 }
    pushCtl (dLane (s.outDesc k)) 0x0F (pack [(9, k), (8, v.starts), (103, 0)]) s

/-- The raster stops (R297): the frame or push in progress has completed. -/
def rasterStop (n : Nat) (s : State) : State :=
  let s := s.modOutp n fun o => { o with raster := .off, boundary := none, lastSync := none, pushFrame := false, cutNext := false }
  (engineRaster n false s).raise (Ev.modeChangeDone n) [n, 0]

/-- The raster follows MODE of its record at a boundary, or at acceptance when it is OFF (R297, R299, R300). -/
def rasterMode (n : Nat) (s : State) : State :=
  let o := s.outp n
  let begin_ (m : RasterMode) : State :=
    s.setOutp n { o with raster := m, modeDt := s.dt, modeDue := true, lastSync := none, outOfRange := 0, fullDue := true }
  match o.raster, raMode (s.rasterOf n) with
  | .off, 1 => engineRaster n true ((begin_ .starting).modOutp n fun o => { o with boundary := none })
  | .off, 2 => engineRaster n true ((begin_ .toCommand).modOutp n fun o => { o with boundary := none })
  | .locked, 2 | .slewing, 2 | .holdover, 2 | .mismatch, 2 => begin_ .toCommand
  | .command, 1 =>
    let s := begin_ .toLocked
    if o.push.isNone then rasterStart n s else s
  | .off, _ | .unpowered, _ => s
  | _, 0 => if o.push.isNone then rasterStop n s else s
  | _, _ => s

/-- A snapshot comes into force. -/
def commitApply (n : Nat) (q : OutQueued) (s : State) : State :=
  let old := s.outTables n
  let s := s.each [(Reg.outCompSetup n, q.setup), (Reg.outLayerTable n, q.layers), (Reg.outSpineTable n, q.spine),
    (Reg.outRaster n, q.raster), (Reg.outWatchTable n, q.watch)] fun s x => s.setForce x.1 x.2
  let s := s.modOutp n fun o => { o with
    queued := none, flipDue := true, background := if reserveOutput n then csBackground q.setup else o.background }
  let s := gangChange n old.setup q.setup s
  let starts := (s.outp n).raster = .off ∧ raMode q.raster ≠ 0
  let s := if raGeometry old.raster ≠ raGeometry q.raster ∨ starts then rasterFormat n s else s
  let sync (a : Nat) : Nat := fld a 125 115
  let s := rasterMode n s
  let s := if rasterRuns (s.outp n) ∧ raMode old.raster = 1 ∧ raMode q.raster = 1 ∧ sync old.raster ≠ sync q.raster then
      syncChange n (s.modOutp n fun o => { o with lastSync := none, modeDt := s.dt }) else s
  offsetUpdate n s

/-- A queued commit meets a boundary (R304, R305). -/
def commitBoundary (n : Nat) (s : State) : State :=
  match (s.outp n).queued with
  | none => s
  | some q =>
    if q.skip = 0 then commitApply n q s
    else s.modOutp n fun o => { o with queued := some { q with skip := q.skip - 1 } }

/-- The shadows of an output (R302). -/
def State.outShadows (s : State) (n : Nat) : OutQueued :=
  { setup := s.reg (Reg.outCompSetup n), layers := s.reg (Reg.outLayerTable n), spine := s.reg (Reg.outSpineTable n)
    raster := s.reg (Reg.outRaster n), watch := s.reg (Reg.outWatchTable n), c0 := false, late := false, state := 0 }

/-- A change of MODE asks for the raster switch that the sink lacks (R296). -/
def switchLacking (s : State) (n new : Nat) : Bool :=
  let old := raMode (s.rasterOf n)
  (new == 2 || (old == 2 && new == 1)) && (match s.engineStream n with
    | some k => !s.sinkOffers k 8
    | none => false)

/-- DT at which the commit window of the frame closes (R304). -/
def windowClose (s : State) (n : Nat) : Option Time :=
  let o := s.outp n
  let a := s.rasterOf n
  match o.boundary with
  | none => none
  | some b =>
    let next := if b ≤ o.lastFrame then o.lastFrame + raLines a (raHeight a) else b + raPeriod a
    some (next - raLines a (raMargin a))

/-- A refused commit changes nothing but its results (R254, R302). -/
def commitRefused (n code : Nat) (s : State) : State × Nat :=
  let (code, s) := if code = 0x100 then (s.draw.1 % 256, s.draw.2) else (code, s)
  (s.modOutp n fun o => { o with lastResult := code, lastRefusal := code }, stValue)

/-- COMMIT_LATE (R304, R582). -/
def commitLate (n : Nat) (close : Time) (s : State) : State :=
  let s := s.modOutp n fun o => { o with commitLate := true, lateCount := o.lateCount + 1 }
  s.raiseAs (Ev.commitLate n) [n, (s.outp n).lateCount]
    (.as 6 ([n, 0] ++ leBytes 4 (s.outp n).lateCount ++ leBytes 8 s.dt ++ leBytes 8 close))

/-- OUT_COMMIT (R302 to R305); that of a gang's member is ignored (R272). -/
def outCommitOp (n : Nat) (s : State) : State × Nat :=
  let o := s.outp n
  let new := s.outShadows n
  let held : Bool := match o.queued with
    | some q => q.c0
    | none => false
  let changing := (o.raster == .toCommand || o.raster == .toLocked) && raMode new.raster != raMode (s.rasterOf n)
  if o.comp = .member then (s, stDone)
  else if held || changing then (s, stBusy)
  else
    let plan (m : Nat) : OutQueued := if m = n then new else s.outPlan m
    let a := outputCode s plan (plannedImages s.planned) n
    let b := outputCode s plan s.liveImages n
    let code := if a ≠ 0 then a else if b ≠ 0 then b else if switchLacking s n (raMode new.raster) then 0x0D else 0
    if code ≠ 0 then commitRefused n code s
    else
      let c0 := new.spine != s.force (Reg.outSpineTable n) || raSafety new.raster || raSafety (s.rasterOf n)
      let s := s.modOutp n fun o => { o with discipline := c0, lastResult := 0, lastCommitDt := s.dt }
      if o.raster = .off then (commitApply n new s, stDone)
      else
        let late : Bool := match windowClose s n with
          | some c => c0 && decide (c ≤ s.dt)
          | none => false
        let transfer : Bool := match o.boundary with
          | some b => !c0 && decide (s.dt ≤ b + raLines (s.rasterOf n) 1)
          | none => false
        let q := { new with c0 := c0, late := late, skip := ofBool late, state := if late then 2 else if transfer then 3 else 1 }
        let s := s.modOutp n fun o => { o with queued := some q }
        (s.whenever late (commitLate n ((windowClose s n).getD 0)), stDone)

/-! Boundaries. -/

/-- Assets that an engine names are loaded, a replaced one anew (R270). -/
def cacheLoad (n : Nat) (s : State) : State :=
  let ids := ((s.liveImages.filter fun r => rToLayer r && rEngine r == n).flatMap fun r =>
      (if rSrcType r = 3 then [fld (rSrc r) 15 0] else []) ++ (if rFbType r = 3 then [fld (rFbSrc r) 15 0] else [])) ++
    [fld (s.reg Reg.unvAsset) 15 0]
  let load := ids.eraseDups.filterMap fun id =>
    if s.comp.missing.contains id then none else (oget s.nvm.assets id).map fun a => (id, a)
  { s with comp := { s.comp with caches := tset (fun _ => []) s.comp.caches n load } }

/-- The blanking of an output frame in ns. -/
def blanking (a : Nat) : Nat := raLines a (raTotal a - raHeight a)

/-- The frame that has just ended (R294, R310, R282). -/
def frameEnded (n : Nat) (s : State) : State :=
  if (s.outp n).boundary.isNone then s
  else
    let s := s.each (List.range 8) fun s r => evalRegion n r s
    let s := if (s.outp n).raster = .command then pushEvaluate n s else s
    s.modOutp n fun o => { o with lastLayers := o.layers, frames := o.frames + 1 }

/-- The engine's layer table of the frame that begins: the one in force, or after a failed descriptor fetch that of the
frame before (R594, master M5). -/
def takeRecords (n : Nat) (s : State) : State :=
  let kept := s.sup.keepRecords.contains n
  let table := if kept then (s.outp n).usedLayers else s.force (Reg.outLayerTable n)
  let s : State := { s with sup := { s.sup with keepRecords := s.sup.keepRecords.erase n } }
  s.modOutp n fun o => { o with keptLayers := if kept then some table else none, usedLayers := table }

/-- The next frame of an output begins to be composed. -/
def frameBegins (n : Nat) (s : State) : State :=
  let s := takeRecords n s
  let s := s.each (List.range 24) fun s i => layerStart n i s
  let s := coverage n none s
  let o := s.outp n
  let mask := sumOf ((List.range 24).map fun i => if (s.layer n i).mode = .shown then 2 ^ i else 0)
  regionsAfresh n (s.setOutp n { o with
    boundary := some s.dt, underran := 0, nextLine := 0, shownMask := mask, tileAcc := []
    pushFrame := o.raster == .command && o.push.isNone })

/-- The boundary of an output (R85). -/
def outputBoundary (n : Nat) (s : State) : State :=
  let b : Bnd := .output n
  let o := s.outp n
  if !rasterRuns o || o.comp == .member then s
  else
    let s := outDrained n (frameEnded n s)
    let s := rasterMode n (commitBoundary n s)
    if !rasterRuns (s.outp n) then s
    else
      let s := convBoundary b (applyTakes b s)
      let s := match s.engineStream n with
        | some k => userBoundary (outUser k) s
        | none => s
      let s := strBoundary b s
      let s := routesAt b (s.dt + blanking (s.rasterOf n)) (cacheLoad n s)
      frameBegins n (offsetUpdate n (releaseUnnamed s))

/-! Output streams that a route feeds. -/

/-- The route that feeds output stream k. -/
def streamRoute (s : State) (k : Nat) : Option Nat :=
  s.routeKeys.find? fun r => rDstType (s.route r).image == 0 && fld (rDst (s.route r).image) 7 0 == k

/-- Line y of what a route shows on an output stream, as pixels of stage 12 (R74, R136). A line that was late comes from the previous
frame (R173). -/
def streamPixels (s : State) (r k y : Nat) : List Px :=
  let x := s.route r
  let image := x.image
  let d := s.outDesc k
  let f := fmtOf (dColour d)
  let w := dWidth d
  let setup := routeSetup s image
  let tables := routeTables s image
  let through (g : Fmt) (p : Prov) : List Px := convertLine setup tables g f w (dHeight d) p y
  match x.mode, shownSource s r, x.shown with
  | .colour, _, _ => List.replicate w (stage5 f (colour12 (rColour image)))
  | _, some (3, src), _ =>
    match s.assetOf 64 (fld src 15 0) with
    | some a => (List.range w).map fun u =>
        let p := assetAt a u y
        stage5 f (blendOver p.2 (pxMap (fun _ v => norm16 8 v / 16) p.1) (0, 0, 0))
    | none => List.replicate w (stage5 f (0, 0, 0))
  | _, _, some c =>
    through (fmtOf (pColour (s.poolRec (handlePool c.buf)))) (shownProv s x setup tables (routeTile s r) c)
  | _, some (t, src), none =>
    match s.srcStream t src with
    | some i =>
      let now := (s.ins i).frame.isSome && !(s.send k).late.contains y
      through (fmtOf (dColour (s.ins i).desc)) (liveProv (hurtView s r i) image setup (routeTile s r) i now)
    | none => []
  | _, none, none => []

/-- Line y of a stream in its format. Without units a stored line leaves as it is stored. -/
def streamSamples (s : State) (r k y : Nat) : List Nat :=
  let x := s.route r
  let d := s.outDesc k
  let f := fmtOf (dColour d)
  match x.shown with
  | some c =>
    if rGang x.image = 0 ∧ routeTile s r = 0 ∧ x.mode ≠ .colour then
      (match x.hurt.find? fun h => h.1 == (s.buf c.buf).start && h.2.1 == y with
        | some h => h.2.2
        | none => bufferLine s c.buf y)
    else finishLine f (cvDither (routeSetup s x.image)) y (streamPixels s r k y)
      (streamPixels s r k (y / 2 * 2), streamPixels s r k (y / 2 * 2 + 1))
  | none => finishLine f (cvDither (routeSetup s x.image)) y (streamPixels s r k y)
      (streamPixels s r k (y / 2 * 2), streamPixels s r k (y / 2 * 2 + 1))

/-- Coded lines of one group of a link-compressed flow (R234): the row's bytes in halves. -/
def sendCoded (r k first n : Nat) (s : State) : State :=
  let d := s.outDesc k
  let e := rComp (s.route r).image
  let lines := (List.range (first + n)).map fun y => if y < first then [] else streamSamples s r k y
  let rows := (List.range (n / 2)).map fun j =>
    encodeRow (depthBits (dDepth d)) (s.blockBytes e) (s.qmax e (outUser k)) (dChroma d) (first / 2 + j) lines
  let s := s.each rows fun s cs => noteCoded e (outUser k) cs s
  s.each (List.range n) fun s i =>
    let bytes := (nth rows (i / 2) []).flatMap (·.data)
    let half := bytes.length / 2
    let mine := if i % 2 = 0 then bytes.take half else bytes.drop half
    let payloads := (List.range (divUp half 16)).map fun q => leNat ((mine.drop (16 * q)).take 16)
    sendLine k (first + i) (first + i + 1 == dHeight d) mine payloads s

/-- Lines of a stream up to line `upto` leave. -/
def sendUpTo (r k upto : Nat) (s : State) : State :=
  let d := s.outDesc k
  let coded := rKind (s.route r).image == 1 && decide (rComp (s.route r).image < 16)
  let g := if coded then 2 * rowGroup (dChroma d) else 1
  let first := (s.send k).next
  let count := (min upto (dHeight d) - first) / g
  let s := s.whenever (first = 0 && decide (0 < count) && rKind (s.route r).image == 2) (unitReads r)
  let s := s.each (List.range count) fun s i =>
    if coded then sendCoded r k (first + i * g) g s
    else sendSamples k (first + i) (first + i + 1 == dHeight d) (streamSamples s r k (first + i)) s
  let s := s.setSend k { s.send k with next := first + count * g }
  s.whenever (decide (0 < count) && first + count * g == dHeight d) (shownRead r)

/-- The lines of a stream that a route can send now: all of a stored frame, a fill or an asset; of a converted route or a
chase read what has arrived for (R158, R165). -/
def readyLines (s : State) (r k : Nat) : Nat :=
  let x := s.route r
  let h := dHeight (s.outDesc k)
  let behind (need : Nat → Nat) (got : Nat) : Nat := ((List.range h).takeWhile fun j => decide (need j ≤ got)).length
  match x.mode, shownSource s r, x.shown with
  | .colour, _, _ | _, some (3, _), _ => h
  | _, _, some c =>
    if !c.chase || x.slipped then h
    else match s.srcStream (rSrcType x.image) (rSrc x.image) with
      | some i => behind (fun j => gutterLines s x.image i (showsSecond s c) j h) (writtenBy s i c s.dt)
      | none => 0
  | .active, some (t, src), none | .unverified, some (t, src), none | .fallback, some (t, src), none =>
    match s.srcStream t src with
    | some i =>
      if rKind x.image ≠ 1 then 0
      else match (s.ins i).frame with
        | some f => behind (fun j => needLine s x.image f.second j h + 1) f.line
        | none => h
    | none => 0
  | _, _, _ => 0

/-- Lines of a converted route that were not complete at their deadlines: each is counted, and leaves concealed (R173). -/
def linesConcealed (r k : Nat) (lines : List Nat) (s : State) : State :=
  let fresh := lines.filter fun j => !(s.send k).late.contains j
  let s := s.each fresh fun s _ => lineLate r s
  let s := s.setSend k { s.send k with late := (s.send k).late ++ fresh }
  sendUpTo r k ((s.send k).next + lines.length) s

/-- Lines of an output stream whose read deadline has passed and that have not left: a chase read slips (R166), a line of a converted route
is concealed (R173). -/
def streamOverdue (r k : Nat) (s : State) : State :=
  let x := s.route r
  let v := s.send k
  let h := dHeight (s.outDesc k)
  match v.start with
  | none => s
  | some t =>
    match ((List.range h).drop v.next).takeWhile fun j => decide (readDeadline s x.image t j < s.dt) with
    | [] => s
    | j :: js =>
      match x.shown with
      | some _ => chaseLine r j h (readDeadline s x.image t j) s
      | none => if rKind x.image = 1 ∧ (shownSource s r).isSome then linesConcealed r k (j :: js) s else s

/-- What a route can send now leaves. -/
def streamFeed (k : Nat) (s : State) : State :=
  match streamRoute s k with
  | some r =>
    if rKind (s.route r).image = 0 && (s.route r).mode != .colour then s
    else
      let s := streamOverdue r k s
      sendUpTo r k (readyLines s r k) s
  | none => s

/-- A unit is cut off at its drain limit: the lines of its route's output stream that have begun and not left are concealed (R171). -/
def convCutOff (u : Nat) (s : State) : State :=
  match (s.unit u).holder with
  | none => s
  | some r =>
    let image := (s.route r).image
    let k := fld (rDst image) 7 0
    match (s.send k).start with
    | some t =>
      if rKind image = 1 ∧ rDstType image = 0 ∧ (shownSource s r).isSome then
        let d := s.outDesc k
        linesConcealed r k (((List.range (dHeight d)).drop (s.send k).next).takeWhile fun j =>
          decide (t + j * (100 * sec) / max 1 (dTotal d * dRate d) ≤ s.dt)) s
      else s
    | none => s

/-- Output streams that read stream i as it arrives: after a line of it, what has become ready leaves. -/
def streamsFed (i : Nat) (s : State) : State :=
  s.each (s.routeKeys.filter fun r =>
    let x := (s.route r).image
    rDstType x == 0 && s.srcStream (rSrcType x) (rSrc x) == some i && (rKind x == 1 || rKind x == 2)) fun s r =>
      streamFeed (fld (rDst (s.route r).image) 7 0) s

/-- A line of a flow ends (R391), and what reads the stream as it arrives goes on (R158, R165). -/
def lineEnds (lane body : Nat) (poison : Option Nat) (s : State) : State :=
  let k := flowStream s lane (fld body 119 111)
  let s := endLine lane body poison s
  match k with
  | some k => streamsFed k s
  | none => s

/-- The boundary of an output stream that a route feeds. -/
def streamBoundary (k : Nat) (s : State) : State :=
  let b : Bnd := .stream k
  let s := userBoundary (outUser k) (convBoundary b (applyTakes b (streamFeed k s)))
  routesAt b s.dt (releaseUnnamed (strBoundary b s))

/-! Commands. -/

def execOutputFrameBoundary (t : Nat) (b : Bnd) (s : State) : Res :=
  let s := s.begin t
  .next (match b with
    | .output n => outputBoundary n s
    | .stream k => streamBoundary k s
    | .window w => routesAt (.window w) s.dt (releaseUnnamed (applyTakes (.window w) s)))

def execLineCheckFolio (t lane body : Nat) (s : State) : Res :=
  .next (received lane (lineEnds lane body none) (s.begin t))

def execPoisonFolio (t lane body : Nat) (s : State) : Res :=
  .next (received lane (fun s => lineEnds lane body (some (fld body 78 75))
    (s.modCounts lane fun c => { c with poisonsRx := c.poisonsRx + 1 })) (s.begin t))

/-- The phase error of a first active line in 1/16 of a line, modulo the sync period. -/
def phaseOf (s : State) (n : Nat) : Int :=
  let o := s.outp n
  let a := s.rasterOf n
  match o.lastSync with
  | none => 0
  | some y =>
    let p : Int := ((if o.syncPeriod = 0 then raPeriod a else o.syncPeriod : Nat) : Int)
    let e := ((s.dt : Int) - (y : Int) - ((raLines a o.offsetUsed : Nat) : Int)) % p
    let e := if p < 2 * e then e - p else e
    max (-32768) (min 32767 ((e * 16 * ((raLineRate a : Nat) : Int)).tdiv ((100 * sec : Nat) : Int)))

/-- Lines are composed: by an engine that works, and beside an isolated engine by the Spine compositor (R22, R279, log entry 70). -/
def composes (o : OutState) : Bool := o.comp == .active || o.comp == .draining || o.comp == .reserve || o.comp == .isolated

/-- Line j of an output, composed, leaves in its stream (R248). -/
def leaveLine (n j : Nat) (late : List Nat) (line : List Px) (s : State) : State :=
  match s.engineStream n with
  | some k => sendSamples k j (j + 1 == raHeight (s.rasterOf n)) (sentLine s n (s.outDesc k) j late line) s
  | none => s

/-- The lines composed before the first active line of a raster that starts or locks leave with it (R298, R300). -/
def leaveFirst (n : Nat) (before : RasterMode) (s : State) : State :=
  if (before = .starting ∨ before = .toLocked) ∧ composes (s.outp n) then
    s.each (List.range (s.outp n).nextLine) fun s j => leaveLine n j [] (composeLine s n j []) s
  else s

/-- The first active line of a frame of an output (R297, R306). -/
def firstLine (n : Nat) (s : State) : State :=
  let o := s.outp n
  if !rasterRuns o || o.comp == .member || o.boundary.isNone then s
  else
    let e := phaseOf s n
    let locked := e.natAbs ≤ 4 && o.lastSync.isSome
    let m : RasterMode := match o.raster with
      | .starting => .locked
      | .toLocked => if locked then .locked else .slewing
      | .slewing => if e.natAbs < 16 && o.lastSync.isSome then .locked else .slewing
      | .toCommand => .command
      | m => m
    let s := s.setOutp n { o with
      raster := m, phaseError := e, frameCount := (o.frameCount + 1) % 2 ^ 32, lastFrame := s.dt
      irregular := if o.cutNext then o.irregular + 1 else o.irregular, cutNext := false }
    let entering := o.raster = .toCommand
    let s := if entering then
        (pushBegins n true (allTiles (s.rasterOf n)) s).modOutp n fun o => { o with pushFrame := true, pushLive := true } else s
    let s := if entering then s.each (match s.engineStream n with
        | some k => [k]
        | none => []) fun s k =>
          let a := s.rasterOf n
          sendFlow k 0x10 (pack [(9, k), (14, 0), (14, 0), (14, raWidth a), (14, raHeight a), (1, 1),
            (1, 1), (16, o.pushes % 65536), (37, 0)]) s else s
    let s := if o.modeDue then
        (s.modOutp n fun o => { o with modeDue := false }).raise (Ev.modeChangeDone n) [n, raMode (s.rasterOf n), ofBool locked] else s
    let s := leaveFirst n o.raster s
    if m = .command ∧ !entering then s else outFlip n s.dt s

def execFirstActiveLine (t : Nat) (b : Bnd) (s : State) : Res :=
  let s := s.begin t
  .next (match b with
    | .output n => firstLine n s
    | .stream k => streamFeed k (flipTakes s.dt b (s.setSend k { s.send k with next := 0, start := some s.dt, late := [] }))
    | .window _ => flipTakes s.dt b s)

/-- The data of line j leave: in a raster that sends frames, or in a full push that goes out as it is composed. -/
def lineLeaves (o : OutState) : Bool :=
  composes o && (match o.raster with
    | .locked | .slewing | .holdover | .mismatch => o.push.isNone
    | .toCommand => true
    | .command => o.pushLive
    | _ => false)

/-- Lines of Spine layers are kept for concealment, and concealed lines counted (R268). -/
def noteLayers (n j : Nat) (late : List Nat) (s : State) : State :=
  s.each (shownOn s n j (List.range 24)) fun s i =>
    let l := s.layerOf n i
    let missing := spineMissing s n i j late
    let s := if missing || sourceConcealed s n i j then
        s.setLayer n i { s.layer n i with concealed := (s.layer n i).concealed + 1 } else s
    if missing || !streamedSpine s n i then s
    else
      let d := j - lrY l
      let kept := concealPut (s.force (Reg.outCompSetup n)) ((layerLine s n i j late).map (·.1))
      let lines := ((tget (fun _ => []) (s.outp n).conceal (i - 16)).filter fun e => e.1 != d) ++ [(d, kept)]
      s.modOutp n fun o => { o with conceal := tset (fun _ => []) o.conceal (i - 16) lines }

/-- Line j of an output is blended (R248, R258). -/
def blendLine (n j : Nat) (late : List Nat) (s : State) : State :=
  let line := composeLine s n j late
  let hurt := (shownOn s n j (List.range 24)).filter fun i => spineMissing s n i j late || sourceConcealed s n i j
  let o := s.outp n
  let s := s.whenever (lineLeaves o) (leaveLine n j late line)
  let s := noteLayers n j late (regionLine n j line hurt s)
  if o.raster = .command ∨ o.raster = .toCommand then tileLine n j line s else s

/-- Layers whose buffer has become DAMAGED while it is shown (R263). -/
def damageOff (n j : Nat) (s : State) : State :=
  s.each (List.range 24) fun s i =>
    match s.layerRoute n i with
    | some r =>
      if readsDamaged s r (s.layerOf n i) && (s.layer n i).mode == .shown then layerOff n i j .offDamaged s else s
    | none => s

/-- Chase reads come to line j of an output (R166): its fetch deadline is one line before its blend. -/
def chaseLines (n j : Nat) (deadline : Time) (s : State) : State :=
  s.each (List.range 24) fun s i =>
    let l := s.layerOf n i
    match s.layerRoute n i with
    | some r => if lrEnable l && onLine (lrY l) (lrH l) j then chaseLine r (j - lrY l) (lrH l) deadline s else s
    | none => s

/-- Units of stored routes come to the first line of their layer (R190). -/
def unitsRead (n j : Nat) (s : State) : State :=
  s.each (List.range 24) fun s i =>
    let l := s.layerOf n i
    match s.layerRoute n i with
    | some r => if lrEnable l && lrY l == j && rKind (s.route r).image == 2 then unitReads r s else s
    | none => s

/-- After the last active line every fetch of the frame is done and its tokens are returned (R190); the frames of a push keep theirs
until the boundary (R295). -/
def fetchesDone (n j : Nat) (s : State) : State :=
  let o := s.outp n
  if j + 1 ≠ raHeight (s.rasterOf n) ∨ o.raster = .command ∨ o.raster = .toCommand then s
  else s.each (List.range 24) fun s i =>
    match s.layerRoute n i with
    | some r => shownRead r s
    | none => s

/-- Layers fed through units that miss their deadline (R173). -/
def linesLate (n j : Nat) (late : List Nat) (s : State) : State :=
  s.each late.eraseDups fun s i =>
    let l := s.layerOf n i
    match s.layerRoute n i with
    | some r =>
      if lrEnable l && onLine (lrY l) (lrH l) j && rGang (s.route r).image != 0 && (shownSource s r).isSome then lineLate r s else s
    | none => s

def execOutputLineStart (t n line : Nat) (late : List Nat) (s : State) : Res :=
  let s := s.begin t
  let o := s.outp n
  .next (if !(rasterRuns o && o.boundary.isSome && composes o) || decide (raHeight (s.rasterOf n) ≤ line) then s
    else
      let s := if line = 0 then chaseLines n 0 (s.dt - raLines (s.rasterOf n) 1) s else s
      let s := unitsRead n line s
      let s := damageOff n line (underruns n line late (linesLate n line late s))
      let s := blendLine n line late s
      let s := s.modOutp n fun o => { o with nextLine := line + 1 }
      fetchesDone n line (chaseLines n (line + 1) s.dt s))

/-- The push in flight has completed (R294, R297, R300). -/
def execPushDone (t n : Nat) (s : State) : Res :=
  let s := s.begin t
  .next (match (s.outp n).push with
    | none => s
    | some _ =>
      let s := returnAll (pushReader n) (s.modOutp n fun o => { o with push := none })
      if (s.outp n).raster = .toLocked then rasterStart n s else rasterMode n s)

/-- A sync period is within the pull range (R287). -/
def inPull (a period : Nat) : Bool :=
  let p := raPeriod a
  decide (1000 * period ≤ 1005 * p ∧ 995 * p ≤ 1000 * period)

/-- A sync event (R287, R290, R297). -/
def execSyncEvent (t n : Nat) (s : State) : Res :=
  let s := s.begin t
  let o := s.outp n
  let a := s.rasterOf n
  .next (if raMode a ≠ 1 ∨ !rasterRuns o then s
    else
      let good : Bool := match o.lastSync with
        | some y => inPull a (s.dt - y)
        | none => false
      let first := o.lastSync.isNone
      let out := if good || first then 0 else o.outOfRange + 1
      let period := match o.lastSync with
        | some y => if good then s.dt - y else o.syncPeriod
        | none => o.syncPeriod
      let o := { o with lastSync := some s.dt, syncPeriod := period, outOfRange := out }
      let o := match o.raster with
        | .holdover | .mismatch =>
          if !good then o else if raCut a then { o with raster := .locked, cutNext := true } else { o with raster := .slewing }
        | .locked | .slewing => if 2 ≤ out then { o with raster := .mismatch, outOfRange := 0 } else o
        | _ => o
      s.setOutp n o)

/-- No sync event within its time (R290, R297). -/
def execSyncTimeout (t n : Nat) (s : State) : Res :=
  let s := s.begin t
  let o := s.outp n
  let a := s.rasterOf n
  let p := raPeriod a
  let lost : Bool := match o.raster with
    | .locked | .slewing => decide (2 * (o.lastSync.getD o.modeDt + p) + p ≤ 2 * s.dt)
    | .starting | .toLocked => decide (o.modeDt + 4 * p ≤ s.dt) && o.lastSync.isNone
    | _ => false
  .next (if raMode a = 1 ∧ lost then s.setOutp n { o with raster := .holdover } else s)

def execOutCommit (t : Nat) (src : Src) (n : Nat) (s : State) : Res :=
  .next (answer src (Reg.outCommit n) true (outCommitOp n) (s.begin t))

def rasterClearLateOp (n : Nat) (s : State) : State × Nat :=
  (s.modOutp n fun o => { o with commitLate := false }, stDone)

def execRasterClearLate (t : Nat) (src : Src) (n : Nat) (s : State) : Res :=
  .next (answer src (Reg.outRasterControl n) false (rasterClearLateOp n) (s.begin t))

def rasterClearCountsOp (n : Nat) (s : State) : State × Nat :=
  (s.modOutp n fun o => { o with lateCount := 0, irregular := 0 }, stDone)

def execRasterClearCounts (t : Nat) (src : Src) (n : Nat) (s : State) : Res :=
  .next (answer src (Reg.outRasterControl n) false (rasterClearCountsOp n) (s.begin t))

def resetRegionsOp (n : Nat) (s : State) : State × Nat :=
  (s.each (List.range 8) fun s r =>
      endAlarm n r (s.setRegion n r { s.region n r with srcRun := 0, devRun := 0 }), stDone)

def execRasterResetRegions (t : Nat) (src : Src) (n : Nat) (s : State) : Res :=
  .next (answer src (Reg.outRasterControl n) false (resetRegionsOp n) (s.begin t))

/-- OUT_COMP_CONTROL 0x01 (R277, R278). -/
def outDisableOp (n : Nat) (s : State) : State × Nat :=
  let o := s.outp n
  let c0 := s.liveImages.any fun r => rToLayer r && rEngine r == n && rClass r == 0
  if c0 || s.zonesOf n != [] then (s, stValue)
  else match o.comp with
    | .active =>
      (qsChanged qsOut n (s.setOutp n { o with
        comp := .draining, drainEnd := s.dt + raPeriod (s.rasterOf n) + ms, reEnable := false }), stDone)
    | .draining => (s.setOutp n { o with reEnable := false }, stDone)
    | _ => (s, stDone)

/-- OUT_COMP_CONTROL 0x02 (R277, R595). -/
def outEnableOp (n : Nat) (s : State) : State × Nat :=
  let o := s.outp n
  match o.comp with
  | .idle => (recheck (qsChanged qsOut n (s.setOutp n { o with comp := .active })), stDone)
  | .draining => (s.setOutp n { o with reEnable := true }, stDone)
  | _ => (s, stDone)

/-- OUT_COMP_CONTROL 0x03 (R128, R277, R278). -/
def outRetestOp (n : Nat) (pass : Bool) (s : State) : State × Nat :=
  let o := s.outp n
  if o.comp ≠ .isolated then (s, stValue)
  else if pass then
    (recheck (portReturned (104 + n / 4) (qsChanged qsOut n (s.setOutp n { o with
      comp := if o.lead.isSome then .member else .active }))), stDone)
  else (s, stDone)

def execOutCompDisable (t : Nat) (src : Src) (n : Nat) (s : State) : Res :=
  .next (answer src (Reg.outCompControl n) false (outDisableOp n) (s.begin t))

def execOutCompEnable (t : Nat) (src : Src) (n : Nat) (s : State) : Res :=
  .next (answer src (Reg.outCompControl n) false (outEnableOp n) (s.begin t))

def execOutCompRetest (t : Nat) (src : Src) (n : Nat) (pass : Bool) (s : State) : Res :=
  .next (answer src (Reg.outCompControl n) false (outRetestOp n pass) (s.begin t))

def outClearOp (n : Nat) (s : State) : State × Nat :=
  let s := s.modOutp n fun o => { o with underruns := 0, frames := 0 }
  (s.each (List.range 24) fun s i => s.setLayer n i { s.layer n i with underruns := 0 }, stDone)

def execOutCompClearCounters (t : Nat) (src : Src) (n : Nat) (s : State) : Res :=
  .next (answer src (Reg.outCompControl n) false (outClearOp n) (s.begin t))

end Sys2Proof.Machine
end

