-- ==== Sys2Proof/Machine/Flits.lean ====
section
/-! DEFINITION. Flits of the shared plane (03_fabric.md): owners of ports, classes and headers, queues, arbitration and the load of
ports (R114 to R120, R124, R129, R130). -/

namespace Sys2Proof.Machine

/-! Ports and their owners (R101, R114). -/

/-- The output engines of a compositor cluster. -/
def clusterEngines (c : Nat) : List Nat := (List.range 4).map (4 * c + ·)

/-- What the owner of a shared port lets through: 0 Active, 1 Draining, 2 Idle (R127, R129). -/
def portOwner (s : State) (p : Nat) : Nat :=
  let code (draining idle : Bool) : Nat := if idle then 2 else if draining then 1 else 0
  if p < 32 then 0
  else if p < 80 then
    let m := (s.unit (p - 32)).mode
    code (m == .draining) (m == .idle || m == .isolated)
  else if p < 96 then
    let m := (s.engine (p - 80)).mode
    code (m == .draining) (m == .idle || m == .isolated)
  else if p < 104 then
    let m := (s.chan (p - 96)).mode
    code (m == .evacuating) (m == .retired || m == .retraining)
  else if p < 120 then
    let ms := (clusterEngines (p - 104)).map fun n => (s.outp n).comp
    let still (m : CompMode) : Bool := m == .idle || m == .isolated
    code (ms.all fun m => still m || m == .draining) (ms.all still)
  else 0

/-- A converter unit is attached to the Spine plane: it serves a C0 route (R103). -/
def onSpine (s : State) (u : Nat) : Bool :=
  match (s.unit u).holder with
  | some r => rClass (s.route r).image == 0
  | none => false

/-- A port that passes no flit: isolated, its owner Idle, or a converter unit that is attached to the other plane. -/
def portShut (s : State) (p : Nat) : Bool :=
  (s.port p).isolated || portOwner s p == 2 || (decide (32 ≤ p ∧ p < 80) && onSpine s (p - 32))

/-- A flit is discarded at a port (R127, R129). -/
def discardFlits (p n : Nat) (s : State) : State := s.modPort p fun v => { v with discard := v.discard + n }

/-! Headers (R116, R117). -/

def useFlow : FlitUse → Nat
  | .data r => r
  | .write _ _ _ t | .memory _ t | .dap t | .upload t | .diagnostics t => t % 2 ^ 11

/-- CLASS of a flit: that of the route or request; 0 does not occur on the shared plane. -/
def useClass (s : State) : FlitUse → Nat
  | .data r | .write r _ _ _ | .memory r _ => rClass (s.route r).image
  | .dap _ => 1
  | .upload _ | .diagnostics _ => 3

/-- The CRC-8 of a flit, over its payload and then bits 8 to 31 of its header. -/
def flitCrc (header payload : Nat) : Nat := crc8 (bitsUp 256 payload ++ bitsUp 24 (header / 256))

/-- The header that an ingress puts before a flit. -/
def flitHeader (s : State) (f : Flit) : Nat :=
  let h := pack [(7, f.dest), (2, useClass s f.use), (2, f.pos), (11, useFlow f.use), (2, 0), (8, 0)]
  h + flitCrc h f.payload

/-- POS of a header. -/
def flitPos (header : Nat) : Nat := fld header 22 21

/-! Queues (R118, R129). -/

def State.flitQueue (s : State) (egress ingress : Nat) : List Queued := tget (fun _ => []) s.fab.queues (128 * egress + ingress)
def State.setFlitQueue (s : State) (egress ingress : Nat) (l : List Queued) : State :=
  { s with fab := { s.fab with queues := tset (fun _ => []) s.fab.queues (128 * egress + ingress) l } }
def State.round (s : State) (egress : Nat) : Round := tget (fun _ => {}) s.fab.rounds egress
def State.setRound (s : State) (egress : Nat) (v : Round) : State :=
  { s with fab := { s.fab with rounds := tset (fun _ => {}) s.fab.rounds egress v } }

/-- Ingress ports with a flit for an egress. -/
def waitingAt (s : State) (egress : Nat) : List Nat := (List.range 128).filter fun i => s.flitQueue egress i != []

/-- A flit that an ingress offers. Ports that are shut discard it; a Draining owner admits flits of lines already begun alone; a
flit without a class of the shared plane is none. -/
def offerFlit (f : Flit) (s : State) : State :=
  let line := (f.dest, f.ingress, useFlow f.use)
  let known := s.fab.begun.contains line
  let opens := decide (f.pos = 1 ∨ f.pos = 3)
  let drains := portOwner s f.dest == 1 || portOwner s f.ingress == 1
  let cls := useClass s f.use
  if cls = 0 ∨ 3 < cls then s
  else if portShut s f.ingress then discardFlits f.ingress 1 s
  else if portShut s f.dest then discardFlits f.dest 1 s
  else if drains && (opens || !known) then s
  else
    let begun := if f.pos = 1 then (if known then s.fab.begun else s.fab.begun ++ [line])
      else if f.pos = 2 then s.fab.begun.filter fun x => x != line else s.fab.begun
    let s : State := { s with fab := { s.fab with begun := begun } }
    let h := flitHeader s f
    let q : Queued := { cls := cls, header := h ^^^ (f.flips % 2 ^ 32), payload := f.payload ^^^ (f.flips / 2 ^ 32), use := f.use }
    let r := s.round f.dest
    (s.setFlitQueue f.dest f.ingress (s.flitQueue f.dest f.ingress ++ [q])).setRound f.dest
      { r with idle := if r.idle.isNone then some s.dt else r.idle }

/-! Arbitration (R119, R120). -/

/-- The weights as they stand, of C1 to C3. -/
def fabWeights (s : State) : List Nat := [s.reg Reg.fabWeightC1, s.reg Reg.fabWeightC2, s.reg Reg.fabWeightC3]

/-- An egress has a flit of class c waiting at ingress i. -/
def classWaits (s : State) (egress c i : Nat) : Bool := (s.flitQueue egress i).any fun q => q.cls == c

/-- The next of a rising list of ports after `last`, in turn. -/
def nextInTurn (l : List Nat) (last : Nat) : Option Nat :=
  match l.find? fun i => decide (last < i) with
  | some i => some i
  | none => l.head?

/-- The class that an egress serves next with the credits of its round: in a round the classes come in the order C1, C2, C3, each while
it has credits and flits wait (log entry 54); when none has both, the next round begins, with the weights as they stand. -/
def nextClass (waits : List Nat) (credits weights : List Nat) : Option (Nat × List Nat) :=
  match waits.find? fun c => nth credits (c - 1) 0 != 0 with
  | some c => some (c, credits)
  | none => waits.head?.map fun c => (c, weights)

/-- The first flit of class c leaves a queue. -/
def popClass (c : Nat) : List Queued → Option Queued × List Queued
  | [] => (none, [])
  | q :: qs => if q.cls = c then (some q, qs) else let r := popClass c qs; (r.1, q :: r.2)

/-- The flit that an egress serves next, and the state without it. -/
def serveFlit (egress : Nat) (s : State) : Option Queued × State :=
  let ports := waitingAt s egress
  let waits := [1, 2, 3].filter fun c => ports.any (classWaits s egress c)
  let r := s.round egress
  match nextClass waits r.credits (fabWeights s) with
  | none => (none, s)
  | some (c, credits) =>
    match nextInTurn (ports.filter (classWaits s egress c)) (nth r.last (c - 1) 0) with
    | none => (none, s)
    | some i =>
      let x := popClass c (s.flitQueue egress i)
      let s := s.setFlitQueue egress i x.2
      (x.1, s.setRound egress {
        credits := credits.set (c - 1) (nth credits (c - 1) 0 - 1), last := r.last.set (c - 1) i
        idle := if waitingAt s egress = [] then none else some s.dt })

/-- Everything queued for an egress goes; what went. -/
def flushEgress (egress : Nat) (s : State) : List Queued × State :=
  let ports := waitingAt s egress
  (ports.flatMap (s.flitQueue egress), (s.each ports fun s i => s.setFlitQueue egress i []).setRound egress
    { s.round egress with idle := none })

/-! Load (R124, R130). -/

/-- Flits that the egress passed in the ms that ended last, seen at DT t, with the ms under way and its count (log entry 54). -/
def loadAt (v : Port) (t : Time) : Nat × Time × Nat :=
  let now := t / ms * ms
  if now = v.loadSince then (v.load, v.loadSince, v.loadNow)
  else if now = v.loadSince + ms then (v.loadNow, now, 0) else (0, now, 0)

/-- A flit passes an egress. -/
def countFlit (p : Nat) (s : State) : State :=
  s.modPort p fun v =>
    let l := loadAt v s.dt
    { v with flits := v.flits + 1, load := l.1, loadSince := l.2.1, loadNow := l.2.2 + 1 }

/-- Flits that move in one cycle of a port (R115). -/
def portWidth (p : Nat) : Nat := if 96 ≤ p ∧ p < 120 then 4 else 1

/-- A load in 0.1 % of what ports of a width pass in 1 ms at the measured cycle times: `flits` × ps. -/
def loadShare (flits width : Nat) : Nat := min 65535 (1000 * flits / (width * 10 ^ 9))

/-- FAB_VIEW_LOAD of a port. -/
def portLoad (s : State) (p : Nat) : Nat :=
  loadShare ((loadAt (s.port p) s.dt).1 * s.reg (Reg.fabSpeed (p / 32))) (portWidth p)

/-- FAB_LOAD_TOTAL. -/
def fabricLoad (s : State) : Nat :=
  loadShare (sumOf (s.fab.ports.map fun e => (loadAt e.2 s.dt).1 * s.reg (Reg.fabSpeed (e.1 / 32))))
    (sumOf ((List.range 128).map portWidth))

/-- Ports with the parts of a rate that cross them. -/
abbrev Node := List (Nat × Nat)

/-- What of a rate crosses port p. -/
def nodeShare (n : Node) (rate p : Nat) : Nat :=
  let parts := sumOf ((n.filter fun x => x.1 == p).map (·.2))
  if parts = 0 then 0 else divUp (rate * parts) (max 1 (sumOf (n.map (·.2))))

/-- Lanes, units, engines, memory channels of a pool and the cluster of an output as nodes. -/
def laneNode (d : Nat) : Node := (List.range (2 ^ dBond d)).map fun i => (dLane d + i, 1)
def unitNode (r : Nat) : Node := (rUnits r).map fun u => (32 + u, 1)
def memoryNode (s : State) (p : Nat) : Node := (List.range 8).map fun k => (96 + k, (s.poolShare p k).1)

/-- Average payload rates in bit/s: of a picture format, and of a compressed one with blocks of `words` words. -/
def pictureRate (d : Nat) : Nat := dWidth d * dHeight d * samples2 (dChroma d) * depthBits (dDepth d) * dRate d / 200
def codedRate (d words : Nat) : Nat := codedFolios (dWidth d) (dChroma d) words * 128 * dHeight d * dRate d / 100

/-- A rate that goes through nodes one after another, as transfers from node to node. -/
def legsOf (rate : Nat) : List Node → List (Node × Node × Nat)
  | a :: b :: rest => (a, b, rate) :: legsOf rate (b :: rest)
  | _ => []

/-- What an input stream brings from its lanes into a node: through its engine when it is compressed. -/
def streamLegs (s : State) (k : Nat) (dest : Node) : List (Node × Node × Nat) :=
  let i := s.ins k
  match i.engine with
  | some e => (laneNode i.desc, [(80 + e, 1)], codedRate i.desc i.blockWords) :: legsOf (pictureRate i.desc) [[(80 + e, 1)], dest]
  | none => legsOf (pictureRate i.desc) [laneNode i.desc, dest]

/-- The destination of a route as a node, with the rate that it takes in. -/
def destNode (s : State) (r : Nat) : Node × Nat :=
  if rToLayer r then
    let t := destTiming s s.outTables r
    ([(104 + rEngine r / 4, 1)], t.width * t.height * 36 * t.rate / 100)
  else let d := s.outDesc (fld (rDst r) 7 0); (laneNode d, pictureRate d)

/-- The transfers of one configured route (R124): what it brings to its units, from them to its destination, and through the frame
store. Pictures in stores and on the way have the rate of their samples. -/
def routeLegs (s : State) (r : Nat) : List (Node × Node × Nat) :=
  let units := unitNode r
  let dest := destNode s r
  let out (from_ : Node) : List (Node × Node × Nat) :=
    if rKind r = 1 ∧ rComp r < 16 then
      let d := s.outDesc (fld (rDst r) 7 0)
      [(from_, [(80 + rComp r, 1)], pictureRate d), ([(80 + rComp r, 1)], dest.1, codedRate d (s.blockBytes (rComp r) / 4))]
    else [(from_, dest.1, dest.2)]
  match rKind r, s.srcStream (rSrcType r) (rSrc r) with
  | 0, some k => [(laneNode (s.ins k).desc, dest.1, if (s.ins k).engine.isSome then codedRate (s.ins k).desc (s.ins k).blockWords
      else pictureRate (s.ins k).desc)]
  | 1, some k => streamLegs s k units ++ out units
  | 2, _ => match s.sourcePool (rSrcType r) (rSrc r) with
    | some p =>
      if rDstType r = 2 then []
      else if units = [] then [(memoryNode s p, dest.1, readDemand s r * 8 / 100)]
      else [(memoryNode s p, units, readDemand s r * 8 / 100), (units, dest.1, dest.2)]
    | none => []
  | _, _ => []

/-- The transfers of the frame store's writing, once for each stream and pool. -/
def writeLegs (s : State) (images : List Nat) : List (Node × Node × Nat) :=
  (((storedImages images fun _ => true).flatMap (writesOf s)).eraseDups).flatMap fun w =>
    let e := pComp (s.poolRec w.2.1)
    let bytes := s.poolFrame (s.poolRec w.2.1) * w.2.2 * 8 / 100
    if e < 16 then streamLegs s w.1 [(80 + e, 1)] ++ [([(80 + e, 1)], memoryNode s w.2.1, bytes)]
    else streamLegs s w.1 (memoryNode s w.2.1)

/-- All transfers of the configured routes of C1 to C3 on the shared plane. -/
def fabricLegs (s : State) : List (Node × Node × Nat) :=
  let images := s.liveImages.filter fun r => rClass r != 0
  images.flatMap (routeLegs s) ++ writeLegs s images

/-- D_p of R124 in bit/s: the larger of what enters the fabric at port p and what leaves there. -/
def portDemand (legs : List (Node × Node × Nat)) (p : Nat) : Nat :=
  max (sumOf (legs.map fun l => nodeShare l.1 l.2.2 p)) (sumOf (legs.map fun l => nodeShare l.2.1 l.2.2 p))

/-- The demands of all ports that have one. -/
def portDemands (s : State) : List (Nat × Nat) :=
  match fabricLegs s with
  | [] => []
  | legs => ((List.range 128).map fun p => (p, portDemand legs p)).filter fun d => d.2 != 0

end Sys2Proof.Machine
end

