-- ==== Sys2Proof/Machine/Fabric.lean ====
section
/-! DEFINITION. The fabric (03_fabric.md): flits of the shared plane, Spine transfers, stalls and hangs, retests, and the
speed of the shared plane (R98 to R131). -/

namespace Sys2Proof.Machine

/-! Failures (R127). -/

/-- The failures of the last second, with one more now (R127). -/
def recentWith (now : Time) (l : List Time) : List Time := now :: l.filter fun t => decide (now < t + sec)

/-- The owner of a hung port goes Idle (R127). -/
def ownerStops (p : Nat) (s : State) : State :=
  if p < 32 then recheck s
  else if p < 80 then unitIsolate (p - 32) s
  else if p < 96 then engineIsolate (p - 80) s
  else if p < 104 then recheck (retireNow (p - 96) s)
  else if p < 120 then s.each (clusterEngines (p - 104)) fun s n => outIsolate n s
  else s

/-! The shared plane. -/

/-- A data flit of a route was lost at an egress: its line is concealed at the destination, the audio of its stream is silent for a
moment at the audio engine (R46, R127, R393). -/
def dataLost (p r : Nat) (s : State) : State :=
  let image := (s.route r).image
  if 120 ≤ p then match s.srcStream (rSrcType image) (rSrc image) with
    | some k => audioGap k s
    | none => s
  else if rKind image = 2 then storedHurt r s else routeHurt r s

/-- What a lost flit served (R127): a burst that is not written damages its line; the requester of anything else that is no data
retries. -/
def flitLost (p : Nat) (use : FlitUse) (s : State) : State :=
  match use with
  | .data r => dataLost p r s
  | .write _ key offset _ => lineDamaged key offset s
  | _ => s

/-- A check fails at a shared egress (R127). -/
def flitFails (p : Nat) (use : FlitUse) (s : State) : State :=
  let v := s.port p
  let recent := recentWith s.dt v.recent
  let onset := !v.degraded && decide (s.reg Reg.fabCrcLimit ≤ recent.length)
  let s := s.setPort p { v with crc := v.crc + 1, recent := recent, degraded := v.degraded || onset }
  let s := (flitLost p use s).raise Ev.flitCrcShared [p]
  if onset then s.raise Ev.portDegraded [p] else s

/-- The folios that a data flit brings to a lane: two payloads, the first in the lower half, and one in the last flit of a line of an
odd number of folios (log entry 55). They fill slots of the lane that the Spine plane does not own (R98). -/
def flitFolios (p : Nat) (q : Queued) (s : State) : State :=
  match q.use with
  | .data r =>
    let image := (s.route r).image
    let k := fld (rDst image) 7 0
    if rKind image ≠ 0 ∨ rDstType image ≠ 0 ∨ (dLanes (s.outDesc k)).contains p = false then s
    else
      let odd := match s.srcStream (rSrcType image) (rSrc image) with
        | some i => streamLineFolios (s.ins i) % 2 == 1
        | none => false
      let put (payload : Nat) (s : State) : State := sendFolio k (dataFolio payload) (s.emit (.data p k payload))
      let s := put (q.payload % 2 ^ 128) s
      if odd && decide (2 ≤ flitPos q.header) then s else put (q.payload / 2 ^ 128) s
  | _ => s

/-- A flit at its egress (R116, R127, R129). -/
def flitArrives (p : Nat) (q : Queued) (s : State) : State :=
  if portShut s p || (decide (p < 32) && (s.lane p).mode != .ready) then discardFlits p 1 s
  else if fld q.header 7 0 = flitCrc q.header q.payload then
    let s := countFlit p s
    if p < 32 then flitFolios p q s else s
  else flitFails p q.use s

/-- Flits are offered, and an egress serves its next one (R118, R119). Nothing moves while the shared plane is without power. -/
def execSharedFlitArrival (t port : Nat) (offers : List Flit) (s : State) : Res :=
  let s := s.begin t
  .next (if !s.pwr.bulk then s
    else
      let x := serveFlit port (s.each offers fun s f => offerFlit f s)
      match x.1 with
      | some q => flitArrives port q x.2
      | none => x.2)

/-- Flits queued for an egress are discarded; consumers conceal what they carried (R127). -/
def flushFlits (p : Nat) (s : State) : State :=
  let x := flushEgress p s
  x.2.each x.1 (fun s q => flitLost p q.use s) |> discardFlits p x.1.length

/-- An egress that accepts nothing for FAB_STALL_LIMIT (R127). -/
def execEgressStall (t port : Nat) (s : State) : Res :=
  let s := s.begin t
  let stalled : Bool := match (s.round port).idle with
    | some u => decide (u + s.reg Reg.fabStallLimit * us ≤ s.dt)
    | none => false
  .next (if !s.pwr.bulk || (s.port port).isolated || !stalled then s
    else (flushFlits port s).raise Ev.egressStall [port, (flushEgress port s).1.length])

/-! The Spine plane (R102, R112, R113). -/

/-- A check fails at a Spine egress: on a lane the slot carries an IDLE folio and the line ends in a POISON; elsewhere the
line is concealed. -/
def spineFails (egress route : Nat) (s : State) : State :=
  let port := 128 + egress
  let recent := recentWith s.dt (tget (fun _ => []) s.fab.spineRecent port)
  let onset := !s.fab.spineDegraded.contains port && decide (s.reg Reg.fabCrcLimit ≤ recent.length)
  let s : State := { s with fab := { s.fab with
    spineRecent := tset (fun _ => []) s.fab.spineRecent port recent
    spineDegraded := if onset then s.fab.spineDegraded ++ [port] else s.fab.spineDegraded } }
  let s := s.count Reg.spineCrc 1
  let s := if egress < 32 then sendIdle egress s else s
  let s := if egress < 96 then dataLost egress route s
    else match s.srcStream (rSrcType (s.route route).image) (rSrc (s.route route).image) with
      | some k => storeHurt k s
      | none => s
  let s := s.raise Ev.flitCrcSpine [port, route]
  if onset then s.raise Ev.portDegraded [port] else s

/-- The probe of R113. -/
def probe (route latency : Nat) (s : State) : State :=
  let x := s.route route
  if s.reg Reg.spineProbeRoute ≠ route ∨ rClass x.image ≠ 0 ∨ rKind x.image ≠ 0 then s
  else
    let ps := 100 * latency
    let n := s.reg Reg.spineProbeCount
    let sum := s.fab.probeSum + ps
    let s : State := { s with fab := { s.fab with probeSum := sum } }
    let s := s.setReg Reg.spineProbeMin (if n = 0 then ps else min ps (s.reg Reg.spineProbeMin))
    let s := s.setReg Reg.spineProbeMax (max ps (s.reg Reg.spineProbeMax))
    (s.setReg Reg.spineProbeMean (roundTo sum (n + 1)).toNat).setReg Reg.spineProbeCount (n + 1)

/-- A Spine port that passes transfers: it is not isolated, a converter unit is attached (R103), and the attachments of units and
DRAM channels have power (R129). Ports as `spineIsolated` counts them. -/
def spineOpen (s : State) (p : Nat) : Bool :=
  let unit : Option Nat := if 32 ≤ p ∧ p < 80 then some (p - 32) else if 176 ≤ p ∧ p < 224 then some (p - 176) else none
  let memory := decide (80 ≤ p ∧ p < 88 ∨ 224 ≤ p ∧ p < 232)
  !s.fab.spineIsolated.contains p && ((unit.isNone && !memory) || s.pwr.bulk) && (match unit with
    | some u => onSpine s u
    | none => true)

/-- Slots 1 to 511 of a transmit calendar that give a flow class C0. -/
def c0Slots (cal : List Nat) (flow : Nat) : List Nat :=
  ((List.range 511).map (· + 1)).filter fun k => let e := nth cal (k - 1) 0; isC0 e && entryFlow e == flow

/-- The next of a flow's slots after a place counted over turns of 512. -/
def nextSlot (slots : List Nat) (at_ : Nat) : Nat :=
  let turn := at_ / 512
  match slots.find? fun k => decide (at_ < turn * 512 + k) with
  | some k => turn * 512 + k
  | none => (turn + 1) * 512 + slots.headD 0

/-- A folio of a pass-through route fills its C0 slot (R98, R102); one that is late, and those that follow it while they meet a slot
that is taken, go in the next slot that the route owns (R112). -/
def fillSlot (lane : Nat) (x : Transfer) (s : State) : State :=
  let image := (s.route x.route).image
  let flow := fld (rDst image) 7 0
  let slots := c0Slots (s.entries true lane) flow
  if (s.route x.route).mode = .empty ∨ rKind image ≠ 0 ∨ rDstType image ≠ 0 ∨ slots.contains x.slot = false then s
  else
    let nominal := (s.link lane).txTurn * 512 + x.slot
    let behind : Option Nat := match tget (fun _ => none) s.fab.lag x.route with
      | some v => if nominal ≤ v ∧ v < nominal + 1024 then some v else none
      | none => none
    let at_ := match behind with
      | some v => nextSlot slots v
      | none => if x.late then nextSlot slots nominal else nominal
    let s : State := { s with fab := { s.fab with
      lag := tset (fun _ => none) s.fab.lag x.route (if x.late || behind.isSome then some at_ else none) } }
    sendFolio flow (dataFolio x.payload) (s.emit (.slotData lane (at_ % 512) flow (x.payload % 2 ^ 128)))

/-- The check of a transfer, over payload bits 0 to 127 and then slot bits 0 to 8 from 0; R102 gives the polynomial alone (log entry
56). -/
def transferCrc (payload slot : Nat) : Nat := crc8 (bitsUp 128 payload ++ bitsUp 9 slot)

/-- A transfer at its egress. -/
def transferArrives (egress : Nat) (x : Transfer) (s : State) : State :=
  if x.crc ≠ transferCrc x.payload x.slot then spineFails egress x.route s
  else
    let s := if egress < 32 then fillSlot egress x s else s
    let s := probe x.route x.latency s
    if x.late then s.raiseAs Ev.spineLate [x.route] .tied else s

/-- The transfer that an egress serves next, of those that ingress ports hold, in turn (R104). -/
def serveTransfer (egress : Nat) (s : State) : Option Transfer × State :=
  let held := tget (fun _ => []) s.fab.held egress
  match nextInTurn ((List.range 89).filter fun i => held.any fun x => x.ingress == i)
      (tget (fun _ => 88) s.fab.spineLast egress) with
  | none => (none, s)
  | some i =>
    let n := held.findIdx fun x => x.ingress == i
    (held[n]?, { s with fab := { s.fab with
      held := tset (fun _ => []) s.fab.held egress (held.eraseIdx n)
      spineLast := tset (fun _ => 88) s.fab.spineLast egress i } })

/-- Transfers are offered to an egress, which serves its next one. A port that is shut passes none. -/
def execSpineTransfer (t egress : Nat) (offers : List Transfer) (s : State) : Res :=
  let s := s.begin t
  .next (if !spineOpen s (128 + egress) then s
    else
      let more := offers.filter fun x => spineOpen s x.ingress
      let s : State := { s with fab := { s.fab with
        held := tset (fun _ => []) s.fab.held egress (tget (fun _ => []) s.fab.held egress ++ more) } }
      let r := serveTransfer egress s
      match r.1 with
      | some x => transferArrives egress x r.2
      | none => r.2)

/-! Hangs and retests (R127, R128). -/

/-- The owner of a hung Spine port goes Idle (R127). -/
def spineOwnerStops (p : Nat) (s : State) : State :=
  if 32 ≤ p ∧ p < 80 then unitIsolate (p - 32) s
  else if 176 ≤ p ∧ p < 224 then unitIsolate (p - 176) s
  else if 80 ≤ p ∧ p < 88 then recheck (retireNow (p - 80) s)
  else if 224 ≤ p ∧ p < 232 then recheck (retireNow (p - 224) s)
  else if 160 ≤ p ∧ p < 176 then recheck (s.each (clusterEngines (p - 160)) fun s n => outIsolate n s)
  else if p = 88 then s.each (List.range 32) fun s g => if (s.chime g).playing then chimeEnd g s else s
  else recheck s

/-- A handshake that does not complete within 1 µs: the port is isolated, its flits are discarded, and its owner goes Idle. -/
def execHandshakeTimeout (t : Nat) (spine : Bool) (port : Nat) (s : State) : Res :=
  let s := s.begin t
  .next (if spine then
      let s : State := { s with fab := { s.fab with
        spineIsolated := if s.fab.spineIsolated.contains port then s.fab.spineIsolated
          else s.fab.spineIsolated ++ [port]
        held := if 128 ≤ port then tset (fun _ => []) s.fab.held (port - 128) [] else s.fab.held } }
      spineOwnerStops port (s.raiseAs Ev.handshakeTimeout [port, 1] .tied)
    else
      let s := flushFlits port (s.modPort port fun v => { v with isolated := true })
      ownerStops port (s.raiseAs Ev.handshakeTimeout [port, 0] .tied))

/-- FAB_PORT_RESTORE 0x01 on the selected port. -/
def fabRestoreOp (pass : Bool) (s : State) : State × Nat :=
  let p := s.reg Reg.fabPortSelect
  if (s.port p).isolated && pass then (recheck (portReturned p s), stDone) else (s, stDone)

def execFabPortRestore (t : Nat) (src : Src) (pass : Bool) (s : State) : Res :=
  .next (answer src Reg.fabPortRestore false (fabRestoreOp pass) (s.begin t))

/-- FAB_STATS_CLEAR 0x01 (R130). -/
def fabStatsClearOp (s : State) : State × Nat :=
  let s := s.each (List.range 128) fun s p => s.modPort p fun v => { v with flits := 0, crc := 0, discard := 0 }
  let s : State := { s with fab := { s.fab with probeSum := 0 } }
  (s.clear [Reg.spineProbeMin, Reg.spineProbeMax, Reg.spineProbeMean, Reg.spineProbeCount, Reg.spineCrc], stDone)

def execFabStatsClear (t : Nat) (src : Src) (s : State) : Res :=
  .next (answer src Reg.fabStatsClear false fabStatsClearOp (s.begin t))

/-! Speed (R123 to R125). -/

/-- Payload bits of one cycle of a port, by 10^12: with a demand in bit/s their quotient is the required cycle in ps. -/
def portWork (p : Nat) : Nat := (if 96 ≤ p ∧ p < 120 then 1024 else 256) * 10 ^ 12

/-- The port of a list that needs the shortest cycle. -/
def tightest (l : List (Nat × Nat)) : Option (Nat × Nat) :=
  l.foldl (fun (b : Option (Nat × Nat)) x => match b with
    | none => if x.2 = 0 then none else some x
    | some y => if y.2 * portWork x.1 < x.2 * portWork y.1 then some x else some y) none

/-- The slack of a quadrant (R124). -/
def quadSlack (measured : Nat) (demands : List (Nat × Nat)) (q : Nat) : Int :=
  match tightest (demands.filter fun d => d.1 / 32 == q) with
  | some d => slackOf measured d.2 (portWork d.1)
  | none => 1000

/-- The port that SLACK_NEGATIVE names: the tightest of the quadrant with the least slack. -/
def slackPort (demands : List (Nat × Nat)) (slacks : List Int) (least : Int) : Nat :=
  match tightest (demands.filter fun d => d.1 / 32 == slacks.findIdx (· == least)) with
  | some d => d.1
  | none => 0

/-- The reporters' update with the demands of the ports: cycle times, slacks, and their events (R123 to R125). -/
def speedUpdate (speeds : List Nat) (demands : List (Nat × Nat)) (s : State) : State :=
  let slow := (List.range 4).filter fun q =>
    decide (s.reg (Reg.fabSpeed q) ≤ 2000) && decide (2000 < nth speeds q 0)
  let s := s.each (List.range 4) fun s q => s.setReg (Reg.fabSpeed q) (nth speeds q 0)
  let s := s.setReg Reg.fabSpeedWorst (speeds.foldl max (s.reg Reg.fabSpeedWorst))
  let slacks := (List.range 4).map fun q => quadSlack (nth speeds q 0) demands q
  let least := slacks.foldl min (slacks.headD 1000)
  let s := s.setReg Reg.fabSlackQuad (packRecords 16 (slacks.map (ofInt 16)))
  let s := s.setReg Reg.fabSlack (ofInt 16 least)
  let s := s.setReg Reg.fabReqCycle (match tightest demands with
    | some d => (2 * portWork d.1 + d.2) / (2 * max 1 d.2)
    | none => 0xFFFF)
  let run := if least < 0 then s.fab.negative + 1 else 0
  let s : State := { s with fab := { s.fab with negative := run } }
  let s := s.each slow fun s q => s.raise Ev.speedLow [32 * q, nth speeds q 0]
  if run = 10 then s.raise Ev.slackNegative [slackPort demands slacks least, ofInt 16 least] else s

def execFabSpeedUpdate (t : Nat) (speeds : List Nat) (s : State) : Res :=
  let s := s.begin t
  .next (if !s.pwr.bulk then s else speedUpdate speeds (portDemands s) s)

/-! Loss of lock, with what it takes along (R354, R369, 08 R312). -/

/-- Pushes of outputs whose stream lies on a lane are abandoned; the next is a full-frame push. -/
def abandonPushes (lane : Nat) (s : State) : State :=
  s.each ((s.comp.outs.filter fun o => o.2.push.isSome).map (·.1)) fun s n =>
    match s.engineStream n with
    | none => s
    | some k =>
      if !(dLanes (s.outDesc k)).contains lane then s
      else
        let s := returnAll (pushReader n) (s.modOutp n fun o => { o with push := none, fullDue := true })
        if (s.outp n).raster = .toLocked then rasterStart n s else rasterMode n s

/-- LOCK_LOST from READY; during a loop the loop stops with state 3 and the lane trains (R354, R369). -/
def execSignalLoss (t lane : Nat) (s : State) : Res :=
  let s := s.begin t
  let l := s.lane lane
  .next (match l.mode with
    | .ready => abandonPushes lane (lockLost lane s)
    | .loop =>
      let s := startTraining lane (s.setLane lane { l with
        lockLosses := l.lockLosses + 1, loop := { l.loop with until_ := none, lstate := 3 } })
      linkPhyDown lane (s.raise (Ev.lockLost lane) [lane])
    | _ => s)

end Sys2Proof.Machine
end

