-- ==== Sys2Proof/Machine/Turns.lean ====
section
/-! DEFINITION. Turns of the Phokis link: alignment and turn lock (R379, R380), calendar switches and bond members as TURN
folios show them (R415 to R419), stuffing (R384, R385), turn phasing (R105 to R108), and what a transmit turn carries
(R381, R400). -/

namespace Sys2Proof.Machine

/-! Output flows against their slots (R414, R420). -/

/-- The slots of a transmit calendar that an output stream's flow has, and those that its demand needs. -/
def flowFits (s : State) (cal rate : Nat) (auth : Bool) (k : Nat) : Bool :=
  let d := s.outDesc k
  let words := match s.liveImages.find? fun r => rDstType r == 0 && fld (rDst r) 7 0 == k with
    | some r => codedWords s r
    | none => 0
  decide (slotsNeeded (flowDemand d (streamFolios d words) auth) (2 ^ dBond d) rate ≤ flowSlots cal k)

/-- Output streams of a lane or bond that routes feed or that an engine drives. -/
def lanesFlows (s : State) (home : Nat) : List Nat :=
  (List.range 256).filter fun k =>
    let d := s.outDesc k
    outUsed d && dLane d == home &&
      (dEngineDriven d || s.liveImages.any fun r => rDstType r == 0 && fld (rDst r) 7 0 == k)

/-- Every transmit flow of a lane is checked against R414; routes that feed one that does not fit lose their source with
REASON 0x6 (R420). Output streams that already fit, or that no rate change has touched, are not listed. -/
def checkFlows (home : Nat) (all : Bool) (s : State) : State :=
  let l := s.link home
  let rate := (s.lane home).rate
  let bad := (lanesFlows s home).filter fun k =>
    (all || s.str.unfit.contains k) && !flowFits s l.txCal rate l.authenticated k
  let unfit := (s.str.unfit.filter fun k => dLane (s.outDesc k) != home) ++ bad
  if unfit = s.str.unfit then s else recheck { s with str := { s.str with unfit := unfit } }

/-- The link enters UP, and a rate change is complete (R420). -/
def linkEntersUp (lane : Nat) (resumed : Bool) (s : State) : State :=
  let s := linkUp lane resumed s
  if (s.link lane).rateNew then
    let s := (s.modLink lane fun l => { l with rateNew := false }).raise (Ev.rateChanged lane)
      [lane, (s.lane lane).rate]
    checkFlows (s.calLane lane) true s
  else s

/-! Calendar switches (R415, R416). -/

/-- A bond record may be used on a lane: its partner offers BOND, and the revision in force allows so many lanes (R403, R405). -/
def bondUsable (l : LinkLane) (r : Nat) : Bool :=
  !bondValid r || (capInUse l 1 && decide (fld r 25 23 ≤ fld l.peer0 47 45) && (decide (2 ≤ l.rev) || decide (bondSize r ≤ 4)))

/-- Bond records of a lowest lane apply at its calendar switch (R416). -/
def applyBonds (home : Nat) (s : State) : State :=
  s.each (List.range 16) fun s b =>
    let old := tget (fun _ => 0) s.eps.bonds b
    let new := s.reg (Reg.lnkBond b)
    let mine (r : Nat) : Bool := bondValid r && bondFirst r == home
    if old ≠ new ∧ (mine old || mine new) ∧ bondUsable (s.link home) new then
      { s with eps := { s.eps with bonds := tset (fun _ => 0) s.eps.bonds b new } }
    else s

/-- What follows from a new calendar of either direction on a lane or bond (R356, R366). -/
def calendarSwitched (home : Nat) (s : State) : State :=
  let s := applyBonds home s
  let s := s.each (s.bondLanes home) fun s n =>
    let since := if laneHasData s n then none else match (s.lane n).emptySince with
      | some t => some t
      | none => some s.dt
    s.modLane n fun l => { l with emptySince := since }
  calendarEmptied home s

/-- Phase records of a lane take effect at its calendar switch (R105). -/
def phaseSwitch (lane : Nat) (s : State) : State :=
  let new := record (s.reg Reg.spinePhaseTable) 0 32 lane
  let s := s.setForce Reg.spinePhaseTable (putFld (s.force Reg.spinePhaseTable) (32 * lane + 31) (32 * lane) new)
  if bit new 31 = false then s.setPhase lane {}
  else if (s.phase lane).source = some (fld new 30 26) then s.setPhase lane { s.phase lane with due := true }
  else s.setPhase lane { state := 1, source := some (fld new 30 26), due := true }

/-- A lane gives others its turn: it is READY, and its link has turn lock. -/
def turnGiven (s : State) (lane : Nat) : Bool := (s.lane lane).mode == .ready && linkLocked (s.link lane).mode

/-- The lead moves toward the middle of 1.0 ns to 2.0 ns by at most 50 ps in a turn, in units of 10 ps (R107). -/
def slewLead (lead : Nat) : Nat := if lead < 150 then min 150 (lead + 5) else max 150 (lead - 5)

/-- The phase of a lane at the start of its turn. At a calendar switch with ENABLE an acquiring phase whose source has turn lock
shifts once: one run of 1 to 511 SKIPs directly before the TURN, and the lead stands in its range (R107, R108; how long the run is
and where the lead stands are free values, log entry 57). A locked phase slews. -/
def phaseShift (lane : Nat) (s : State) : State :=
  let p := s.phase lane
  match p.source with
  | none => s
  | some src =>
    if p.state = 2 then s.setPhase lane { p with lead := slewLead p.lead, due := false }
    else if !p.due then s
    else if p.state = 1 && turnGiven s src then
      let n := s.draw
      let m := n.2.draw
      let s := m.2.setPhase lane { p with state := 2, lead := 100 + m.1 % 101, due := false }
      (s.each (List.range (1 + n.1 % 511)) fun s _ => sendSkip lane s).raise Ev.phaseLocked [lane]
    else s.setPhase lane { p with due := false }

/-- A lane gains turn lock: phases that were lost with it are acquired anew (R129). -/
def phaseSeeks (lane : Nat) (s : State) : State :=
  s.each ((List.range 32).filter fun n => (s.phase n).source == some lane && (s.phase n).state == 3) fun s n =>
    s.setPhase n { s.phase n with state := 1, lead := 0 }

/-- The lanes whose transmit turn, and so whose symbol clock and SKIP positions, follow a source lane (R107). -/
def phasedTo (s : State) (lane : Nat) : List Nat :=
  (List.range 32).filter fun n => (s.phase n).source == some lane && (s.phase n).state == 2 && (s.lane n).mode == .ready

/-! Bond members (R417 to R419). -/

/-- A member whose traffic has left it in both directions trains (R366, R418). -/
def retrainCleared (home : Nat) (s : State) : State :=
  match s.bondOf home with
  | none => s
  | some (f, n) =>
    s.each (List.range n) fun s m =>
      let l := s.link f
      if (s.lane (f + m)).retrainDue ∧ bit l.txExcluded m ∧ l.members ≠ 0 ∧ !bit l.members m then
        laneRetrain (f + m) s
      else s

/-- MEMBERS and MEMBER of a TURN. -/
def turnMembers (lane body skew : Nat) (s : State) : State :=
  let members := fld body 79 48
  match s.bondOf lane with
  | none => s.modLink lane fun l => { l with members := members }
  | some (f, _) =>
    let m := lane - f
    if fld body 47 43 ≠ m ∨ 64 < skew then
      if bit (s.link f).rxExcluded m then s
      else excludeMember lane (s.raise (Ev.alignLost lane) [lane, fld body 47 43])
    else
      let back := bit (s.link f).rxExcluded m && (s.link lane).backSent && bit members m
      let s := s.modLink f fun l => { l with
        members := members, rxExcluded := if back then clrBit l.rxExcluded m else l.rxExcluded }
      retrainCleared f (memberBack lane s)

/-- Turns from b to a, modulo 2^32. -/
def turnsAhead (a b : Nat) : Nat := (a + 2 ^ 32 - b) % 2 ^ 32

/-- A receive calendar under change: at SWITCH_TURN, or the first turn seen after it, it applies with the new EPOCH, and without it the
change is over (R415). -/
def turnEpoch (home n epoch : Nat) (s : State) : State :=
  let l := s.link home
  match l.rxChange with
  | some c =>
    match c.switchTurn with
    | some w =>
      if turnsAhead n w < 2 ^ 31 then
        if epoch = c.epoch then
          let cal := (List.range 511).foldl (fun v i => v + 2 ^ (16 * i) * tget (fun _ => 0) c.got (i + 1)) 0
          calendarSwitched home (setLinkShown home { l with rxCal := cal, rxEpoch := epoch, rxChange := none } s)
        else s.setLink home { l with rxChange := none }
      else s
    | none => s
  | none => s

/-! Stuffing (R384). -/

/-- The slot that a transmitter omits at the start of slot k, slots of the next turn counted on from 512: a free slot of the
next 8, else the first of those that C3 owns, then C2, then C1, else the first after them that may be omitted. -/
def omitSlot (cal : List Nat) (omitted : List Nat) (k : Nat) : Option Nat :=
  let entry (p : Nat) : Nat := nth cal (p % 512 - 1) 0
  let can (p : Nat) : Bool := p % 512 != 0 && !omitted.contains p
  let near := (List.range 8).map (k + ·)
  let owned (c p : Nat) : Bool := can p && isData (entry p) && entryClass (entry p) == c
  match near.find? fun p => can p && isFree (entry p) with
  | some p => some p
  | none =>
    match ([3, 2, 1].filterMap fun c => near.find? (owned c)).head? with
    | some p => some p
    | none => ((List.range (1024 - k)).map (k + 8 + ·)).find? fun p =>
        can p && decide (p < 1024) && (isFree (entry p) || owned 1 p || owned 2 p || owned 3 p)

/-- The start of a slot: when the stuff count holds a folio, one slot is omitted. The stuff count, and the slots omitted (R384). -/
def omitStep (phi : Nat) (cal : List Nat) (stuff : Nat) (omitted : List Nat) (slot : Nat) : Nat × List Nat :=
  if phi ≤ stuff then match omitSlot cal omitted slot with
    | some p => (stuff - phi, omitted ++ [p])
    | none => (stuff, omitted)
  else (stuff, omitted)

/-- A transmitter in a turn: the wire, the stuff count, slots omitted, the control folios and those of flows that wait, IDLEs sent in
all, data folios deferred, and what the lane has sent. -/
structure TxWalk where
  wire : Wire
  stuff : Nat
  omitted : List Nat
  queue : List CtlFolio
  flows : Tbl (List Nat)
  idle : Nat
  deferred : Nat := 0
  symbols : List Int := []
  out : List Output := []

/-- A folio leaves, shown to the outside as `o`. -/
def TxWalk.send (pam4 : Bool) (folio : Nat) (o : List Output) (c : TxWalk) : TxWalk :=
  let r := wireFolio pam4 c.wire folio
  { c with wire := r.2.2, stuff := c.stuff + r.2.1, symbols := c.symbols ++ r.1, out := c.out ++ o }

/-- What a slot with an entry carries, `later` being those after it (R381): the next folio of its flow, or the next control folio; an
IDLE when nothing waits. A free slot carries a control folio when more wait than control slots are left in the turn. -/
def TxWalk.carry (pam4 : Bool) (lane entry : Nat) (later : List Nat) (c : TxWalk) : TxWalk :=
  let idle := { c.send pam4 (controlFolio 0x03 (idleBody c.idle)) [] with idle := c.idle + 1 }
  if isData entry then
    match tget (fun _ => []) c.flows (entryFlow entry) with
    | f :: fs =>
      { c.send pam4 f (if folioIsData f then [] else [.flow lane (folioType f) (folioBody f)]) with
        flows := tset (fun _ => []) c.flows (entryFlow entry) fs }
    | [] => idle
  else
    match c.queue with
    | f :: fs =>
      if isFree entry && decide (fs.length < (later.filter isControl).length) then idle
      else { c.send pam4 (controlFolio f.type f.body) [.control lane f.type f.body] with queue := fs }
    | [] => idle

/-- One slot of a transmit turn; `turn` is the body of its TURN. -/
def TxWalk.slot (phi lane turn : Nat) (cal : List Nat) (c : TxWalk) (k : Nat) : TxWalk :=
  let pam4 := phi == 65
  let o := omitStep phi cal c.stuff c.omitted k
  let c := { c with stuff := o.1, omitted := o.2 }
  let entry := nth cal (k - 1) 0
  if k = 0 then c.send pam4 (controlFolio 0x01 turn) [.control lane 0x01 turn]
  else if c.omitted.contains k then
    { c with deferred := c.deferred + ofBool (isData entry && tget (fun _ => []) c.flows (entryFlow entry) != []) }
  else c.carry pam4 lane entry (cal.drop k)

/-- A receiver in a turn: the symbols left, the wire, the stuff count, slots omitted, stuff symbols deleted, the slot that comes next,
and the last folio. -/
structure RxWalk where
  rest : List Int
  wire : Wire
  stuff : Nat
  omitted : List Nat
  deleted : Nat := 0
  slot : Nat := 1
  folio : Nat := 0

/-- The slot in which the next folio comes: the receiver makes the transmitter's choices, and expects nothing in an omitted slot. -/
def RxWalk.expect (phi : Nat) (cal : List Nat) : Nat → RxWalk → RxWalk
  | 0, c => c
  | n + 1, c =>
    let o := omitStep phi cal c.stuff c.omitted c.slot
    let c := { c with stuff := o.1, omitted := o.2 }
    if c.omitted.contains c.slot then RxWalk.expect phi cal n { c with slot := c.slot + 1 } else c

/-- The folios of a received stream one after the other, n at most; a SKIP takes no slot (R382). -/
def RxWalk.folios (phi : Nat) (cal : List Nat) : Nat → RxWalk → RxWalk
  | 0, c => c
  | n + 1, c =>
    let r := destuffed (phi == 65) (c.wire.level, c.wire.run) phi c.rest
    if r.taken.length < phi then c
    else
      let f := wireRead (phi == 65) c.wire.bits r.taken
      let c := if !folioIsData f.1 && folioType f.1 == 0x02 then c
        else let c := RxWalk.expect phi cal 512 c; { c with slot := c.slot + 1 }
      RxWalk.folios phi cal n { c with
        rest := r.rest, wire := ⟨f.2, r.run.1, r.run.2⟩, stuff := c.stuff + r.deleted, deleted := c.deleted + r.deleted, folio := f.1 }

/-- What the symbols from after one TURN to the end of the next come to on a lane (R376 to R378, R384). -/
def turnReceived (s : State) (lane : Nat) (symbols : List Int) : RxWalk :=
  let l := s.link lane
  RxWalk.folios (folioSymbols (s.lane lane).rate) (s.entries false lane) symbols.length
    { rest := symbols, wire := l.rxWire, stuff := l.rxStuff, omitted := l.rxOmitNext }

/-! Negotiation starts here (R401, R407); the exchange itself is in Colophon. -/

/-- CAPS that a lane offers: bit 4 follows ECHO_ALLOW (R405). -/
def State.capsOf (s : State) (lane : Nat) : Nat :=
  putBit (s.reg (Reg.lnkCapsOffer lane) % 2 ^ 11) 4 (psEcho (s.phySetup lane))

/-- The policy of R406 on a lane. -/
def State.authPolicy (s : State) (lane : Nat) : Nat :=
  let a := fld (s.force (Reg.lnkSetup lane)) 59 58
  if a = 0 then s.reg Reg.lnkAuthPolicy else a

/-- Part 0 of the U3264 with CHOSEN. RATES are the codes from RATE_MAX to RATE_MIN of the lane (DEDUCED, log entry 21). -/
def part0Body (s : State) (lane chosen caps : Nat) : Nat :=
  let v := s.phySetup lane
  let rates := sumOf (((List.range 6).filter fun c => decide (psRateMax v ≤ c ∧ c ≤ psRateMin v)).map (2 ^ ·))
  let dap := s.reg Reg.idDapRevs
  pack [(3, 0), (4, s.reg Reg.lnkRevMin), (4, s.reg Reg.lnkRevMax), (4, chosen), (4, fld dap 7 4), (4, fld dap 3 0),
    (32, caps), (11, min 1024 Config.endpointsFronted), (6, rates), (3, 5), (45, 0)]

/-- Part 1 of the U3264. -/
def part1Body (s : State) : Nat :=
  pack [(3, 1), (64, Config.deviceId), (16, s.reg Reg.idVendor), (16, s.reg Reg.idProduct),
    (16, (s.bank (s.reg Reg.fwActiveBank % 2)).release), (5, 0)]

/-- Parts 0 and 1 join the waiting control folios, once each (R401, R408). -/
def sendParts (lane : Nat) (s : State) : State :=
  let l := s.link lane
  let chosen := if l.mode = .turnHunt then l.rev else l.chosen
  let s := s.modLink lane fun l => { l with queue := l.queue.filter fun f => !(f.type == 0x05 && fld f.body 119 118 == 0) }
  pushCtl lane 0x05 (part1Body s) (pushCtl lane 0x05 (part0Body s lane chosen l.capsOffered) s)

/-- NEGOTIATING begins: caps and policy are those of now; a link that was authenticated is so no longer. -/
def startNegotiating (lane : Nat) (s : State) : State :=
  let l := s.link lane
  let s := setLinkShown lane { l with
    mode := .negotiating, locked := false, resumed0 := false, resumeOpen := false, seen0 := false, chosen := 0, rev := 0
    negSince := s.dt, capsOffered := s.capsOf lane, policy := s.authPolicy lane, authenticated := false, session := none
    reauth := false, missRun := 0, reannounce := none } s
  sendParts lane s

/-- Turn lock is gained: a resume where R408 allows it, else a negotiation. -/
def turnLocked (lane : Nat) (s : State) : State :=
  let s := phaseSeeks lane s
  let l := s.link lane
  let soon : Bool := match l.leftAt with
    | some t => decide (s.dt ≤ t + 8 * ms)
    | none => false
  if l.resumeOpen || (soon && l.rev != 0) then
    sendParts lane (s.setLink lane { l with locked := true, resumed0 := false, missRun := 0, capsOffered := s.capsOf lane })
  else startNegotiating lane s

/-! Received folios of the frame of turns. -/

/-- A TURN on a lane that has turn lock. -/
def turnSeen (lane body skew : Nat) (s : State) : State :=
  let n := fld body 119 88
  let l := s.link lane
  match l.lastTurn with
  | some p =>
    if n = (p + 1) % 2 ^ 32 then
      let s := s.setLink lane { l with lastTurn := some n, missRun := 0 }
      turnEpoch (s.calLane lane) n (fld body 87 80) (turnMembers lane body skew s)
    else turnMiss lane s
  | none => s.setLink lane { l with lastTurn := some n }

/-- A TURN ends the symbols that came since the one before it. -/
def turnFolioOp (lane skew : Nat) (symbols : List Int) (s : State) : State :=
  let l := s.link lane
  let c := turnReceived s lane symbols
  let body := folioBody c.folio
  let n := fld body 119 88
  let s := s.setLink lane { l with
    rxWire := c.wire, rxStuff := c.stuff, rxOmitNext := (c.omitted.filter fun p => decide (512 < p)).map (· - 512)
    counts := { l.counts with stuffSymbols := l.counts.stuffSymbols + c.deleted } }
  let follows : Bool := match l.lastTurn with
    | some p => n == (p + 1) % 2 ^ 32
    | none => false
  match l.mode with
  | .down | .aligning => s
  | .lowPower | .rateChange | .loop => s.modLink lane fun l => { l with lastTurn := some n }
  | .turnHunt =>
    if l.locked then turnSeen lane body skew s
    else if follows then
      turnMembers lane body skew (turnLocked lane (s.modLink lane fun l => { l with lastTurn := some n, missRun := 0 }))
    else s.modLink lane fun l => { l with lastTurn := some n }
  | _ => turnSeen lane body skew s

def execTurnFolio (t lane skew : Nat) (symbols : List Int) (s : State) : Res :=
  let s := s.begin t
  .next (if (s.link lane).mode = .aligning then goodHeader lane s
    else turnFolioOp lane skew symbols (goodHeader lane s))

/-- A SKIP stands outside the slots and reaches no flow (R382); a lane that is phased to this one sends its SKIP at the same place
(R107). -/
def execSkipFolio (t lane : Nat) (s : State) : Res :=
  let s := goodHeader lane (s.begin t)
  .next (s.each (phasedTo s lane) fun s n => sendSkip n s)

/-- An IDLE; in slot 0 it stands where a TURN was awaited. -/
def execIdleFolio (t lane slot : Nat) (s : State) : Res :=
  let s := s.begin t
  let locked := linkLocked (s.link lane).mode
  let s := goodHeader lane s
  .next (if slot = 0 ∧ locked then turnMiss lane s else s)

/-- The flow of a data slot loses a folio. -/
def loseFolio (lane slot : Nat) (s : State) : State :=
  match slotFlow s lane slot with
  | none => s
  | some flow => match flowStream s lane flow with
    | none => s
    | some k => s.modFrame k fun f => { f with lost := true }

/-- An invalid header (R379): the folio is discarded, and its slot still counts. -/
def execInvalidHeader (t lane slot : Nat) (s : State) : Res :=
  let s := s.begin t
  let l := s.link lane
  .next (match l.mode with
    | .down => s
    | .aligning => s.setLink lane { l with headers := 0 }
    | _ =>
      let bad := (l.bad * 2 + 1) % 2 ^ 128
      let s := s.setLink lane { l with bad := bad, counts := { l.counts with foliosLost := l.counts.foliosLost + 1 } }
      let s := if !linkHears l.mode then s else if slot = 0 then turnMiss lane s else loseFolio lane slot s
      if 16 ≤ popCount 128 bad ∧ alignMode (s.link lane).mode then alignLost lane s else s)

/-- A reserved TYPE (R396), or anything in a data slot that is no folio of its flow. -/
def execUnknownControlFolio (t lane slot _ctype : Nat) (s : State) : Res :=
  .next (received lane (fun s =>
    if slot = 0 then turnMiss lane s
    else if (slotFlow s lane slot).isSome then loseFolio lane slot s
    else s.modCounts lane fun c => { c with unknownTypes := c.unknownTypes + 1 }) (s.begin t))

/-! A transmit turn. -/

/-- Entry into the low-power state agreed (R357): 8 IDLEs, then electrical idle. -/
def enterLowPower (lane : Nat) (s : State) : State :=
  let l := s.lane lane
  let deep := l.lpEntry == 4
  let s := s.each (List.range 8) fun s _ => sendIdle lane s
  (leaveReady lane s).modLane lane fun l => { l with
    mode := if deep then .dormant else .quiet
    lpEntry := 0, quietSince := s.dt, quiets := l.quiets + 1, dormants := l.dormants + ofBool deep }

/-- The lane stops for the rate agreed and trains (R420). -/
def enterRate (lane rate : Nat) (s : State) : State :=
  let s := s.modLink lane fun l => { l with rateAgreed := none, rateNew := true }
  startTraining lane (s.modLane lane fun l => { l with rate := rate })

/-- The number of the turn that begins: the same on every member of a bond (R416). -/
def nextTurn (s : State) (lane : Nat) : Nat :=
  let f := s.calLane lane
  if f ≠ lane ∧ (s.link f).txTurn ≠ (s.link lane).txTurn ∧ (s.lane f).mode = .ready then (s.link f).txTurn
  else ((s.link lane).txTurn + 1) % 2 ^ 32

/-- A transmit calendar under change: it switches at SWITCH_TURN when it was acknowledged, and is cancelled when no
acknowledge has come two turns before (R415). -/
def txSwitch (home n : Nat) (s : State) : State :=
  let l := s.link home
  match l.txChange with
  | none => s
  | some c =>
    if !c.announced then s
    else if c.acked && n == c.switchTurn then
      let s := s.setLink home { l with txCal := c.entries, txEpoch := c.epoch, txChange := none, calResult := 5 }
      let s := s.each (s.bondLanes home) fun s k => phaseSwitch k s
      checkFlows home false (calendarSwitched home s)
    else if !c.acked && (n + 1) % 2 ^ 32 == c.switchTurn then s.setLink home { l with txChange := none, calResult := 4 }
    else s

/-- Members that leave or return on transmit, from this turn on (R418, R419). -/
def txMembers (home : Nat) (s : State) : State :=
  let l := s.link home
  if l.txCleared = 0 ∧ l.txReturning = 0 then s
  else
    let s := s.setLink home { l with
      txExcluded := clearMask (l.txExcluded ||| l.txCleared) l.txReturning, txCleared := 0, txReturning := 0 }
    let s := if calHasData l.txCal then s.each (s.bondLanes home) fun s n => wakeLane n s else s
    retrainCleared home s

/-- A SKIP before every second turn of a lane that places its SKIPs itself: one in 1,024 folios, so that any 2,048 in a row have one or
two (R382; log entry 66). A lane that is locked to a phase source places them where its source received them. -/
def turnSkip (lane n : Nat) (s : State) : State := s.whenever ((s.phase lane).state != 2 && n % 2 == 0) (sendSkip lane)

/-- The body of the TURN that begins turn n of a lane (R397). -/
def turnBody (s : State) (lane n : Nat) : Nat :=
  let f := s.calLane lane
  let h := s.link f
  let members := match s.bondOf lane with
    | some (_, k) => clearMask (2 ^ k - 1) h.txExcluded
    | none => 1
  pack [(32, n), (8, h.txEpoch), (32, members), (5, lane - f), (43, 0)]

/-- The flows that own slots of a lane's transmit calendar. -/
def laneFlows (s : State) (lane : Nat) : List Nat := (((s.entries true lane).filter isData).map entryFlow).eraseDups

/-- The transmitter walks through the slots of a turn whose TURN has a body. -/
def turnSent (s : State) (lane turn : Nat) : TxWalk :=
  let l := s.link lane
  let cal := s.entries true lane
  (List.range 512).foldl (TxWalk.slot (folioSymbols (s.lane lane).rate) lane turn cal)
    { wire := l.txWire, stuff := l.txStuff, omitted := l.omitNext, queue := ctlOrder l.queue, idle := l.idleCount
      flows := (laneFlows s lane).foldl (fun m k => tset (fun _ => []) m k (s.send k).queue) [] }

/-- The lane after the slots of a turn, with what it has sent. -/
def turnOver (lane : Nat) (c : TxWalk) (s : State) : State :=
  let l := s.link lane
  let s := s.setLink lane { l with
    txWire := c.wire, txStuff := c.stuff, queue := c.queue, idleCount := c.idle
    omitNext := (c.omitted.filter fun p => decide (512 ≤ p)).map (· - 512)
    counts := { l.counts with
      slotsOmitted := l.counts.slotsOmitted + (c.omitted.length - l.omitNext.length)
      foliosDeferred := l.counts.foliosDeferred + c.deferred } }
  let s := s.each (laneFlows s lane) fun s k => s.setSend k { s.send k with queue := tget (fun _ => []) c.flows k }
  let s := s.each c.out fun s o => s.emit o
  let s := s.emit (.symbols lane c.symbols)
  if c.deferred = 0 then s else s.raiseLimited sec (Ev.stuffOverrun lane) [lane, c.deferred]

/-- A turn begins on a lane. -/
def txTurn (lane : Nat) (s : State) : State :=
  let f := s.calLane lane
  let n := nextTurn s lane
  let s := s.modLink lane fun l => { l with txTurn := n }
  let s := turnSkip lane n (phaseShift lane (txMembers f (txSwitch f n s)))
  let turn := turnBody s lane n
  let l := s.link lane
  let s := s.whenever (l.mode = .negotiating || l.locked) (sendParts lane)
  turnOver lane (turnSent s lane turn) s

def execTxTurnStart (t lane : Nat) (s : State) : Res :=
  let s := s.begin t
  let l := s.link lane
  let answering := l.queue.any fun f => f.type == 0x12
  .next (if (s.lane lane).mode ≠ .ready ∨ l.mode = .down ∨ l.mode = .loop then s
    else if (s.lane lane).lpEntry ≠ 0 ∧ !answering then enterLowPower lane s
    else match l.rateAgreed with
      | some rate => if answering then txTurn lane s else enterRate lane rate s
      | none => txTurn lane s)

end Sys2Proof.Machine
end

