-- ==== Sys2Proof/Machine/Calendars.lean ====
section
/-! DEFINITION. The calendar exchange (R104, R414, R415) and the bond folios (R418, R419). -/

namespace Sys2Proof.Machine

/-! What a transmit calendar is checked against. -/

/-- The chime generators add to the audio of an output stream (R318, R330). -/
def chimesFeed (s : State) (flow : Nat) : Bool :=
  dEngineDriven (s.outDesc flow) && (List.range 512).any fun o =>
    let r := s.audOutRec o
    bit r 95 && fld r 94 87 == flow && fld r 31 0 != 0

/-- The Spine ingress ports that feed a flow in C0 slots (R104): kind × 1,024 + number. -/
def spineFeeds (s : State) (images : List Nat) (flow : Nat) : List Nat :=
  (if chimesFeed s flow then [3072] else []) ++
  (images.filter fun r => rClass r == 0 && rDstType r == 0 && fld (rDst r) 7 0 == flow).flatMap fun r =>
    if rGang r ≠ 0 then [1024 + rConvFirst r]
    else if rKind r = 2 then
      match s.sourcePool (rSrcType r) (rSrc r) with
      | some p => ((List.range 8).filter fun c => bit (pChannels (s.poolRec p)) c).map (2048 + ·)
      | none => []
    else match s.srcStream (rSrcType r) (rSrc r) with
      | some k => (dLanes (s.ins k).desc)
      | none => []

/-- C0 slots within some 8 consecutive transmit slots, on into the next turn, are fed from more than 4 ingress ports. -/
def spineCrowded (s : State) (cal : Nat) : Bool :=
  let images := s.liveImages ++ s.waitingImages
  let feeds := [] :: (calList cal).map fun e => if isC0 e then spineFeeds s images (entryFlow e) else []
  let round := feeds ++ feeds.take 7
  (List.range 512).any fun i => decide (4 < (((round.drop i).take 8).flatten.eraseDups).length)

/-- A data slot names a flow that no output stream of the lane sends, or takes a flow of a C0 route out of C0 slots. -/
def txFlowsWrong (s : State) (home cal : Nat) : Bool :=
  let images := s.liveImages ++ s.waitingImages
  let unknown := (calList cal).any fun e => isData e &&
    (decide (256 ≤ entryFlow e) || !outUsed (s.outDesc (entryFlow e)) || dLane (s.outDesc (entryFlow e)) != home)
  let moved := images.any fun r => rClass r == 0 && rDstType r == 0 && dLane (s.outDesc (fld (rDst r) 7 0)) == home &&
    (calList cal).any fun e => isData e && !isC0 e && entryFlow e == fld (rDst r) 7 0
  unknown || moved

/-- A flow that the calendar gives slots to, or that live routes or pending takes feed, has too few of them. -/
def txFlowsShort (s : State) (home cal : Nat) : Bool :=
  let l := s.link home
  let used := s.liveImages ++ s.waitingImages
  (List.range 256).any fun k =>
    outUsed (s.outDesc k) && dLane (s.outDesc k) == home &&
      ((used.any fun r => rDstType r == 0 && fld (rDst r) 7 0 == k) ||
        (calList cal).any fun e => isData e && entryFlow e == k) &&
      !flowFits s cal (s.lane home).rate l.authenticated k

/-- The refusal of a transmit calendar, 0 for none (R415; the order of log entry 13). -/
def txCalCode (s : State) (lane cal : Nat) : Nat :=
  if s.calLane lane ≠ lane then 0x0B
  else if (s.link lane).txChange.isSome then 0x07
  else if calShape cal ≠ 0 then calShape cal
  else if txFlowsWrong s lane cal then 0x05
  else if spineCrowded s cal then 0x08
  else if txFlowsShort s lane cal then 0x09
  else 0

/-- LNK_CONTROL 0x02 (R415, step 1). A calendar that assigns a data slot wakes the lane (R358). -/
def lnkAnnounceOp (lane : Nat) (s : State) : State × Nat :=
  let cal := s.reg (Reg.lnkTxCalendar lane)
  let code := txCalCode s lane cal
  if code ≠ 0 then (s.modLink lane fun l => { l with
      calRefusal := code, calResult := if l.txChange.isSome then l.calResult else 3 }, stValue)
  else
    let s := if calHasData cal then s.each (s.bondLanes lane) fun s n => wakeLane n s else s
    let s := s.modLink lane fun l => { l with calRefusal := 0 }
    (if (s.link lane).mode = .up then announce lane cal false s
      else s.modLink lane fun l => { l with
        txChange := some { epoch := (l.txEpoch + 1) % 256, entries := cal }, calResult := 1 }, stDone)

/-- LNK_CONTROL 0x04. -/
def lnkCancelOp (lane : Nat) (s : State) : State × Nat :=
  (s.modLink lane fun l => if l.txChange.isSome then
      { l with txChange := none, calResult := 4
               queue := l.queue.filter fun f => !(f.type == 0x04 && decide (fld f.body 119 118 < 2)) }
    else l, stDone)

def execLnkAnnounceCalendar (t : Nat) (src : Src) (lane : Nat) (s : State) : Res :=
  .next (answer src (Reg.lnkControl lane) true (lnkAnnounceOp lane) (s.begin t))

def execLnkCancelCalendar (t : Nat) (src : Src) (lane : Nat) (s : State) : Res :=
  .next (answer src (Reg.lnkControl lane) false (lnkCancelOp lane) (s.begin t))

/-! The partner's calendar. -/

/-- A segment (R397): entries from FIRST_SLOT. -/
def calendarSegmentOp (home body : Nat) (s : State) : State :=
  let epoch := fld body 117 110
  let l := s.link home
  let first := fld body 109 101
  let n := fld body 100 98
  let c : RxChange := match l.rxChange with
    | some c => if c.epoch = epoch ∧ c.switchTurn.isNone then c
      else if c.switchTurn.isSome then c else { epoch := epoch }
    | none => { epoch := epoch }
  if c.switchTurn.isSome ∨ n = 0 ∨ 6 < n ∨ first = 0 ∨ 512 < first + n then s
  else
    let got := (List.range n).foldl (fun g i => tset (fun _ => 0) g (first + i) (fld body (97 - 16 * i) (82 - 16 * i))) c.got
    s.setLink home { l with rxChange := some { c with got := got } }

def execCalendarSegment (t lane body : Nat) (s : State) : Res :=
  .next (received lane (fun s =>
    if (s.link lane).mode = .up then calendarSegmentOp (s.calLane lane) body s else s) (s.begin t))

/-- The entries received, slot 1 lowest; a slot without one reads 0. -/
def gotCal (got : Tbl Nat) : Nat :=
  (List.range 511).foldl (fun v i => v + 2 ^ (16 * i) * tget (fun _ => 0) got (i + 1)) 0

/-- A received calendar takes a flow of a C0 route out of C0 slots, or names a flow that no announced stream has. -/
def rxFlowsWrong (s : State) (home cal : Nat) : Bool :=
  let known (flow : Nat) : Bool := (flowStream s home flow).isSome
  let unknown := (calList cal).any fun e => isData e && !known (entryFlow e)
  let moved := (s.liveImages ++ s.waitingImages).any fun r => rClass r == 0 && rKind r != 2 &&
    (match s.srcStream (rSrcType r) (rSrc r) with
      | some k => dLane (s.ins k).desc == home && (s.ins k).mode != .absent && (s.ins k).mode != .gone &&
          (calList cal).any fun e => isData e && !isC0 e && entryFlow e == (s.ins k).flow
      | none => false)
  unknown || moved

/-- The code with which a commit is answered, 0 to acknowledge it. -/
def rxCalCode (s : State) (home body : Nat) : Nat :=
  let l := s.link home
  let turn := fld body 109 78
  match l.rxChange with
  | none => 0x01
  | some c =>
    let cal := gotCal c.got
    if s.calLane home ≠ home then 0x0B
    else if c.switchTurn.isSome then 0x07
    else if c.epoch ≠ fld body 117 110 ∨ calDigest cal ≠ fld body 77 46 then 0x01
    else if calShape cal ≠ 0 then calShape cal
    else if rxFlowsWrong s home cal then 0x05
    else
      let ahead := turnsAhead turn (match l.lastTurn with
        | some n => n
        | none => 0)
      if ahead < s.reg Reg.lnkCalLead ∨ 2 ^ 31 ≤ ahead then 0x06 else 0

/-- The body of an acknowledge or a refusal (R397). -/
def answerBody (epoch code : Nat) : Nat := pack [(2, if code = 0 then 2 else 3), (8, epoch), (8, code), (102, 0)]

/-- A commit (R415, step 3): the answer goes out on the lane that carried it. A refusal of a second change leaves the first
as it is. -/
def calendarCommitOp (lane body : Nat) (s : State) : State :=
  let home := s.calLane lane
  let code := rxCalCode s home body
  let s := pushCtl lane 0x04 (answerBody (fld body 117 110) code) s
  s.modLink home fun l => { l with
    rxChange := if code = 0 then l.rxChange.map fun c => { c with switchTurn := some (fld body 109 78) }
      else if code = 0x07 then l.rxChange else none }

def execCalendarCommit (t lane body : Nat) (s : State) : Res :=
  .next (received lane (fun s => if (s.link lane).mode = .up then calendarCommitOp lane body s else s) (s.begin t))

/-- An acknowledge (R415, step 4). -/
def calendarAckOp (home body : Nat) (s : State) : State :=
  let l := s.link home
  match l.txChange with
  | some c =>
    if !c.announced || c.epoch != fld body 117 110 then s
    else
      let ahead := turnsAhead c.switchTurn l.txTurn
      if 2 ≤ ahead ∧ ahead < 2 ^ 31 then s.setLink home { l with txChange := some { c with acked := true }, calResult := 2 }
      else s.setLink home { l with txChange := none, calResult := 4 }
  | none => s

def execCalendarAck (t lane body : Nat) (s : State) : Res :=
  .next (received lane (fun s => calendarAckOp (s.calLane lane) body s) (s.begin t))

/-- A refusal: after code 0x01 the same calendar is announced once more. -/
def calendarRefuseOp (home body : Nat) (s : State) : State :=
  let l := s.link home
  let code := fld body 109 102
  match l.txChange with
  | some c =>
    if !c.announced || c.epoch != fld body 117 110 then s
    else
      let s := s.setLink home { l with txChange := none, calResult := 3, calRefusal := code }
      if code = 0x01 ∧ !c.again then announce home c.entries true s else s
  | none => s

def execCalendarRefuse (t lane body : Nat) (s : State) : Res :=
  .next (received lane (fun s => calendarRefuseOp (s.calLane lane) body s) (s.begin t))

/-! Bond folios (R418, R419). -/

/-- A member named by a BOND folio leaves on transmit, or returns, from the next turn on. -/
def bondFolioOp (back : Bool) (lane body : Nat) (s : State) : State :=
  match s.bondOf lane with
  | none => s
  | some (f, n) =>
    let m := fld body 117 113
    if n ≤ m then s
    else s.modLink f fun l =>
      if back then { l with txReturning := setBit l.txReturning m, txCleared := clrBit l.txCleared m }
      else { l with txCleared := setBit l.txCleared m, txReturning := clrBit l.txReturning m }

def execBondMemberLost (t lane body : Nat) (s : State) : Res :=
  .next (received lane (bondFolioOp false lane body) (s.begin t))

def execBondMemberWithdrawn (t lane body : Nat) (s : State) : Res :=
  .next (received lane (bondFolioOp false lane body) (s.begin t))

def execBondMemberReady (t lane body : Nat) (s : State) : Res :=
  .next (received lane (bondFolioOp true lane body) (s.begin t))

end Sys2Proof.Machine
end

