-- ==== Sys2Proof/Machine/Casebook.lean ====
section
/-! DEFINITION. The casebook (R579 to R589): records as bytes, their commit, erasure and pinning, and reading them. -/

namespace Sys2Proof.Machine

/-! Records (R580, R581). -/

/-- The 32 bytes of a header. -/
def cbHeader (r : CbRec) (pinned : Bool) : List Nat :=
  leBytes 32 (pack [(8, r.item.type), (16, r.item.body.length), (4, r.lc), (1, ofBool pinned), (1, ofBool r.item.test),
    (1, ofBool r.unsigned), (1, 0), (32, r.seq), (32, r.boot), (64, r.item.dt), (8, r.epoch), (88, 0)])

/-- Header, body and CRC-32C: what a signature covers. -/
def cbSigned (r : CbRec) (pinned : Bool) : List Nat :=
  let m := cbHeader r pinned ++ r.item.body
  m ++ leBytes 4 (crc32c m)

/-- The signature of slot 29, as the number whose 16 bytes it is, first byte lowest. -/
def cbSignature (s : State) (r : CbRec) (pinned : Bool) : Nat := leNat (hmac128 (s.slotKey 29) (cbSigned r pinned))

/-- A stored record as its bytes. -/
def cbBytes (r : CbRec) (pinned : Bool) : List Nat := cbSigned r pinned ++ leBytes 16 r.signature

/-! The ring (R579). -/

/-- 60 MiB, erased in blocks of 256 KiB. -/
def cbRingSize : Nat := 62914560
def cbBlock : Nat := 262144

/-- Where what is kept begins once a record of n bytes has been appended. -/
def cbErase (c : CbStore) (n : Nat) : CbStore :=
  let need := c.append + n - cbRingSize
  let base := max c.base (divUp need cbBlock * cbBlock)
  { c with base := base, ring := c.ring.filter fun r => decide (base ≤ r.pos) }

/-- A record is an incident (R585). -/
def cbIncident (s : State) (i : CbItem) : Bool := !i.test && (i.safe || bit (s.reg Reg.cbIncidentTypes) (i.type - 1))

/-- The records that an incident pins: itself and those before it, at most 256, that fit in 64 KiB. -/
def cbPinned (ring : List CbRec) (r : CbRec) : List CbRec :=
  let before := (ring.reverse.filter fun x => decide (x.seq < r.seq)).take 256
  let fit := before.foldl (fun (a : List CbRec × Nat × Bool) x =>
    let n := a.2.1 + cbExtent x.item
    if a.2.2 && decide (n ≤ 65536) then (x :: a.1, n, true) else (a.1, a.2.1, false)) ([r], cbExtent r.item, true)
  fit.1

/-- A pinned copy carries its own signature (R585). -/
def cbCopy (s : State) (r : CbRec) : CbRec :=
  let u : CbRec := { r with unsigned := !s.slotValid 29, signature := 0 }
  if s.slotValid 29 then { u with signature := cbSignature s u true } else u

/-- An incident is pinned, or reported once as not. -/
def cbPin (r : CbRec) (s : State) : State :=
  if !cbIncident s r.item then s
  else
    let s := (s.setReg Reg.cbLastIncidentDt r.item.dt).setReg Reg.cbLastIncidentSeq r.seq
    let c := s.nvm.cb
    if c.pinnedSince = 0 ∧ s.nvm.lc = 0 then s
    else if c.pinned.length < 64 then
      { s with nvm := { s.nvm with cb := { c with pinned := c.pinned ++ [(cbPinned c.ring r).map (cbCopy s)] } } }
    else if c.pinnedFull then s
    else ({ s with nvm := { s.nvm with cb := { c with pinnedFull := true } } } : State).raise Ev.cbPinnedFull [r.seq]

/-- A record is appended to the ring. -/
def cbAppend (i : CbItem) (s : State) : State :=
  let signed := s.slotValid 29
  let c := s.nvm.cb
  let r : CbRec := ⟨i, c.nextSeq % 2 ^ 32, s.nvm.lc, s.nvm.boot, c.keyEpoch % 256, !signed, 0, c.append⟩
  let r := if signed then { r with signature := cbSignature s r false } else r
  let n := cbExtent i
  let c := cbErase c n
  let c : CbStore := { c with ring := c.ring ++ [r], nextSeq := c.nextSeq + 1, append := c.append + n }
  let late := (s.dt - i.dt) / us
  let s := ({ s with nvm := { s.nvm with cb := c } } : State).setReg Reg.cbWriteWorst (max late (s.reg Reg.cbWriteWorst))
  let first := !signed && !s.cb.unsignedRaised
  let s : State := { s with cb := { s.cb with unsignedRaised := !signed } }
  cbPin r (if first then s.raise Ev.cbUnsigned [r.seq] else s)

/-- The oldest record of the queue goes to the NVM, after the GAP record that losses before it left (R584). -/
def cbCommitOne (s : State) : State :=
  match s.cb.queue with
  | [] => s
  | i :: rest =>
    let s := match s.cb.gap with
      | some (n, t) =>
        cbAppend ⟨0x0D, leBytes 4 n ++ leBytes 8 t, t, false, false⟩ { s with cb := { s.cb with gap := none } }
      | none => s
    cbAppend i { s with cb := { s.cb with queue := rest ++ s.cb.queue.drop (rest.length + 1) } }

/-- The whole queue, as hold-up commits it (R584). -/
def cbCommitAll : Nat → State → State
  | 0, s => s
  | n + 1, s => if s.cb.queue = [] then s else cbCommitAll n (cbCommitOne s)

/-- The writer may write: mounted, and not in hold-up past its last record (R550). -/
def cbWrites (s : State) : Bool := s.cb.mounted && !s.pwr.holdup

/-- The NVM refuses a write three times (R586). -/
def cbFault (s : State) : State :=
  if s.cb.nvmFault then s
  else ({ s with cb := { s.cb with nvmFault := true } } : State).raise Ev.cbNvmFault [0]

def execCbCommit (t : Nat) (ok : Bool) (s : State) : Res :=
  let s := s.begin t
  .next (if !cbWrites s || s.cb.queue == [] || s.cb.nvmFault then s
    else if ok then cbCommitOne s else cbFault s)

/-- The retry of R586, every 1 s. -/
def execCbNvmRetry (t : Nat) (ok : Bool) (s : State) : Res :=
  let s := s.begin t
  .next (if cbWrites s && s.cb.nvmFault && ok then
    cbCommitOne { s with cb := { s.cb with nvmFault := false } } else s)

/-! Commands of the host. -/

/-- CB_NOTE (R463, R582): a UTF-8 text of at most 64 bytes. -/
def cbNoteOp (text : List Nat) (s : State) : State × Nat :=
  if 64 < text.length then (s, stTooLong)
  else if !utf8Ok (text.map (· % 256)) then (s, stValue) else (cbWrite 0x0C (text.map (· % 256)) s, stDone)

def execCbNote (t : Nat) (src : Src) (text : List Nat) (s : State) : Res :=
  .next (answer src Reg.cbNote false (cbNoteOp text) (s.begin t))

/-- CB_STATS_CLEAR 0x01 (R604). -/
def cbStatsClearOp (s : State) : State × Nat :=
  (s.clear [Reg.cbDamaged, Reg.cbWriteWorst], stDone)

def execCbStatsClear (t : Nat) (src : Src) (s : State) : Res :=
  .next (answer src Reg.cbStatsClear false cbStatsClearOp (s.begin t))

/-! Reading (R588). -/

def csStart (v : Nat) : Nat := fld v 95 64
def csCount (v : Nat) : Nat := fld v 63 48
def csRegion (v : Nat) : Nat := fld v 47 46
def csTypes (v : Nat) : Nat := fld v 45 32

/-- The check of a stored signature: 0 valid, 1 unsigned, 2 unverifiable, 3 wrong. -/
def cbSign (s : State) (r : CbRec) (pinned damaged : Bool) : Nat :=
  if r.unsigned then 1
  else if r.epoch ≠ s.nvm.cb.keyEpoch % 256 ∨ !s.slotValid 29 then 2
  else if damaged || r.signature != cbSignature s { r with signature := 0 } pinned then 3
  else 0

/-- The records that the selection takes, each with whether it is a pinned copy, in the order of R588, and what a further
read starts at when it stops before each. -/
def cbSelected (s : State) : List (CbRec × Bool × Nat) :=
  let v := s.reg Reg.cbReadSel
  let wanted (r : CbRec) : Bool := bit (csTypes v) (r.item.type - 1)
  if csRegion v = 0 then
    (s.nvm.cb.ring.filter fun r => decide (csStart v ≤ r.seq) && wanted r).map fun r => (r, false, r.seq)
  else
    s.nvm.cb.pinned.flatMap fun g =>
      let head := match g.getLast? with
        | some r => r.seq
        | none => 0
      if csStart v ≤ head then (g.filter wanted).map fun r => (r, true, head) else []

/-- Whole records up to the count and up to 256 KiB; the rest. -/
def cbTake : Nat → Nat → List (CbRec × Bool × Nat) → List (CbRec × Bool × Nat) × List (CbRec × Bool × Nat)
  | _, _, [] => ([], [])
  | n, room, x :: xs =>
    let e := cbExtent x.1.item + 4
    if n = 0 ∨ room < e then ([], x :: xs)
    else
      let r := cbTake (n - 1) (room - e) xs
      (x :: r.1, r.2)

/-- One record as read: status word and bytes. The bytes of a damaged record are free values. -/
def cbReadOne (damaged : List Nat) (x : CbRec × Bool × Nat) (s : State) : List Nat × State :=
  let bad := damaged.contains x.1.seq
  let n := cbExtent x.1.item
  let status := pack [(2, cbSign s x.1 x.2.1 bad), (1, ofBool bad), (1, ofBool x.2.1), (8, 0), (20, n)]
  if bad then
    let d := s.drawBytes n
    (leBytes 4 status ++ d.1, (d.2.count Reg.cbDamaged 1).raise Ev.cbRecordDamaged [x.1.seq])
  else (leBytes 4 status ++ cbBytes x.1 x.2.1, s)

/-- A read of CB_READ: the bytes, with CB_READ_NEXT, the count of damaged records and their events. -/
def cbReadData (damaged : List Nat) (s : State) : List Nat × State :=
  let v := s.reg Reg.cbReadSel
  let all := cbSelected s
  let r := cbTake (if csCount v = 0 then all.length else csCount v) 262144 all
  let next := match r.2 with
    | x :: _ => x.2.2
    | [] => match r.1.getLast? with
      | some x => x.2.2 + 1
      | none => csStart v
  let s := s.setReg Reg.cbReadNext (next % 2 ^ 32)
  r.1.foldl (fun (a : List Nat × State) x =>
    let o := cbReadOne damaged x a.2
    (a.1 ++ o.1, o.2)) ([], s)

def execCbRead (t : Nat) (who : Requester) (damaged : List Nat) (s : State) : Res :=
  let r := cbReadData damaged (s.begin t)
  .next (r.2.emit (.bytes who r.1))

end Sys2Proof.Machine
end

