-- ==== Sys2Proof/Machine/Colophon.lean ====
section
/-! DEFINITION. The colophon (R401 to R408): revisions, authentication, resumption; and the tag sessions that an
authentication leaves (R524, R525, R529, R535 to R537). -/

namespace Sys2Proof.Machine

/-! Entering UP and INCOMPATIBLE. -/

/-- UP by AGREED, AUTH_DONE or AUTH_FAILED, with PARTNER_JOINED. -/
def joined (lane : Nat) (s : State) : State :=
  (linkEntersUp lane false s).raise (Ev.partnerJoined lane) [lane, ofBool (s.link lane).authenticated]

/-- INCOMPATIBLE (R402, R406, R407). -/
def incompatible (lane reason : Nat) (s : State) : State :=
  (s.modLink lane fun l => { l with mode := .incompatible }).raise (Ev.partnerIncompatible lane) [lane, reason]

/-- RENEGOTIATE and RETRY of R407. -/
def renegotiate (lane : Nat) (s : State) : State :=
  let s := if (s.link lane).mode = .up then
      (leaveUp lane s).modLink lane fun l => { l with leftAt := some s.dt } else s
  startNegotiating lane s

/-- LNK_CONTROL 0x03. -/
def lnkRenegotiateOp (lane : Nat) (s : State) : State × Nat :=
  match (s.link lane).mode with
  | .up | .incompatible => (renegotiate lane s, stDone)
  | _ => (s, stDone)

def execLnkRenegotiate (t : Nat) (src : Src) (lane : Nat) (s : State) : Res :=
  .next (answer src (Reg.lnkControl lane) false (lnkRenegotiateOp lane) (s.begin t))

/-! Authentication (R406, R524, R525). -/

/-- The peer's PARTNER_ID. -/
def peerId (l : LinkLane) : Nat := fld l.peer1 116 53

/-- A challenge goes out: part 2 with a fresh nonce and LNK_AUTH_SLOT. -/
def challenge (lane : Nat) (s : State) : State :=
  let slot := s.reg Reg.lnkAuthSlot
  let d := s.drawBytes 12
  let s := d.2.modLink lane fun l => { l with
    ownNonce := d.1, ownSlot := slot, authSince := s.dt, peerValid := false, responseSent := false, peerNonce := [] }
  pushCtl lane 0x05 (pack [(3, 2), (8, slot), (96, beNat d.1), (13, 0)]) s

/-- Both sides show the same CHOSEN (R406, R407). -/
def agreed (lane : Nat) (s : State) : State :=
  let s := s.modLink lane fun l => { l with rev := l.chosen }
  let l := s.link lane
  if capInUse l 5 && l.policy != 1 then challenge lane (s.setLink lane { l with mode := .authenticating, authFailed := false })
  else if l.policy = 3 then incompatible lane 2 s
  else joined lane s

/-- The session that an authentication leaves; a slot without USE_TAG makes none (R518, R525). -/
def sessionOf (s : State) (lane : Nat) : Option TagSession :=
  let l := s.link lane
  let slot := if Config.deviceId < peerId l then l.ownSlot else l.peerSlot
  if s.slotValid slot && kaTag (s.keySlot slot).attr then some (newSession s lane slot l.ownNonce l.peerNonce) else none

/-- Authentication succeeds once the peer's response is valid and the own one is sent. -/
def authDone (lane : Nat) (s : State) : State :=
  let l := s.link lane
  if !(l.peerValid && l.responseSent) then s
  else
    let x := sessionOf s lane
    let s := match x with
      | some v => useSlot v.slot s
      | none => s
    let s := setLinkShown lane { s.link lane with session := x, authenticated := true, reauth := false, peerValid := false } s
    if l.mode = .authenticating then joined lane s else s

/-- Streams of a lane or bond whose AUTH was 1 are unverified until a valid tag comes (R77, R537). -/
def streamsUnverified (home : Nat) (s : State) : State :=
  let s := s.each ((s.str.ins.filter fun e => e.2.mode != .absent && e.2.mode != .gone && dLane e.2.desc == home).map (·.1)) fun s k =>
    s.modIns k fun i => { i with tagState := 2, lapsed := true }
  recheck s

/-- A re-authentication fails (R537). -/
def reauthFails (lane reason : Nat) (s : State) : State :=
  let l := s.link lane
  let slot := match l.session with
    | some x => x.slot
    | none => l.ownSlot
  let again (x : TagSession) : TagSession := { x with retryAt := some (s.dt + s.reg Reg.secEpochTime * sec) }
  let was := l.authenticated
  let s := setLinkShown lane { l with authenticated := false, reauth := false, session := l.session.map again } s
  (if was then streamsUnverified (s.calLane lane) s else s).raise Ev.reauthFailed [slot, lane, reason]

/-- Authentication fails: reason 1 wrong, 2 late. -/
def authFails (lane reason : Nat) (s : State) : State :=
  let l := s.link lane
  if l.reauth then reauthFails lane reason s
  else
    let s := (setLinkShown lane { l with authFailed := true, authenticated := false, session := none } s).raise
      Ev.authFailedLink [l.ownSlot, lane, reason]
    if l.policy = 3 then incompatible lane 1 s else joined lane s

/-- The U3264 re-authenticates a lane that stays UP (R536); a slot that cannot answer fails it at once (R537). -/
def startReauth (lane : Nat) (s : State) : State :=
  let l := s.link lane
  let slot := match l.session with
    | some x => x.slot
    | none => s.reg Reg.lnkAuthSlot
  if l.mode ≠ .up then s
  else if !(s.slotValid slot && !kaOrphaned (s.keySlot slot).attr) then reauthFails lane 3 s
  else challenge lane (s.setLink lane { l with reauth := true })

/-- The peer's challenge: the own slot of that number answers, when it may (R518, R524). One that comes while the link is UP
begins a re-authentication of this side as well (R536). -/
def part2Op (lane body : Nat) (s : State) : State :=
  let m := (s.link lane).mode
  if m ≠ .authenticating ∧ m ≠ .up then s
  else
    let s := if m = .up ∧ !(s.link lane).reauth then challenge lane (s.modLink lane fun l => { l with reauth := true }) else s
    let slot := fld body 116 109
    let nonce := beBytes 12 (fld body 108 13)
    let s := s.modLink lane fun l => { l with peerNonce := nonce, peerSlot := slot }
    if !s.slotAuth slot then s
    else
      let r := linkResponse (s.slotKey slot) nonce Config.deviceId (peerId (s.link lane))
      let s := useSlot slot s
      let s := pushCtl lane 0x05 (pack [(3, 3), (64, r / 2 ^ 64), (53, 0)]) s
      let s := pushCtl lane 0x05 (pack [(3, 4), (64, r), (53, 0)]) s
      authDone lane (s.modLink lane fun l => { l with responseSent := true })

def execColophonPart2 (t lane body : Nat) (s : State) : Res := .next (received lane (part2Op lane body) (s.begin t))

/-- The peer's response, judged when it arrives. -/
def responseOp (lane part3 part4 : Nat) (s : State) : State :=
  let l := s.link lane
  if (l.mode ≠ .authenticating ∧ !l.reauth) ∨ l.peerValid then s
  else
    let want := linkResponse (s.slotKey l.ownSlot) l.ownNonce (peerId l) Config.deviceId
    if s.slotAuth l.ownSlot && fld part3 116 53 * 2 ^ 64 + fld part4 116 53 == want then
      authDone lane ((useSlot l.ownSlot s).modLink lane fun l => { l with peerValid := true })
    else authFails lane 1 s

def execColophonResponse (t lane part3 part4 : Nat) (s : State) : Res :=
  .next (received lane (responseOp lane part3 part4) (s.begin t))

/-- No response of the peer has arrived by LNK_AUTH_TIMEOUT (R406). -/
def execAuthTimeout (t lane : Nat) (s : State) : Res :=
  let s := s.begin t
  let l := s.link lane
  .next (if (l.mode = .authenticating ∨ l.reauth) ∧ !l.peerValid ∧ l.authSince + s.reg Reg.lnkAuthTimeout * ms ≤ s.dt then
    authFails lane 2 s else s)

/-! Parts 0 and 1 (R401, R402, R407, R408). -/

/-- A new negotiation shows a PARTNER_ID that differs from that of a partner not yet reported gone. -/
def partnerSeen (lane body : Nat) (s : State) : State :=
  let l := s.link lane
  let left := l.peer1 != 0 && l.leftAt.isSome && peerId l != fld body 116 53
  let s := s.setLink lane { l with peer1 := body % 2 ^ 120, leftAt := if left then none else l.leftAt }
  if left then s.raise (Ev.partnerLeft lane) [lane] else s

/-- Part 0 in NEGOTIATING: CHOSEN is computed, shown, and compared. -/
def negotiate (lane body : Nat) (s : State) : State :=
  let c := min (s.reg Reg.lnkRevMax) (fld body 112 109)
  let common := decide (max (s.reg Reg.lnkRevMin) (fld body 116 113) ≤ c)
  let chosen := if common then c else 0xF
  let s := s.modLink lane fun l => { l with peer0 := body % 2 ^ 120, seen0 := true, chosen := chosen }
  let s := sendParts lane s
  if !common || fld body 108 105 == 0xF then incompatible lane 0 s
  else if fld body 108 105 = chosen then agreed lane s
  else s

/-- Part 0 without CHOSEN. -/
def offerOf (body : Nat) : Nat := putFld (body % 2 ^ 120) 108 105 0

def part0Op (lane body : Nat) (s : State) : State :=
  let l := s.link lane
  match l.mode with
  | .negotiating => negotiate lane body s
  | .incompatible => if offerOf body = offerOf l.peer0 then s else negotiate lane body (renegotiate lane s)
  | .up => if body % 2 ^ 120 = l.peer0 then s else negotiate lane body (renegotiate lane s)
  | .turnHunt =>
    if !l.locked then s
    else if fld body 108 105 = l.rev then s.setLink lane { l with resumed0 := true }
    else negotiate lane body (startNegotiating lane s)
  | _ => s

def execColophonPart0 (t lane body : Nat) (s : State) : Res :=
  .next (part0Op lane body (goodHeader lane (s.begin t)))

def part1Op (lane body : Nat) (s : State) : State :=
  let l := s.link lane
  match l.mode with
  | .negotiating => partnerSeen lane body s
  | .incompatible | .up =>
    if body % 2 ^ 120 = l.peer1 then s else partnerSeen lane body (renegotiate lane s)
  | .turnHunt =>
    if !l.locked then s
    else if l.resumed0 && fld body 116 53 == peerId l then linkEntersUp lane true s
    else partnerSeen lane body (startNegotiating lane s)
  | _ => s

def execColophonPart1 (t lane body : Nat) (s : State) : Res :=
  .next (part1Op lane body (goodHeader lane (s.begin t)))

def execColophonTimeout (t lane : Nat) (s : State) : Res :=
  let s := s.begin t
  let l := s.link lane
  .next (if l.mode = .negotiating ∧ !l.seen0 ∧ l.negSince + s.reg Reg.lnkColophonTimeout * ms ≤ s.dt then
    incompatible lane 0 s else s)

/-- PARTNER_LEFT 8 ms after UP was left. -/
def execResumeTimeout (t lane : Nat) (s : State) : Res :=
  let s := s.begin t
  let l := s.link lane
  let due : Bool := match l.leftAt with
    | some x => decide (x + 8 * ms ≤ s.dt)
    | none => false
  .next (if due && l.mode != .up then
    (s.setLink lane { l with leftAt := none }).raise (Ev.partnerLeft lane) [lane] else s)

/-! Tag epochs (R529, R535 to R537). -/

/-- The sending epoch advances by 1, no sooner than 1 s after the last advance and never of an orphaned session; after 255
advances the lane re-authenticates first. -/
def epochAdvanceOp (lane : Nat) (s : State) : State :=
  let l := s.link lane
  match l.session with
  | none => s
  | some x =>
    if x.orphaned ∨ s.dt < x.txSince + sec then s
    else if 255 ≤ x.advances then (if l.reauth then s else startReauth lane s)
    else
      (s.setLink lane { l with session := some { x with
        txEpoch := (x.txEpoch + 1) % 256, txSince := s.dt, advances := x.advances + 1 } }).raise
        Ev.epochAdvanced [x.slot, lane, (x.txEpoch + 1) % 256]

def execEpochAdvance (t lane : Nat) (s : State) : Res := .next (epochAdvanceOp lane (s.begin t))

/-- A derived child whose parent holds a key again is derived anew, and ORPHANED clears (R536). -/
def rederive (slot : Nat) (s : State) : State :=
  let k := s.keySlot slot
  let parent := kaParent k.attr
  if kaOrphaned k.attr && bit k.attr 15 && s.slotValid parent && !kaOrphaned (s.keySlot parent).attr then
    useSlot parent (s.setKeySlot slot { k with
      key := kdf (s.slotKey parent) "SLOT" (slot :: beBytes 4 k.label) 256, attr := clrBit k.attr 22 })
  else s

/-- The end of the epoch of a session on an orphaned or replaced slot (R536): a lane, or 32 + a DAP session. -/
def orphanEpochEndOp (who : Nat) (s : State) : State :=
  if who < 32 then
    match (s.link who).session with
    | some x => if x.orphaned then startReauth who (rederive x.slot s) else s
    | none => s
  else match oget s.dap.sessions (who - 32) with
    | some x =>
      let period := max 1 (s.reg Reg.secEpochTime) * sec
      match x.orphanedAt with
      | some u => if (u - x.opened) / period < (s.dt - x.opened) / period then
          endSession (who - 32) (rederive x.slot s) else s
      | none => s
    | none => s

def execOrphanEpochEnd (t who : Nat) (s : State) : Res := .next (orphanEpochEndOp who (s.begin t))

/-- A failed re-authentication is tried again at each SEC_EPOCH_TIME (R537). -/
def reauthRetryOp (lane : Nat) (s : State) : State :=
  match (s.link lane).session with
  | some x =>
    match x.retryAt with
    | some u => if u ≤ s.dt then startReauth lane (rederive x.slot s) else s
    | none => s
  | none => s

def execReauthRetry (t lane : Nat) (s : State) : Res := .next (reauthRetryOp lane (s.begin t))

end Sys2Proof.Machine
end

