-- ==== Sys2Proof/Machine/EventCmds.lean ====
section
/-! DEFINITION. The commands of the event words (R504 to R511), and the end of the minimum low time of SAFE_N (R488). -/

namespace Sys2Proof.Machine

/-- A write of status word w clears the bits written as 1. -/
def evtStatusOp (w value : Nat) (s : State) : State × Nat := (clearStatus (value % 2 ^ 32 * 2 ^ (32 * w)) s, stDone)

def execEvtStatusClear (t : Nat) (src : Src) (w value : Nat) (s : State) : Res :=
  .next (answer src (Reg.evtStatus w) false (evtStatusOp w value) (s.begin t))

def evtEnableOp (w value : Nat) (s : State) : State × Nat := (writeEnable w (value % 2 ^ 32) s, stDone)

def execEvtEnableWrite (t : Nat) (src : Src) (w value : Nat) (s : State) : Res :=
  .next (answer src (Reg.evtEnable w) false (evtEnableOp w value) (s.begin t))

/-- A severity word that would lower a SAFE default is refused whole (R506). -/
def evtSeverityOp (w value : Nat) (s : State) : State × Nat :=
  if lowersSafe w (value % 2 ^ 64) then (s, stValue) else (writeSeverity w (value % 2 ^ 64) s, stDone)

def execEvtSeverityWrite (t : Nat) (src : Src) (w value : Nat) (s : State) : Res :=
  .next (answer src (Reg.evtSeverity w) false (evtSeverityOp w value) (s.begin t))

/-- EVT_CLEAR_ALL 0x01. -/
def evtClearAllOp (s : State) : State × Nat := (clearStatus (2 ^ 1152 - 1) s, stDone)

def execEvtClearAll (t : Nat) (src : Src) (s : State) : Res :=
  .next (answer src Reg.evtClearAll false evtClearAllOp (s.begin t))

def evtClearIdOp (id : Nat) (s : State) : State × Nat :=
  if 1151 < id then (s, stValue) else (clearStatus (2 ^ id) s, stDone)

def execEvtClearId (t : Nat) (src : Src) (id : Nat) (s : State) : Res :=
  .next (answer src Reg.evtClearId false (evtClearIdOp (id % 2 ^ 16)) (s.begin t))

/-- EVT_TEST (R509): the life-cycle state, then the ID. -/
def evtTestOp (id : Nat) (s : State) : State × Nat :=
  if s.nvm.lc ≠ 0 ∧ s.nvm.lc ≠ 3 then (s, stNotNow)
  else if !bit evtAssigned id then (s, stValue)
  else (raiseN 33 id [] true .auto s, stDone)

def execEvtTest (t : Nat) (src : Src) (id : Nat) (s : State) : Res :=
  .next (answer src Reg.evtTest false (evtTestOp (id % 2 ^ 16)) (s.begin t))

/-- EVT_DEFAULTS 0x01. -/
def evtDefaultsOp (s : State) : State × Nat := (eventDefaults s, stDone)

def execEvtDefaults (t : Nat) (src : Src) (s : State) : Res :=
  .next (answer src Reg.evtDefaults false evtDefaultsOp (s.begin t))

/-- The minimum low time of SAFE_N ends. -/
def execSafeMinLowExpiry (t : Nat) (s : State) : Res :=
  let s := s.begin t
  .next (if s.evt.minRunning s.dt then s else updatePins { s with evt := { s.evt with minLow := none } })

end Sys2Proof.Machine
end

