-- ==== Sys2Proof/Machine/Image.lean ====
section
/-! DEFINITION. The dictionary image of SAVE (R467, R468, R628): which entries it holds, the values in force, its bytes. -/

namespace Sys2Proof.Machine

/-- The indices that hold entries, ascending, as runs (R493). -/
def dictRuns : List (Nat × Nat) :=
  [(0x1000, 3), (0x1100, 3), (0x1200, 2), (0x1300, 4), (0x1400, 2), (0x1500, 2), (0x1600, 2), (0x1610, 32), (0x1700, 2),
   (0x2000, 12), (0x20F0, 1), (0x2100, 16), (0x3000, 32), (0x3100, 3), (0x4000, 3), (0x4100, 3), (0x4200, 3)] ++
  [(0x5000, 48), (0x6000, 4), (0x6100, 17), (0x7000, 64), (0x7800, 9), (0x7810, 4)]

def dictIndices : List Nat := dictRuns.flatMap fun r => (List.range r.2).map (r.1 + ·)

/-- The keys of the entries marked P with their sizes, in ascending order (R628). -/
def savedKeys : List (Nat × Nat) :=
  dictIndices.flatMap fun i => (List.range ((indexHeader i).getD 0)).filterMap fun k =>
    match entryOf i (k + 1) with
    | some e => if e.save then some (ekey i (k + 1), e.size) else none
    | none => none

/-- The value in force of an entry (R464, R467). -/
def State.valueInForce (s : State) (key : Nat) : Nat :=
  let i := key / 256
  let sub := key % 256
  if key = Reg.rtTable then s.rtTable
  else if i = 0x1301 then fld s.evt.enable (32 * (sub - 1) + 31) (32 * (sub - 1))
  else if i = 0x1302 then fld s.evt.severity (64 * (sub - 1) + 63) (64 * (sub - 1))
  else if 0x3000 ≤ i ∧ i < 0x3020 ∧ sub = 0x13 then (s.link (i - 0x3000)).txCal
  else if i = 0x3101 then tget (fun _ => 0) s.eps.bonds (sub - 1)
  else match keyEntry key with
    | some e => if e.right = .rwc ∨ (0x7000 ≤ i ∧ i < 0x7040 ∧ sub = 3) then s.force key else s.reg key
    | none => 0

/-- The snapshot that SAVE takes at its acceptance. -/
def imageSnapshot (s : State) : List (Nat × List Nat) :=
  savedKeys.map fun k => (k.1, leBytes k.2 (s.valueInForce k.1))

/-- The image of a snapshot, its CRC-32C last. -/
def imageBytes (snap : List (Nat × List Nat)) : List Nat :=
  let recs := snap.flatMap fun x => leBytes 2 (x.1 / 256) ++ [x.1 % 256, 0] ++ leBytes 4 x.2.length ++ x.2
  let body := leBytes 2 1 ++ leBytes 2 0x0200 ++ leBytes 4 snap.length ++ leBytes 4 recs.length ++ recs
  body ++ leBytes 4 (crc32c body)

/-- Entry records of an image, at most n. -/
def imageRecords : Nat → List Nat → List (Nat × List Nat)
  | 0, _ => []
  | n + 1, l =>
    if l.length < 8 then []
    else
      let size := leNat ((l.drop 4).take 4)
      (ekey (leNat (l.take 2)) (nth l 2 0), (l.drop 8).take size) :: imageRecords n (l.drop (8 + size))

/-- The stored records of an image whose CRC-32C holds. -/
def imageRead (img : List Nat) : Option (List (Nat × List Nat)) :=
  let n := img.length - 4
  if 16 ≤ img.length ∧ leNat (img.drop n) = crc32c (img.take n) then
    some (imageRecords (leNat ((img.drop 4).take 4)) (((img.drop 12).take (leNat ((img.drop 8).take 4)))))
  else none

/-- The commit word of SAVE is written: the new image is the one in force, without a mark (R467, R468). -/
def saveStands (x : SaveRun) (s : State) : State :=
  let img := imageBytes x.image
  let s : State := { s with
    dap := { s.dap with save := none }
    nvm := { s.nvm with image := some img, imageMarked := false } }
  (((s.setReg Reg.dapSaveState 2).setReg Reg.dapSaveDt x.at_).setReg Reg.dapSaveDigest
    (leNat (img.drop (img.length - 4)))).count Reg.dapSaveCount 1

end Sys2Proof.Machine
end

