-- ==== Sys2Proof/Machine/Link.lean ====
section
/-! DEFINITION. Rate change, low power and loops as the link agrees them (R363, R420, R421), and the link's own commands of
the host (R423, R424, R426). -/

namespace Sys2Proof.Machine

/-! Rate change (R420). -/

/-- A rate lies outside the lane's RATE_MIN to RATE_MAX. -/
def rateOutside (s : State) (lane rate : Nat) : Bool :=
  let v := s.phySetup lane
  decide (rate < psRateMax v ∨ psRateMin v < rate)

/-- A partner's request is refused. -/
def rateRefused (s : State) (lane rate : Nat) : Bool :=
  let l := s.link lane
  (s.bondLanes lane).any (fun n => rateOutside s n rate || (s.lane n).mode == .loop) || !bit (fld l.peer0 53 48) rate ||
    (ratePam4 rate && decide (l.rev < 2)) || calendarPending s lane

/-- A rate is agreed for every lane of the bond. -/
def rateAgree (lane rate : Nat) (s : State) : State :=
  s.each (s.bondLanes lane) fun s n =>
    let s := if (s.link n).mode = .up then leaveUp n s else s
    s.modLink n fun l => if l.mode = .down then l else { l with mode := .rateChange, rateAgreed := some rate, rateAsked := none }

/-- RATE with OP 0. When both sides have asked, the request of the lower PARTNER_ID stands. -/
def rateRequestOp (lane body : Nat) (s : State) : State :=
  let rate := fld body 115 113
  let l := s.link lane
  if l.mode ≠ .up then s
  else if l.rateAsked.isSome ∧ Config.deviceId < peerId l then s
  else
    let s := s.modLink lane fun l => { l with rateAsked := none }
    if rateRefused s lane rate then pushCtl lane 0x12 (rateBody 2 rate) s
    else rateAgree lane rate (pushCtl lane 0x12 (rateBody 1 rate) s)

def execRateRequestFolio (t lane body : Nat) (s : State) : Res :=
  .next (received lane (rateRequestOp lane body) (s.begin t))

/-- RATE with OP 1, to the request that waits. -/
def rateAcceptOp (lane body : Nat) (s : State) : State :=
  if (s.link lane).mode = .up ∧ (s.link lane).rateAsked = some (fld body 115 113) then rateAgree lane (fld body 115 113) s
  else s

def execRateAcceptFolio (t lane body : Nat) (s : State) : Res :=
  .next (received lane (rateAcceptOp lane body) (s.begin t))

/-- RATE with OP 2. -/
def rateRefuseOp (lane body : Nat) (s : State) : State :=
  s.modLink lane fun l => if l.rateAsked = some (fld body 115 113) then { l with rateAsked := none } else l

def execRateRefuseFolio (t lane body : Nat) (s : State) : Res :=
  .next (received lane (rateRefuseOp lane body) (s.begin t))

/-- LNK_RATE_REQUEST (R420, R422). -/
def lnkRateRequestOp (lane rate : Nat) (s : State) : State × Nat :=
  if (s.link lane).mode ≠ .up ∨ 5 < rate ∨ (s.bondLanes lane).any (fun n => rateOutside s n rate) ∨ calendarPending s lane ∨
      (s.link lane).rateAsked.isSome then (s, stValue)
  else (pushCtl lane 0x12 (rateBody 0 rate) (s.modLink lane fun l => { l with rateAsked := some rate }), stDone)

def execLnkRateRequest (t : Nat) (src : Src) (lane rate : Nat) (s : State) : Res :=
  .next (answer src (Reg.lnkRateRequest lane) false (lnkRateRequestOp lane rate) (s.begin t))

/-! Low power (R421). -/

/-- The lane is agreed to sleep; it does so at the next turn boundary (R357). -/
def sleepAgreed (lane op : Nat) (s : State) : State :=
  let s := if (s.link lane).mode = .up then leaveUp lane s else s
  (s.modLink lane fun l => { l with mode := .lowPower, held := true }).modLane lane fun l =>
    { l with lpEntry := op, lpAsked := 0 }

/-- A partner's request for Quiet (3) or Dormant (4). -/
def sleepRequestOp (lane op : Nat) (s : State) : State :=
  let l := s.link lane
  if l.mode ≠ .up then s
  else if calHasData (s.link (s.calLane lane)).txCal || !capInUse l (op - 1) || calendarPending s lane then
    pushCtl lane 0x12 (rateBody 6 0) s
  else sleepAgreed lane op (pushCtl lane 0x12 (rateBody 5 0) s)

def execQuietRequestFolio (t lane : Nat) (s : State) : Res := .next (received lane (sleepRequestOp lane 3) (s.begin t))

def execDormantRequestFolio (t lane : Nat) (s : State) : Res := .next (received lane (sleepRequestOp lane 4) (s.begin t))

/-- OP 5, to the request that waits. -/
def sleepAcceptOp (lane : Nat) (s : State) : State :=
  let op := (s.lane lane).lpAsked
  if op ≠ 0 ∧ (s.link lane).mode = .up then sleepAgreed lane op s else s

def execLpAcceptFolio (t lane : Nat) (s : State) : Res := .next (received lane (sleepAcceptOp lane) (s.begin t))

def execLpRefuseFolio (t lane : Nat) (s : State) : Res :=
  .next (received lane (fun s => s.modLane lane fun l => { l with lpAsked := 0 }) (s.begin t))

/-! Loops (R360, R363). -/

/-- A partner asks for an echo. -/
def loopRequestOp (lane body : Nat) (s : State) : State :=
  let l := s.link lane
  if l.mode ≠ .up then s
  else if psEcho (s.phySetup lane) && !laneUsed s lane && !lanePending s lane then
    let s := s.emit (.control lane 0x11 (loopBody 1 (fld body 117 92)))
    beginLoop lane 0 0 (fld body 117 92) (s.modLink lane fun l => { l with echo := true })
  else pushCtl lane 0x11 (loopBody 2 0) s

def execLoopRequestFolio (t lane body : Nat) (s : State) : Res :=
  .next (received lane (loopRequestOp lane body) (s.begin t))

/-- The partner echoes: the far-end loop of PHY_LOOP runs. -/
def loopAcceptOp (lane : Nat) (s : State) : State :=
  let v := s.reg (Reg.phyLoop lane)
  if (s.link lane).loopAsked ∧ (s.lane lane).mode = .ready then beginLoop lane 3 (fld v 61 59) (fld v 57 32) s else s

def execLoopAcceptFolio (t lane : Nat) (s : State) : Res := .next (received lane (loopAcceptOp lane) (s.begin t))

def execLoopRefuseFolio (t lane : Nat) (s : State) : Res :=
  .next (received lane (fun s => s.modLink lane fun l => { l with loopAsked := false }) (s.begin t))

/-- The partner ends the loop that is echoed for it. -/
def execLoopEndFolio (t lane : Nat) (s : State) : Res :=
  let s := s.begin t
  .next (if (s.link lane).echo ∧ (s.lane lane).mode = .loop then
    endLoop lane 2 (s.lane lane).loop.bits (s.lane lane).loop.errors (s.modLink lane fun l => { l with echo := false })
  else s)

/-! Commands of the host. -/

/-- LNK_CONTROL 0x01: DOMAIN applies at once, AUTH at the next negotiation (R424). -/
def lnkApplyOp (lane : Nat) (s : State) : State × Nat := (s.apply (Reg.lnkSetup lane), stDone)

def execLnkApplySetup (t : Nat) (src : Src) (lane : Nat) (s : State) : Res :=
  .next (answer src (Reg.lnkControl lane) true (lnkApplyOp lane) (s.begin t))

def lnkClearOp (lane : Nat) (s : State) : State × Nat :=
  (s.modCounts lane fun _ => {}, stDone)

def execLnkClearCounts (t : Nat) (src : Src) (lane : Nat) (s : State) : Res :=
  .next (answer src (Reg.lnkControl lane) false (lnkClearOp lane) (s.begin t))

/-- LNK_STATS_CLEAR 0x01 (R426). -/
def lnkStatsClearOp (s : State) : State × Nat :=
  ((s.each (List.range 32) fun s n => s.modCounts n fun _ => {}).setReg Reg.lnkEpRefused 0, stDone)

def execLnkStatsClear (t : Nat) (src : Src) (s : State) : Res :=
  .next (answer src Reg.lnkStatsClear false lnkStatsClearOp (s.begin t))

end Sys2Proof.Machine
end

