-- ==== Sys2Proof/Machine/Ports.lean ====
section
/-! DEFINITION. The CAN FD ports and the management Ethernet port (R483, R485, R490, R492). -/

namespace Sys2Proof.Machine

/-- Something that may take a path out of service or bring it back. -/
def withPath (p : Nat) (f : State → State) (s : State) : State :=
  let r := f s
  if transportUp s p && !transportUp r p then pathDown p r
  else if !transportUp s p && transportUp r p then pathUp p r
  else r

/-! CAN FD. -/

/-- A CAN setup within R492. Every DATA_RATE is at least 1 Mbit/s, so none lies below the arbitration rate. -/
def canSetupOk (v : Nat) : Bool :=
  decide (fld v 60 58 < 5 ∧ 50 ≤ fld v 56 50 ∧ fld v 56 50 ≤ 90 ∧ 50 ≤ fld v 49 43 ∧ fld v 49 43 ≤ 90)

/-- A port that starts counts errors from 0 (ISO 11898-1). -/
def canFresh (p : Nat) (s : State) : State := s.setCan p { s.can p with txErr := 0, rxErr := 0, busOff := false }

/-- A CAN setup comes into force. -/
def canForce (p v : Nat) (s : State) : State :=
  withPath p (fun s =>
    let s := s.setForce (Reg.canSetup p) v
    if bit v 63 then s else canFresh p s) s

/-- CAN_CONTROL op 0x01. -/
def canApplyOp (p : Nat) (s : State) : State × Nat :=
  if 1 < p ∨ canSetupOk (s.reg (Reg.canSetup p)) = false then (s, stValue)
  else (canForce p (s.reg (Reg.canSetup p)) s, stDone)

/-- CAN_CONTROL op 0x02. -/
def canLeaveOp (p : Nat) (s : State) : State × Nat :=
  if 1 < p then (s, stValue)
  else (if (s.can p).busOff then withPath p (canFresh p) s else s, stDone)

def execCanApplySetup (t : Nat) (src : Src) (port : Nat) (s : State) : Res :=
  .next (answer src Reg.canControl true (canApplyOp port) (s.begin t))

def execCanLeaveBusOff (t : Nat) (src : Src) (port : Nat) (s : State) : Res :=
  .next (answer src Reg.canControl false (canLeaveOp port) (s.begin t))

/-- An error on the bus: its counters; a transmit counter beyond 255 is bus-off. -/
def execCanBusError (t port tec rec_ : Nat) (s : State) : Res :=
  let s := s.begin t
  let c := s.can port
  .next (if 1 < port ∨ c.busOff ∨ bit (s.force (Reg.canSetup port)) 63 = false then s
    else withPath port (fun s => s.setCan port { c with
      txErr := tec, rxErr := rec_, busOff := decide (255 < tec), busOffs := c.busOffs + ofBool (decide (255 < tec)) }) s)

/-- The port recovers from bus-off as ISO 11898-1 says. -/
def execCanBusOffRecovery (t port : Nat) (s : State) : Res :=
  let s := s.begin t
  .next (if (s.can port).busOff then withPath port (canFresh port) s else s)

/-! Management Ethernet. -/

/-- A NET_SETUP within R492. -/
def netSetupOk (v : Nat) : Bool :=
  (!bit v 125 || decide (1 ≤ fld v 121 110 ∧ fld v 121 110 ≤ 4094)) && decide (8 ≤ fld v 77 72 ∧ fld v 77 72 ≤ 30)

/-- NET_ADDR_IN_USE: ADDRESS, or 169.254.64.(10 + NODE_ID). -/
def netAddress (s : State) : Nat :=
  let a := fld (s.force Reg.netSetup) 109 78
  if a = 0 then 0xA9FE4000 + (10 + s.reg Reg.idNodeId) else a

def netForce (v : Nat) (s : State) : State := withPath 2 (fun s => s.setForce Reg.netSetup v) s

/-- NET_CONTROL 0x01. -/
def netApplyOp (s : State) : State × Nat :=
  if netSetupOk (s.reg Reg.netSetup) then (netForce (s.reg Reg.netSetup) s, stDone) else (s, stValue)

/-- The PHY link goes up or down. -/
def netLink (up : Bool) (s : State) : State :=
  withPath 2 (fun s => { s with dap := { s.dap with netLink := up } }) s

/-- NET_CONTROL 0x02: the PHY restarts, so its link is down until it reports one. -/
def netRestartOp (s : State) : State × Nat := (netLink false s, stDone)

def execNetApplySetup (t : Nat) (src : Src) (s : State) : Res :=
  .next (answer src Reg.netControl true netApplyOp (s.begin t))

def execNetRestartPhy (t : Nat) (src : Src) (s : State) : Res :=
  .next (answer src Reg.netControl false netRestartOp (s.begin t))

def execNetLinkChange (t : Nat) (up : Bool) (s : State) : Res := .next (netLink up (s.begin t))

/-- The U3264 answers for its own address (R485). -/
def netAnswers (s : State) (target : Nat) : Bool := netUp s && controlStarted s && target == netAddress s

def execArpRequest (t target senderIp senderMac : Nat) (s : State) : Res :=
  let s := s.begin t
  .next (if netAnswers s target then s.emit (.arp senderIp senderMac target (Config.macAddress % 2 ^ 48)) else s)

def execIcmpEcho (t source dest : Nat) (data : List Nat) (s : State) : Res :=
  let s := s.begin t
  .next (if netAnswers s dest then s.emit (.echo source data) else s)

/-! Counts. -/

/-- DAP_STATS_CLEAR 0x01 (R490). -/
def dapStatsClearOp (s : State) : State × Nat :=
  let s : State := { s with dap := { s.dap with
    paths := (s.dap.paths.map fun e => (e.1, { e.2 with errors := 0, requests := 0 })).filter fun e => e.2 != {} } }
  (s.clear [Reg.dapErrors, Reg.dapNotifyDropped, Reg.canForeign, Reg.netForeign], stDone)

def execDapStatsClear (t : Nat) (src : Src) (s : State) : Res :=
  .next (answer src Reg.dapStatsClear false dapStatsClearOp (s.begin t))

end Sys2Proof.Machine
end

