-- ==== Sys2Proof/Machine/Refs.lean ====
section
/-! DEFINITION. Commands and happenings of the reference sources, the timing domains and device time
(12_reference_timing.md, R429 to R460). -/

namespace Sys2Proof.Machine

/-! Applies (R430, R431, R434, R439). -/

/-- A REF_SETUP within its ranges, for source n. -/
def refSetupOk (n v : Nat) : Bool :=
  if n < 4 then rsPulse v || decide (8000 ≤ rsNominal v ∧ rsNominal v ≤ 200000000)
  else if n < 8 then decide (100 ≤ rsNominal v ∧ rsNominal v ≤ 24000) else true

/-- A REF_LIMITS within its ranges. -/
def refLimitsOk (v : Nat) : Bool :=
  decide (1 ≤ fld v 127 112 ∧ fld v 127 112 ≤ 5000 ∧ 2 ≤ fld v 111 96 ∧ fld v 111 96 ≤ 10000 ∧
    fld v 127 112 < fld v 111 96 ∧ 1 ≤ fld v 95 80 ∧ fld v 95 80 ≤ 10000 ∧ fld v 79 64 ≤ 10000 ∧
    1 ≤ fld v 63 48 ∧ fld v 63 48 ≤ 3600 ∧ 1 ≤ fld v 47 32 ∧ fld v 47 32 ≤ 3600)

/-- Another enabled lane clock source names the lane (R431). -/
def laneNamed (s : State) (n lane : Nat) : Bool :=
  [8, 9, 10].any fun m => m != n && rsEnable (s.refSetup m) && rsLane (s.refSetup m) == lane

/-- An apply changes a field that bears on the source: PULSE, EDGE, LANE or NOMINAL where R430 does not ignore it. -/
def refChanged (n old new : Nat) : Bool :=
  if n < 4 then rsPulse old != rsPulse new || rsEdge old != rsEdge new ||
    (!rsPulse new && rsNominal old != rsNominal new)
  else if n < 8 then rsEdge old != rsEdge new || rsNominal old != rsNominal new
  else if n < 11 then rsLane old != rsLane new else false

/-- A lane clock follows the state of its lane. -/
def followLane (n : Nat) (s : State) : State :=
  if s.srcType n = .lane then
    (if (s.lane (rsLane (s.refSetup n))).mode = .ready then refActive n s else refInactive n s)
  else s

/-- REF_CONTROL 0x01. -/
def refApplyOp (n : Nat) (s : State) : State × Nat :=
  let v := s.reg (Reg.refSetup n)
  let old := s.refSetup n
  let bad := !refSetupOk n v || !refLimitsOk (s.reg (Reg.refLimits n)) ||
    (decide (8 ≤ n ∧ n < 11) && rsEnable v && laneNamed s n (rsLane v))
  if bad then (s, stValue)
  else
    let s := (s.apply (Reg.refSetup n)).apply (Reg.refLimits n)
    let s := if n = 11 ∧ rsEnable v ∧ !rsEnable old then { s with clk := { s.clk with everSync := false } } else s
    let s :=
      if !rsEnable v then (if (s.src n).mode = .disabled then s else refTo n .disabled s)
      else if (s.src n).mode = .disabled then refTo n .absent (s.modSrc n fun x => { x with good := 0, offsets := [] })
      else if refChanged n old v then
        let s := refRequalify n s
        s.each ((List.range 16).filter fun d => (s.dom d).selected == some n) fun s d => domLoop d s
      else s
    (if rsEnable v then followLane n s else s, stDone)

def refRequalifyOp (n : Nat) (s : State) : State × Nat := (refRequalify n s, stDone)

def refClearCountsOp (n : Nat) (s : State) : State × Nat :=
  (s.modSrc n fun v => { v with losses := 0, rejects := 0, marginals := 0, disagrees := 0, outvotes := 0 }, stDone)

/-- A DOM_SETUP within its ranges. -/
def domSetupOk (v : Nat) : Bool :=
  decide (dsBandwidth v ≠ 7 ∧ (dsForce v ≤ 11 ∨ dsForce v = 15) ∧ fld v 117 102 ≤ 3600 ∧
    (dsFrameRate v = 0 ∨ 100 ≤ dsFrameRate v ∧ dsFrameRate v ≤ 24000) ∧ dsFrameOffset v ≤ 999999999 ∧
    1 ≤ dsSlew v ∧ dsSlew v ≤ 10000)

/-- A lane, output raster, TDM port or DT names the domain (R439). -/
def domNamed (s : State) (d : Nat) : Bool :=
  ((List.range 32).any fun n => fld (s.force (Reg.lnkSetup n)) 63 60 == d) ||
  ((List.range 64).any fun n => fld (s.force (Reg.outRaster n)) 30 27 == d) ||
  ((List.range 8).any fun n => fld (s.force (Reg.tdmSetup n)) 59 56 == d) || s.reg Reg.dtDomain == d

/-- DOM_CONTROL 0x01; a selected source that the apply removes is replaced at once (R455). -/
def domApplyOp (d : Nat) (build : List (Nat × Int)) (s : State) : State × Nat :=
  let v := s.reg (Reg.domSetup d)
  if !domSetupOk v || (!dsEnable v && domNamed s d) then (s, stValue)
  else
    let s := (s.apply (Reg.domSetup d)).apply (Reg.domSources d)
    if !dsEnable v then
      (domTo d .off (s.modDom d fun x => { x with selected := none, bandwidth := none }), stDone)
    else
      let s := if (s.dom d).mode = .off then domTo d .freeRun (s.modDom d fun x => { x with freq := 0 }) else s
      (domEval build d (domLoop d s), stDone)

def domClearHistoryOp (d : Nat) (s : State) : State × Nat := (s.modDom d fun v => { v with hist := [] }, stDone)

def domClearCountsOp (d : Nat) (s : State) : State × Nat := (s.modDom d fun v => { v with switches := 0 }, stDone)

/-- REF_STATS_CLEAR (R458). -/
def refStatsClearOp (s : State) : State × Nat :=
  let s := s.each (List.range 12) fun s n => (refClearCountsOp n s).1
  let s := s.each (List.range 16) fun s d => (domClearCountsOp d s).1
  (s.setReg Reg.refSwitchTotal 0, stDone)

/-- A write of DT_DOMAIN (R446): the rate of DT moves to the new domain over 10 s. -/
def dtDomainOp (value : Nat) (s : State) : State × Nat :=
  if 15 < value then (s, stValue)
  else (({ s with clk := { s.clk with slew := some (s.reg Reg.dtDomain, s.dt) } } : State).setReg Reg.dtDomain value, stDone)

def execRefApply (t : Nat) (src : Src) (n : Nat) (s : State) : Res :=
  .next (answer src (Reg.refControl n) true (refApplyOp n) (s.begin t))

def execRefRequalify (t : Nat) (src : Src) (n : Nat) (s : State) : Res :=
  .next (answer src (Reg.refControl n) false (refRequalifyOp n) (s.begin t))

def execRefClearCounts (t : Nat) (src : Src) (n : Nat) (s : State) : Res :=
  .next (answer src (Reg.refControl n) false (refClearCountsOp n) (s.begin t))

def execDomApply (t : Nat) (src : Src) (n : Nat) (build : List (Nat × Int)) (s : State) : Res :=
  .next (answer src (Reg.domControl n) true (domApplyOp n build) (s.begin t))

def execDomClearHistory (t : Nat) (src : Src) (n : Nat) (s : State) : Res :=
  .next (answer src (Reg.domControl n) false (domClearHistoryOp n) (s.begin t))

def execDomClearCounts (t : Nat) (src : Src) (n : Nat) (s : State) : Res :=
  .next (answer src (Reg.domControl n) false (domClearCountsOp n) (s.begin t))

def execRefStatsClear (t : Nat) (src : Src) (s : State) : Res :=
  .next (answer src Reg.refStatsClear false refStatsClearOp (s.begin t))

def execDtDomainWrite (t : Nat) (src : Src) (value : Nat) (s : State) : Res :=
  .next (answer src Reg.dtDomain false (dtDomainOp value) (s.begin t))

/-! Monitors (R432, R433). -/

/-- Time without an edge after which a pulse source is inactive, in ns, and how many good edges make it active. -/
def pulseLimit (s : State) (n : Nat) : Time :=
  if s.srcType n = .pps then 1500 * ms else 150 * sec / max 1 (rsNominal (s.refSetup n))
def pulseGood (s : State) (n : Nat) : Nat := if s.srcType n = .pps then 3 else 8

/-- A period within the tolerance of R432. -/
def periodOk (s : State) (n period : Nat) : Bool :=
  if s.srcType n = .pps then decide (sec - ms ≤ period ∧ period ≤ sec + ms)
  else
    let p := period * rsNominal (s.refSetup n)
    decide (99 * sec ≤ p ∧ p ≤ 101 * sec)

/-- The activity monitor finds no edge, no READY lane or no messages. A pulse source whose edges never came at its period
since it was set up counts as without edges (R455). -/
def execRefActivityTimeout (t n : Nat) (s : State) : Res :=
  let s := s.begin t
  let v := s.src n
  .next (match s.srcType n with
    | .pps | .frame =>
      if v.good ≤ 1 ∨ v.lastEdge + pulseLimit s n ≤ s.dt then refInactive n s else s
    | .lane => if (s.lane (rsLane (s.refSetup n))).mode = .ready then s else refInactive n s
    | .clock | .net => refInactive n s)

/-- 1,000 periods in a row within ±1 % of nominal (R432). -/
def execClockSourceActive (t n : Nat) (s : State) : Res :=
  let s := s.begin t
  .next (if s.srcType n = .clock then refActive n s else s)

/-- An edge of a pulse source: REF_PERIOD, REF_LAST_EDGE, and the good edges in a row. -/
def execRefPulseEdge (t n : Nat) (s : State) : Res :=
  let s := s.begin t
  let v := s.src n
  let pulse := s.srcType n == .pps || s.srcType n == .frame
  .next (if !pulse || v.mode == .disabled then s
    else
      let period := s.dt - v.lastEdge
      let good :=
        if v.mode ≠ .absent ∧ v.mode ≠ .qualifying then v.good
        else if v.good ≠ 0 ∧ periodOk s n period then v.good + 1 else 1
      let s := s.setSrc n { v with period := period, lastEdge := s.dt, good := good }
      if pulseGood s n ≤ good then refActive n s else s)

/-- A detection window of a source ends: its offset, drift and state, its comparisons, and the domains that select it. -/
def execRefWindowEnd (t n : Nat) (offset : Int) (doms : List (Nat × Int × Int)) (s : State) : Res :=
  let s := s.begin t
  .next (if (s.src n).mode = .disabled ∨ (s.src n).mode = .absent then s
    else
      let s := refAgreement n (refDisagreements n (refWindow n offset s))
      s.each ((List.range 16).filter fun d => (s.dom d).selected == some n) fun s d =>
        match doms.find? fun x => x.1 == d with
        | none => s
        | some (_, f, p) =>
          let s := s.modDom d fun v => { v with freq := f, phase := p }
          if (s.dom d).mode ≠ .acquiring then s
          else if !domNear s d n then s.modDom d fun v => { v with near := 0 }
          else if 3 ≤ (s.dom d).near + 1 then domTo d .locked s
          else s.modDom d fun v => { v with near := v.near + 1 })

/-- QUAL_TIME has run: QUALIFY, or AGREE of an outvoted source (R435). -/
def execRefQualTimeExpiry (t n : Nat) (s : State) : Res :=
  let s := s.begin t
  let v := s.src n
  let due (x : Option Time) : Bool := match x with
    | some u => decide (u + rlQual (s.refLimits n) ≤ s.dt)
    | none => false
  .next (if v.mode == .qualifying && due v.within then refTo n .qualified s
    else if v.mode == .outvoted && due v.agree then refTo n .qualified s
    else s)

/-- The evaluation of every enabled domain, each 100 ms (R441). -/
def execSelectionEval (t : Nat) (build : List (Nat × Int)) (s : State) : Res :=
  let s := s.begin t
  .next (s.each (List.range 16) fun s d => domEval build d s)

/-- A second of history of each LOCKED domain; 4,096 s are kept (R443). -/
def execHistoryTick (t : Nat) (freqs : List (Nat × Int)) (s : State) : Res :=
  let s := s.begin t
  .next (s.each freqs fun s x =>
    if x.1 < 16 ∧ (s.dom x.1).mode = .locked then
      s.modDom x.1 fun v => { v with
        hist := ((s.dt, x.2) :: v.hist).filter fun h => decide (s.dt < h.1 + 4096 * sec) }
    else s)

/-- A frame pulse (R445, R447). -/
def execDomFramePulse (t n : Nat) (s : State) : Res :=
  let s := s.begin t
  .next (if s.domRuns n && dsFrameRate (s.domSetup n) != 0 then
    (s.modDom n fun v => { v with frameDt := s.dt }).emit (.pulse n) else s)

/-! Network time (R448, R449). -/

/-- A Sync message. A change of grandmaster makes the source inactive, and its messages count anew (R432, R455). -/
def execGptpSync (t gm delay : Nat) (s : State) : Res :=
  let s := s.begin t
  .next (if (s.src 11).mode = .disabled then s
    else
      let changed := (s.src 11).good != 0 && s.reg Reg.refNetGm != gm
      let s := if changed then refInactive 11 (s.modSrc 11 fun v => { v with good := 0 }) else s
      let s := (s.setReg Reg.refNetGm gm).setReg Reg.refNetPathDelay delay
      let s := s.modSrc 11 fun v => { v with good := v.good + 1 }
      if 8 ≤ (s.src 11).good ∧ (s.src 11).mode = .absent then
        refActive 11 { s with clk := { s.clk with everSync := true } }
      else s)

/-- The correlation of each second while source 11 is QUALIFIED (R449). -/
def execNetMapLatch (t seconds nanos : Nat) (s : State) : Res :=
  let s := s.begin t
  .next (if (s.src 11).mode = .qualified then { s with clk := { s.clk with map := (s.dt, seconds, nanos) } } else s)

/-! Oscillators (R451). -/

/-- XO stops or leaves PHYREF by more than 50 ppm: domains and monitors move to PHYREF, or hold when that is lost too. -/
def execXoLoss (t : Nat) (phyref : Bool) (s : State) : Res :=
  let s := s.begin t
  let s := s.setReg Reg.refXoState (if phyref && !s.clk.phyrefLost then 1 else 2)
  .next (s.raise Ev.oscFault [1])

/-- PHYREF stops or drifts: every transmit PLL holds its control word and the lanes stay linked (R338, R369); with XO lost
as well, the domains hold (R451). -/
def execPhyrefLoss (t : Nat) (s : State) : Res :=
  let s := s.begin t
  let s := s.each (List.range 32) fun s n => s.modLane n fun l => { l with pllHeld := true }
  let s : State := { s with clk := { s.clk with phyrefLost := true } }
  let s := if s.reg Reg.refXoState = 0 then s else s.setReg Reg.refXoState 2
  .next (s.raise Ev.oscFault [2])

end Sys2Proof.Machine
end

