-- ==== Sys2Proof/Machine/Trim.lean ====
section
/-! DEFINITION. The slack governor's commands (R555 to R558). -/

namespace Sys2Proof.Machine

def gvEnable (v : Nat) : Bool := bit v 63
def gvStepDown (v : Nat) : Nat := fld v 58 54
def gvStepUp (v : Nat) : Nat := fld v 53 48
def gvHigh (v : Nat) : Nat := fld v 47 36
def gvLow (v : Nat) : Nat := fld v 35 24
def gvInterval (v : Nat) : Nat := fld v 23 16

/-- A GOV_SETUP within its ranges. -/
def govSetupOk (v : Nat) : Bool :=
  decide (1 ≤ gvStepDown v ∧ gvStepDown v ≤ 20 ∧ 5 ≤ gvStepUp v ∧ gvStepUp v ≤ 50 ∧ 1 ≤ gvHigh v ∧ gvHigh v ≤ 1000 ∧
    gvLow v ≤ 999 ∧ 1 ≤ gvInterval v ∧ gvInterval v ≤ 100 ∧ gvLow v < gvHigh v)

/-- Waiting lasts until the first margin sweep of the start has ended, or 30 s pass without one (R557). -/
def govMode (s : State) : Nat :=
  if s.fs.sweep.state = 2 ∨ (s.fs.sweep.state = 0 ∧ s.pwr.gov.waitEnd ≤ s.dt) then 2 else 1

/-- The governor starts to wait, or to trim. -/
def govBegins (s : State) : State :=
  (s.setReg Reg.govState (govMode s)).modGov fun g => { g with run := 0, misses := 0, mismatches := 0, bySweep := false }

/-- SERVICE_READY: the governor, when enabled, waits. -/
def govService (s : State) : State :=
  let s := s.modGov fun _ => { waitEnd := s.dt + 30 * sec }
  s.setReg Reg.govState (if govEnabled s then 1 else 0)

/-- GOV_CONTROL 0x01. -/
def govApplyOp (s : State) : State × Nat :=
  if !govSetupOk (s.reg Reg.govSetup) then (s, stValue)
  else
    let was := govEnabled s
    let s := s.apply Reg.govSetup
    (if !govEnabled s then s.setReg Reg.govState 0 else if was || s.start.next ≠ 12 then s else govBegins s, stDone)

/-- GOV_CONTROL 0x02. -/
def govPauseOp (s : State) : State × Nat :=
  (if s.reg Reg.govState = 0 ∨ s.reg Reg.govState = 4 then s
   else ((govNominal s).setReg Reg.govState 3).modGov fun g => { g with run := 0, bySweep := false }, stDone)

/-- GOV_CONTROL 0x03; while a margin sweep runs the pause lasts until its end. -/
def govResumeOp (s : State) : State × Nat :=
  (if s.reg Reg.govState ≠ 3 ∨ s.pwr.gov.bySweep then s
   else if (sweepNow s).isSome ∧ govMode s = 2 then s.modGov fun g => { g with bySweep := true }
   else govBegins s, stDone)

/-- GOV_CONTROL 0x04. -/
def govClearFaultOp (s : State) : State × Nat :=
  (if s.reg Reg.govState = 4 then govBegins s else s, stDone)

def execGovApply (t : Nat) (src : Src) (s : State) : Res :=
  .next (answer src Reg.govControl true govApplyOp (s.begin t))

def execGovPause (t : Nat) (src : Src) (s : State) : Res :=
  .next (answer src Reg.govControl false govPauseOp (s.begin t))

def execGovResume (t : Nat) (src : Src) (s : State) : Res :=
  .next (answer src Reg.govControl false govResumeOp (s.begin t))

def execGovClearFault (t : Nat) (src : Src) (s : State) : Res :=
  .next (answer src Reg.govControl false govClearFaultOp (s.begin t))

/-- The algorithm of R556. -/
def govTrim (s : State) : State :=
  let g := s.force Reg.govSetup
  let slack := min (toInt 16 (s.reg Reg.fabSlack)) (arraySlack s)
  let s := s.setReg Reg.govSlack (ofInt 16 slack)
  let v := s.reg Reg.govVcoreSet
  let run := s.pwr.gov.run
  let put (new : Nat) (run : Nat) (k : Nat) : State :=
    let s := s.modGov fun x => { x with run := run }
    if new = v then s else govWrite new (s.count k 1)
  if slack < (gvLow g : Int) then put (min (v + gvStepUp g) 825) 0 Reg.govStepsUp
  else if (gvHigh g : Int) ≤ slack then
    if run + 1 = 10 then put (max (v - gvStepDown g) 700) 0 Reg.govStepsDown
    else s.modGov fun x => { x with run := run + 1 }
  else s.modGov fun x => { x with run := 0 }

def execGovInterval (t : Nat) (s : State) : Res :=
  let s := s.begin t
  .next (if s.reg Reg.govState = 2 then govTrim s else s)

/-- 30 s without a sweep (R557). -/
def execGovWaitTimeout (t : Nat) (s : State) : Res :=
  let s := s.begin t
  .next (if s.reg Reg.govState = 1 ∧ s.fs.sweep.state = 0 ∧ s.pwr.gov.waitEnd ≤ s.dt then s.setReg Reg.govState 2 else s)

/-- The governor is at fault (R557). -/
def govFault (s : State) : State := (s.setReg Reg.govState 4).raise Ev.governorFault [s.reg Reg.govVcoreRead]

/-- The outcome of an AVSBus transaction. -/
def execAvsTransactionDone (t : Nat) (read : Option Nat) (s : State) : Res :=
  let s := s.begin t
  .next (if s.reg Reg.govState = 0 ∨ s.reg Reg.govState = 4 then s
    else match read with
      | none =>
        let s := (s.count Reg.govAvsErrors 1).modGov fun g => { g with misses := g.misses + 1 }
        if 3 ≤ s.pwr.gov.misses then govFault s else s
      | some mv =>
        let v := s.reg Reg.govVcoreSet
        let s := (s.setReg Reg.govVcoreRead mv).modGov fun g => { g with misses := 0 }
        if mv + 15 < v ∨ v + 15 < mv then
          let s := (s.count Reg.govAvsErrors 1).modGov fun g => { g with mismatches := g.mismatches + 1 }
          if 2 ≤ s.pwr.gov.mismatches then govFault s else s
        else s.modGov fun g => { g with mismatches := 0 })

end Sys2Proof.Machine
end

