-- ==== Sys2Proof/Machine/Values.lean ====
section
/-! DEFINITION. What a stored value of an entry may be (R8, R466): reserved bits and RO fields that a write leaves alone, and
the ranges of the entry tables. The range of a record that is checked when its commit applies it is with that commit. -/

namespace Sys2Proof.Machine

/-- Bits [hi:lo] as a mask. -/
def maskBits (hi lo : Nat) : Nat := 2 ^ (hi + 1) - 2 ^ lo

/-- The same mask for each of n records of w bits. -/
def maskEach (w n m : Nat) : Nat := packRecords w (List.replicate n m)

/-- Reserved bits of a layer record (R253). -/
def layerReserved : Nat := maskBits 172 160 + maskBits 103 96 + maskBits 65 64 + maskBits 31 0

/-- SLOTS and reserved bits of an output descriptor (R54, R57). -/
def outReserved : Nat := maskBits 34 23

/-- Reserved bits and RO fields of a writable entry by its index: they are ignored on write (R8, R464). So a table that a host
wrote never meets the refusals that R328 (code 0x02) and R415 (code 0x0A) state for a reserved field that is not 0 (log entry
44). -/
def reservedAt (i sub : Nat) : Nat :=
  let k := ekey i sub
  if 0x3000 ≤ i ∧ i < 0x3020 then
    match sub with
    | 0x02 => maskBits 97 97 + maskBits 7 0
    | 0x05 => maskBits 31 0
    | 0x11 => maskBits 57 0
    | 0x13 => maskEach 16 511 (maskBits 11 9)
    | 0x17 => maskBits 31 11
    | _ => 0
  else if 0x2000 ≤ i ∧ i < 0x200C then (if sub = 1 then maskBits 19 0 else if sub = 2 then maskBits 31 0 else 0)
  else if 0x2100 ≤ i ∧ i < 0x2110 then (if sub = 1 then maskBits 39 0 else 0)
  else if i = 0x3101 then maskBits 22 0
  else if 0x5000 ≤ i ∧ i < 0x5030 then (if sub = 3 then maskBits 55 0 else 0)
  else if 0x6100 ≤ i ∧ i < 0x6110 then maskBits 115 0
  else if 0x7000 ≤ i ∧ i < 0x7040 then
    match sub with
    | 0x01 => maskBits 120 120 + maskBits 89 0
    | 0x02 => maskEach 192 16 layerReserved
    | 0x03 => maskEach 96 8 (maskBits 8 0) + 2 ^ 768 * maskEach 192 8 layerReserved
    | 0x07 => maskBits 20 0
    | 0x08 => maskEach 192 8 (maskBits 120 96 + maskBits 63 0)
    | _ => 0
  else if 0x7801 ≤ i ∧ i < 0x7809 then maskBits 43 0
  else if k = Reg.govSetup then maskBits 15 0
  else if k = Reg.cbReadSel then maskBits 31 0
  else if k = Reg.cbIncidentTypes then maskBits 15 14
  else if k = Reg.svcWindowSel then maskBits 31 0
  else if k = Reg.secTamperEnable then maskBits 7 1
  else if k = Reg.dapPathEnable ∨ k = Reg.dapNotifyEnable then maskBits 63 35
  else if k = Reg.canSetup 0 ∨ k = Reg.canSetup 1 then maskBits 41 0
  else if k = Reg.netSetup then maskBits 33 0
  else if k = Reg.refNetSetup then maskBits 15 0
  else if k = Reg.strOutTable then maskEach 128 256 outReserved
  else if k = Reg.safeOutTable then maskEach 128 8 outReserved
  else if k = Reg.strTileTable then maskEach 96 1024 (maskBits 29 0)
  else if k = Reg.safeSet then maskEach 256 32 (maskBits 226 224 + maskBits 141 136 + maskBits 65 64 + maskBits 31 0)
  else if k = Reg.takeNotify then maskBits 7 2
  else if k = Reg.spinePhaseTable then maskEach 32 32 (maskBits 25 0)
  else if k = Reg.fsPoolTable then maskEach 128 64 (maskBits 54 48 + maskBits 39 32 + maskBits 31 0)
  else if k = Reg.fsWinTable then maskEach 128 64 (maskBits 120 119 + maskBits 117 112 + maskBits 63 0)
  else if k = Reg.audXpointTable then maskEach 64 4096 (maskBits 17 0)
  else if k = Reg.audOutTable then maskEach 96 512 (maskBits 53 32)
  else if k = Reg.chimeTable then maskEach 128 32 (maskBits 44 0)
  else 0

/-- The value that is stored of one written. -/
def storedValue (key v : Nat) : Nat := clearMask v (reservedAt (key / 256) (key % 256))

/-! Ranges. -/

/-- A phase record is refused (R106); one with ENABLE 0 phases nothing, and its SOURCE is not looked at (log entry 58). -/
def phaseRefused (s : State) (lane r : Nat) : Bool :=
  let src := fld r 30 26
  bit r 31 && (src == lane || (s.lane src).rate != (s.lane lane).rate || (reserveLane lane && !reserveLane src))

/-- The lanes of a bond record. -/
def bondMembers (r : Nat) : List Nat := (List.range (bondSize r)).map (bondFirst r + ·)

/-- A bond record is admitted beside the other records written (R416); `b` is its number. -/
def bondOk (s : State) (b r : Nat) : Bool :=
  !bondValid r ||
    (decide (1 ≤ fld r 25 23 ∧ fld r 25 23 ≤ 5 ∧ bondFirst r % bondSize r = 0) &&
      ((List.range 16).all fun c =>
        let o := s.reg (Reg.lnkBond c)
        c == b || !bondValid o || (bondMembers r).all fun n => !(bondMembers o).contains n) &&
      (bondMembers r).all fun n => (s.lane n).mode != .ready || (s.lane n).rate == (s.lane (bondFirst r)).rate)

/-- Instances of each kind of QS_SELECT (R562, R605). -/
def qsInstances (kind : Nat) : Nat := nth [0, 32, 48, 16, 64, 1, 1, 1, 8] kind 0

/-- A value that the rule of its entry refuses although it fits the entry's range. -/
def specialRefused (s : State) (k v : Nat) : Bool :=
  if k = Reg.lnkRevMax then decide (v < s.reg Reg.lnkRevMin ∨ 3 < v)
  else if k = Reg.fabWeightC1 ∨ k = Reg.fabWeightC2 ∨ k = Reg.fabWeightC3 then v == 0
  else if k = Reg.busWdogTimeout then (List.range 6).any fun m =>
    let x := record v 0 32 m
    decide (x < 10 ∨ 100000 < x)
  else if k = Reg.cbReadSel then decide (1 < fld v 47 46)
  else if k = Reg.svcWindowSel then decide (fld v 63 32 < 1 ∨ 4096 < fld v 63 32)
  else if k = Reg.fsBufReadSel then decide (1048576 < fld v 31 0)
  else if k = Reg.qsSelect then v != 0 && decide (qsInstances (v / 256) ≤ v % 256)
  else if k = Reg.spinePhaseTable then (List.range 32).any fun n => phaseRefused s n (record v 0 32 n)
  else if k / 256 = 0x3101 then !bondOk s (k % 256 - 1) v
  else if 0x3000 ≤ k / 256 ∧ k / 256 < 0x3020 ∧ k % 256 = 5 then decide (4 < fld v 61 59)
  else false

/-- A value fits the range of its entry and its own rule. -/
def valueOk (s : State) (k v : Nat) : Bool :=
  (match keyEntry k with
    | some e => e.hi == 0 || decide (e.lo ≤ v ∧ v ≤ e.hi)
    | none => false) && !specialRefused s k v

end Sys2Proof.Machine
end

