-- ==== Sys2Proof/Machine/Restore.lean ====
section
/-! DEFINITION. Start step S10 (R468, R564): the values of the dictionary image come into force. A start from power-on or cold
comes here with every entry at its default, but for what S6 installed, so a value that is not restored is left alone. -/

namespace Sys2Proof.Machine

/-- The word of an event word that an index and sub-index name. -/
def isEventWord (key : Nat) : Bool := key / 256 == 0x1301 || key / 256 == 0x1302

/-- A stored value is within the range of its entry. -/
def restoreOk (s : State) (key v : Nat) : Bool :=
  if key = Reg.rtTable ∨ key / 256 = 0x1301 then true
  else if key / 256 = 0x1302 then !lowersSafe (key % 256 - 1) v
  else if key = Reg.chimeTable then (chimeTableOp v s).2 == stDone
  else valueOk s key v

/-- A value is taken over: as the shadow of an entry that is applied below, else at once. -/
def restoreValue (key v : Nat) (s : State) : State :=
  if key = Reg.rtTable then { s with start := { s.start with savedRoutes := v } }
  else if key / 256 = 0x1301 then writeEnable (key % 256 - 1) v s
  else if key / 256 = 0x1302 then writeSeverity (key % 256 - 1) v s
  else if key = Reg.chimeTable then (chimeTableOp v s).1
  else s.setReg key (storedValue key v)

/-- Every entry marked P from the records of an image; how many values were refused. -/
def restoreValues (recs : List (Nat × List Nat)) (s : State) : State × Nat :=
  savedKeys.foldl (fun (a : State × Nat) k =>
    match recs.find? fun r => r.1 == k.1 with
    | none => a
    | some r =>
      let v := leNat r.2
      if r.2.length = k.2 ∧ restoreOk a.1 k.1 v = true then (restoreValue k.1 v a.1, a.2) else (a.1, a.2 + 1)) (s, 0)

/-- Shadows that differ from the values in force are applied by an operation; refused, they go back to them and count. -/
def applyShadows (keys : List Nat) (op : State → State × Nat) (a : State × Nat) : State × Nat :=
  let s := a.1
  let new := keys.filter fun k => s.reg k != s.force k
  if new = [] then a
  else
    let r := op s
    if r.2 = stDone then (r.1, a.2)
    else (s.each new fun s k => s.setReg k (s.force k), a.2 + new.length)

/-- The same over instances 0 to n - 1. -/
def applyEach (n : Nat) (keys : Nat → List Nat) (op : Nat → State → State × Nat) (a : State × Nat) : State × Nat :=
  (List.range n).foldl (fun a i => applyShadows (keys i) (op i) a) a

/-- Bonds of the image are in force at once. -/
def restoreBonds (s : State) : State :=
  { s with eps := { s.eps with bonds := (List.range 16).foldl (fun t b =>
      tset (fun _ => 0) t b (s.reg (Reg.lnkBond b))) s.eps.bonds } }

/-- A transmit calendar other than the factory's is announced, or held until its lane is UP (R415). -/
def restoreCalendars (a : State × Nat) : State × Nat :=
  (List.range 32).foldl (fun a n =>
    let s : State := a.1
    let k := Reg.lnkTxCalendar n
    if s.reg k = factoryCalendar then a
    else
      let r := lnkAnnounceOp n s
      if r.2 = stDone then (r.1, a.2) else (s.setReg k factoryCalendar, a.2 + 1)) a

/-- Records 248 to 255 of a table, those of another in their place. -/
def outTail (table : Nat) : Nat := table / 2 ^ (128 * 248)
def withOutTail (table tail : Nat) : Nat := table % 2 ^ (128 * 248) + 2 ^ (128 * 248) * tail

/-- Stream tables: output records 248 to 255 wait for S11, and the safe descriptors stand (R94). -/
def restoreStreams (a : State × Nat) : State × Nat :=
  let table := a.1.reg Reg.strOutTable
  let safe := a.1.force Reg.strOutTable
  let held := (List.range 8).filter fun j => record table 0 128 (248 + j) != record safe 0 128 (248 + j)
  let s := a.1.setReg Reg.strOutTable (withOutTail table (outTail safe))
  let r := applyShadows [Reg.strOutTable, Reg.strTileTable] strCommitOp (s, a.2)
  let s := r.1
  let s : State := { s with str := { s.str with outHeld := held.foldl (fun t j =>
    oset t (248 + j) (some (record table 0 128 (248 + j)))) s.str.outHeld } }
  (s.setReg Reg.strOutTable (withOutTail (s.reg Reg.strOutTable) (outTail table)), r.2)

/-- The five tables of an output. -/
def outKeys (n : Nat) : List Nat :=
  [Reg.outCompSetup n, Reg.outLayerTable n, Reg.outSpineTable n, Reg.outRaster n, Reg.outWatchTable n]

/-- The tables of an output come into force together; its raster starts at S11. -/
def restoreOutput (n : Nat) (s : State) : State × Nat :=
  let new := s.outShadows n
  let plan (m : Nat) : OutQueued := if m = n then new else s.outPlan m
  if outputCode s plan s.liveImages n ≠ 0 then (s, stValue)
  else
    let old := s.outTables n
    let s := s.each (outKeys n) fun s k => s.apply k
    let s := s.modOutp n fun o => { o with background := if reserveOutput n then csBackground new.setup else o.background }
    (gangChange n old.setup new.setup s, stDone)

def audKeys : List Nat := [Reg.audXpointTable, Reg.audOutTable] ++ (List.range 8).map Reg.tdmSetup

/-- Audio tables come into force before the engine runs. -/
def restoreAudio (s : State) : State × Nat :=
  let tdm := (List.range 8).map fun p => s.reg (Reg.tdmSetup p)
  if audCheck s (s.reg Reg.audXpointTable) (s.reg Reg.audOutTable) tdm ≠ 0 then (s, stValue)
  else (s.each audKeys fun s k => s.apply k, stDone)

/-- A CAN setup and NET_SETUP of the image. -/
def restoreCan (p : Nat) (s : State) : State × Nat := canApplyOp p s

/-- Every applied entry, in an order in which each finds what it names. -/
def restoreApplies (a : State × Nat) : State × Nat :=
  let a := applyEach 12 (fun n => [Reg.refSetup n, Reg.refLimits n]) refApplyOp a
  let a := applyEach 16 (fun d => [Reg.domSetup d, Reg.domSources d]) (fun d s => domApplyOp d [] s) a
  let a := applyEach 32 (fun n => [Reg.phySetup n]) phyApplyOp a
  let a := applyEach 32 (fun n => [Reg.lnkSetup n]) lnkApplyOp a
  let a := restoreCalendars (restoreStreams (restoreBonds a.1, a.2))
  let a := applyEach 16 (fun e => [Reg.cmpSetup e]) cmpApplyOp a
  let a := applyShadows [Reg.fsPoolTable, Reg.fsStreamPool] fsPoolCommitOp a
  let a := applyShadows [Reg.fsWinTable] fsWinCommitOp a
  let a := applyEach 48 (fun u => [Reg.convSetup u, Reg.convTables u]) convApplyOp a
  let a := applyEach 64 outKeys restoreOutput a
  let a := applyShadows audKeys restoreAudio a
  let a := applyShadows [Reg.spinePhaseTable] (fun s => (s.apply Reg.spinePhaseTable, stDone)) a
  let a := applyEach 2 (fun p => [Reg.canSetup p]) restoreCan a
  let a := applyShadows [Reg.netSetup] netApplyOp a
  applyShadows [Reg.govSetup] govApplyOp a

/-- The image in force: none stored or one marked by RESTORE_DEFAULTS brings the defaults, one that fails its CRC-32C the
alternative of S10. -/
inductive ImageFound where
  | defaults
  | damaged
  | records (recs : List (Nat × List Nat))

def imageFound (ok : Bool) (s : State) : ImageFound :=
  match s.nvm.image with
  | none => .defaults
  | some img =>
    if !ok then .damaged
    else match imageRead img with
      | none => .damaged
      | some recs => if s.nvm.imageMarked then .defaults else .records recs

/-- The image restored, with the count of values that took their default. -/
def restoreImage (recs : List (Nat × List Nat)) (s : State) : State × Nat :=
  restoreApplies (restoreValues recs s)

end Sys2Proof.Machine
end

