-- ==== Sys2Proof/Machine/Ledger.lean ====
section
/-! DEFINITION. Starts as the ledger records them (R559, R568 to R570): how a start begins, how a step ends, what a start that
ends early leaves. -/

namespace Sys2Proof.Machine

/-- The step record of a step of this start (R570). -/
def StartState.step (x : StartState) (k : Nat) : StepRec := tget (fun _ => {}) x.steps k

def State.modStep (s : State) (k : Nat) (f : StepRec → StepRec) : State :=
  { s with start := { s.start with steps := tset (fun _ => {}) s.start.steps k (f (s.start.step k)) } }

/-- A step record as its number. -/
def stepNumber (k : Nat) (r : StepRec) : Nat :=
  pack [(8, k), (8, min 255 r.attempts), (4, r.result), (4, r.alt), (24, r.detail), (16, min 0xFFFF r.duration), (64, r.endDt)]

/-- The ledger of a start (R569). -/
def ledgerBytes (boot : Nat) (x : StartState) : List Nat :=
  let head := pack [(32, boot), (4, x.kind), (4, x.lifeCycle), (4, x.lastStep), (4, x.outcome), (8, x.cause),
    (8, min 255 x.failed), (64, x.t0), (64, x.ready), (32, 0)]
  let steps := (List.range 12).flatMap fun k => leBytes 16 (stepNumber k (x.step k))
  leBytes 4 (crc32c (leBytes 28 head ++ steps)) ++ leBytes 28 head ++ steps

/-- Rows of R559, as RST_COUNTS orders them. -/
abbrev rowPowerOn : Nat := 0
abbrev rowCold : Nat := 1
abbrev rowWarm : Nat := 2
abbrev rowReturn : Nat := 3
abbrev rowProcessor : Nat := 4
abbrev rowSubsystem : Nat := 5

/-- One more reset of a row (RST_COUNTS). -/
def countReset (row : Nat) (n : Nvm) : Nvm :=
  { n with resetCounts := (List.range 6).map fun i => nth n.resetCounts i 0 + ofBool (i == row) }

/-- The ledger is written to the NVM (R569). -/
def keepLedger (s : State) : State := { s with nvm := { s.nvm with last := some (s.nvm.boot, s.start) } }

/-- The ledger of the last start as the next one finds it: OUTCOME 5 when it ended before SERVICE_READY, but for one
that stopped. -/
def closedLedger (x : StartState) : StartState :=
  if x.next < 12 ∧ (x.outcome = 0 ∨ x.outcome = 3) then { x with outcome := 5 } else x

/-- The next start finds the ledger of the last: a start that ended before SERVICE_READY counts in START_FAILED, unless
hold-up ended it (R568) or its end was counted, and its ledger joins the history (R569). -/
def closeLast (s : State) : State :=
  match s.nvm.last with
  | none => s
  | some (boot, x) =>
    let failed := decide (x.next < 12 ∧ (x.outcome = 0 ∨ x.outcome = 3 ∨ x.outcome = 4)) && !s.nvm.heldUp
    { s with nvm := { s.nvm with
        failedStarts := s.nvm.failedStarts + ofBool failed
        ledgers := (ledgerBytes boot (closedLedger x) :: s.nvm.ledgers).take 16
        last := none, heldUp := false } }

/-- A return from reserve is given up (R553): its OUTCOME is 5. -/
def startAbandoned (s : State) : State :=
  if s.start.next < 12 ∧ (s.start.outcome = 0 ∨ s.start.outcome = 3) then
    keepLedger { s with
      start := { s.start with outcome := 5, working := false }
      nvm := { s.nvm with failedStarts := s.nvm.failedStarts + 1 } }
  else s

/-- A warm start or a return from reserve begins at once with its NVM at hand: the steps before `first`, and for a warm
start S5 and S6, are skipped (R570). -/
def startBegins (kind cause row first : Nat) (s : State) : State :=
  let s := closeLast s
  let skipped (k : Nat) : Bool := decide (k < first) || (kind == 2 && (k == 5 || k == 6))
  let steps : Tbl StepRec := ((List.range 12).filter skipped).map fun k => (k, ({ result := 4 } : StepRec))
  let n := s.nvm
  let s : State := { s with
    nvm := countReset row { n with boot := n.boot + 1 }
    start := {
      next := first, kind := kind, cause := cause, lifeCycle := n.lc, failed := n.failedStarts, lastStep := first
      t0 := s.dt, began := s.dt, steps := steps, straps := s.start.straps, keeperFailed := s.start.keeperFailed } }
  s.setReg Reg.rstLastCause cause

/-- A step ends and the next one begins; skipped steps are passed over. Before S2 the ledger waits for the NVM. -/
def stepEnds (k result attempts alt detail : Nat) (s : State) : State :=
  let s := s.modStep k fun _ => ⟨attempts, result, alt, detail, (s.dt - s.start.began) / ms, s.dt⟩
  let next := ((List.range 12).find? fun j => decide (k < j) && (s.start.step j).result != 4).getD 12
  let s : State := { s with start := { s.start with next := next, lastStep := min next 11, began := s.dt, working := false } }
  if k < 2 then s else keepLedger s

/-- The start stops in step k (OUTCOME 4). -/
def startStops (k result attempts alt detail : Nat) (s : State) : State :=
  let s := s.modStep k fun _ => ⟨attempts, result, alt, detail, (s.dt - s.start.began) / ms, s.dt⟩
  let s : State := { s with start := { s.start with stopped := true, outcome := 4, working := false } }
  if k < 3 then s else keepLedger s

/-- A step that fails (R564): START_STEP_FAILED with the ALT taken. -/
def stepFailed (k alt : Nat) (s : State) : State := s.raise Ev.startStepFailed [k, alt]

/-- Step k is in progress and may be worked on. -/
def stepDue (s : State) (k : Nat) : Bool :=
  s.start.next == k && !s.start.stopped && !s.start.held && s.start.outcome != 5 && !s.pwr.holdup

/-- OUTCOME of a start that reaches SERVICE_READY. -/
def readyOutcome (x : StartState) : Nat :=
  if (List.range 12).any fun k => (x.step k).result == 2 || (x.step k).result == 3 then 2 else 1

end Sys2Proof.Machine
end

