-- ==== Sys2Proof/Machine/Power.lean ====
section
/-! DEFINITION. Supplies (R545 to R554, R616): rails, sides and switch-over, hold-up, reserve entry and the way back, thermal
reserve. -/

namespace Sys2Proof.Machine

/-! Rails and sides (R545, R546). -/

/-- A rail's bit of PWR_GOOD and its reading. -/
def setRail (rail : Nat) (good : Bool) (mv : Nat) (s : State) : State :=
  (s.setReg Reg.pwrGood (putBit (s.reg Reg.pwrGood) rail good)).setReg Reg.pwrRailMv
    (putFld (s.reg Reg.pwrRailMv) (16 * rail + 15) (16 * rail) mv)

def sideAGood (good : Nat) : Bool := bit good 0 && bit good 2 && bit good 4
def sideBGood (good : Nat) : Bool := bit good 1 && bit good 3 && bit good 5

/-- VCORE, VPHY, VDDQ and VDD2 are good. -/
def mainGood (good : Nat) : Bool := bit good 6 && bit good 7 && bit good 8 && bit good 9

/-- Since when the sides and the main supply have been good. -/
def goodSince (s : State) : State :=
  let good := s.reg Reg.pwrGood
  let since (now : Bool) (old : Option Time) : Option Time := if now then some (old.getD s.dt) else none
  { s with pwr := { s.pwr with
    aSince := since (sideAGood good) s.pwr.aSince
    bSince := since (sideBGood good) s.pwr.bSince
    mainSince := since (mainGood good) s.pwr.mainSince } }

/-- A rail above its high threshold, and VDDQ above VDD2 (R545, R616). -/
def outOfRange (rail mv : Nat) (s : State) : State :=
  (s.count Reg.pwrOorCount 1).raise Ev.supplyOutOfRange [rail, mv]

/-- A state that has lasted for `PWR_MAIN_QUAL`. -/
def lasted (s : State) (since : Option Time) : Bool :=
  match since with
  | some u => decide (u + s.reg Reg.pwrMainQual * ms ≤ s.dt)
  | none => false

/-! Hold-up (R549, R550). -/

/-- The hold-up indicator in µs for a voltage in mV: ½ C (V² − 4.5²) / 2.0 W. -/
def holdupMicros (cap mv : Nat) : Nat := (roundTo (cap * (mv * mv - 4500 * 4500)) 4000000).toNat

/-- Everything stops; writes in progress complete, and the supply record is the last thing committed. -/
def enterHoldup (items : List Nat) (s : State) : State :=
  if s.pwr.holdup then s
  else
    let s := s.setReg Reg.pwrState 4
    let s := s.each (List.range 32) fun s n =>
      if (s.lane n).mode = .off then s
      else linkPhyDown n ((leaveReady n s).modLane n fun l => { l with mode := .unpowered, holdReason := 0 })
    let s := s.each (List.range 64) fun s n => s.modOutp n fun o => { o with
      comp := if o.comp = .off then .off else .unpowered, raster := if o.raster = .off then .off else .unpowered
      boundary := none, queued := none }
    let s := audioStops s
    let s : State := { s with
      pwr := { s.pwr with bulk := false }
      fs := { s.fs with mode := if s.fs.mode = .off then .off else .unpowered, mem := [], writes := [] }
      nvm := { s.nvm with holdups := s.nvm.holdups + 1, heldUp := true } }
    let s := match s.dap.save with
      | some x => if s.reg Reg.pwrHoldupCap = 0 then s else saveStands x s
      | none => s
    let s := s.raise Ev.holdupEntered items
    let s := if s.reg Reg.pwrHoldupCap = 0 || !s.cb.mounted then s else cbCommitAll (s.cb.queue.length + 1) s
    { s with pwr := { s.pwr with holdup := true } }

/-! Reserve entry (R551, R552). -/

/-- The length of the reserve period joins the totals; RSV_TOTAL_S is kept in ns. -/
def leaveReserve (s : State) : State :=
  match s.pwr.reserveSince with
  | none => s
  | some u =>
    let s := (s.count Reg.rsvTotalS (s.dt - u)).setReg Reg.pwrReserveMs ((s.dt - u) / ms)
    { s with pwr := { s.pwr with reserveSince := none } }

/-- What the bulk functions hold. -/
def freeze (s : State) : Frozen :=
  { regs := s.regs, inForce := s.inForce, dt := s.dt, phy := s.phy, lnk := s.lnk, str := s.str, fab := s.fab, conv := s.conv
    cmp := s.cmp, comp := s.comp, fs := s.fs, aud := s.aud, gov := s.pwr.gov, last := s.free }

/-- A destination lies in the bulk domains (R70). -/
def bulkDest (s : State) (r : Nat) : Bool :=
  match rDstType r with
  | 0 => !reserveLane (dLane (s.outDesc (fld (rDst r) 7 0)))
  | 3 => !reserveOutput (rEngine r)
  | _ => true

/-- DESTINATION_UNPOWERED of R69: the units are given up (R168). -/
def routeStops (r : Nat) (s : State) : State :=
  let s := rtDropShown r (rtEndHold r (rtDropFirst r s))
  let s := holdUnits r [] s
  (rtMove r .stopped 7 s).modRoute r fun x => { x with usableSince := none, returnDue := false }

/-- One take of a group whose effective DT has come, at reserve entry (R89): on a keeper destination it waits on; else its route
becomes STOPPED with what the take gives it, a CLEAR empties it, and the take is over (log entry 52). -/
def takeUnpowered (k : Take) (s : State) : Take × State :=
  let image := if k.op = 1 then (s.route k.route).image else takeImage s k
  if k.applied.isSome then
    ({ k with flipped := k.flipped || bulkDest s (if k.dest = 0 then image else k.dest) }, s)
  else if !bulkDest s image then (k, s)
  else
    let done : Take := { k with applied := some s.dt, dest := image, c0 := rClass image == 0, flipped := true }
    if k.op = 1 ∨ !rValid image then (done, rtClear k.route s)
    else (done, routeStops k.route (installTake k image s))

/-- Groups at reserve entry (R89): one before its effective DT is cancelled whole; of one past it, the takes of bulk destinations
are over. -/
def groupsUnpowered (s : State) : State :=
  let s := latchDue s
  let s := s.each (s.str.groups.filter fun g => !g.restore && !g.latched) fun s g =>
    (dropGroup g s).raise Ev.takeRefused [g.id, 0x0B]
  let r := s.str.groups.foldl (fun (a : List Group × State) g =>
    let x := g.takes.foldl (fun (b : List Take × State) k =>
      let y := takeUnpowered k b.2
      (b.1 ++ [y.1], y.2)) ([], a.2)
    (a.1 ++ [{ g with takes := x.1, lastFlip := if x.1.any fun k => k.flipped then max g.lastFlip s.dt else g.lastFlip }], x.2)) ([], s)
  finishGroups { r.2 with str := { r.2.str with groups := r.1 } }

/-- Routes at reserve entry (R70): STOPPED where the destination has no power; a converted or stored route of a keeper
destination whose hold would need bulk functions falls at once. -/
def routesUnpowered (s : State) : State :=
  let s := groupsUnpowered s
  let s := s.each (s.routeKeys.filter fun r => let x := s.route r
    x.mode != .stopped && rValid x.image && bulkDest s x.image) fun s r => routeStops r s
  s.each (s.routeKeys.filter fun r => let x := s.route r
    rtOrphaned x.mode && (rKind x.image == 1 || rKind x.image == 2)) fun s r =>
      if (s.route r).mode = .hold then rtFall r 7 s else s.modRoute r fun x => { x with reason := 7 }

/-- L00 to L23 have no power (R354, R368). -/
def lanesUnpowered (s : State) : State :=
  s.each (List.range 24) fun s n =>
    if (s.lane n).mode = .off then s
    else
      let s := (leaveReady n s).setPhase n {}
      linkPhyDown n (s.modLane n fun l => { l with
        mode := .unpowered, attempts := 0, holdReason := 0, inService := false, retrainDue := false
        lpAsked := 0, lpEntry := 0, loop := { l.loop with until_ := none } })

/-- In-service changes of bulk functions end (R214, R600). -/
def changesEnd (s : State) : State :=
  let keep (k : Nat) : Bool := k == firmwareChange || (decide (laneChange 24 ≤ k) && decide (k < laneChange 32))
  let s : State := { s with
    sup := { s.sup with waiting := s.sup.waiting.filter keep }
    fs := { s.fs with sweep := {} } }
  match s.sup.inservice with
  | some k => if keep k then s else endChange k s
  | none => s

/-- An output that keeps running in reserve operation: a reserve output whose output stream lies on the reserve lanes (R247). -/
def State.keepsRunning (s : State) (n : Nat) : Bool :=
  reserveOutput n && (match s.engineStream n with
    | some k => (dLanes (s.outDesc k)).all reserveLane
    | none => false)

/-- Engines and rasters at reserve entry (R247, R277, R297). -/
def outputsUnpowered (s : State) : State :=
  s.each (List.range 64) fun s n =>
    let o := s.outp n
    let idle := o.comp == .idle || o.comp == .draining
    let s := if o.comp = .off then s else qsChanged qsOut n (s.setOutp n { o with
      comp := if s.keepsRunning n then .reserve else .unpowered, idleAfter := idle, resetDue := false, reEnable := false
      layers := o.layers.filter fun e => decide (16 ≤ e.1) })
    if s.keepsRunning n then s
    else s.modOutp n fun o => { o with
      raster := if o.raster = .off then .off else .unpowered
      boundary := none, push := none, pushFrame := false, cutNext := false, lastSync := none, flipDue := false
      queued := none, lastResult := if o.queued.isSome then 0x0B else o.lastResult }

/-- Converter units and compression engines: a drain counts as ended, and what drained or idled is Idle (R595). -/
def functionsUnpowered (s : State) : State :=
  let s := s.each (List.range 48) fun s u =>
    let v := s.unit u
    qsChanged qsConv u (s.setUnit u { v with
      mode := if v.mode = .draining then .idle else v.mode, reEnable := false, resetDue := false })
  s.each (List.range 16) fun s e =>
    let v := s.engine e
    engineStops e (qsChanged qsCmp e (s.setEngine e { v with
      mode := if v.mode = .draining then .idle else v.mode, reEnable := false, resetDue := false }))

/-- The DRAM loses its content (R212). The buffers stay listed until the wipe, which tells their pools from the others. -/
def storeUnpowered (s : State) : State :=
  { s with fs := { s.fs with
    mode := if s.fs.mode = .off then .off else .unpowered
    mem := [], writes := [], overPools := []
    chans := s.fs.chans.map fun e => (e.1, { e.2 with mode := .unpowered, retiring := false, retryAt := none, restoring := false })
    wins := s.fs.wins.map fun e => (e.1, { e.2 with frames := [] }) } }

/-- Reserve entry, by reason 1 the main supply or 2 the temperature. -/
def reserveEntry (reason rail : Nat) (s : State) : State :=
  if !s.pwr.bulk || s.pwr.holdup then s
  else
    let f := s.pwr.frozen.getD (freeze s)
    let s := startAbandoned s
    let s := ((s.setReg Reg.pwrState 2).count Reg.pwrReserveCount 1).setReg Reg.pwrReserveDt s.dt
    let s : State := { s with pwr := { s.pwr with
      bulk := false, warm := false, frozen := some f, reserveSince := some s.dt, restoring := false
      subsystem := if (s.pwr.subsystem.map (· / 256)) = some qsLane then s.pwr.subsystem else none } }
    let s := if s.pwr.subsystem.isNone ∧ s.reg Reg.rstResult = 1 then s.setReg Reg.rstResult 0 else s
    let s := routesUnpowered (changesEnd s)
    let s := s.each ((s.str.ins.filter fun e => e.2.frame.isSome && (dLanes e.2.desc).any fun n => !reserveLane n).map (·.1))
      fun s k => abandonFrame k s
    let s := lanesUnpowered s
    let s := outputsUnpowered s
    let s := functionsUnpowered (storeUnpowered s)
    let s := s.raise Ev.spineSpurIsolated [32, 80]
    let s := (audioStops s).setReg Reg.govState 0
    let s := s.modGov fun _ => {}
    let s := s.setReg Reg.govVcoreSet 750
    let s := recheck s
    let s := s.each (okeys s.dap.staged) fun s k =>
      match oget s.dap.staged k with
      | some g => if ekey g.index g.sub = Reg.fwImage then endStaged k s else s
      | none => s
    s.raise Ev.mainLost [reason, rail]

/-! The main supply comes back (R546, R553, R566). -/

/-- The bulk domains run again: the DRAM trains. -/
def bulkRuns (s : State) : State :=
  { s with pwr := { s.pwr with bulk := true }, fs := { s.fs with mode := .training } }

/-- S7 is next: it begins with a qualified main supply, and waits in reserve operation without (R566). -/
def enterS7 (s : State) : State :=
  if s.start.next ≠ 7 ∨ s.start.outcome ≠ 0 then s
  else if s.pwr.qualified && !s.pwr.thermal then (leaveReserve (bulkRuns s)).setReg Reg.pwrState 0
  else
    let s : State := { s with
      start := { s.start with outcome := 3 }
      pwr := { s.pwr with reserveSince := some (s.pwr.reserveSince.getD s.dt) } }
    s.setReg Reg.pwrState 2

/-- The bulk domains may run: a waiting start goes on, and reserve operation ends in a return (R553). A start that has not
come to S7 meets the supply there. -/
def mainBack (s : State) : State :=
  if s.pwr.bulk || s.pwr.thermal || !s.pwr.qualified || s.pwr.holdup then s
  else if s.start.next = 7 ∧ s.start.outcome = 3 then
    enterS7 { s with start := { s.start with outcome := 0, began := s.dt } }
  else if s.reg Reg.pwrState = 2 ∧ (s.start.next = 12 ∨ s.start.outcome = 5) then
    let s := (startBegins 3 7 rowReturn 7 (leaveReserve s)).setReg Reg.pwrState 3
    let s := bulkRuns s
    { s with pwr := { s.pwr with restoring := true, warm := true } }
  else s

/-! Commands of the rails. -/

/-- A rail has been good for 1 ms (R545). -/
def execRailGood (t rail mv : Nat) (s : State) : Res :=
  let s := s.begin t
  .next (if 10 < rail then s else goodSince (setRail rail true mv s))

/-- A keeper rail fails (R547, R548). -/
def execKeeperRailFail (t rail mv : Nat) (s : State) : Res :=
  let s := s.begin t
  let side := s.reg Reg.pwrKeeperSide
  let wasB := sideBGood (s.reg Reg.pwrGood)
  .next (if 5 < rail ∨ s.pwr.holdup then s
    else
      let s := goodSince (setRail rail false mv s)
      let good := s.reg Reg.pwrGood
      let other := if side = 0 then sideBGood good else sideAGood good
      if rail % 2 = side then
        if other then
          let s := (s.setReg Reg.pwrKeeperSide (1 - side)).count Reg.pwrSwitchCount 1
          s.raise (if side = 0 then Ev.keeperOnB else Ev.keeperOnA) [rail]
        else enterHoldup [rail] s
      else if side = 0 ∧ wasB then s.raise Ev.backupLost [rail]
      else s)

/-- A bulk rail fails (R546, R551): reserve entry only from a qualified main supply. -/
def execBulkRailFail (t rail mv : Nat) (s : State) : Res :=
  let s := s.begin t
  .next (if rail < 6 ∨ 9 < rail then s
    else
      let was := s.pwr.qualified
      let s := goodSince (setRail rail false mv s)
      let s : State := { s with pwr := { s.pwr with qualified := false } }
      if was then reserveEntry 1 rail s else s)

def execRailHigh (t rail mv : Nat) (s : State) : Res :=
  let s := s.begin t
  .next (if 10 < rail then s
    else outOfRange rail mv (s.setReg Reg.pwrRailMv (putFld (s.reg Reg.pwrRailMv) (16 * rail + 15) (16 * rail) mv)))

/-- HOLD_IN below its fail threshold changes its bit alone (R545). -/
def execHoldInFail (t mv : Nat) (s : State) : Res := .next (setRail 10 false mv (s.begin t))

/-- The main supply has been good for PWR_MAIN_QUAL (R546). -/
def execMainQualified (t : Nat) (s : State) : Res :=
  let s := s.begin t
  .next (if s.pwr.qualified || !lasted s s.pwr.mainSince then s
    else mainBack { s with pwr := { s.pwr with qualified := true } })

/-- Side A has been good for PWR_MAIN_QUAL while the keeper runs on B (R547). -/
def execSideAQualified (t : Nat) (s : State) : Res :=
  let s := s.begin t
  .next (if s.reg Reg.pwrKeeperSide = 1 && lasted s s.pwr.aSince && !s.pwr.holdup then
    ((s.setReg Reg.pwrKeeperSide 0).count Reg.pwrSwitchCount 1).raise Ev.keeperOnA [0]
  else s)

/-- A and B fail together, or the environment takes every keeper supply away (R547, R550). -/
def execHoldupEntry (t : Nat) (s : State) : Res := .next (enterHoldup [0xFF] (s.begin t))

/-- The store is empty: the keeper falls with it, and only a power-on goes on from here (R550). A SAVE that was still
running never gets its commit word. -/
def execHoldupStoreExhausted (t : Nat) (s : State) : Res :=
  let s := s.begin t
  .next (if !s.pwr.holdup then s
    else
      let lost := s.cb.queue != []
      let s : State := { s with
        dap := { s.dap with save := none }
        cb := { s.cb with queue := [], mounted := false }
        nvm := { s.nvm with cb := { s.nvm.cb with lostAll := s.nvm.cb.lostAll || lost } } }
      s.setReg Reg.pwrHoldupUs 0)

/-- The indicator of each 1 ms (R549). -/
def execHoldupIndicatorTick (t mv : Nat) (s : State) : Res :=
  let s := s.begin t
  let us_ := holdupMicros (s.reg Reg.pwrHoldupCap) mv
  let good := s.reg Reg.pwrGood
  let both := sideAGood good && sideBGood good
  let s := (s.setReg Reg.pwrHoldupUs us_).setReg Reg.pwrRailMv (putFld (s.reg Reg.pwrRailMv) 175 160 mv)
  .next (if !both then s
    else
      let low := if s.pwr.holdupSeen then min (s.reg Reg.pwrHoldupLowest) us_ else us_
      let s : State := ({ s with pwr := { s.pwr with holdupSeen := true } } : State).setReg Reg.pwrHoldupLowest low
      if us_ < s.reg Reg.secHoldupReq then s.raiseLimited (60 * sec) Ev.holdupLow [us_] else s)

/-- VDDQ above VDD2 + 0.20 V for 100 µs: the DRAM channels stay in reset until the next power-on (R616). -/
def execVddqAboveVdd2 (t vddq vdd2 : Nat) (s : State) : Res :=
  let s := s.begin t
  let mv := putFld (putFld (s.reg Reg.pwrRailMv) 143 128 vddq) 159 144 vdd2
  let s := s.setReg Reg.pwrRailMv mv
  .next (if vddq ≤ vdd2 + 200 then s
    else
      let s := outOfRange 8 vddq { s with pwr := { s.pwr with vddqHold := true } }
      if s.fs.mode = .inService then
        s.each ((List.range 8).filter fun k => (s.chan k).mode != .retired) fun s k => finishRetire k s
      else s)

/-! Temperature (R554). -/

/-- The readings of the eight sensors. -/
def takeSensors (sensors : List Int) (s : State) : State :=
  let l := (List.range 8).map fun i => nth sensors i 0
  let hot := l.foldl max (nth l 0 0)
  let cold := l.foldl min (nth l 0 0)
  let high := toInt 16 (s.reg Reg.pwrTjHighest)
  let low := toInt 16 (s.reg Reg.pwrTjLowest)
  let s := (s.setReg Reg.pwrTjSensors (packRecords 16 (l.map (ofInt 16)))).setReg Reg.pwrTjMax (ofInt 16 hot)
  let s := (s.setReg Reg.pwrTjMin (ofInt 16 cold)).setReg Reg.pwrTjHighest (ofInt 16 (max high hot))
  s.setReg Reg.pwrTjLowest (ofInt 16 (min low cold))

/-- Tj above +125 °C for 10 ms. -/
def execThermalTrip (t : Nat) (sensors : List Int) (s : State) : Res :=
  let s := takeSensors sensors (s.begin t)
  .next (if s.pwr.thermal then s
    else
      let s : State := { s with pwr := { s.pwr with thermal := true } }
      reserveEntry 2 0xFF (s.setReg Reg.pwrThermalState 1))

/-- Tj below +110 °C for 10 s. -/
def execThermalReturn (t : Nat) (sensors : List Int) (s : State) : Res :=
  let s := takeSensors sensors (s.begin t)
  .next (if !s.pwr.thermal then s
    else
      let s : State := { s with pwr := { s.pwr with thermal := false } }
      mainBack (s.setReg Reg.pwrThermalState 0))

/-- Tj leaves the range of R14. -/
def execTjRangeCrossing (t : Nat) (sensors : List Int) (s : State) : Res :=
  let s := takeSensors sensors (s.begin t)
  .next ((s.count Reg.pwrOorCount 1).raise Ev.tempOutOfRange [s.reg Reg.pwrTjMax, s.reg Reg.pwrTjMin])

/-- PWR_STATS_CLEAR 0x01 (R577). -/
def pwrStatsClearOp (s : State) : State × Nat :=
  ((s.clear [Reg.pwrSwitchCount, Reg.pwrReserveCount, Reg.govStepsDown, Reg.govStepsUp, Reg.govAvsErrors, Reg.pwrOorCount]).setReg
    Reg.govVcoreLowest 750, stDone)

def execPwrStatsClear (t : Nat) (src : Src) (s : State) : Res :=
  .next (answer src Reg.pwrStatsClear false pwrStatsClearOp (s.begin t))

end Sys2Proof.Machine
end

