-- ==== Sys2Proof/Machine/Security.lean ====
section
/-! DEFINITION. The key store's commands: update messages (R515 to R518, R530 to R535), challenges of hosts (R527), re-masking
(R521), the transport key (R519, R575) and destruction (R538 to R540). -/

namespace Sys2Proof.Machine

/-! Update messages (R530). -/

def umFormat (d : List Nat) : Nat := leNat (d.take 2)
def umOp (d : List Nat) : Nat := nth d 2 0
def umSlot (d : List Nat) : Nat := nth d 3 0
def umDevice (d : List Nat) : Nat := leNat ((d.drop 4).take 8)
def umCounter (d : List Nat) : Nat := leNat ((d.drop 12).take 8)
def umAttr (d : List Nat) : Nat := leNat ((d.drop 20).take 4)
def umLabel (d : List Nat) : Nat := leNat ((d.drop 24).take 4)
def umWrapped (d : List Nat) : List Nat := (d.drop 32).take 40
def umMac (d : List Nat) : List Nat := (d.drop 72).take 32

/-- Every byte is zero. -/
def allZero (l : List Nat) : Bool := l.all (· == 0)

/-- FORMAT, length, reserved bytes, and the fields that are zero but for their OP (result 0x01). -/
def umWellFormed (d : List Nat) : Bool :=
  decide (d.length = 104 ∧ umFormat d = 1) && allZero ((d.drop 28).take 4) && (umOp d == 2 || umLabel d == 0) &&
    (umOp d == 1 || allZero (umWrapped d))

/-- The key that verifies and unwraps a message: slot 30, or for slot 30 itself the transport key while the start key
register holds one (R575). -/
def verifyKey (s : State) (slot : Nat) : Option (List Nat) :=
  if slot = 30 ∧ s.reg Reg.secStartKeyState = 2 ∧ (s.start.recovery = 2 ∨ s.nvm.lc = 0) then some s.sec.startKey
  else if s.slotValid 30 then some (s.slotKey 30)
  else none

/-- The key that an import brings (R530), none when its check fails or its length is wrong. -/
def unwrapped (key d : List Nat) : Option (List Nat) :=
  let kek := kdf key "UWRP" (beBytes 8 (umDevice d) ++ beBytes 8 (umCounter d)) 256
  if kaNarrow (umAttr d) then
    if allZero ((umWrapped d).drop 24) then
      (Config.keyUnwrap kek ((umWrapped d).take 24)).bind fun k => if k.length = 16 then some k else none
    else none
  else (Config.keyUnwrap kek (umWrapped d)).bind fun k => if k.length = 32 then some k else none

/-- SLOT and OP of R515: derive only into slots 0 to 28, nothing into slot 29. -/
def umAllowed (d : List Nat) : Bool :=
  decide (1 ≤ umOp d ∧ umOp d ≤ 4 ∧ umSlot d < 32 ∧ umSlot d ≠ 29) && (umOp d != 2 || decide (umSlot d < 29))

/-- Parents of a slot that would have parent p, from the nearest up to a slot below the device root; at most n. -/
def parentChain : Nat → State → Nat → List Nat
  | 0, _, p => [p]
  | n + 1, s, p => if p < 29 then p :: parentChain n s (kaParent (s.keySlot p).attr) else []

/-- The longest line of children below a slot. -/
def childDepth : Nat → State → Nat → Nat
  | 0, _, _ => 0
  | n + 1, s, p => ((s.keyChildren p).map fun c => childDepth n s c + 1).foldl max 0

/-- An attribute word that R517 refuses for a slot; `derived`: the slot is, or becomes, a derived one. -/
def attrRefused (s : State) (slot a : Nat) (derived : Bool) : Bool :=
  let p := kaParent a
  let chain := parentChain 5 s p
  bit a 27 || (bit a 26 && slot != 30) || ((p == 0x3F) != decide (29 ≤ slot)) ||
    (kaTag a && (kaForbidden a || chain.any fun c => kaForbidden (s.keySlot c).attr)) || (kaDerive a && kaNarrow a) ||
    (decide (slot < 29) &&
      (if derived then
        !(decide (p < 29 ∧ p ≠ slot) && s.slotValid p && kaDerive (s.keySlot p).attr && !kaOrphaned (s.keySlot p).attr) ||
          chain.contains slot || decide (4 < chain.length + 1 + childDepth 5 s slot)
      else p != 0x3E))

/-- The slot is derived after the message. -/
def umDerived (s : State) (d : List Nat) : Bool := umOp d == 2 || (umOp d == 4 && bit (s.keySlot (umSlot d)).attr 15)

/-- The result of a message, in the order of R531. An update is one command, so no other is ever in progress (0x0A). -/
def updateCode (s : State) (d : List Nat) (ok : Bool) : Nat :=
  if !umWellFormed d then 0x01
  else if umDevice d ≠ Config.deviceId % 2 ^ 64 then 0x02
  else if umCounter d ≤ s.nvm.keys.counter then 0x03
  else
    let key := verifyKey s (umSlot d)
    let macOk : Bool := match key with
      | some k => hmac k (d.take 72) == umMac d
      | none => true
    let keyOk : Bool := match key with
      | some k => umOp d != 1 || (unwrapped k d).isSome
      | none => true
    let old := s.keySlot (umSlot d)
    let fits := umOp d != 4 || !kaValid old.attr || kaNarrow (umAttr d) == decide (old.key.length = 16)
    if !macOk then 0x04
    else if !(keyOk && fits) then 0x05
    else if !umAllowed d then 0x06
    else if umOp d ≠ 3 ∧ attrRefused s (umSlot d) (umAttr d) (umDerived s d) then 0x07
    else if s.holdupUs < s.reg Reg.secHoldupReq then 0x09
    else if key.isNone then 0x0B
    else if s.retired then 0x0C
    else if !ok then 0x0D
    else 0

/-- DAP status of a result (R531). -/
def updateStatus (code : Nat) : Nat :=
  if code = 0 then stDone else if code = 0x09 ∨ code = 0x0A then stBusy else if code = 0x0D then stNvm else stValue

/-- The attribute word kept: VALID, ORPHANED and SOURCE are the device's, reserved bits 0; EXPORT_FORBIDDEN is inherited. -/
def keptAttr (s : State) (a : Nat) (valid orphaned derived : Bool) : Nat :=
  let a := putBit (putBit (putBit (a / 2 ^ 15 * 2 ^ 15 % 2 ^ 32) 31 valid) 22 orphaned) 15 derived
  if derived && kaForbidden (s.keySlot (kaParent a)).attr then setBit a 25 else a

/-- A session runs on a slot's key. -/
def slotInUse (s : State) (slot : Nat) : Bool :=
  ((List.range 32).any fun n => match (s.link n).session with
    | some x => x.slot == slot
    | none => false) ||
  s.dap.sessions.any fun e => match e.2 with
    | some x => x.slot == slot
    | none => false

/-- The key of a slot is gone or replaced: R535 for the slot itself and its descendants. -/
def keyReplaced (slot : Nat) (s : State) : State :=
  let used := slotInUse s slot
  let s := orphanBelow slot s
  if used then s.raise Ev.slotOrphaned [slot] else s

/-- An accepted message is applied (R531, R533). -/
def applyUpdate (d : List Nat) (s : State) : State :=
  let n := umSlot d
  let old := s.keySlot n
  let a := umAttr d
  let had := kaValid old.attr
  let s : State := { s with nvm := { s.nvm with keys := { s.nvm.keys with counter := umCounter d, torn := false } } }
  let s := match umOp d with
    | 1 =>
      let key := match (verifyKey s n).bind fun k => unwrapped k d with
        | some k => k
        | none => []
      let s := if had then keyReplaced n s else s
      s.setKeySlot n ⟨key, keptAttr s a true false false, 0⟩
    | 2 =>
      let p := kaParent a
      let k := kdf (s.slotKey p) "SLOT" (n :: beBytes 4 (umLabel d)) 256
      let s := useSlot p (if had then keyReplaced n s else s)
      s.setKeySlot n ⟨if kaNarrow a then k.take 16 else k, keptAttr s a true false true, umLabel d⟩
    | 3 => (if had then keyReplaced n s else s).setKeySlot n {}
    | _ => s.setKeySlot n { old with attr := keptAttr s a had (kaOrphaned old.attr) (bit old.attr 15) }
  let s : State := { s with sec := { s.sec with masked := tset (fun _ => 0) s.sec.masked n s.dt } }
  (s.setReg Reg.secCounter (umCounter d)).setReg Reg.secUpdatePending 0

/-- The wait of a recovery start ends when slots 30 and 31 are VALID (R575). -/
def recoveryMet (s : State) : State :=
  if s.start.recovery = 2 ∧ s.slotValid 30 ∧ s.slotValid 31 then
    { s with start := { s.start with recoveryEnd := min s.start.recoveryEnd s.dt } }
  else s

/-- SEC_UPDATE (R530 to R533). -/
def secUpdateOp (src : Src) (d : List Nat) (ok : Bool) (s : State) : State × Nat :=
  let code := updateCode s d ok
  let s := s.setReg Reg.secUpdateResult code
  let s := s.setReg Reg.secLastUpdate
    (pack [(64, umCounter d), (64, s.dt), (8, umSlot d), (8, umOp d), (8, code), (40, 0)])
  if code = 0 then ((recoveryMet (applyUpdate d s)).raise Ev.updateApplied [umSlot d, src.who.path, 0], stDone)
  else (s.raise Ev.updateRefused [umSlot d, src.who.path, code], updateStatus code)

def execSecUpdate (t : Nat) (src : Src) (data : List Nat) (ok : Bool) (s : State) : Res :=
  .next (answer src Reg.secUpdate false (secUpdateOp src data ok) (s.begin t))

/-! Challenges (R527). -/

/-- SEC_CHALLENGE: slot, three reserved bytes, 12-byte nonce; SEC_RESPONSE then reads the answer, its first byte first. -/
def secChallengeOp (src : Src) (d : List Nat) (s : State) : State × Nat :=
  let slot := nth d 0 0
  if d.length ≠ 16 then (s, stLength)
  else if !s.slotAuth slot then (s, stValue)
  else
    let r := hmac128 (s.slotKey slot) (ascii "DEVICE-AUTH" ++ d.drop 4 ++ beBytes 8 Config.deviceId)
    (((useSlot slot s).setReg Reg.secResponse (leNat r)).raise Ev.challengeAnswered [slot, src.who.path, 0], stDone)

def execSecChallenge (t : Nat) (src : Src) (data : List Nat) (s : State) : Res :=
  .next (answer src Reg.secChallenge false (secChallengeOp src data) (s.begin t))

/-- SEC_STATS_CLEAR 0x01. -/
def secStatsClearOp (s : State) : State × Nat := ({ s with sec := { s.sec with uses := [] } }, stDone)

def execSecStatsClear (t : Nat) (src : Src) (s : State) : Res :=
  .next (answer src Reg.secStatsClear false secStatsClearOp (s.begin t))

/-! Re-masking (R521). -/

def execRemaskTick (t slot : Nat) (s : State) : Res :=
  let s := s.begin t
  let k := s.keySlot slot
  .next (if kaValid k.attr && kaNarrow k.attr then
      let last := tget (fun _ => 0) s.sec.masked slot
      let late := decide (last + 2 * s.reg Reg.secRemaskPeriod * ms < s.dt)
      let s : State := { s with sec := { s.sec with masked := tset (fun _ => 0) s.sec.masked slot s.dt } }
      let s := s.setKeySlot slot k
      if late then s.raise Ev.remaskLate [slot, 0, 0] else s
    else s)

/-! The start key register (R519, R575). -/

/-- Boundary scan loads the transport key: from the end of S3 to the end of S5 of a recovery start, and in MANUFACTURE. -/
def execTransportKeyLoad (t : Nat) (key : List Nat) (s : State) : Res :=
  let s := s.begin t
  .next (if s.reg Reg.secState ≠ 2 ∧ (s.scanRecovers = true ∨ s.nvm.lc = 0) then
    ({ s with sec := { s.sec with startKey := key.map (· % 256) } } : State).setReg Reg.secStartKeyState 2
  else s)

/-- The start key register is cleared. -/
def clearStartKey (s : State) : State :=
  ({ s with sec := { s.sec with startKey := [] } } : State).setReg Reg.secStartKeyState 0

/-! Destruction (R538 to R540). -/

/-- The destruction line: slots, start key register, engine keys, destroy flag, helper data, root and records; the counter is
kept. Every session ends, and R537 applies to every lane at once. -/
def destroyKeys (source : Nat) (s : State) : State :=
  let s := clearStartKey s
  let s : State := { s with
    sec := { s.sec with puf := none, signing := {}, masked := [] }
    nvm := { s.nvm with
      cb := { s.nvm.cb with keyEpoch := s.nvm.cb.keyEpoch + 1 }
      keys := { s.nvm.keys with root := none, helper := none, destroyed := true, slots := [], torn := false } } }
  let s := ((s.setReg Reg.secState 2).setReg Reg.secRootState 0).setReg Reg.secDestroyDt s.dt
  let s := endSessions (fun _ => true) s
  let s := s.each (List.range 32) fun s n =>
    if (s.link n).session.isSome then
      reauthFails n 3 (s.modLink n fun l => { l with session := l.session.map fun x => { x with root := [] } })
    else s
  s.raise Ev.keysDestroyed [0, 0, source]

/-- A tamper source trips; TAMPER_N may be disabled (R538). -/
def execTamperTrip (t source : Nat) (s : State) : Res :=
  let s := s.begin t
  .next (if source = 0 ∧ !bit (s.reg Reg.secTamperEnable) 0 then s
    else destroyKeys source (s.setReg Reg.secTamperStatus (setBit (s.reg Reg.secTamperStatus) source)))

end Sys2Proof.Machine
end

