-- ==== Sys2Proof/Machine/Resets.lean ====
section
/-! DEFINITION. Power-on and the resets (R559 to R563): what each keeps, and how the next start begins. -/

namespace Sys2Proof.Machine

/-! What stays. -/

/-- Entries that show what the NVM holds (R630). -/
def nvmRegs : List Nat :=
  [Reg.dapSaveDt, Reg.dapSaveDigest, Reg.dapSaveCount, Reg.secDestroyDt, Reg.secLastUpdate, Reg.secCounter,
   Reg.cbLastIncidentDt, Reg.cbLastIncidentSeq, Reg.fwMinRelease]

/-- Entries that a cold reset keeps beside them: the supplies, counts since power-on, and the key store, which runs on
(R560). -/
def coldRegs : List Nat :=
  nvmRegs ++
  [Reg.pwrKeeperSide, Reg.pwrGood, Reg.pwrRailMv, Reg.pwrTjMax, Reg.pwrTjMin, Reg.pwrTjSensors, Reg.pwrTjHighest,
   Reg.pwrTjLowest, Reg.pwrThermalState, Reg.pwrHoldupUs, Reg.pwrHoldupLowest, Reg.pwrSwitchCount, Reg.pwrReserveCount,
   Reg.pwrReserveDt, Reg.pwrReserveMs, Reg.pwrOorCount, Reg.rsvTotalS, Reg.govVcoreLowest] ++
  [Reg.secState, Reg.secRootState, Reg.secTamperStatus, Reg.secStartKeyState, Reg.secUpdatePending,
   Reg.fwRestarts, Reg.busHangCount, Reg.qsForcedCount]

/-- Everything at its reset value but the NVM and the entries of a list. -/
def freshFrom (keep : List Nat) (s : State) : State :=
  { out := s.out, free := s.free, pending := s.pending, nvm := s.nvm
    regs := keep.foldl (fun t k => tset entryDefault t k (s.reg k)) [] }

/-- Every staged write ends unapplied. -/
def endAllStaged (s : State) : State := s.each (okeys s.dap.staged) fun s k => endStaged k s

/-- The straps as sampled (R620). -/
def takeStraps (straps : Nat) (s : State) : State :=
  let s : State := { s with start := { s.start with straps := straps } }
  (s.setReg Reg.idStraps (straps % 256)).setReg Reg.idNodeId (straps % 128)

/-! Power-on (R547, R559). -/

/-- The keeper's side when keeper supplies become good. -/
def chooseSide (s : State) : State :=
  let a := sideAGood (s.reg Reg.pwrGood)
  let b := sideBGood (s.reg Reg.pwrGood)
  let s := s.setReg Reg.pwrKeeperSide (ofBool (!a && b))
  if a && !b then s.raise Ev.backupLost [0] else s

/-- The keeper supplies are good. DT starts at 0; a casebook queue that no hold-up store kept is lost (R584). -/
def execPowerOn (_t good straps : Nat) (s : State) : Res :=
  let s : State := { s with out := [] }
  .next (if !sideAGood good && !sideBGood good then s
    else
      let lost := s.nvm.boot != 0 && (s.reg Reg.pwrHoldupCap == 0 || s.cb.queue != [])
      let s := freshFrom nvmRegs (endAllStaged s)
      let n := s.nvm
      let s : State := { s with
        nvm := { n with cb := { n.cb with lostAll := n.cb.lostAll || lost } }, start := { kind := 0, cause := 1 } }
      let s := (s.setReg Reg.secCounter n.keys.counter).setReg Reg.rstLastCause 1
      let s := if n.keys.destroyed then s.setReg Reg.secState 2 else s
      chooseSide (goodSince ((takeStraps straps s).setReg Reg.pwrGood (good % 2048))))

/-! Cold (R559, R560). -/

/-- A cold reset with its cause; `held`: RESET_N is still low. -/
def coldReset (cause : Nat) (held : Bool) (s : State) : State :=
  if s.pwr.holdup then s
  else
    let old := clearStartKey (leaveReserve (endAllStaged s))
    let s := freshFrom coldRegs old
    let p := old.pwr
    let s : State := { s with
      dt := old.dt
      sec := { old.sec with uses := [] }
      cb := { queue := old.cb.queue, gap := old.cb.gap, limits := old.cb.limits }
      dap := { netLink := old.dap.netLink }
      sup := { lastHang := old.sup.lastHang }
      pwr := {
        qualified := p.qualified, mainSince := p.mainSince, aSince := p.aSince, bSince := p.bSince, thermal := p.thermal
        vddqHold := p.vddqHold, holdupSeen := p.holdupSeen, lcChanged := p.lcChanged }
      start := { kind := 1, cause := cause, t0 := old.dt, began := old.dt, held := held } }
    takeStraps old.start.straps (s.setReg Reg.rstLastCause cause)

/-- RESET_N low for at least 10 µs. -/
def execResetNAssert (t : Nat) (s : State) : Res := .next (coldReset 2 true (s.begin t))

/-- The rising edge of RESET_N: the straps are sampled, and the start begins. -/
def execResetNRelease (t straps : Nat) (s : State) : Res :=
  let s := s.begin t
  .next (if !s.start.held then s
    else takeStraps straps { s with start := { s.start with held := false, t0 := s.dt, began := s.dt } })

/-- RST_CMD reads the last command written until a reset takes it away. -/
def rstColdOp (s : State) : State × Nat := (coldReset 3 false s, stDone)

def execRstCold (t : Nat) (src : Src) (s : State) : Res :=
  .next (answer src Reg.rstCmd false rstColdOp (s.begin t))

/-! The processor. -/

/-- A SAVE that runs is aborted; the image in force stays. -/
def abortSave (s : State) : State :=
  if s.dap.save.isSome then
    ({ s with dap := { s.dap with save := none } } : State).setReg Reg.dapSaveState 3
  else s

/-- The FIRMWARE record of an event of this chapter (R582). -/
def firmwareBody (s : State) (id bank : Nat) : List Nat :=
  leBytes 2 id ++ [bank, 0] ++ leBytes 2 (s.bank bank).release ++ leBytes 4 (s.bank bank).build

/-- A firmware event with its record. -/
def firmwareEvent (id bank reason : Nat) (s : State) : State :=
  s.raiseAs id [bank, reason] (.as 0x0B (firmwareBody s id bank))

/-- The management processor restarts with its running bank: requests, responses, reassemblies, snapshots and staged writes
are lost (R476, R482); sessions, subscriptions and the lock stand. -/
def processorAnew (s : State) : State :=
  let s := abortSave (endAllStaged s)
  let s : State := { s with
    dap := { s.dap with kept := [], waiting := [], reasm := [], snaps := [] }
    nvm := countReset rowProcessor s.nvm }
  ((s.count Reg.fwRestarts 1).setReg Reg.rstLastCause 6).setReg Reg.fwStartedDt s.dt

/-- A trial ends without a confirmation (R598): the previous bank runs again. -/
def trialEnds (event : Bool) (s : State) : State :=
  match s.sup.trial with
  | none => s
  | some (bank, _) =>
    let s : State := { s with sup := { s.sup with trial := none } }
    let s := (s.setReg Reg.fwActiveBank (1 - bank)).setReg Reg.fwUpdateState 0
    let s := if event then firmwareEvent Ev.fwReverted bank 0 s else s
    endChange firmwareChange s

/-- A processor restart (R559, R594, R599); it ends a trial. -/
def procRestart (s : State) : State := trialEnds true (processorAnew s)

def rstProcOp (s : State) : State × Nat := (procRestart (s.setReg Reg.rstCmd 3), stDone)

def execRstProcRestart (t : Nat) (src : Src) (s : State) : Res :=
  .next (answer src Reg.rstCmd false rstProcOp (s.begin t))

/-- The processor's watchdog expires (R599). -/
def execProcWatchdogExpiry (t : Nat) (s : State) : Res :=
  .next (procRestart ((s.begin t).raise Ev.procWatchdog []))

/-! Warm (R559, R561, R563). -/

/-- Control paths start anew with the processor: sessions, subscriptions and queues end, and the lock is released. -/
def pathsAnew (s : State) : State :=
  let s := abortSave (endAllStaged s)
  let d := s.dap
  releaseLock { s with dap := { paths := d.paths, can := d.can, netLink := d.netLink, datagrams := d.datagrams } }

/-- Converters, compression engines, the frame store and the audio engine are reset, and the compositors' stores emptied. -/
def bulkAnew (s : State) : State :=
  let again (m : QsMode) : QsMode := if m = .isolated then .isolated else .active
  let s := s.each (List.range 48) fun s u =>
    let v := s.unit u
    s.setUnit u { v with mode := again v.mode, reEnable := false, resetDue := false }
  let s := s.each (List.range 16) fun s e =>
    let v := s.engine e
    engineStops e (s.setEngine e { v with mode := again v.mode, reEnable := false, resetDue := false })
  let s := s.each (List.range 64) fun s n => s.modOutp n fun o => { o with
    comp := if o.comp = .draining ∨ o.comp = .idle then (if o.raster = .off then .off else .active) else o.comp
    conceal := [], resetDue := false, reEnable := false }
  audioStops { s with
    fs := { s.fs with mode := if s.fs.mode = .inService then .training else s.fs.mode }
    pwr := { s.pwr with subsystem := none } }

/-- A warm reset with its cause. -/
def warmReset (cause : Nat) (s : State) : State :=
  if s.pwr.holdup then s
  else
    let s := pathsAnew (trialEnds false s)
    let s := clearStatus (2 ^ 1152 - 1) { s with evt := { s.evt with count := 0 } }
    let s := bulkAnew (changesEnd s)
    let s := startBegins 2 cause rowWarm 4 s
    let s : State := { s with pwr := { s.pwr with warm := true, warmPending := none } }
    let s := (s.setReg Reg.rstPending 0).setReg Reg.pwrState (if s.pwr.bulk then 0 else 2)
    recheck (if s.reg Reg.rstResult = 1 then s.setReg Reg.rstResult 0 else s)

/-- FS_WIN_UNEXPORTED: frozen windows not yet released (R210). -/
def unexported (s : State) : Nat := (s.fs.wins.filter fun e => e.2.mode == .frozen && !e.2.released).length

/-- A warm reset is asked for (R561): it is held while windows wait for their export. -/
def askWarm (cause : Nat) (s : State) : State :=
  if unexported s ≠ 0 ∧ s.reg Reg.rstWarmHold ≠ 0 then
    if s.pwr.warmPending.isSome then s
    else
      let s : State := { s with pwr := { s.pwr with
        warmPending := some (s.dt + s.reg Reg.rstWarmHold * ms), warmCause := cause } }
      (s.setReg Reg.rstPending 1).raise Ev.warmResetPending [cause]
  else warmReset cause s

/-- The held warm reset takes place. -/
def warmGoes (s : State) : State := if s.pwr.warmPending.isSome then warmReset s.pwr.warmCause s else s

/-- It takes place once every frozen window is released. -/
def warmMet (s : State) : State := if unexported s = 0 then warmGoes s else s

def rstWarmOp (s : State) : State × Nat := (askWarm 4 (s.setReg Reg.rstCmd 2), stDone)

def execRstWarm (t : Nat) (src : Src) (s : State) : Res :=
  .next (answer src Reg.rstCmd false rstWarmOp (s.begin t))

def rstProceedOp (s : State) : State × Nat :=
  (warmGoes s, stDone)

def execRstProceed (t : Nat) (src : Src) (s : State) : Res :=
  .next (answer src Reg.rstProceed false rstProceedOp (s.begin t))

/-- RST_WARM_HOLD elapses. -/
def execWarmHoldExpiry (t : Nat) (s : State) : Res :=
  let s := s.begin t
  .next (match s.pwr.warmPending with
    | some u => if u ≤ s.dt then warmGoes s else s
    | none => s)

/-- FS_WIN_CMD op 0x02 (R209): the last release lets a held warm reset go. -/
def execFsWinRelease (t : Nat) (src : Src) (w : Nat) (s : State) : Res :=
  .next (warmMet (answer src Reg.fsWinCmd false (fsWinReleaseOp w) (s.begin t)))

/-- FS_WIN_COMMIT (R207); it may empty the windows that a warm reset waits for. -/
def execFsWinCommit (t : Nat) (src : Src) (s : State) : Res :=
  .next (warmMet (answer src Reg.fsWinCommit true fsWinCommitOp (s.begin t)))

/-- START_FAILED_CLEAR ← 0x01 (R578). -/
def startFailedClearOp (s : State) : State × Nat := ({ s with nvm := { s.nvm with failedStarts := 0 } }, stDone)

def execStartFailedClear (t : Nat) (src : Src) (s : State) : Res :=
  .next (answer src Reg.startFailedClear false startFailedClearOp (s.begin t))

end Sys2Proof.Machine
end

