-- ==== Sys2Proof/Machine/Start.lean ====
section
/-! DEFINITION. Start steps S0 to S6 (R564, R565): supplies, oscillators, NVM, roots, firmware, keeper blocks, first light. -/

namespace Sys2Proof.Machine

/-! S0 and S1. -/

/-- Bits of the keeper rails and of HOLD_IN. -/
def keeperRails : Nat := 0x43F

/-- S0 measures the keeper rails and HOLD_IN, and waits for a side that is good. -/
def execStartS0Supply (t good : Nat) (mv : List Nat) (s : State) : Res :=
  let s := s.begin t
  .next (if !stepDue s 0 then s
    else
      let was := s.reg Reg.pwrGood
      let s := s.setReg Reg.pwrGood (clearMask was keeperRails + (good &&& keeperRails))
      let s := s.each ((List.range 11).filter fun k => bit keeperRails k) fun s k =>
        s.setReg Reg.pwrRailMv (putFld (s.reg Reg.pwrRailMv) (16 * k + 15) (16 * k) (nth mv k 0))
      let s := goodSince s
      let now := s.reg Reg.pwrGood
      if !sideAGood now && !sideBGood now then s
      else
        let s := if !sideAGood was && !sideBGood was then chooseSide s else s
        let s := takeStraps s.start.straps s
        stepEnds 0 1 1 0 now s)

/-- Sources and domains that the factory setups enable begin to run. -/
def clocksBegin (s : State) : State :=
  let s := s.each (List.range 12) fun s n => if rsEnable (s.refSetup n) then refTo n .absent s else s
  s.each (List.range 16) fun s d => if dsEnable (s.domSetup d) then domTo d .freeRun s else s

/-- S1 checks XO against PHYREF (R451): the good one runs the device, and with both lost the start stops. -/
def execStartS1Osc (t : Nat) (xo phyref : Bool) (s : State) : Res :=
  let s := s.begin t
  .next (if !stepDue s 1 then s
    else
      let s : State := { s with clk := { s.clk with phyrefLost := !phyref } }
      let s := s.setReg Reg.refXoState (if xo then 0 else if phyref then 1 else 2)
      let s := if phyref then s else s.each (List.range 32) fun s n => s.modLane n fun l => { l with pllHeld := true }
      if xo && phyref then stepEnds 1 1 1 0 0 (clocksBegin s)
      else
        let alt := if xo then 2 else 1
        let s := stepFailed 1 alt (s.raise Ev.oscFault [alt])
        if xo || phyref then stepEnds 1 2 3 alt 0 (clocksBegin s) else startStops 1 3 3 0 0 s)

/-! S2. -/

/-- The safe image of the NVM is read (R90, R629). -/
def readSafe (s : State) : State :=
  let img := s.nvm.safe
  let n := img.length - 4
  let recs := nth img 2 0
  let outs := nth img 3 0
  if img = [] then s.setReg Reg.safeSetState 0
  else if img.length < 8 ∨ leNat (img.drop n) ≠ crc32c (img.take n) then s.setReg Reg.safeSetState 2
  else
    let s := (s.setReg Reg.safeSet (leNat ((img.drop 4).take (32 * recs)))).setReg (2 ^ 24 + Reg.safeSet) (32 * recs)
    let s := s.setReg Reg.safeOutTable (leNat ((img.drop (4 + 32 * recs)).take (16 * outs)))
    let s := (s.setReg (2 ^ 24 + Reg.safeOutTable) (16 * outs)).setReg Reg.safeSetCount recs
    let s := (s.setReg Reg.safeSetDigest (leNat (img.drop n))).setReg Reg.safeSetState 1
    s.setReg Reg.chimeSafeDigest (crc32c ((img.drop (n - 512)).take 512))

/-- START_LOOP_LIMIT as the dictionary image holds it, since S10 has not restored it yet (R568). -/
def loopLimit (s : State) : Nat :=
  match s.nvm.image.bind imageRead with
  | some recs =>
    match recs.find? fun r => r.1 == Reg.startLoopLimit with
    | some r => if s.nvm.imageMarked then s.reg Reg.startLoopLimit else leNat r.2
    | none => s.reg Reg.startLoopLimit
  | none => s.reg Reg.startLoopLimit

/-- The start joins the NVM: the last ledger is closed, and the boot and reset counts go up. -/
def startCounts (s : State) : State :=
  let s := closeLast s
  let row := if s.start.kind = 0 then rowPowerOn else rowCold
  let n := s.nvm
  { s with
    nvm := countReset row { n with boot := n.boot + 1 }
    start := { s.start with lifeCycle := n.lc, failed := n.failedStarts } }

/-- START_FAILED has reached its limit: S10 takes its alternative (R568). -/
def startLoops (s : State) : State :=
  if s.start.failed < loopLimit s then s
  else
    let s : State := { s with start := { s.start with loop := true, cause := 8 } }
    (s.setReg Reg.rstLastCause 8).raise Ev.startLoop [s.start.failed]

/-- S2 mounts the NVM and reads what it holds; without it the start stops. -/
def execStartS2Nvm (t : Nat) (ok : Bool) (s : State) : Res :=
  let s := s.begin t
  .next (if !stepDue s 2 then s
    else if !ok then startStops 2 3 3 0 0 (stepFailed 2 0 s)
    else
      let s : State := { s with cb := { s.cb with mounted := true } }
      let s := startCounts s
      let c := s.nvm.cb
      let s : State := if c.lostAll then
          { s with
            cb := { s.cb with gap := some (0xFFFFFFFF, (s.cb.gap.map (·.2)).getD 0) }
            nvm := { s.nvm with cb := { c with lostAll := false } } }
        else s
      let s := match s.nvm.image with
        | some img => s.setReg Reg.dapSaveDigest (leNat (img.drop (img.length - 4)))
        | none => s
      stepEnds 2 1 1 0 0 (startLoops (readSafe s)))

/-! S3 (R512 to R514, R575). -/

def State.modKeys (s : State) (f : KeyStore → KeyStore) : State :=
  { s with nvm := { s.nvm with keys := f s.nvm.keys } }

/-- A new device root from the internal random source. -/
def drawRoot (s : State) : State :=
  let d := s.drawBytes 32
  d.2.modKeys fun k => { k with root := some d.1, started := true }

/-- New helper data are enrolled. -/
def enrol (s : State) : State :=
  s.modKeys fun k => { k with enrolments := k.enrolments + 1, helper := some (k.enrolments + 1) }

/-- Slots 0 to 28 become empty. -/
def emptySlots (s : State) : State := s.modKeys fun k => { k with slots := k.slots.filter fun e => decide (29 ≤ e.1) }

/-- The PUF root stands: slot 29 is derived of it, and the start key register holds it. -/
def pufStands (root : List Nat) (s : State) : State :=
  let s : State := { s with sec := { s.sec with puf := some root, startKey := root } }
  (s.setSigning (kdf root "CASEBOOK" [] 256)).setReg Reg.secStartKeyState 1

/-- The permutation of the key store's cells is keyed afresh (R520). -/
def cellsKeyed (s : State) : State :=
  let s := s.modKeys fun k => { k with draws := k.draws + 1 }
  { s with sec := { s.sec with cells := s.nvm.keys.draws } }

/-- What the check of the device root leaves: the state, and whether it brought a new root beyond the first. -/
def checkRoot (root : Bool) (s : State) : State × Bool :=
  let k := s.nvm.keys
  if k.destroyed ∧ k.root.isNone then
    ((enrol (drawRoot s)).raise Ev.rootFailed [0, 0, 3], true)
  else if !k.started then (enrol (drawRoot s), false)
  else if root && k.root.isSome then (s, false)
  else ((emptySlots (drawRoot s)).raise Ev.rootFailed [0, 0, 1], true)

/-- SEC_STATE as S3 finds it: in FIELD and SERVICE the privileged slots are available only when they hold their keys. -/
def rootState (s : State) (puf : Bool) : Nat :=
  let has (n : Nat) : Bool := kaValid (s.keySlot n).attr
  if s.nvm.keys.destroyed then 2
  else if !puf ∨ ((s.nvm.lc = 2 ∨ s.nvm.lc = 3) ∧ ¬(has 30 && has 31) = true) then 1
  else 0

/-- A recovery start enrols new helper data; slots 30 and 31 wait for their keys (R575). -/
def recover (s : State) : State :=
  let s := (enrol s).modKeys fun k => { k with
    destroyed := false, slots := k.slots.filter fun e => decide (e.1 < 29) }
  let s := pufStands (Config.pufRoot s.nvm.keys.enrolments) s
  let c := s.nvm.cb
  let s : State := { s with
    nvm := { s.nvm with cb := { c with keyEpoch := c.keyEpoch + 1 } }
    start := { s.start with kind := 4, recovery := 1 } }
  (clearStartKey (s.setReg Reg.secState 0)).raise Ev.recoveryStart []

/-- S3 checks both roots; `root`: the stored one passes its check, `puf`: the PUF root regenerates. -/
def execStartS3Root (t : Nat) (root puf : Bool) (s : State) : Res :=
  let s := s.begin t
  .next (if !stepDue s 3 then s
    else
      let r := checkRoot root (cellsKeyed s)
      let s := r.1
      let regen := puf && s.nvm.keys.helper.isSome
      let s := if regen then pufStands (Config.pufRoot (s.nvm.keys.helper.getD 0)) s
        else ({ s with sec := { s.sec with puf := none, signing := {} } } : State).raise Ev.rootFailed [0, 0, 2]
      let state := rootState s regen
      let s := s.setReg Reg.secState state
      let s := if s.nvm.keys.torn then (s.setReg Reg.secUpdatePending 2).raise Ev.updateIncomplete [0, 0, 0] else s
      let again := !bit s.start.straps 7 && state != 0 && (s.nvm.lc == 2 || s.nvm.lc == 3)
      let s := if again then recover s else s
      let detail := 1 + ofBool (regen || again) * 2 + ofBool s.nvm.keys.helper.isSome * 4
      let s := s.setReg Reg.secRootState detail
      let alt := if state ≠ 0 then 2 else if r.2 then 1 else 0
      if alt = 0 then stepEnds 3 1 1 0 detail s else stepEnds 3 2 3 alt detail (stepFailed 3 alt s))

/-! S4. -/

/-- A bank as S4 finds it: one that is empty stays so. -/
def bankVerified (b : Nat) (ok : Bool) (s : State) : State × Bool :=
  let v := s.bank b
  if v.state = 2 ∨ v.state = 3 then (s.setBank b { v with state := 2 }, false)
  else if ok then (s.setBank b { v with state := 1 }, true)
  else (if v.state = 0 then s else s.setBank b { v with state := 2 }, false)

/-- S4 verifies both banks and starts the start bank, or the other one; `a`, `b`: the bank's image verifies. In RETIRED the
start stops here (R574). -/
def execStartS4Firmware (t : Nat) (a b : Bool) (s : State) : Res :=
  let s := s.begin t
  .next (if !stepDue s 4 then s
    else
      let va := bankVerified 0 a s
      let vb := bankVerified 1 b va.1
      let s := vb.1
      let first := s.nvm.startBank
      let good (k : Nat) : Bool := if k = 0 then va.2 else vb.2
      if !good first && !good (1 - first) then startStops 4 3 1 0 0 (stepFailed 4 0 s)
      else
        let bank := if good first then first else 1 - first
        let s := (s.setReg Reg.fwActiveBank bank).setReg Reg.fwStartedDt s.dt
        let detail := bank * 65536 + (s.bank bank).release % 65536
        let s := if bank = first then stepEnds 4 1 1 0 detail s else stepEnds 4 2 1 1 detail (stepFailed 4 1 s)
        if s.retired then keepLedger { s with start := { s.start with stopped := true, outcome := 4 } }
        else enterS7 s)

/-! S5. -/

/-- The chime table of the safe image, none without a valid one. -/
def safeChimeTable (s : State) : Nat :=
  if s.reg Reg.safeSetState = 1 then leNat ((s.nvm.safe.drop (s.nvm.safe.length - 516)).take 512) else s.reg Reg.chimeTable

/-- The asset caches of the reserve outputs hold what the safe set and UNV_ASSET name (R275). -/
def safeCaches (bad : List Nat) (s : State) : State :=
  let recs := if s.reg Reg.safeSetState = 1 then s.safeRecords else []
  let ids (n : Nat) : List Nat :=
    ((recs.filter fun r => rToLayer r && rEngine r == n).flatMap fun r =>
      (if rSrcType r = 3 then [fld (rSrc r) 15 0] else []) ++ (if rFbType r = 3 then [fld (rFbSrc r) 15 0] else [])) ++
    [fld (s.reg Reg.unvAsset) 15 0]
  let all := ((List.range 8).flatMap fun i => ids (8 * i)).eraseDups
  let s : State := { s with comp := { s.comp with missing := all.filter bad.contains } }
  s.each (List.range 8) fun s i =>
    let load := (ids (8 * i)).eraseDups.filterMap fun id =>
      if bad.contains id then none else (oget s.nvm.assets id).map fun a => (id, a)
    { s with comp := { s.comp with caches := tset (fun _ => []) s.comp.caches (8 * i) load } }

/-- Sounds that enabled generators of the safe image name are loaded (R333). -/
def safeSounds (bad : List Nat) (s : State) : State :=
  let table := s.reg Reg.chimeTable
  (loadSounds bad (s.setReg Reg.chimeTable (safeChimeTable s))).setReg Reg.chimeTable table

/-- Lanes calibrate, those enabled and without power or off (R354). -/
def lanesPowerUp (first n : Nat) (s : State) : State :=
  s.each ((List.range n).map (first + ·)) fun s k =>
    let l := s.lane k
    if psEnable (s.phySetup k) ∧ (l.mode = .off ∨ l.mode = .unpowered) then
      s.setLane k { l with mode := .calibrating, attempts := 0, initial := true }
    else s

/-- S5 begins: `failed` is the mask of blocks that fail their self-test. -/
def s5Begins (failed : Nat) (assets sounds : List Nat) (s : State) : State :=
  let s := lanesPowerUp 24 8 (safeSounds sounds (safeCaches assets s))
  let s : State := { s with start := { s.start with working := true, keeperFailed := failed != 0 } }
  let s := s.modStep 5 fun x => { x with detail := failed % 2 ^ 24 }
  if failed = 0 then s else stepFailed 5 1 s

/-- The enabled reserve lanes are linked, or 290 ms have passed. -/
def s5Over (s : State) : Bool :=
  decide (s.start.t0 + 290 * ms ≤ s.dt) ||
    ((List.range 8).all fun i => !psEnable (s.phySetup (24 + i)) || (s.link (24 + i)).mode == .up)

/-- S5 ends, and its start key register is cleared. -/
def s5Ends (s : State) : State :=
  let failed := (s.start.step 5).detail
  let s := clearStartKey s
  if failed = 0 then stepEnds 5 1 1 0 0 s else stepEnds 5 3 3 1 failed s

/-- S5: a first issue begins it, a later one ends it, or begins the wait of a recovery start (R575). -/
def execStartS5Keeper (t failed : Nat) (assets sounds : List Nat) (s : State) : Res :=
  let s := s.begin t
  .next (if !stepDue s 5 then s
    else if !s.start.working then s5Begins failed assets sounds s
    else if !s5Over s ∨ s.start.recovery = 2 then s
    else if s.start.recovery = 1 then
      recoveryMet { s with start := { s.start with
        recovery := 2, recoveryEnd := s.dt + s.reg Reg.lcRecoveryWait * sec } }
    else s5Ends s)

/-- The wait ends by its time or with slots 30 and 31 VALID. -/
def execRecoveryWaitEnd (t : Nat) (s : State) : Res :=
  let s := s.begin t
  .next (if s.start.recovery = 2 ∧ s.start.recoveryEnd ≤ s.dt ∧ stepDue s 5 = true then
    s5Ends { s with start := { s.start with recovery := 3 } } else s)

/-! S6 (R92, R93, R275, R565). -/

/-- The records of the reserve outputs in the safe image: OUT_COMP_SETUP and OUT_SPINE_TABLE of output 8i. -/
def safeOutput (s : State) (i : Nat) : Nat × Nat :=
  let img := s.nvm.safe
  let base := 4 + 32 * nth img 2 0 + 16 * nth img 3 0 + 304 * i
  (leNat ((img.drop base).take 16), leNat ((img.drop (base + 16)).take 288))

/-- The safe image is installed: outputs, chime table, output descriptors, records that bind now or later. -/
def installSafe (s : State) : State :=
  let s := s.each (List.range 8) fun s i =>
    let n := 8 * i
    let v := safeOutput s i
    let old := s.force (Reg.outCompSetup n)
    let s := ((s.setReg (Reg.outCompSetup n) v.1).setForce (Reg.outCompSetup n) v.1)
    let s := (s.setReg (Reg.outSpineTable n) v.2).setForce (Reg.outSpineTable n) v.2
    gangChange n old v.1 (s.modOutp n fun o => { o with background := csBackground v.1 })
  let s := s.setReg Reg.chimeTable (safeChimeTable s)
  let s := s.each (List.range s.safeOutCount) fun s j =>
    putOutDesc (248 + j) (record (s.reg Reg.safeOutTable) 0 128 j) s
  let s := s.setReg Reg.strOutTable (s.force Reg.strOutTable)
  let recs := s.safeRecords
  let streams := (List.range recs.length).filter fun i => rSrcType (nth recs i 0) == 0
  let others := (List.range recs.length).filter fun i => rSrcType (nth recs i 0) != 0
  let s : State := { s with str := { s.str with
    safeWait := streams.foldl (fun t i => oset t i (some (nth recs i 0))) s.str.safeWait } }
  let s := if others = [] then s else restoreGroup true (others.map fun i => (2016 + i, nth recs i 0)) s
  s.each ((s.str.ins.filter fun e => e.2.mode == .announced || e.2.mode == .live || e.2.mode == .stalled).map (·.1)) fun s k =>
    bindSafe k s

/-- Every safe route has flipped. -/
def safeFlipped (s : State) : Bool :=
  s.reg Reg.safeSetState != 1 || decide (s.reg Reg.safeLiveMask = 2 ^ s.safeRecords.length - 1)

/-- S6 passes: FIRST_LIGHT, and the start hold on SAFE_N is released. -/
def s6Passes (s : State) : State :=
  let s := s.setReg Reg.startFirstlightMs ((s.dt - s.start.t0) / ms)
  let s := stepEnds 6 1 1 0 (popCount 32 (s.reg Reg.safeLiveMask)) s
  let s := updatePins { s with evt := { s.evt with startHold := false } }
  enterS7 (s.raise Ev.firstLight [popCount 32 (s.reg Reg.safeLiveMask)])

/-- S6 fails under R93: SAFE_N stays low. -/
def s6Fails (s : State) : State :=
  let s := s.setReg Reg.startFirstlightMs ((s.dt - s.start.t0) / ms)
  enterS7 (stepEnds 6 3 1 0 0 (s.raise Ev.safeSetFailed [s.reg Reg.safeSetState]))

/-- S6: a first issue installs the safe set, and a later one ends the step when every safe route has flipped or 400 ms have
passed since t0. -/
def execStartS6Firstlight (t : Nat) (s : State) : Res :=
  let s := s.begin t
  .next (if !stepDue s 6 then s
    else if !s.start.working ∧ (s.start.keeperFailed ∨ s.reg Reg.safeSetState = 2) then s6Fails s
    else
      let s := if s.start.working ∨ s.reg Reg.safeSetState ≠ 1 then s else installSafe s
      let s : State := { s with start := { s.start with working := true } }
      if safeFlipped s || decide (s.start.t0 + 400 * ms ≤ s.dt) then s6Passes s else s)

end Sys2Proof.Machine
end

