-- ==== Sys2Proof/Machine/Ready.lean ====
section
/-! DEFINITION. Start steps S7 to S11 (R201, R211, R355, R468, R94) and SERVICE_READY. -/

namespace Sys2Proof.Machine

/-! S7 and S8 (R201, R211). -/

/-- What the training of channel k gave: its code. Channels held in reset are mapped out (R616). -/
def channelTrained (k : Nat) (x : Nat × Nat) (s : State) : State :=
  let code := if s.pwr.vddqHold then 0 else x.1
  let c : Chan := { (s.chan k) with retiring := false, retryAt := none, restoring := false, fails := 0, recent := [], retrains := 0 }
  if code = 1 then s.setChan k { c with mode := .fast, slow := false }
  else if code = 2 then (s.setChan k { c with mode := .slow, slow := true }).raise (Ev.speedFallback k) [k]
  else (s.setChan k { c with mode := .retired, slow := false }).raise (Ev.channelRetired k) [k]

/-- Channels that p selects, as a mask. -/
def chanMask (s : State) (p : Chan → Bool) : Nat := maskOf ((List.range 8).filter fun k => p (s.chan k))

/-- S7 trains the channels; per channel 0 not trained, 1 at 8533 MT/s, 2 at 6400 MT/s, with its margin. -/
def execStartS7DramTrain (t : Nat) (results : List (Nat × Nat)) (s : State) : Res :=
  let s := s.begin t
  .next (if !stepDue s 7 || !s.pwr.bulk then s
    else
      let s := s.each (List.range 8) fun s k => channelTrained k (nth results k (0, 0)) s
      let slow := chanMask s fun c => c.mode == .slow
      let out := chanMask s fun c => c.mode == .retired
      let alt := if out ≠ 0 then 2 else if slow ≠ 0 then 1 else 0
      let s := stepEnds 7 (if alt = 0 then 1 else 2) 1 alt (slow * 256 + out) s
      { s with fs := { s.fs with mode := .wiping } })

/-- The row of R563 that wipes the DRAM in this start, as WIPE_LAST shows it. -/
def wipeRow (s : State) : Nat := if s.start.kind = 2 then 2 else if s.start.kind = 3 then 4 else 1

/-- Pools of KIND 0 that hold buffers. -/
def hostPools (s : State) : List Nat :=
  (List.range 64).filter fun p => !pStream (s.poolRec p) && s.fs.bufs.any fun e =>
    handlePool e.1 == p && e.2.mode != .free

/-- Buffers with extents on a channel that is mapped out stay LOST (R205). -/
def mappedOut (s : State) : State :=
  let keys := s.fs.place.flatMap fun e => buffersOn s e.1 fun k => (s.chan k).mode == .retired
  s.each keys fun s key => s.modBuf key fun b => { b with mode := .lost }

/-- The wipe: every buffer is FREE, every window and queue empty, the pool and window tables kept. -/
def wipeDram (s : State) : State :=
  let lost := if s.start.kind = 3 then hostPools s else []
  let s := mappedOut (storeEmpty (some (s.nvm.boot % 256)) (forgetShown s))
  let n := s.nvm
  let s : State := { s with
    fs := { s.fs with mode := .inService }
    nvm := { n with wipes := n.wipes + 1, wipeLast := pack [(8, wipeRow s), (56, 0), (64, s.dt)] } }
  recheck (s.each lost fun s p => s.raise Ev.bufferLost [p])

/-- S8 wipes the DRAM; `failed` is the mask of channels that fail. -/
def execStartS8DramWipe (t failed : Nat) (s : State) : Res :=
  let s := s.begin t
  .next (if !stepDue s 8 || !s.pwr.bulk then s
    else
      let out := (List.range 8).filter fun k => bit failed k && (s.chan k).mode != .retired
      let s := s.each out fun s k =>
        (s.modChan k fun c => { c with mode := .retired }).raise (Ev.channelRetired k) [k]
      let s := wipeDram s
      stepEnds 8 (if out = [] then 1 else 2) 1 (if out = [] then 0 else 2) (maskOf out) s)

/-! S9 (R355). -/

/-- No lane of L00 to L23 calibrates or trains, or the time of the step is over. -/
def s9Over (s : State) : Bool :=
  decide (s.start.began + 1500 * ms ≤ s.dt) ||
    ((List.range 24).all fun n => (s.lane n).mode != .calibrating && (s.lane n).mode != .training)

/-- Lanes READY below RATE_MAX. -/
def slowLanes (s : State) : List Nat :=
  (List.range 24).filter fun n => (s.lane n).mode == .ready && decide (psRateMax (s.phySetup n) < (s.lane n).rate)

/-- S9: a first issue lets L00 to L23 calibrate, a later one ends the step. -/
def execStartS9Lanes (t : Nat) (s : State) : Res :=
  let s := s.begin t
  .next (if !stepDue s 9 || !s.pwr.bulk then s
    else if !s.start.working then
      lanesPowerUp 0 24 { s with start := { s.start with working := true } }
    else if !s9Over s then s
    else
      let l := slowLanes s
      stepEnds 9 (if l = [] then 1 else 2) 1 (if l = [] then 0 else 1) (maskOf l) s)

/-! S10 (R468, R568). -/

/-- Paths that the restored DAP_PATH_ENABLE leaves out. -/
def pathsRestored (s : State) : State :=
  s.each ((List.range 35).filter fun p => !bit (s.reg Reg.dapPathEnable) p) fun s p => pathDown p s

/-- The start reads its values from the NVM: a start other than a warm one or a return. -/
def fullStart (s : State) : Bool := s.start.kind != 2 && s.start.kind != 3

/-- S10 restores the image, or keeps the values in force; `ok`: the stored image reads well. -/
def execStartS10Config (t : Nat) (ok : Bool) (s : State) : Res :=
  let s := s.begin t
  .next (if !stepDue s 10 then s
    else if !fullStart s then stepEnds 10 1 1 0 0 s
    else if s.start.loop then stepEnds 10 2 1 1 savedKeys.length s
    else match imageFound ok s with
      | .defaults => stepEnds 10 1 1 0 0 s
      | .damaged => stepEnds 10 2 3 1 savedKeys.length (stepFailed 10 1 s)
      | .records recs =>
        let r := restoreImage recs s
        stepEnds 10 1 1 0 r.2 (pathsRestored r.1))

/-! S11 (R94). -/

/-- A take record that sets a route. -/
def setRecord (route image : Nat) : Nat := pack [(11, route), (2, 0), (19, 0), (256, imageFields image)]

/-- The saved routes as take records. -/
def savedTakes (s : State) : List Nat :=
  (List.range 2048).filterMap fun r =>
    let image := record s.start.savedRoutes 0 256 r
    if rValid image then some (setRecord r image) else none

/-- Saved routes that pass R83 together; each that fails is left out. At most n are. -/
def restorable : Nat → State → List Nat → List Nat
  | 0, _, recs => recs
  | n + 1, s, recs =>
    let c := recordsStateCode s recs
    if c.1 = 0 then recs else restorable n s (recs.eraseIdx c.2)

/-- Rasters start from the records in force (R297). -/
def rastersStart (s : State) : State :=
  s.each (List.range 64) fun s n =>
    if (s.outp n).raster = .off ∧ raMode (s.rasterOf n) ≠ 0 then rasterMode n (rasterFormat n s) else s

/-- A held descriptor waits for a safe route that stays: one that uses its stream and that no route of `good` replaces (R94). -/
def heldStays (s : State) (good : List Nat) (k : Nat) : Bool :=
  let d := s.outDesc k
  s.routeKeys.any fun r =>
    let x := (s.route r).image
    decide (2016 ≤ r) && !good.contains r &&
      ((rDstType x == 0 && fld (rDst x) 7 0 == k) || (rToLayer x && dEngineDriven d && dEngine d == rEngine x))

/-- The state against which saved routes are checked: the restored dictionary, held descriptors that will apply included. -/
def heldView (good : List Nat) (s : State) : State :=
  s.each (okeys s.str.outHeld) fun v k =>
    match oget s.str.outHeld k with
    | some d => if heldStays s good k then v
        else v.setForce Reg.strOutTable (putFld (v.force Reg.strOutTable) (128 * k + 127) (128 * k) d)
    | none => v

/-- Held descriptors: those whose safe route stays wait for it, the others come with the restore group. -/
def heldBegin (good : List Nat) (s : State) : State :=
  s.each (okeys s.str.outHeld) fun s k =>
    match oget s.str.outHeld k with
    | none => s
    | some v =>
      if heldStays s good k then s
      else
        let s : State := { s with str := { s.str with outHeld := oset s.str.outHeld k none } }
        if good ≠ [] ∧ outTiming s k = true then { s with str := { s.str with outWait := oset s.str.outWait k (some v) } }
        else putOutDesc k v s

/-- S11 begins: outputs start, and the saved routes are applied as one restore group. A safe record whose route is replaced
no longer waits for its stream. -/
def s11Begins (s : State) : State :=
  let s : State := { s with start := { s.start with working := true } }
  if !fullStart s then s
  else
    let s := rastersStart s
    let recs := if s.reg Reg.rtRestoreMode = 1 then [] else savedTakes s
    let good := restorable recs.length (heldView (recs.map trRoute) s) recs
    let routes := good.map trRoute
    let s : State := { s with start := { s.start with
      restored := routes, refused := recs.length - good.length, savedRoutes := 0 } }
    let s : State := { s with str := { s.str with
      safeWait := routes.foldl (fun t r => if 2016 ≤ r then oset t (r - 2016) none else t) s.str.safeWait } }
    let s := heldBegin routes s
    if good = [] then s else restoreGroup false (good.map fun k => (trRoute k, trImage k)) s

/-- The restore group has applied, or the time of the step is over. -/
def s11Over (s : State) : Bool :=
  decide (s.start.began + 400 * ms ≤ s.dt) ||
    s.str.groups.all fun g => !g.restore || g.safe || g.takes.all fun k => k.applied.isSome || !s.start.restored.contains k.route

/-- Engines and rasters come back from a supply loss (R276, R277, R297): what was idle stays idle. -/
def outputsReturn (s : State) : State :=
  s.each (List.range 64) fun s n =>
    let o := s.outp n
    if o.comp = .reserve then
      qsChanged qsOut n (s.setOutp n { o with
        comp := if o.idleAfter then .idle else if o.lead.isSome then .member else if o.raster = .off then .off else .active
        idleAfter := false })
    else if o.comp = .unpowered ∨ o.raster = .unpowered then
      let s := qsChanged qsOut n (s.setOutp n { o with
        comp := if o.idleAfter then .idle else if o.lead.isSome then .member else .off
        raster := .off, idleAfter := false })
      rasterMode n s
    else s

/-- The function behind a port, 0 to 47 a converter unit and 48 to 63 a compression engine, is not isolated. -/
def functionWell (s : State) (f : Nat) : Bool := (if f < 48 then (s.unit f).mode else (s.engine (f - 48)).mode) != .isolated

/-- A converter unit or compression engine fails its retest: its port is isolated. -/
def functionFails (f : Nat) (s : State) : State :=
  let s := s.modPort (32 + f) fun v => { v with isolated := true }
  if f < 48 then unitIsolate f s else engineIsolate (f - 48) s

/-- After a supply loss the shared plane is retested port by port, and so are converter units and compression engines (R129, R173,
R241, R595); whether one passes is a free value. -/
def portsRetested (s : State) : State :=
  let well := (List.range 64).filter (functionWell s)
  let s := s.each ((List.range 128).filter fun p => (s.port p).isolated) fun s p =>
    let d := s.draw
    if d.1 % 2 = 1 then portReturned p d.2 else d.2
  s.each well fun s f =>
    let d := s.draw
    if d.1 % 2 = 1 then d.2 else functionFails f d.2

/-- SAFE_HANDOVER: the safe routes that the restore group has not replaced are cleared. -/
def handover (s : State) : State :=
  if s.reg Reg.safeHandover ≠ 1 then s
  else
    let s := s.each (s.routeKeys.filter fun r => decide (2016 ≤ r) && !s.start.restored.contains r) fun s r => rtClear r s
    releaseUnnamed (heldApply { s with str := { s.str with safeWait := [] } })

/-- S11 ends, and its outcome and times stand; `x`: the start as it was in S11. -/
def readyStands (x : StartState) (s : State) : State :=
  let s := stepEnds 11 1 1 0 (Config.routesDetail x.restored.length x.refused % 2 ^ 24) s
  let s : State := { s with
    start := { s.start with outcome := readyOutcome s.start, ready := s.dt }
    nvm := { s.nvm with failedStarts := 0 }
    pwr := { s.pwr with warm := false, frozen := none } }
  ((s.setReg Reg.startReadyMs ((s.dt - x.t0) / ms)).setReg Reg.idReadyDt s.dt).setReg Reg.pwrState 1

/-- What begins with the service: outputs come back, audio starts, the governor trims, the safe routes hand over; `back`: the
start was a return from reserve. -/
def readyBegins (back : Bool) (s : State) : State :=
  let s := outputsReturn (if back then portsRetested s else s)
  let s := govService (if s.aud.running then s else audioStarts s)
  recheck (if fullStart s then handover s else s)

/-- The ledger, its record and the events of SERVICE_READY, those held for it among them. -/
def readyTold (x : StartState) (s : State) : State :=
  let s := keepLedger s
  let s := cbWrite 3 (ledgerBytes s.nvm.boot s.start) s
  let s := (routeDigest s).raise Ev.serviceReady [(s.dt - x.t0) / ms]
  let s := if s.pwr.restoring then
      ({ s with pwr := { s.pwr with restoring := false } } : State).raise Ev.mainRestored [] else s
  match s.pwr.lcChanged with
  | some k => ({ s with pwr := { s.pwr with lcChanged := none } } : State).raise Ev.lifeCycleChanged [k]
  | none => s

/-- SERVICE_READY (R553, R564, R568, R569, R582). -/
def serviceReady (s : State) : State :=
  readyTold s.start (readyBegins s.pwr.frozen.isSome (readyStands s.start s))

/-- S11: a first issue begins it; it ends, at that issue or a later one, when the restore group has applied or its time is
over. -/
def execStartS11Routes (t : Nat) (s : State) : Res :=
  let s := s.begin t
  .next (if !stepDue s 11 then s
    else
      let s := if s.start.working then s else s11Begins s
      if s11Over s then serviceReady s else s)

end Sys2Proof.Machine
end

