-- ==== Sys2Proof/Machine/Lifecycle.lean ====
section
/-! DEFINITION. Subsystem resets (R562) and the changes of the life-cycle state (R571 to R573). -/

namespace Sys2Proof.Machine

/-! Subsystem resets. -/

/-- The function carries a C0 route, C0 slots or a valid zone. -/
def carriesC0 (s : State) (kind inst : Nat) : Bool :=
  let c0 := s.liveImages.filter fun r => rClass r == 0
  if kind = qsLane then laneHasC0 s inst || c0.any fun r =>
      (rDstType r == 1 && (dLanes (s.outDesc (rDst r))).contains inst) || match s.srcStream (rSrcType r) (rSrc r) with
        | some k => (dLanes (s.ins k).desc).contains inst
        | none => false
  else if kind = qsConv then c0.any fun r => (rUnits r).contains inst
  else if kind = qsCmp then c0.any fun r => rComp r == inst
  else if kind = qsOut then (c0.any fun r => rToLayer r && rEngine r == inst) || s.zonesOf inst != []
  else if kind = qsStore then c0.any fun r => rKind r == 2
  else false

/-- The function belongs to the bulk domains (R20, R21). -/
def bulkFunction (kind inst : Nat) : Bool :=
  if kind = qsLane then !reserveLane inst else if kind = qsOut then !reserveOutput inst else true

/-- A lane is reset: it starts as after power-up (R354). -/
def laneAnew (lane : Nat) (s : State) : State :=
  linkPhyDown lane ((leaveReady lane s).modLane lane fun l => { l with
    mode := if psEnable (s.phySetup lane) then .calibrating else .off
    attempts := 0, holdReason := 0, lpAsked := 0, lpEntry := 0, inService := false, retrainDue := false })

/-- The frame store manager is reset: every buffer is FREE, and a wiped extent reads 0 (R213). -/
def storeAnew (s : State) : State := recheck (storeEmpty none (forgetShown s))

/-- The reset of a lane, the frame store manager, the audio engine or the shared plane once it has drained. -/
def subsystemAnew (kind inst : Nat) (s : State) : State :=
  subsystemDone kind inst
    (if kind = qsLane then laneAnew inst s
    else if kind = qsStore then storeAnew s
    else if kind = qsAudio then (if s.aud.running then audioStarts (audioStops s) else s)
    else s)

/-- A converter unit drains with its gang and is reset at the end; without a route at once. -/
def unitResets (u : Nat) (s : State) : State :=
  let until_ := s.dt + longestFrame s (fun _ => true) + ms
  let active := decide ((s.unit u).mode = .active)
  let gang : List Nat := match (if active then unitImage s u else none) with
    | some r => rUnits r
    | none => [u]
  let waits := (s.unit u).mode == .draining || (active && (unitImage s u).isSome)
  let s := s.each gang fun s m => (unitDrains until_ m s).modUnit m fun v => { v with reEnable := true }
  let s := s.modUnit u fun v => { v with mode := .draining, resetDue := true, reEnable := true }
  if waits then recheck s else unitDrained u s

/-- A compression engine drains and is reset. -/
def engineResets (e : Nat) (s : State) : State :=
  let v := s.engine e
  let waits := v.mode == .draining || (v.mode == .active && engineUsed s e)
  let until_ := if v.mode = .draining then v.drainEnd else s.dt + longestFrame s (engineStream s e) + ms
  let s := qsChanged qsCmp e (s.setEngine e { v with mode := .draining, drainEnd := until_, resetDue := true, reEnable := true })
  if waits then s else engineDrained e s

/-- An output engine drains and is reset; one without a raster of its own has no work in hand. -/
def outResets (n : Nat) (s : State) : State :=
  let o := s.outp n
  let until_ := if o.comp = .draining then o.drainEnd else s.dt + raPeriod (s.rasterOf n) + ms
  let drains := qsChanged qsOut n (s.setOutp n { o with
    comp := .draining, drainEnd := until_, resetDue := true, reEnable := true })
  match o.comp with
  | .active | .draining => drains
  | .idle | .isolated => outDrained n drains
  | _ => subsystemDone qsOut n s

/-- A subsystem reset is accepted: the function drains. -/
def subsystemResets (kind inst : Nat) (s : State) : State :=
  if kind = qsConv then unitResets inst s
  else if kind = qsCmp then engineResets inst s
  else if kind = qsOut then outResets inst s
  else if kind = qsLane ∧ (s.lane inst).mode ≠ .ready then subsystemAnew kind inst s
  else s

/-- RST_SUBSYSTEM (R562, R578); `pass`: the retest of R128 passes. -/
def rstSubsystemOp (value : Nat) (pass : Bool) (s : State) : State × Nat :=
  let kind := value / 256
  let inst := value % 256
  if kind = 0 ∨ 7 < kind ∨ qsInstances kind ≤ inst then (s.setReg Reg.rstResult 0x10, stValue)
  else if carriesC0 s kind inst then (s.setReg Reg.rstResult 0x12, stValue)
  else if s.inReserve && bulkFunction kind inst then (s, stUnpowered)
  else if s.pwr.subsystem.isSome then (s, stBusy)
  else
    let s := (s.setReg Reg.rstSubsystem value).setReg Reg.rstResult 1
    let s : State := { s with
      nvm := countReset rowSubsystem s.nvm
      pwr := { s.pwr with
        subsystem := some (qsKey kind inst), subPass := pass, subEnd := s.dt + longestFrame s (fun _ => true) + ms } }
    (subsystemResets kind inst s, stDone)

def execRstSubsystem (t : Nat) (src : Src) (value : Nat) (pass : Bool) (s : State) : Res :=
  .next (answer src Reg.rstSubsystem false (rstSubsystemOp (value % 2 ^ 16) pass) (s.begin t))

/-! Life-cycle requests (R572). -/

def lrFormat (d : List Nat) : Nat := leNat (d.take 2)
def lrTarget (d : List Nat) : Nat := nth d 2 0
def lrDevice (d : List Nat) : Nat := leNat ((d.drop 4).take 8)
def lrCounter (d : List Nat) : Nat := leNat ((d.drop 12).take 8)
def lrMac (d : List Nat) : List Nat := (d.drop 32).take 32

/-- The transitions of R571. -/
def lcAllowed (from_ to_ : Nat) : Bool :=
  match from_, to_ with
  | 0, 1 | 1, 2 | 2, 3 | 3, 2 | 1, 4 | 2, 4 | 3, 4 => true
  | _, _ => false

/-- Their further conditions. -/
def lcCondition (s : State) (from_ to_ : Nat) : Bool :=
  if from_ = 0 ∧ to_ = 1 then s.slotValid 30 && s.slotValid 31
  else if to_ = 2 then s.reg Reg.safeSetState == 1
  else true

/-- Another change waits for its reset. -/
def lcPending (s : State) : Bool := s.pwr.warmPending.isSome && s.pwr.warmCause == 5

/-- The result of a request, in the order of R573. -/
def lcCode (s : State) (d : List Nat) (ok : Bool) : Nat :=
  if d.length ≠ 64 ∨ lrFormat d ≠ 1 ∨ !allZero ((d.drop 3).take 1) ∨ !allZero ((d.drop 20).take 12) then 0x01
  else if lrDevice d ≠ Config.deviceId % 2 ^ 64 then 0x02
  else if lrCounter d ≤ s.nvm.keys.counter then 0x03
  else if !s.slotValid 31 || hmac (s.slotKey 31) (d.take 32) != lrMac d then 0x04
  else if !lcAllowed s.nvm.lc (lrTarget d) then 0x05
  else if !lcCondition s s.nvm.lc (lrTarget d) then 0x06
  else if s.holdupUs < s.reg Reg.secHoldupReq then 0x07
  else if lcPending s then 0x08
  else if !ok then 0x09
  else 0

/-- DAP status of a result (R573). -/
def lcStatus (code : Nat) : Nat :=
  if code = 0 then stDone else if code = 0x07 ∨ code = 0x08 then stBusy else if code = 0x09 then stNvm else stValue

/-- A record of LC_HISTORY (R577). -/
def lcEntry (from_ to_ dt : Nat) : Nat := pack [(4, from_), (4, to_), (56, 0), (64, dt)]

/-- An accepted change is in the NVM, with its record (R573, R582). -/
def lcCommit (to_ counter : Nat) (s : State) : State :=
  let n := s.nvm
  let s : State := { s with
    sup := { s.sup with windowOpened := s.sup.windowOpened && to_ != 3 }
    pwr := { s.pwr with lcChanged := some to_ }
    nvm := { n with
      lc := to_, lcSince := s.dt, lcChanges := n.lcChanges + 1
      lcHistory := (lcEntry n.lc to_ s.dt :: n.lcHistory).take 8
      retireDt := if to_ = 4 then s.dt else n.retireDt
      keys := { n.keys with counter := counter }
      cb := { n.cb with pinnedSince := if to_ = 1 then s.dt else n.cb.pinnedSince } } }
  cbWrite 0x0A ([n.lc, to_, 0, 0] ++ leBytes 8 counter) (s.setReg Reg.secCounter counter)

/-- LC_REQUEST (R572, R573); `ok`: the NVM took the change. -/
def lcRequestOp (d : List Nat) (ok : Bool) (s : State) : State × Nat :=
  let code := lcCode s d ok
  let s := s.setReg Reg.lcResult code
  if code ≠ 0 then (s.raise Ev.lifeCycleRefused [code], lcStatus code)
  else
    let s := lcCommit (lrTarget d) (lrCounter d) s
    (if lrTarget d = 4 then coldReset 5 false (destroyKeys 4 s) else askWarm 5 s, stDone)

def execLcRequest (t : Nat) (src : Src) (data : List Nat) (ok : Bool) (s : State) : Res :=
  .next (answer src Reg.lcRequest false (lcRequestOp data ok) (s.begin t))

end Sys2Proof.Machine
end

