-- ==== Sys2Proof/Machine/Supervision.lean ====
section
/-! DEFINITION. Supervision: the bus matrix (R590 to R594), drains (R595), firmware trials (R597, R598), the asset store (R269,
R271, R602), the service window (R603) and the digest tick (R582). -/

namespace Sys2Proof.Machine

/-! The casebook's digest. -/

def execCbDigestTick (t : Nat) (s : State) : Res :=
  let s := s.begin t
  .next (if s.cb.digestTick + s.reg Reg.cbDigestInterval * sec ≤ s.dt then
    let s : State := { s with cb := { s.cb with digestTick := s.dt } }
    if s.cb.lastDigest = some s.rtDigest then s else routeDigest s
  else s)

/-! The bus matrix. -/

/-- BUS_LAST_HANG (R606). -/
def hangNumber (h : Hang) : Nat :=
  pack [(3, h.master), (3, h.target), (2, h.reason), (8, h.beat), (48, 0), (64, h.address), (64, h.dt)]

/-- The record that the casebook writer had in flight is written again; whether its last beat had already committed, so that
the ring holds it twice with one SEQ, is a free value (R594). -/
def recordTwice (s : State) : State :=
  match s.cb.queue with
  | [] => s
  | i :: _ =>
    let d := s.draw
    if d.1 % 2 = 0 ∨ !s.cb.mounted then d.2
    else
      let c := s.nvm.cb
      let a := (cbAppend i d.2).nvm.cb
      { d.2 with nvm := { d.2.nvm with cb := { a with
        nextSeq := c.nextSeq, pinned := c.pinned, pinnedFull := c.pinnedFull } } }

/-- What the reset of a master does to its work (R594). -/
def masterReset (h : Hang) (s : State) : State :=
  match h.master with
  | 0 => procRestart s
  | 2 => s.setReg Reg.assetResult 5
  | 3 => recordTwice s
  | 4 => s.setReg Reg.svcWindowState 2
  | 5 =>
    let n := Config.descriptorOutput h.address % 64
    { s with sup := { s.sup with keepRecords := n :: s.sup.keepRecords.erase n } }
  | _ => s

/-- The watchdog of a master expires on a burst (R592). -/
def busHang (h : Hang) (s : State) : State :=
  let m := s.busMaster h.master
  let s := s.setBusMaster h.master { m with hangs := min 0xFFFF (m.hangs + 1) }
  let s : State := { s with sup := { s.sup with lastHang := h } }
  let s := s.count Reg.busHangCount 1
  masterReset h (s.raiseAs (Ev.busWatchdog h.master) [h.master] (.as 8 (leBytes 24 (hangNumber h))))

def execBusWatchdogExpiry (t : Nat) (hang : Hang) (s : State) : Res :=
  let s := s.begin t
  .next (if hang.master < 6 then busHang hang s else s)

/-- BUS_STATS_CLEAR 0x01 (R605). -/
def busStatsClearOp (s : State) : State × Nat :=
  ({ s.clear [Reg.busHangCount, Reg.qsForcedCount] with
    sup := { (s.clear [Reg.busHangCount, Reg.qsForcedCount]).sup with bus := [] } }, stDone)

def execBusStatsClear (t : Nat) (src : Src) (s : State) : Res :=
  .next (answer src Reg.busStatsClear false busStatsClearOp (s.begin t))

/-! Drains (R595). -/

/-- A function without a drain state of its own drains for its subsystem reset. -/
def resetDrains (s : State) (kind inst : Nat) : Bool :=
  (kind == qsLane || kind == qsStore || kind == qsAudio || kind == qsShared) && s.pwr.subsystem == some (qsKey kind inst)

/-- The work in hand is finished; a reset that empties the rolling windows lets a held warm reset go (R561). -/
def drained (kind inst : Nat) (s : State) : State :=
  if kind = qsConv then unitDrained inst s
  else if kind = qsCmp then engineDrained inst s
  else if kind = qsOut then outDrained inst s
  else if resetDrains s kind inst then warmMet (subsystemAnew kind inst s)
  else s

def execDrainDone (t kind inst : Nat) (s : State) : Res := .next (drained kind inst (s.begin t))

/-- A drain runs and its limit has come. -/
def drainOver (s : State) (kind inst : Nat) : Bool :=
  if kind = qsConv then (s.unit inst).mode == .draining && decide ((s.unit inst).drainEnd ≤ s.dt)
  else if kind = qsCmp then (s.engine inst).mode == .draining && decide ((s.engine inst).drainEnd ≤ s.dt)
  else if kind = qsOut then (s.outp inst).comp == .draining && decide ((s.outp inst).drainEnd ≤ s.dt)
  else resetDrains s kind inst && decide (s.pwr.subEnd ≤ s.dt)

/-- A retiring channel has reached FS_WQ_TIMEOUT (R205): `lost` extents stay on it. -/
def retireLimit (k lost : Nat) (s : State) : State :=
  let s := evacMove k (s.chanExtents k - lost) s
  endChange (dramChange k) (finishRetire k s)

/-- The drain limit cuts a function off; a retiring DRAM channel, named by its kind in INSERVICE_ACTIVE, at its own limit. -/
def execDrainLimit (t kind inst lost : Nat) (s : State) : Res :=
  let s := s.begin t
  let c := s.chan inst
  .next (if drainOver s kind inst then drained kind inst (s.whenever (kind == qsConv) (convCutOff inst) |> qsForced kind inst lost)
    else if kind = qsStore ∧ c.mode = .evacuating ∧ c.retiring = true ∧ c.limit ≤ s.dt then retireLimit inst lost s
    else s)

/-! Firmware (R597, R598). -/

def fiFormat (d : List Nat) : Nat := leNat (d.take 2)
def fiProduct (d : List Nat) : Nat := leNat ((d.drop 2).take 2)
def fiRelease (d : List Nat) : Nat := leNat ((d.drop 4).take 2)
def fiMinRelease (d : List Nat) : Nat := leNat ((d.drop 6).take 2)
def fiBuild (d : List Nat) : Nat := leNat ((d.drop 8).take 4)
def fiLength (d : List Nat) : Nat := leNat ((d.drop 12).take 4)

/-- FW_UPDATE_RESULT of an image. -/
def fwCode (s : State) (d : List Nat) (ok : Bool) : Nat :=
  if s.sup.trial.isSome then 0x05
  else if d.length < 128 ∨ fiFormat d ≠ 1 ∨ fiProduct d ≠ 0x3264 ∨ 25165824 < fiLength d ∨ d.length ≠ 128 + fiLength d then 0x01
  else if !Config.firmwareSigned d then 0x02
  else if fiRelease d < s.reg Reg.fwMinRelease then 0x03
  else if !ok then 0x04
  else 0

def fwStatus (code : Nat) : Nat :=
  if code = 0 then stDone else if code = 0x05 then stBusy else if code = 0x04 then stNvm else stValue

/-- The last message of FW_IMAGE; `ok`: the NVM took the image. -/
def fwImageOp (d : List Nat) (ok : Bool) (s : State) : State × Nat :=
  let code := fwCode s d ok
  let b := s.idleBank
  let s := s.setReg Reg.fwUpdateResult code
  if code = 0 then
    let s := s.setBank b ⟨1, fiRelease d, fiMinRelease d, fiBuild d, crc32c d⟩
    (firmwareEvent Ev.fwUpdateVerified b 0 (s.setReg Reg.fwUpdateState 2), stDone)
  else if code = 5 then (firmwareEvent Ev.fwUpdateRefused b code s, fwStatus code)
  else
    let s := (s.setBank b { s.bank b with state := 2 }).setReg Reg.fwUpdateState 0
    (firmwareEvent Ev.fwUpdateRefused b code s, fwStatus code)

def execFwImageWrite (t : Nat) (src : Src) (image : List Nat) (ok : Bool) (s : State) : Res :=
  .next (answer src Reg.fwImage false (fwImageOp image ok) (s.begin t))

/-- FW_ACTIVATE 0x01. -/
def fwTrialOp (s : State) : State × Nat :=
  let b := s.idleBank
  if s.sup.inservice.isSome then (s, stBusy)
  else if (s.bank b).state ≠ 1 then (s, stValue)
  else
    let s : State := { s with sup := { s.sup with trial := some (b, s.dt), inservice := some firmwareChange } }
    let s := firmwareEvent Ev.fwActivated b 0 (s.setReg Reg.fwUpdateState 3)
    ((processorAnew s).setReg Reg.fwActiveBank b, stDone)

def execFwTrial (t : Nat) (src : Src) (s : State) : Res :=
  .next (answer src Reg.fwActivate false fwTrialOp (s.begin t))

/-- FW_ACTIVATE 0x02. -/
def fwConfirmOp (s : State) : State × Nat :=
  match s.sup.trial with
  | none => (s, stValue)
  | some (b, _) =>
    let s : State := { s with
      sup := { s.sup with trial := none }
      nvm := { s.nvm with startBank := b } }
    let s := s.setReg Reg.fwMinRelease (max (s.reg Reg.fwMinRelease) (s.bank b).minRelease)
    (endChange firmwareChange (s.setReg Reg.fwUpdateState 4), stDone)

def execFwConfirm (t : Nat) (src : Src) (s : State) : Res :=
  .next (answer src Reg.fwActivate false fwConfirmOp (s.begin t))

/-- FW_ACTIVATE 0x03: the processor restarts into the previous bank. -/
def fwRevertOp (s : State) : State × Nat :=
  if s.sup.trial.isSome then (procRestart s, stDone) else (s, stValue)

def execFwRevert (t : Nat) (src : Src) (s : State) : Res :=
  .next (answer src Reg.fwActivate false fwRevertOp (s.begin t))

/-- FW_CONFIRM_TIME passes. -/
def execFwConfirmTimeout (t : Nat) (s : State) : Res :=
  let s := s.begin t
  .next (match s.sup.trial with
    | some (_, since) => if since + s.reg Reg.fwConfirmTime * sec ≤ s.dt then procRestart s else s
    | none => s)

/-! Assets. -/

/-- Bytes of a stored asset. -/
def assetBytes (a : Asset) : Nat := 16 + a.payload.length

/-- Bytes of the asset store in use. -/
def State.assetsUsed (s : State) : Nat :=
  s.nvm.assets.foldl (fun n e => match e.2 with
    | some a => n + assetBytes a
    | none => n) 0

/-- The payload that a size and format need. -/
def assetPayload (w h format : Nat) : Nat := if format = 1 then 1024 + w * h else 4 * w * h

/-- ASSET_RESULT of a write, in the order of R602; the reserved byte is ignored (R8). -/
def assetCode (s : State) (d : List Nat) (ok : Bool) : Nat :=
  let id := leNat (d.take 2)
  let w := leNat ((d.drop 2).take 2)
  let h := leNat ((d.drop 4).take 2)
  let format := nth d 6 0
  let length := leNat ((d.drop 8).take 4)
  let old := match oget s.nvm.assets id with
    | some a => assetBytes a
    | none => 0
  if crc32c (d.take 12 ++ d.drop 16) ≠ leNat ((d.drop 12).take 4) then 1
  else if d.length < 16 ∨ id = 0 ∨ 0xFFF < id ∨ 1 < format ∨ w = 0 ∨ 1024 < w ∨ h = 0 ∨ 1024 < h ∨
      length ≠ d.length - 16 ∨ length ≠ assetPayload w h format then 2
  else if 134217728 < s.assetsUsed - old + d.length then 3
  else if !ok then 5
  else 0

/-- ASSET_WRITE; `ok`: the asset loader stored it. -/
def assetWriteOp (d : List Nat) (ok : Bool) (s : State) : State × Nat :=
  let code := assetCode s d ok
  let id := leNat (d.take 2)
  let s := s.setReg Reg.assetResult code
  if code = 0 then
    let a : Asset := ⟨leNat ((d.drop 2).take 2), leNat ((d.drop 4).take 2), nth d 6 0, d.drop 16, leNat ((d.drop 12).take 4)⟩
    let s : State := { s with
      nvm := { s.nvm with assets := oset s.nvm.assets id (some a) }
      comp := { s.comp with missing := s.comp.missing.erase id } }
    (recheck (s.raise Ev.assetStored [id]), stDone)
  else if code = 5 then (s, stNvm)
  else (s.raise Ev.assetRefused [id, code], stValue)

def execAssetWrite (t : Nat) (src : Src) (data : List Nat) (ok : Bool) (s : State) : Res :=
  .next (answer src Reg.assetWrite false (assetWriteOp data ok) (s.begin t))

/-- An asset that a record shows or falls back to. -/
def recordNames (id r : Nat) : Bool :=
  (rSrcType r == 3 && fld (rSrc r) 15 0 == id) || (rFbType r == 3 && fld (rFbSrc r) 15 0 == id)

/-- An asset that the stored safe set or UNV_ASSET names is protected (R271). -/
def assetProtected (s : State) (id : Nat) : Bool :=
  fld (s.reg Reg.unvAsset) 15 0 == id || s.safeRecords.any (recordNames id)

/-- ASSET_DELETE. -/
def assetDeleteOp (id : Nat) (s : State) : State × Nat :=
  if assetProtected s id then ((s.setReg Reg.assetResult 4).raise Ev.assetRefused [id, 4], stValue)
  else if (oget s.nvm.assets id).isNone then (s, stValue)
  else
    let s : State := { s with nvm := { s.nvm with assets := oset s.nvm.assets id none } }
    (recheck s, stDone)

def execAssetDelete (t : Nat) (src : Src) (id : Nat) (s : State) : Res :=
  .next (answer src Reg.assetDelete false (assetDeleteOp (id % 2 ^ 16)) (s.begin t))

/-! The service window (R603). -/

def swAddress (v : Nat) : Nat := fld v 127 64
def swLength (v : Nat) : Nat := fld v 63 32

/-- The first access after entry into SERVICE is reported. -/
def windowOpens (s : State) : State :=
  let s := s.setReg Reg.svcWindowState 1
  if s.sup.windowOpened then s
  else ({ s with sup := { s.sup with windowOpened := true } } : State).raise Ev.serviceWindowOpen [4]

/-- Status of an access to the selected range, 0 when it goes to the matrix. -/
def windowCode (s : State) (auth write : Bool) : Nat :=
  let v := s.reg Reg.svcWindowSel
  if s.nvm.lc ≠ 3 ∨ !auth then stNotNow
  else if swLength v = 0 ∨ Config.windowForbids (swAddress v) (swLength v) write then stValue
  else 0

/-- A write through the window; what lies at a raw address the spec does not say. -/
def windowWriteOp (d : List Nat) (s : State) : State × Nat :=
  if d.length ≠ swLength (s.reg Reg.svcWindowSel) then (s, stLength) else (windowOpens s, stDone)

/-- A read through the window: the bytes are free values. -/
def windowReadOp (s : State) : List Nat × State := (windowOpens s).drawBytes (swLength (s.reg Reg.svcWindowSel))

def execSvcWindowAccess (t : Nat) (src : Src) (data : Option (List Nat)) (s : State) : Res :=
  let s := s.begin t
  let code := windowCode s src.auth data.isSome
  .next (if code ≠ 0 then s.emit (.status src.who code)
    else match data with
      | some d => answer src Reg.svcWindowData false (windowWriteOp d) s
      | none =>
        let r := windowReadOp s
        r.2.emit (.bytes src.who r.1))

end Sys2Proof.Machine
end

