-- ==== Sys2Proof/Machine/Transport.lean ====
section
/-! DEFINITION. How messages and NOTIFY records travel: CAN FD frames (R484), datagrams (R485) and lane folios (R398,
R486), and how the messages that arrive are reassembled from them. -/

namespace Sys2Proof.Machine

/-- A list in pieces of n, at most `fuel` of them. -/
def chunks (n : Nat) : Nat → List Nat → List (List Nat)
  | 0, _ => []
  | fuel + 1, l => if l == [] then [] else l.take n :: chunks n fuel (l.drop n)

/-- The pieces of a message with their numbers, and whether each is the last. -/
def segments (n : Nat) (bytes : List Nat) : List (Nat × Bool × List Nat) :=
  let cs := chunks n (bytes.length / n + 1) bytes
  (List.range cs.length).map fun k => (k, k + 1 == cs.length, nth cs k [])

/-- The data length of a CAN FD frame that holds n bytes. -/
def canLength (n : Nat) : Nat := if n ≤ 8 then n else ([12, 16, 20, 24, 32, 48, 64].find? (n ≤ ·)).getD 64

/-- The identifier of a frame sent by the U3264. -/
def canIdent (s : State) (prio host kind : Nat) : Nat :=
  pack [(3, prio), (1, 1), (7, s.reg Reg.idNodeId), (7, host), (3, kind), (8, 0)]

/-- A message leaves: `kind` 0 for DAP and 1 for NOTIFY, `way` the PRIORITY or MSG that it travels under. -/
def sendMessage (who : Requester) (kind way : Nat) (bytes : List Nat) (s : State) : State :=
  if who.path < 2 then
    s.each (segments 63 bytes) fun s x =>
      let d := pack [(1, ofBool (x.1 == 0)), (1, ofBool x.2.1), (6, x.1 % 64)] :: x.2.2
      s.emit (.canFrame who.path (canIdent s way who.id kind) (d ++ List.replicate (canLength d.length - d.length) 0))
  else if who.path = 2 then
    s.each (segments 1468 bytes) fun s x =>
      let h := pack [(1, ofBool (x.1 == 0)), (1, ofBool x.2.1), (6, 0), (8, way), (16, x.1)]
      s.emit (.datagram who (leBytes 4 h ++ x.2.2))
  else
    s.each (segments 13 bytes) fun s x =>
      pushCtl (who.path - 3) (0x0D + kind)
        (pack [(1, ofBool (x.1 == 0)), (1, ofBool x.2.1), (6, x.1 % 64), (4, x.2.2.length), (4, 0), (104, leNat x.2.2)]) s

/-! Reassembly. -/

def State.setReasm (s : State) (key : Nat) (v : Option Reasm) : State :=
  { s with dap := { s.dap with reasm := oset s.dap.reasm key v } }

/-- A segment arrives: `some` the bytes of the message that it completes; `ok`: it began a message or went on with one. A
gap discards the message. -/
def takeSegment (key : Nat) (first last : Bool) (seq modulus msg : Nat) (data : List Nat) (s : State) :
    Option (List Nat) × Bool × State :=
  let old := if first then (if seq = 0 then some ({ msg } : Reasm) else none) else oget s.dap.reasm key
  match old with
  | none => (none, false, s.setReasm key none)
  | some r =>
    if seq ≠ r.next ∨ msg ≠ r.msg then (none, false, s.setReasm key none)
    else
      let bytes := r.bytes ++ data
      if last then (some bytes, true, s.setReasm key none)
      else (none, true, s.setReasm key (some { r with bytes, next := (seq + 1) % modulus, last := s.dt }))

/-- A reassembly has been without a segment for 100 ms. -/
def reasmExpires (key : Nat) (s : State) : State :=
  match oget s.dap.reasm key with
  | some r => if r.last + 100 * ms ≤ s.dt then s.setReasm key none else s
  | none => s

/-! Messages (R469, R479). -/

/-- The 128-bit header of a message. -/
def headerBytes (m : Msg) (op status flags length : Nat) : List Nat :=
  leBytes 16 (pack [(28, length), (4, m.rev), (32, m.offset), (8, status), (8, flags), (8, m.sub), (16, m.index), (8, op),
    (16, m.tag)])

/-- The trailer's bytes that a MAC covers: bits [191:128]. -/
def trailerTail (session seq : Nat) : List Nat := leBytes 8 (pack [(8, session), (24, 0), (32, seq)])

/-- The MAC of a message under a session key: the leftmost bit of the HMAC is bit 127. -/
def messageMac (key head data tail : List Nat) : Nat := beNat (hmac128 key (head ++ data ++ tail))

/-- The message that bytes carry, if they hold all of it. -/
def parseMsg (b : List Nat) : Option Msg :=
  let h := leNat (b.take 16)
  let op := fld h 23 16
  let flags := fld h 55 48
  let length := fld h 127 100
  let n := if op = 1 then 0 else length
  let t := leNat ((b.drop (16 + n)).take 24)
  if b.length < 16 + n + (if bit flags 7 then 24 else 0) then none
  else some {
    tag := fld h 15 0, op, index := fld h 39 24, sub := fld h 47 40, flags, offset := fld h 95 64, rev := fld h 99 96, length
    data := (b.drop 16).take n
    trailer := if bit flags 7 then some ⟨fld t 191 184, fld t 159 128, fld t 127 0⟩ else none }

end Sys2Proof.Machine
end

