-- ==== Sys2Proof/Machine/ViewCore.lean ====
section
/-! DEFINITION. What the entries of identity, supplies, start, life-cycle, events, casebook, supervision and keys read as, where
they show other parts of the state (R489, R507, R508, R542, R543, R577, R578, R604 to R606). -/

namespace Sys2Proof.Machine

/-- What w bits show of a count (log entry 11). -/
def cnt (w v : Nat) : Nat := if v < 2 ^ w then v else Config.countPast w v % 2 ^ w

/-- 0x1000, 0x1001: what the NVM and the part hold. The 16 bytes of HELLO name the path that asks (R471). -/
def helloBytes (who : Requester) (s : State) : List Nat :=
  leBytes 8 Config.deviceId ++ leBytes 2 0x3264 ++ [0xB0, 0x12, who.path % 256, s.nvm.boot % 256, 0, 0]

def viewIdentity (who : Requester) (s : State) (key : Nat) : Nat :=
  if key = Reg.idDevice then Config.deviceId
  else if key = Reg.idMac then Config.macAddress % 2 ^ 48
  else if key = Reg.idBootCount then s.nvm.boot
  else if key = Reg.idSummary then leNat (helloBytes who s)
  else if key = Reg.fwRom then Config.bootRomRelease
  else if key = Reg.fwStartBank then s.nvm.startBank
  else if key = Reg.fwRelease 0 then (s.bank 0).release
  else if key = Reg.fwRelease 1 then (s.bank 1).release
  else if key = Reg.fwBuild 0 then (s.bank 0).build
  else if key = Reg.fwBuild 1 then (s.bank 1).build
  else if key = Reg.fwDigest 0 then (s.bank 0).digest
  else if key = Reg.fwDigest 1 then (s.bank 1).digest
  else if key = Reg.fwState 0 then (s.bank 0).state
  else if key = Reg.fwState 1 then (s.bank 1).state
  else s.reg key

/-- Length in ns of reserve operation so far; RSV_TOTAL_S is kept in ns. -/
def reserveTotal (s : State) : Nat :=
  s.reg Reg.rsvTotalS + match s.pwr.reserveSince with
    | some u => s.dt - u
    | none => 0

/-- The bits 0 to n - 1 whose number p selects. -/
def maskWhere (n : Nat) (p : Nat → Bool) : Nat := maskOf ((List.range n).filter p)

def viewSupply (s : State) (key : Nat) : Nat :=
  if key = Reg.rsvOutputs then maskWhere 8 fun i => rasterRuns (s.outp (8 * i))
  else if key = Reg.rsvLanes then maskWhere 8 fun i => (s.link (24 + i)).mode == .up
  else if key = Reg.rsvTotalS then reserveTotal s / sec
  else if key = Reg.pwrHoldupUs then s.holdupUs
  else if key = Reg.pwrHoldupEntries then s.nvm.holdups
  else s.reg key

/-- START_STATE (R578). -/
def startState (s : State) : Nat :=
  if s.start.stopped then 0x0E
  else if s.start.next < 12 ∧ (s.start.outcome = 3 ∨ s.start.outcome = 5) then 0x0D
  else s.start.next

/-- LC_TARGETS: the states that R571 admits now. -/
def lcTargets (s : State) : Nat := maskWhere 5 fun to_ => lcAllowed s.nvm.lc to_ && lcCondition s s.nvm.lc to_

/-- LC_FEATURES: the rows of R574 by life-cycle state; a recovery start opens the access port besides (R575). -/
def lcFeatures (s : State) : Nat := nth [0x3D, 0x38, 0x70, 0x77, 0] s.nvm.lc 0 ||| ofBool s.scanRecovers

def viewStart (s : State) (key : Nat) : Nat :=
  if key = Reg.startState then startState s
  else if key = Reg.startLedger then leNat (ledgerBytes s.nvm.boot s.start)
  else if key = Reg.startHistory then leNat s.nvm.ledgers.flatten
  else if key = Reg.startFailed then s.nvm.failedStarts
  else if key = Reg.rstCounts then packRecords 32 (s.nvm.resetCounts.map (cnt 32))
  else if key = Reg.lcState then s.nvm.lc
  else if key = Reg.lcSince then s.nvm.lcSince
  else if key = Reg.lcHistory then packRecords 128 s.nvm.lcHistory
  else if key = Reg.lcChanges then s.nvm.lcChanges
  else if key = Reg.lcTargets then lcTargets s
  else if key = Reg.lcFeatures then lcFeatures s
  else if key = Reg.lcRecovery then (if s.start.recovery = 3 then 1 else s.start.recovery)
  else if key = Reg.wipeLast then s.nvm.wipeLast
  else if key = Reg.wipeCount then s.nvm.wipes
  else if key = Reg.lcRetireDt then s.nvm.retireDt
  else if key = Reg.lcManuf then Config.manufacture
  else if key = Reg.lcPending then (if lcPending s then 2 else 0)
  else s.reg key

/-! Events. -/

/-- Words in which a mask has a bit. -/
def wordSummary (m : Nat) : Nat := maskWhere 36 fun w => fld m (32 * w + 31) (32 * w) != 0

/-- EVT_PINS (R508). -/
def evtPins (s : State) : Nat :=
  let e := s.evt
  let hold := if e.safeN then 0 else if e.safeBits ≠ 0 then 1 else if e.startHold then 2 else 3
  pack [(4, 0), (2, hold), (1, ofBool e.evtN), (1, ofBool e.safeN)]

/-- EVT_LAST_RAISED (R508). -/
def evtLast (s : State) : Nat :=
  let e := s.evt
  pack [(16, e.lastEvent), (2, e.lastSeverity), (1, ofBool e.lastTest), (45, 0), (64, e.lastDt)]

def viewEvents (s : State) (key : Nat) : Nat :=
  let i := key / 256
  let w := key % 256 - 1
  if i = 0x1300 then fld s.evt.status (32 * w + 31) (32 * w)
  else if i = 0x1301 then fld s.evt.enable (32 * w + 31) (32 * w)
  else if i = 0x1302 then fld s.evt.severity (64 * w + 63) (64 * w)
  else if key = Reg.evtSummary then wordSummary s.evt.status
  else if key = Reg.evtSummaryEnabled then wordSummary (s.evt.status &&& s.evt.enable)
  else if key = Reg.evtSafeLatched then popCount 1152 s.evt.safeBits
  else if key = Reg.evtPins then evtPins s
  else if key = Reg.evtLastRaised then evtLast s
  else if key = Reg.evtRaiseCount then s.evt.count % 2 ^ 32
  else s.reg key

/-! Casebook. -/

/-- CB_STATE. -/
def cbState (s : State) : Nat :=
  if !s.cb.mounted then 0 else if s.cb.nvmFault then 3 else if s.slotValid 29 then 1 else 2

def viewCasebook (s : State) (key : Nat) : Nat :=
  let c := s.nvm.cb
  if key = Reg.cbState then cbState s
  else if key = Reg.cbOldestSeq then (match c.ring with
    | r :: _ => r.seq
    | [] => 0)
  else if key = Reg.cbNewestSeq then (c.nextSeq - 1) % 2 ^ 32
  else if key = Reg.cbRecords then c.ring.length
  else if key = Reg.cbFree then (cbRingSize - (c.append - c.base)) / 1024
  else if key = Reg.cbPinnedUsed then c.pinned.length
  else if key = Reg.cbPinnedSince then c.pinnedSince
  else if key = Reg.cbKeyEpoch then c.keyEpoch % 256
  else if key = Reg.cbQueueUsed then cbUsed s.cb.queue
  else if key = Reg.cbWraps then c.append / cbRingSize
  else s.reg key

/-! Supervision. -/

/-- A record of BUS_STATE (R606); BURSTS is `bursts`. -/
def busRecord (s : State) (bursts m : Nat) : Nat :=
  let b := s.busMaster m
  pack [(2, b.state), (3, b.target), (11, 0), (16, cnt 16 b.hangs), (32, bursts)]

def qsCode : QsMode → Nat
  | .active => 0
  | .draining => 1
  | .idle => 2
  | .isolated => 3

/-- QS_STATE of a function: 0 Active, 1 Draining, 2 Idle, 3 isolated, 4 unpowered. -/
def qsState (s : State) (kind inst : Nat) : Nat :=
  let resets := s.pwr.subsystem == some (qsKey kind inst)
  let own (m : QsMode) : Nat := if s.pwr.bulk then qsCode m else if m = .idle then 2 else 4
  if kind = qsLane then
    match (s.lane inst).mode with
    | .unpowered => 4
    | .off => 2
    | _ => if (s.port inst).isolated then 3 else ofBool resets
  else if kind = qsConv then own (s.unit inst).mode
  else if kind = qsCmp then own (s.engine inst).mode
  else if kind = qsOut then
    match (s.outp inst).comp with
    | .active | .member => 0
    | .draining => 1
    | .off | .idle => 2
    | .isolated => 3
    | .unpowered | .reserve => if (s.outp inst).idleAfter then 2 else 4
  else if kind = qsStore ∨ kind = qsAudio ∨ kind = qsShared then (if s.pwr.bulk then ofBool resets else 4)
  else if kind = qsTdm then
    if !s.pwr.bulk then 4 else if (s.tdm inst).mode = .off then 2 else 0
  else 0

def viewSupervision (s : State) (key : Nat) : Nat :=
  let q := s.reg Reg.qsSelect
  if key = Reg.busLastHang then hangNumber s.sup.lastHang
  else if key = Reg.qsState then qsState s (q / 256) (q % 256)
  else if key = Reg.qsSince then tget (fun _ => 0) s.sup.qsSince q
  else if key = Reg.qsDiscarded then tget (fun _ => 0) s.sup.qsDiscarded q
  else if key = Reg.assetFree then (134217728 - s.assetsUsed) / 1024
  else if key = Reg.svcWindowState then (if s.nvm.lc = 3 then s.reg key else 0)
  else if key = Reg.fwIdleRelease then (s.bank s.idleBank).release
  else if key = Reg.inserviceActive then s.sup.inservice.getD 0xFFFF
  else s.reg key

/-- ASSET_LIST: 12 bytes for each asset. -/
def assetList (s : State) : List Nat :=
  s.nvm.assets.flatMap fun e => match e.2 with
    | some a => leBytes 2 e.1 ++ leBytes 2 a.width ++ leBytes 2 a.height ++ [a.format, 0] ++ leBytes 4 a.crc
    | none => []

/-! Keys. -/

/-- KEY_ATTR. Slot 29 is derived at S3 and no message writes it: it shows what R515 and R516 name of it (DEDUCED, log entry 37). -/
def keyAttr (s : State) (n : Nat) : Nat :=
  if n = 29 then (if s.slotValid 29 then setBit (setBit (setBit (0x3F * 2 ^ 16) 31) 27) 15 else 0)
  else (s.keySlot n).attr

/-- KEY_STATE. -/
def keyState (s : State) (n : Nat) : Nat :=
  let a := keyAttr s n
  if 29 ≤ n ∧ !s.privileged then 3
  else if !kaValid a then 0
  else if kaOrphaned a then 2
  else 1

/-- A record of SEC_LINK_AUTH. -/
def linkAuth (s : State) (n : Nat) : Nat :=
  let l := s.link n
  match l.session with
  | some x => pack [(2, if x.orphaned then 2 else 1), (1, 0), (5, x.slot), (8, x.txEpoch % 256)]
  | none => if l.authFailed then 3 * 2 ^ 14 else if l.authenticated then 2 ^ 14 + l.ownSlot % 32 * 256 else 0

/-- SEC_SESSIONS: link and DAP sessions. -/
def secSessions (s : State) : Nat :=
  ((List.range 32).filter fun n => (s.link n).session.isSome).length +
    (s.dap.sessions.filter fun e => match e.2 with
      | some x => x.proved
      | none => false).length

def viewKeys (s : State) (key : Nat) : Nat :=
  let i := key / 256
  if key = Reg.secSessions then secSessions s
  else if key = Reg.secOrphans then maskWhere 32 fun n => kaOrphaned (s.keySlot n).attr
  else if key = Reg.secLinkAuth then packRecords 16 ((List.range 32).map (linkAuth s))
  else if 0x1610 ≤ i ∧ i < 0x1630 then
    let n := i - 0x1610
    match key % 256 with
    | 1 => keyAttr s n
    | 2 => keyState s n
    | 3 => if kaValid (keyAttr s n) then beNat ((hmac (s.slotKey n) (ascii "KCV")).take 4) else 0
    | _ => tget (fun _ => 0) s.sec.uses n
  else s.reg key

end Sys2Proof.Machine
end

