-- ==== Sys2Proof/Machine/ViewStore.lean ====
section
/-! DEFINITION. What the entries of fabric, converters, frame store and compression read as (R105, R130, R176, R177, R207,
R215, R216, R242, R244). -/

namespace Sys2Proof.Machine

/-- num / den as a count of an unsigned field. -/
def whole (num den : Nat) : Nat := (roundTo num den).toNat

/-! Fabric. -/

/-- FAB_STATE. The Spine plane works from the end of S5; attachments to the shared plane rejoin at SERVICE_READY (R129). -/
def fabState (s : State) : Nat :=
  if s.start.next < 6 then 0 else if s.pwr.bulk && decide (s.start.next = 12) then 1 else 2

/-- FAB_VIEW_STATE of a shared port. -/
def fabViewState (s : State) (p : Nat) : Nat :=
  let x := s.port p
  if !s.pwr.bulk then 4 else if x.isolated then 3
  else if portOwner s p ≠ 0 then portOwner s p else if x.degraded then 5 else 0

/-- SPINE_PROBE_MEAN. -/
def probeMean (s : State) : Nat :=
  let n := s.reg Reg.spineProbeCount
  if n = 0 then 0 else whole s.fab.probeSum n

/-- SPINE_ROUTES: routes of class C0 that are in use. -/
def spineRoutes (s : State) : Nat :=
  (s.str.routes.filter fun e => (match e.2.mode with
    | .empty | .pending => false
    | _ => true) && rClass e.2.image == 0).length

def viewFabric (s : State) (key : Nat) : Nat :=
  let p := s.reg Reg.fabPortSelect
  if key = Reg.fabState then fabState s
  else if key = Reg.fabViewFlits then (s.port p).flits
  else if key = Reg.fabViewCrc then (s.port p).crc
  else if key = Reg.fabViewDiscard then (s.port p).discard
  else if key = Reg.fabViewState then fabViewState s p
  else if key = Reg.fabViewLoad then portLoad s p
  else if key = Reg.fabLoadTotal then fabricLoad s
  else if key = Reg.spineProbeMean then probeMean s
  else if key = Reg.spineRoutes then spineRoutes s
  else s.reg key

/-- PSTATE and LEAD of the records of SPINE_PHASE_TABLE. -/
def phaseFields (s : State) (v : Nat) : Nat :=
  packRecords 32 ((List.range 32).map fun n =>
    let x := s.phase n
    putFld (putFld (record v 0 32 n) 25 24 x.state) 15 0 x.lead)

/-! Converters. -/

/-- CONV_STATE. -/
def convState (s : State) (u : Nat) : Nat :=
  if !s.pwr.bulk then 6
  else match (s.unit u).mode with
    | .isolated => 5
    | .idle => 4
    | .draining => 3
    | .active => match (s.unit u).holder with
      | none => 0
      | some r => if rClass (s.route r).image = 0 then 2 else 1

/-- CONV_STATUS (R176). -/
def convStatus (s : State) (u : Nat) : Nat :=
  let x := s.unit u
  pack [(16, (s.convCluster (u / 4)).speed), (16, ofInt 16 (s.convCluster (u / 4)).slack), (16, ofInt 16 (arraySlack s)),
    (16, whole (unitLoad s u) 100000000), (32, cnt 32 x.linesLate), (32, cnt 32 x.frames)]

def viewUnit (s : State) (u sub key : Nat) : Nat :=
  match sub with
  | 1 => convState s u
  | 2 => (s.unit u).holder.getD 0xFFFF
  | 5 => convStatus s u
  | _ => s.reg key

/-! Compression. -/

/-- CMP_STATE. -/
def cmpState (s : State) (e : Nat) : Nat :=
  if !s.pwr.bulk then (if s.inReserve then 5 else 0)
  else match (s.engine e).mode with
    | .isolated => 4
    | .idle => 3
    | .draining => 2
    | .active => if s.cmpRole e = 0 then 0 else 1

/-- CMP_STATUS (R244). -/
def cmpStatus (s : State) (e : Nat) : Nat :=
  let x := s.engine e
  pack [(16, whole (encodeLoad s s.liveImages e) 200000000), (16, whole (decodeLoad s s.liveImages e) 200000000),
    (32, cnt 32 x.raw), (32, cnt 32 x.invalid), (32, cnt 32 x.requant)]

/-- CMP_LINK_MAP. -/
def linkMap (s : State) : Nat := packRecords 8 ((List.range 512).map fun k => (s.ins k).engine.getD 0xFF)

def viewEngine (s : State) (e sub key : Nat) : Nat :=
  match sub with
  | 1 => cmpState s e
  | 3 => cmpStatus s e
  | _ => s.reg key

/-! Frame store. -/

def fsCode : FsMode → Nat
  | .off => 0
  | .training => 1
  | .inService => 2
  | .unpowered => 3
  | .wiping => 4

/-- FS_CH_STATE of a channel. -/
def chanCode : ChanMode → Nat
  | .untrained => 0
  | .fast => 1
  | .slow => 2
  | .sweeping => 3
  | .evacuating => 4
  | .retraining => 5
  | .retired => 6
  | .unpowered => 7

def bufCode : BufMode → Nat
  | .free => 0
  | .allocated => 1
  | .writing => 2
  | .complete => 3
  | .releasing => 4
  | .lost => 5

def winCode : WinMode → Nat
  | .idle => 0
  | .recording => 1
  | .frozen => 2
  | .post => 3

/-- FS_BUF_VIEW of the buffer that a handle word names, whatever its generation (R216). -/
def bufView (s : State) (word : Nat) : Nat :=
  let key := word / 256
  let b := s.buf key
  let queued := (s.fs.writes.filter fun w => w.key == key).length
  pack [(3, bufCode b.mode), (1, ofBool (b.damaged != [])), (16, b.tokens.length), (8, queued), (36, 0),
    (64, if pStream (s.poolRec (handlePool key)) then b.start else 0), (64, b.done)]

/-- A record of FS_CH_VIEW (R216). -/
def chanRecord (s : State) (k : Nat) : Nat :=
  let c := s.chan k
  pack [(8, chanCode c.mode), (8, c.margin), (16, cnt 16 c.retrains), (32, cnt 32 c.retries), (32, cnt 32 c.conceals), (32, 0)]

/-- Demand of the stored routes that p selects, in MB/s (R196). -/
def demandMb (s : State) (p : Nat → Bool) : Nat := whole (sumOf ((demands s s.liveImages p).map (·.2))) 100000000

/-- FS_LOAD: the traffic of the last 1 ms in 0.1 % of 480 GB/s. -/
def storeLoad (s : State) : Nat :=
  min 65535 (sumOf ((s.fs.traffic.filter fun e => decide (s.dt < e.1 + ms)).map (·.2)) / 480000)

/-- Access times of C1 to C3 over the last 1 s; FS_LAT_MEAN and FS_LAT_P999 of them: the mean, and the least time that 99.9 % of them do not
pass. -/
def storeTimes (s : State) : List Nat := (s.fs.times.filter fun e => decide (s.dt < e.1 + sec)).map (·.2)
def latMean (s : State) : Nat := let l := storeTimes s; sumOf l / max 1 l.length
def latP999 (s : State) : Nat := let l := storeTimes s; nth (l.mergeSort fun a b => decide (a ≤ b)) (divUp (999 * l.length) 1000 - 1) 0

/-- FS_WIN_LIST of a window: per frame 96 bits, the handle word highest. -/
def winList (s : State) (w : Nat) : List Nat :=
  (s.win w).frames.flatMap fun e => leBytes 8 e.2 ++ leBytes 4 (s.handleWord e.1)

def viewStore (s : State) (key : Nat) : Nat :=
  let i := key / 256
  let sub := key % 256
  let w := s.win (s.reg Reg.fsWinSelect)
  if key = Reg.fsState then fsCode s.fs.mode
  else if key = Reg.fsBufView then bufView s (s.reg Reg.fsBufSelect)
  else if key = Reg.fsStagingFree then whole (536870912 - stagingUsed s) 1024
  else if key = Reg.fsFreeExtents then 94720 - sumOf ((List.range 8).map s.chanExtents)
  else if key = Reg.fsC0Demand then demandMb s fun r => rClass r == 0
  else if key = Reg.fsDemandTotal then demandMb s fun _ => true
  else if key = Reg.fsC0FetchMean then (if s.fs.fetches = 0 then 0 else whole s.fs.fetchSum s.fs.fetches)
  else if key = Reg.fsLoad then storeLoad s
  else if key = Reg.fsLatMean then latMean s
  else if key = Reg.fsLatP999 then latP999 s
  else if i = 0x6002 ∧ 1 ≤ sub ∧ sub ≤ 8 then chanCode (s.chan (sub - 1)).mode
  else if i = 0x6002 ∧ 9 ≤ sub ∧ sub ≤ 0x10 then 2 * s.chanExtents (sub - 9)
  else if key = Reg.fsSweepState then s.fs.sweep.state
  else if key = Reg.fsChView then packRecords 128 ((List.range 8).map (chanRecord s))
  else if key = Reg.fsWipeState then (match s.fs.mode with
    | .wiping => 1
    | .inService => 2
    | _ => 0)
  else if key = Reg.fsWinFrames then w.frames.length
  else if key = Reg.fsWinOldest then (w.frames.head?.map (·.2)).getD 0
  else if key = Reg.fsWinNewest then (w.frames.getLast?.map (·.2)).getD 0
  else if key = Reg.fsWinUnexported then ((List.range 64).filter fun n => (s.win n).mode == .frozen && !(s.win n).released).length
  else if key = Reg.fsWinDropped then w.dropped
  else if key = Reg.cmpLinkMap then linkMap s
  else s.reg key

/-- EXTENTS of the records of FS_POOL_TABLE (R183). -/
def poolExtentFields (s : State) (v : Nat) : Nat :=
  packRecords 128 ((List.range 64).map fun p =>
    let r := record v 0 128 p
    if pValid r then putFld r 31 16 (s.poolExtents r) else r)

/-- STATE and FREEZE_DT of the records of FS_WIN_TABLE (R207). -/
def winFieldsShown (s : State) (v : Nat) : Nat :=
  packRecords 128 ((List.range 64).map fun w =>
    putFld (putFld (record v 0 128 w) 120 119 (winCode (s.win w).mode)) 63 0 (s.win w).freezeDt)

end Sys2Proof.Machine
end

