-- ==== Sys2Proof/Machine/ViewAudio.lean ====
section
/-! DEFINITION. What the entries of audio read as (R316, R317, R335). -/

namespace Sys2Proof.Machine

/-- AUD_STATE: without the engine the chime generators of the keeper sound alone, from the end of S5. -/
def audState (s : State) : Nat :=
  if s.aud.running then 1 else if !s.pwr.bulk && decide (6 ≤ s.start.next) then 2 else 0

/-- The map word of an input channel (R317). A TDM channel is bound while its port receives the slot (DEDUCED, log entry 35). -/
def audInWord (s : State) (c : Nat) : Nat :=
  if c < 128 then
    let v := s.tdmSetup (c / 16)
    if tsEnable v && decide (c % 16 < tsIn v) then 2 ^ 31 else 0
  else
    match s.aud.bind.find? fun e => match e.2 with
      | some (a, n) => decide (a ≤ c ∧ c < a + n)
      | none => false with
    | some (k, some (a, _)) => pack [(1, 1), (1, 1), (9, k), (6, c - a), (15, 0)]
    | _ => 0

/-- AUD_IN_STATE. -/
def audInState (s : State) (c : Nat) : Nat :=
  if audInWord s c = 0 then 0
  else if (s.audIn c).unlocked ≠ [] then 3
  else if s.inputLive c then 2 else 1

/-- Sampling rate of an output channel in Hz (R321). -/
def audOutRate (s : State) (o : Nat) : Nat :=
  if o < 128 then tsRate (s.tdmSetup (o / 16)) / 1000 else audioHz (dAudioRate (s.outDesc (aoStream (s.audOutRec o))))

/-- DELAY of an output channel in whole samples (R326). -/
def delaySamples (s : State) (o : Nat) : Nat := whole (aoDelay (s.audOutRec o) * audOutRate s o) 1000000

/-- AUD_OUT_DELAY_USED. -/
def delayUsed (s : State) (o : Nat) : Nat :=
  if audOutRate s o = 0 then 0 else whole (delaySamples s o * 1000000) (audOutRate s o)

/-- Valid output channels. -/
def audOuts (s : State) : List Nat := (List.range 512).filter fun o => aoValid (s.audOutRec o)

/-- AUD_OUT_STATE. -/
def audOutState (s : State) (o : Nat) : Nat :=
  let x := s.audOut o
  let level := duckLevel x.duck (fld (s.audOutRec o) 59 54) (s.reg Reg.audDuckAttack * ms) (s.reg Reg.audDuckRelease * ms) s.dt
  let fading : Bool := match x.xfade with
    | some t => decide (s.dt < t + 5 * ms)
    | none => false
  if !aoValid (s.audOutRec o) then 0
  else if audState s ≠ 1 then
    (if audState s = 2 ∧ 128 ≤ o ∧ (s.comp.outs.any fun x => reserveOutput x.1 && s.engineStream x.1 == some (aoStream (s.audOutRec o)))
      then 4 else 0)
  else if fading then 2
  else if level.num ≠ 0 then 3 else 1

/-- SOUND_LIST: ID, LENGTH and CRC-32C of each sound, whose bytes lie in the store behind their header (DEDUCED widths, log entry 36). -/
def soundList (s : State) : List Nat :=
  s.nvm.sounds.flatMap fun e => match e.2 with
    | some x => leBytes 2 e.1 ++ leBytes 4 (x.data.length - 16) ++ leBytes 4 x.crc
    | none => []

def tdmCode : TdmMode → Nat
  | .off => 0
  | .running => 1
  | .clockLost => 2
  | .rateError => 3

def viewTdm (s : State) (p sub key : Nat) : Nat :=
  let x := s.tdm p
  match sub with
  | 2 => pack [(8, tdmCode x.mode), (32, cnt 32 x.frames), (24, cnt 24 x.errors)]
  | 4 => x.rate
  | _ => s.reg key

def viewAudOut (s : State) (sub key : Nat) : Nat :=
  let o := s.reg Reg.audOutSelect
  match sub with
  | 2 => (s.audOut o).peak
  | 3 => audOutState s o
  | 4 => delayUsed s o
  | 5 => ((xpoints (s.force Reg.audXpointTable)).filter fun x => xpOut x == o).length
  | 6 => (s.audOut o).clips
  | 7 => maskOf (s.chimesOn o)
  | _ => s.reg key

def viewAudIn (s : State) (sub key : Nat) : Nat :=
  let c := s.reg Reg.audInSelect
  match sub with
  | 2 => audInState s c
  | 3 => (s.audIn c).peak
  | 4 => (s.audIn c).rate
  | 5 => (s.audIn c).ratio
  | 6 => (s.audIn c).unlocks
  | 7 => audInWord s c
  | _ => s.reg key

def viewAudio (s : State) (key : Nat) : Nat :=
  let i := key / 256
  if 0x7801 ≤ i ∧ i < 0x7809 then viewTdm s (i - 0x7801) (key % 256) key
  else if i = 0x7811 then viewAudOut s (key % 256) key
  else if i = 0x7812 then viewAudIn s (key % 256) key
  else if key = Reg.audState then audState s
  else if key = Reg.audInMap then packRecords 32 ((List.range 2048).map (audInWord s))
  else if key = Reg.audEmbFree then 1920 - sumOf (s.aud.bind.map fun e => match e.2 with
    | some (_, n) => n
    | none => 0)
  else if key = Reg.chimePlaying then maskWhere 32 fun g => (s.chime g).playing
  else if key = Reg.soundFree then (33554432 - s.soundsUsed) / 1024
  else if key = Reg.audXpointCount then (xpoints (s.force Reg.audXpointTable)).length
  else if key = Reg.audOutCount then (audOuts s).length
  else if key = Reg.audDelayUsed then whole (sumOf ((audOuts s).map fun o => 4 * delaySamples s o)) 1024
  else s.reg key

end Sys2Proof.Machine
end

