-- ==== Sys2Proof/Machine/ViewClock.lean ====
section
/-! DEFINITION. What the entries of reference sources, timing domains and device time read as (R456 to R459). -/

namespace Sys2Proof.Machine

def refCode : RefMode → Nat
  | .disabled => 0
  | .absent => 1
  | .qualifying => 2
  | .qualified => 3
  | .marginal => 4
  | .rejected => 5
  | .outvoted => 6

def domCode : DomMode → Nat
  | .off => 0
  | .freeRun => 1
  | .acquiring => 2
  | .locked => 3
  | .holdover => 4

/-- REF_COUNTS. -/
def refCounts (x : RefSource) : Nat :=
  pack [(32, cnt 32 x.losses), (32, cnt 32 x.rejects), (32, cnt 32 x.marginals), (16, cnt 16 x.disagrees),
    (16, cnt 16 x.outvotes)]

def viewSource (s : State) (n sub key : Nat) : Nat :=
  let x := s.src n
  match sub with
  | 0x03 => refCode x.mode
  | 0x05 => ofInt 32 x.drift
  | 0x06 => x.since
  | 0x07 => x.period
  | 0x08 => x.lastEdge
  | 0x09 => maskWhere 16 fun d => (s.dom d).selected == some n
  | 0x0A => refCounts x
  | _ => s.reg key

/-- The source gives phase (R442). -/
def givesPhase (s : State) (n : Nat) : Bool :=
  match s.srcType n with
  | .pps | .frame | .net => true
  | _ => false

/-- DOM_BUILD_OUT: with PHASE_MODE 1 the build-out runs to 0 at PHASE_SLEW, in ns per s, where the source gives phase
(R442). -/
def buildNow (s : State) (d : Nat) : Int :=
  let x := s.dom d
  let phased : Bool := match x.selected with
    | some n => givesPhase s n
    | none => false
  if dsPhaseMode (s.domSetup d) && phased then
    let run : Int := 1000 * dsSlew (s.domSetup d) * (s.dt - x.buildSince) / sec
    if 0 ≤ x.buildOut then max 0 (x.buildOut - run) else min 0 (x.buildOut + run)
  else x.buildOut

def viewDomain (s : State) (d sub key : Nat) : Nat :=
  let x := s.dom d
  match sub with
  | 0x03 => domCode x.mode
  | 0x04 => x.selected.getD 0xFF
  | 0x05 => ofInt 32 x.freq
  | 0x06 => ofInt 32 x.phase
  | 0x07 => ofInt 32 (buildNow s d)
  | 0x08 => ofInt 32 x.holdFreq
  | 0x09 => x.since
  | 0x0A => x.frameDt
  | 0x0B => x.switches
  | _ => s.reg key

/-- REF_XO_OFFSET: XO against the source of the DT domain. -/
def xoOffset (s : State) : Int :=
  match (s.dom (s.reg Reg.dtDomain)).selected with
  | some n => - s.offsetOf n
  | none => 0

/-- REF_NET_STATE: off, listening, synchronised, lost. -/
def netState (s : State) : Nat :=
  match (s.src 11).mode with
  | .disabled => 0
  | .absent => if s.clk.everSync then 3 else 1
  | _ => 2

/-- REF_NET_MAP. -/
def netMap (s : State) : Nat := pack [(64, s.clk.map.1), (48, s.clk.map.2.1), (30, s.clk.map.2.2), (50, 0)]

def viewReference (s : State) (key : Nat) : Nat :=
  if key = Reg.dtNow then s.dt
  else if key = Reg.refXoOffset then ofInt 32 (xoOffset s)
  else if key = Reg.refNetState then netState s
  else if key = Reg.refNetMap then netMap s
  else if key = Reg.refSummary then packRecords 8 ((List.range 12).map fun n => refCode (s.src n).mode)
  else s.reg key

end Sys2Proof.Machine
end

