-- ==== Sys2Proof/Machine/ViewLane.lean ====
section
/-! DEFINITION. What the entries of lanes and links read as (R370 to R373, R423 to R427). Values that the part measures on
its analogue side and no command reports are slices of the free value `f`. -/

namespace Sys2Proof.Machine

/-- PHY_EQ_STATUS (R372). CTLE and the tap weights adapt continuously (R347) and read 0 before the first training. -/
def phyEqStatus (s : State) (f n : Nat) : Nat :=
  let l := s.lane n
  let trained := l.floats ≠ []
  let g := if trained then f else 0
  let ffe := ffeNow s n
  pack ([(3, l.rate), (6, g), (5, ffe.2.1), (5, ffe.2.2), (9, g / 2 ^ 6), (40, g / 2 ^ 15), (56, g / 2 ^ 55)] ++
    (List.range 8).map (fun i => (6, nth l.floats i 0)) ++
    [(1, ofBool (l.holdReason != 0)), (2, l.holdReason), (1, 0), (16, l.levelMin), (64, 0)])

/-- PHY_EYE (R373). The openings read 0 before the first training. -/
def phyEye (s : State) (f n : Nat) : Nat :=
  let l := s.lane n
  let g := if l.floats ≠ [] then f else 0
  pack [(8, g), (8, g / 256), (8, l.sweepMargin), (1, ofBool l.marginLow), (7, 0), (16, cnt 16 l.retrains), (16, 0)]

/-- PHY_LOOP_RESULT and PHY_COUNTS (R373). -/
def phyLoopResult (s : State) (n : Nat) : Nat :=
  let l := (s.lane n).loop
  pack [(64, cnt 64 l.bits), (64, cnt 64 l.errors), (2, l.lstate), (62, 0)]

def phyCounts (s : State) (n : Nat) : Nat :=
  let l := s.lane n
  pack [(32, cnt 32 l.lockLosses), (32, cnt 32 l.holds), (32, cnt 32 l.quiets), (32, cnt 32 l.dormants),
    (32, cnt 32 l.trainings), (16, cnt 16 l.quietWorst), (16, cnt 16 l.dormantWorst), (64, 0)]

/-- LNK_STATUS (R425). Calendars, MEMBERS and the pending change are those of the lowest lane of the bond. -/
def linkStatus (s : State) (n : Nat) : Nat :=
  let l := s.link n
  let h := s.link (s.calLane n)
  let change (g : CalChange → Nat) : Nat := match h.txChange with
    | some c => g c
    | none => 0
  pack [(4, l.rev), (1, ofBool l.authenticated), (3, (s.lane n).rate), (8, h.rxEpoch), (8, h.txEpoch),
    (8, change (·.epoch)), (3, h.calResult), (8, h.calRefusal), (5, n - s.calLane n), (16, l.txStuff),
    (32, l.lastTurn.getD 0), (32, l.txTurn), (32, h.members), (32, change (·.switchTurn)), (64, l.upSince)]

/-- LNK_COUNTS (R425). -/
def linkCountsNow (s : State) (n : Nat) : Nat :=
  let c := (s.link n).counts
  pack [(32, cnt 32 c.foliosLost), (32, cnt 32 c.alignLosses), (32, cnt 32 c.turnMisses), (32, cnt 32 c.stuffSymbols),
    (32, cnt 32 c.slotsOmitted), (32, cnt 32 c.foliosDeferred), (32, cnt 32 c.lineFails), (16, cnt 16 c.poisonsRx),
    (16, cnt 16 c.unknownTypes)]

def viewLane (s : State) (f n sub key : Nat) : Nat :=
  match sub with
  | 0x01 => phyCode (s.lane n).mode
  | 0x03 => phyEqStatus s f n
  | 0x04 => phyEye s f n
  | 0x06 => phyLoopResult s n
  | 0x07 => phyCounts s n
  | 0x08 => if (s.lane n).mode = .off ∨ (s.lane n).mode = .unpowered then 0 else f
  | 0x10 => linkCode (s.link n).mode
  | 0x12 => (s.link n).peer0 * 2 ^ 120 + (s.link n).peer1
  | 0x14 => (s.link (s.calLane n)).rxCal
  | 0x15 => linkStatus s n
  | 0x16 => linkCountsNow s n
  | _ => s.reg key

/-- A record of LNK_EP_TABLE (R427). -/
def endpointRecord (e : Option Endpoint) : Nat :=
  match e with
  | none => 0
  | some x =>
    pack [(1, 1), (1, ofBool x.sink), (5, x.lane), (10, x.ep), (9, x.streams), (4, x.missed), (2, 0), (32, x.identity),
      (64, x.lastHeard)]

/-- LNK_FLOW_MAP of a lane: by receive flow tag, the stream that has it. -/
def flowMap (s : State) (lane : Nat) : Nat :=
  packRecords 16 ((List.range 512).map fun flow => match flowStream s lane flow with
    | some k => 2 ^ 15 + k
    | none => 0)

def viewEndpoints (s : State) (key : Nat) : Nat :=
  if key = Reg.lnkEpTable then packRecords 128 ((List.range 1024).map fun e => endpointRecord (s.endpoint e))
  else if key = Reg.lnkEpCount then (okeys s.eps.table).length
  else if key / 256 = 0x3102 then flowMap s (key % 256 - 1)
  else s.reg key

end Sys2Proof.Machine
end

