-- ==== Sys2Proof/Machine/ViewOut.lean ====
section
/-! DEFINITION. What the entries of outputs read as (R280, R282, R307, R313, R314). -/

namespace Sys2Proof.Machine

def compCode : CompMode → Nat
  | .off => 0
  | .active => 1
  | .draining => 2
  | .idle => 3
  | .isolated => 4
  | .unpowered => 5
  | .reserve => 6
  | .member => 7

def rasterCode : RasterMode → Nat
  | .off => 0
  | .starting => 1
  | .locked => 2
  | .slewing => 3
  | .holdover => 4
  | .mismatch => 5
  | .toCommand => 6
  | .command => 7
  | .toLocked => 8
  | .unpowered => 9

def layerCode : LayerMode → Nat
  | .notFed => 0
  | .shown => 1
  | .covered => 2
  | .offUnderrun => 3
  | .offDamaged => 4

/-- Engine pixel load of R260 in Mpix/s: a member of a gang counts its stripe. -/
def engineLoad (s : State) (n : Nat) : Nat :=
  let lead := (s.outp n).lead.getD n
  let t := s.outTables lead
  whole (pixelLoad t (fedLayers t s.liveImages lead) (n - lead)) 300000000

/-- Cluster fetch of R260 in 0.1 GB/s. -/
def clusterLoad (s : State) (n : Nat) : Nat :=
  whole (sumOf ((leads s.outTables (n / 4)).map fun m =>
    sumOf ((fedLayers (s.outTables m) s.liveImages m).map fun x => fetchLoad s (s.rasterOf m) x))) 20000000000

/-- OUT_COMP_STATUS (R282) and OUT_LAYER_STATUS of the last frame. -/
def compStatus (s : State) (n : Nat) : Nat :=
  let o := s.outp n
  pack [(4, compCode o.comp), (8, o.lastRefusal), (16, o.shownMask), (8, o.shownMask / 2 ^ 16), (16, engineLoad s n),
    (12, clusterLoad s n), (32, cnt 32 o.underruns), (32, cnt 32 o.frames)]

def layerStatus (s : State) (n : Nat) : Nat :=
  packRecords 64 ((List.range 24).map fun i =>
    let l := tget (fun _ => ({} : Layer)) (s.outp n).lastLayers i
    let now := tget (fun _ => ({} : Layer)) (s.outp n).layers i
    pack [(3, layerCode l.mode), (13, 0), (16, l.covered), (16, l.concealed), (16, min 0xFFFF now.underruns)])

/-- OUT_COMMIT_STATUS (R314). -/
def commitStatus (s : State) (n : Nat) : Nat :=
  let o := s.outp n
  let state := match o.queued with
    | some q => q.state
    | none => 0
  pack [(4, state), (1, ofBool o.discipline), (1, ofBool o.commitLate), (8, o.lastResult), (18, 0), (32, cnt 32 o.lateCount),
    (64, o.lastCommitDt)]

/-- OUT_RASTER_STATUS (R314). -/
def rasterStatus (s : State) (n : Nat) : Nat :=
  let o := s.outp n
  pack [(4, rasterCode o.raster), (16, ofInt 16 o.phaseError), (16, cnt 16 o.irregular),
    (8, maskWhere 8 fun r => (s.region n r).wstate != 0), (6, 0), (14, o.offsetUsed), (32, o.frameCount), (32, o.flipFrame),
    (64, o.lastFlip), (64, o.lastFrame)]

def viewOutput (s : State) (n sub key : Nat) : Nat :=
  match sub with
  | 4 => compStatus s n
  | 5 => layerStatus s n
  | 0x0A => commitStatus s n
  | 0x0B => rasterStatus s n
  | _ => s.reg key

/-- SIG, WSTATE, SRC_RUN and DEV_RUN of the records of OUT_WATCH_TABLE (R307). -/
def watchFields (s : State) (n v : Nat) : Nat :=
  packRecords 192 ((List.range 8).map fun r =>
    let g := s.region n r
    putFld (record v 0 192 r) 63 0 (pack [(32, g.sig), (2, g.wstate), (8, g.srcRun), (8, g.devRun), (14, 0)]))

end Sys2Proof.Machine
end

