-- ==== Sys2Proof/Machine/ViewRoute.lean ====
section
/-! DEFINITION. What the entries of streams, routes and takes read as (R54, R65, R95, R96). -/

namespace Sys2Proof.Machine

/-- STATE of a stream record (R54). -/
def strCode : StrMode → Nat
  | .absent => 0
  | .announced => 1
  | .live => 2
  | .stalled => 3
  | .gone => 4
  | .unsupported => 5

/-- A record of STR_IN_TABLE (R54): AUTH and SLOTS follow the link of the stream's lane. A stream that is not announced has no flow, so SLOTS is 0. -/
def inRecord (s : State) (k : Nat) : Nat :=
  let x := s.ins k
  let slots := if x.mode = .absent ∨ x.mode = .gone then 0
    else flowSlots (s.link (s.calLane (dLane x.desc))).rxCal x.flow
  putFld (putFld (putBit x.desc 105 (s.streamAuth k)) 127 125 (strCode x.mode)) 31 23 slots

/-- SLOTS of the records of STR_OUT_TABLE, counted in the transmit calendar in force (DEDUCED, log entry 38). -/
def outShown (s : State) (v : Nat) : Nat :=
  packRecords 128 ((List.range 256).map fun k =>
    let d := record v 0 128 k
    if outUsed d then putFld d 31 23 (flowSlots (s.link (s.calLane (dLane d))).txCal k) else d)

/-- STR_COMMIT_STATUS. -/
def strCommitStatus (s : State) : Nat := if s.strWaiting then 1 else s.str.commitCode

/-- Routes, fallbacks and tiles that name a stream; a route that is EMPTY or PENDING holds no record. -/
def strNamed (s : State) (k : Nat) : Nat :=
  (s.str.routes.map fun e =>
    let r := e.2.image
    if !rValid r then 0
    else ofBool (s.srcStream (rSrcType r) (rSrc r) == some k) + ofBool (rFbType r == 1 && fld (rFbSrc r) 8 0 == k)).foldl
      (· + ·) 0 +
    ((List.range 1024).filter fun i => tValid (s.tileRec i) && tStream (s.tileRec i) == k).length

/-- 0x4001: the stream that STR_VIEW_SELECT names. -/
def viewStream (s : State) (sub key : Nat) : Nat :=
  let k := s.reg Reg.strViewSelect
  let x := s.ins k
  match sub with
  | 0x01 => x.frames
  | 0x02 => x.lastStart
  | 0x03 => x.period
  | 0x04 => x.lineFail
  | 0x05 => x.tagFail
  | 0x06 => if x.lapsed then 2 else if x.tagState = 3 then 1 else x.tagState
  | 0x07 => x.signature
  | 0x08 => strNamed s k
  | 0x09 => x.identity
  | 0x0A => x.number
  | 0x0B => strCode x.mode
  | _ => s.reg key

/-- 0x4100.05 to .0C: the route that RT_SELECT names. -/
def viewRoute (s : State) (sub : Nat) : Nat :=
  let x := s.route (s.reg Reg.rtSelect)
  match sub with
  | 0x06 => rtCode x.mode
  | 0x07 => x.reason
  | 0x08 => x.since
  | 0x09 => x.flip
  | 0x0A => x.age / us
  | 0x0B => x.slips
  | _ => x.stale

/-- Groups accepted and not complete; the restore group of R94 is the U3264's own. -/
def hostGroups (s : State) : List Group := s.str.groups.filter fun g => !g.restore

/-- A record of TAKE_STATUS_TABLE. -/
def groupRecord (g : Group) : Nat := pack [(16, g.id), (16, ofBool g.moved), (32, 0), (64, g.eff)]

def viewTables (s : State) (key : Nat) : Nat :=
  let i := key / 256
  if i = 0x4001 then viewStream s (key % 256) key
  else if key = Reg.strInTable then packRecords 128 ((List.range 512).map (inRecord s))
  else if key = Reg.strInCount then (s.str.ins.filter fun e => e.2.mode != .absent).length
  else if key = Reg.strOutCount then ((List.range 256).filter fun k => outUsed (s.outDesc k)).length
  else if key = Reg.strUnsupportedCount then (s.str.ins.filter fun e => e.2.mode == .unsupported).length
  else if key = Reg.strCommitStatus then strCommitStatus s
  else if key = Reg.rtTable then s.rtTable
  else if key = Reg.rtActiveCount then s.rtActive
  else if key = Reg.rtOrphanCount then (s.str.routes.filter fun e => rtOrphaned e.2.mode).length
  else if key = Reg.rtDigest then s.rtDigest
  else if Reg.rtViewState ≤ key ∧ key ≤ Reg.rtViewStale then viewRoute s (key % 256)
  else if key = Reg.takePending then (hostGroups s).length
  else if key = Reg.takeStatusTable then packRecords 128 ((hostGroups s).map groupRecord)
  else s.reg key

end Sys2Proof.Machine
end

