-- ==== Sys2Proof/Machine/View.lean ====
section
/-! DEFINITION. What a DAP read of an entry gives (R24, R463, R464, R474, R491, R492, R494). -/

namespace Sys2Proof.Machine

/-! Control paths (R491, R492). -/

/-- Sessions open on a path. -/
def pathSessions (s : State) (p : Nat) : Nat :=
  (s.dap.sessions.filter fun e => match e.2 with
    | some x => x.who.path == p
    | none => false).length

/-- STATE of a record of DAP_PATH_STATE. -/
def pathCode (s : State) (p : Nat) : Nat :=
  let x := s.path p
  let recent : Bool := match x.lastMsg with
    | some t => decide (s.dt < t + s.reg Reg.dapPathIdle * sec)
    | none => false
  let staged := (okeys s.dap.staged).any fun k => (keyReq k).path == p
  if 3 ≤ p ∧ p < 27 ∧ s.reg Reg.pwrState = 2 then 3
  else if !bit (s.reg Reg.dapPathEnable) p || !transportUp s p then 0
  else if recent || pathSessions s p != 0 || s.reg Reg.dapLock == p || staged then 2 else 1

/-- A record of DAP_PATH_STATE. -/
def pathRecord (s : State) (p : Nat) : Nat :=
  let rev := if p < 3 then 2 else laneDapRev (s.link (p - 3))
  pack [(2, pathCode s p), (4, rev), (4, pathSessions s p), (1, ofBool (s.reg Reg.dapLock == p)), (21, 0),
    (16, min 0xFFFF (s.path p).errors), (16, (s.path p).requests % 65536)]

/-- A record of DAP_SESSION_TABLE: session k + 1. -/
def sessionRecord (s : State) (k : Nat) : Nat :=
  match oget s.dap.sessions (k + 1) with
  | none => 0
  | some x => pack [(1, 1), (6, x.who.path), (8, x.slot), (8, k + 1), (9, 0), (32, x.hostSeq), (64, x.opened)]

/-- CAN0_STATUS and CAN1_STATUS. -/
def canStatus (s : State) (p : Nat) : Nat :=
  let c := s.can p
  let state := if !bit (s.force (Reg.canSetup p)) 63 then 3 else if c.busOff then 2
    else if 128 ≤ c.txErr ∨ 128 ≤ c.rxErr then 1 else 0
  pack [(2, state), (8, cnt 8 c.txErr), (8, cnt 8 c.rxErr), (16, cnt 16 c.busOffs), (30, c.frames % 2 ^ 30)]

/-- NET_NOTIFY_DEST: the requesters of the four places. -/
def notifyDest (s : State) : Nat :=
  packRecords 48 ((List.range 4).map fun i => match oget s.dap.places i with
    | some (id, _) => id
    | none => 0)

def viewDap (s : State) (key : Nat) : Nat :=
  if key = Reg.dapPathState then packRecords 64 ((List.range 35).map (pathRecord s))
  else if key = Reg.dapSessionTable then packRecords 128 ((List.range 8).map (sessionRecord s))
  else if key = Reg.canStatus 0 then canStatus s 0
  else if key = Reg.canStatus 1 then canStatus s 1
  else if key = Reg.netStatus then ofBool s.dap.netLink * 2 ^ 63 + s.dap.datagrams % 2 ^ 32
  else if key = Reg.netNotifyDest then notifyDest s
  else if key = Reg.netAddrInUse then netAddress s
  else s.reg key

/-! Values of fixed size. -/

/-- Entries whose value the part measures, and no command reports; a read draws a free value (log entry 39). -/
def measured (key : Nat) : Bool :=
  let i := key / 256
  let sub := key % 256
  (0x3000 ≤ i && i < 0x3020 && (sub == 3 || sub == 4 || sub == 8)) ||
    [Reg.pwrTotal, Reg.pwrKeeper, Reg.procLoad, Reg.busState].contains key

/-- Entries under RWS that only act, whose table names no value that they keep: what they read as is open (log entry 40). -/
def actsOnly (key : Nat) : Bool :=
  [Reg.evtDefaults, Reg.startFailedClear, Reg.fwImage, Reg.fwActivate, Reg.assetWrite, Reg.assetDelete, Reg.soundWrite,
    Reg.soundDelete, Reg.safeSetCommit, Reg.cbNote].contains key

/-- RO fields inside the records of a shadowed table read as their present value (R464). -/
def withRoFields (s : State) (f key v : Nat) : Nat :=
  if key = Reg.strOutTable then outShown s v
  else if key = Reg.spinePhaseTable then phaseFields s v
  else if key = Reg.fsPoolTable then poolExtentFields s v
  else if key = Reg.fsWinTable then winFieldsShown s v
  else if 0x7000 ≤ key / 256 ∧ key / 256 < 0x7040 ∧ key % 256 = 8 then watchFields s (key / 256 - 0x7000) v
  else v

/-- An entry that has a shadow. -/
def shadowed (e : Entry) (key : Nat) : Bool :=
  e.right == .rwc || (decide (0x7000 ≤ key / 256 ∧ key / 256 < 0x7040) && key % 256 == 3)

/-- The present value of an entry that is not shadowed; `f` is what it measures. -/
def viewValue (who : Requester) (s : State) (f key : Nat) : Nat :=
  let i := key / 256
  let sub := key % 256
  if i < 0x1002 then viewIdentity who s key
  else if i = 0x1002 then s.reg key
  else if i < 0x1200 then (if measured key then f else viewSupply s key)
  else if i < 0x1300 then viewStart s key
  else if i < 0x1400 then viewEvents s key
  else if i < 0x1500 then viewCasebook s key
  else if key = Reg.busState then packRecords 64 ((List.range 6).map fun m => busRecord s (f / 2 ^ (32 * m)) m)
  else if key = Reg.procLoad then f
  else if i < 0x1600 then viewSupervision s key
  else if i < 0x1700 then viewKeys s key
  else if i < 0x2000 then viewDap s key
  else if i < 0x200C then viewSource s (i - 0x2000) sub key
  else if i < 0x2100 then viewReference s key
  else if i < 0x3000 then viewDomain s (i - 0x2100) sub key
  else if i < 0x3100 then viewLane s f (i - 0x3000) sub key
  else if i < 0x4000 then viewEndpoints s key
  else if i < 0x4200 then viewTables s key
  else if i < 0x5000 then viewFabric s key
  else if i < 0x6000 then viewUnit s (i - 0x5000) sub key
  else if 0x6100 ≤ i ∧ i < 0x6110 then viewEngine s (i - 0x6100) sub key
  else if i < 0x7000 then viewStore s key
  else if i < 0x7800 then viewOutput s (i - 0x7000) sub key
  else viewAudio s key

/-! Reserve operation (R24). -/

/-- Entries of bulk functions that read live in reserve operation (R24). -/
def readsLive (key : Nat) : Bool :=
  let i := key / 256
  let sub := key % 256
  key == Reg.fabState || key == Reg.fabViewState || key == Reg.fsState || key == Reg.audState || key == Reg.qsState ||
    (i == 0x6002 && decide (1 ≤ sub ∧ sub ≤ 8)) || (decide (0x5000 ≤ i ∧ i < 0x5030) && sub == 1) ||
    (decide (0x6100 ≤ i ∧ i < 0x6110) && sub == 1) || (decide (0x3000 ≤ i ∧ i < 0x3020) && sub == 1)

/-- The state from which an entry of a bulk function reads in reserve operation: as it stood at reserve entry. -/
def frozenState (s : State) (key : Nat) : State :=
  if s.inReserve && bulkEntry key && !readsLive key then
    match s.pwr.frozen with
    | some f => { s with
        regs := f.regs, inForce := f.inForce, dt := f.dt, phy := f.phy, lnk := f.lnk, str := f.str, fab := f.fab
        conv := f.conv, cmp := f.cmp, comp := f.comp, fs := f.fs, aud := f.aud, pwr := { s.pwr with gov := f.gov } }
    | none => s
  else s

/-- What a measured entry shows: a free value at each read, in reserve operation its last value before (R24). -/
def measuredNow (key : Nat) (s : State) : Nat × State :=
  if !measured key then (0, s)
  else if s.inReserve && bulkEntry key && !readsLive key then
    match s.pwr.frozen with
    | some f => (Config.lastMeasured f.last key, s)
    | none => s.draw
  else s.draw

/-- STATE of OUT_COMP_STATUS and RSTATE of OUT_RASTER_STATUS read live (R24). -/
def withLiveStates (s : State) (key v : Nat) : Nat :=
  let i := key / 256
  if 0x7000 ≤ i ∧ i < 0x7040 ∧ key % 256 = 4 then putFld v 127 124 (compCode (s.outp (i - 0x7000)).comp)
  else if 0x7000 ≤ i ∧ i < 0x7040 ∧ key % 256 = 0x0B then putFld v 255 252 (rasterCode (s.outp (i - 0x7000)).raster)
  else v

/-- The value of an entry of fixed size. -/
def entryValue (who : Requester) (applied : Bool) (s : State) (f key : Nat) (e : Entry) : Nat :=
  let z := frozenState s key
  withLiveStates s key
    (if shadowed e key then withRoFields z f key (if applied then z.valueInForce key else z.reg key)
    else viewValue who z f key)

/-! Values of varying length. -/

/-- SAFE_SET and SAFE_OUT_TABLE: the shadow, or with APPLIED what the stored image holds. -/
def safeEntry (applied : Bool) (key : Nat) (s : State) : List Nat :=
  let img := s.nvm.safe
  let stored := applied && s.reg Reg.safeSetState == 1
  let recs := 32 * nth img 2 0
  if stored then
    (if key = Reg.safeSet then (img.drop 4).take recs else (img.drop (4 + recs)).take (16 * nth img 3 0))
  else if applied then []
  else leBytes (s.reg (2 ^ 24 + key)) (s.reg key)

/-- Casebook records that a read finds damaged: free values say which. -/
def damagedNow (s : State) : List Nat × State :=
  let all := cbSelected s
  ((List.range all.length).filterMap fun i =>
      if Config.freeValue (s.free + i) % 2 = 1 then all[i]?.map fun x => x.1.seq else none,
    { s with free := s.free + all.length })

/-- The bytes of a value that varies in length, with the status that refuses the read. -/
def varyingBytes (auth applied : Bool) (key : Nat) (s : State) : Nat × List Nat × State :=
  if key = Reg.idOrderCode then (0, (Config.orderCode.take 64).map (· % 256), s)
  else if key = Reg.fwString 0 ∨ key = Reg.fwString 1 then
    let b := s.bank (key - Reg.fwString 0)
    (0, if b.state = 0 then [] else ((Config.releaseText b.release b.build).take 64).map (· % 256), s)
  else if key = Reg.cbRead then
    let d := damagedNow s
    let r := cbReadData d.1 d.2
    (0, r.1, r.2)
  else if key = Reg.assetList then (0, assetList s, s)
  else if key = Reg.soundList then (0, soundList s, s)
  else if key = Reg.safeSet ∨ key = Reg.safeOutTable then (0, safeEntry applied key s, s)
  else if key = Reg.fsWinList then
    let z := frozenState s key
    (0, winList z (z.reg Reg.fsWinSelect), s)
  else if key = Reg.fsBufRead then
    match fsBufReadOp (frozenState s key) with
    | some d => (0, d, s)
    | none => (stValue, [], s)
  else if key = Reg.svcWindowData then
    let code := windowCode s auth false
    if code ≠ 0 then (code, [], s)
    else
      let r := windowReadOp s
      (0, r.1, r.2)
  else (0, [], s)

/-- A value that is open: its length too, when it may vary. -/
def openBytes (e : Entry) (s : State) : List Nat × State :=
  let d := s.draw
  d.2.drawBytes (if e.varying then d.1 % (e.size + 1) else e.size)

/-- The bytes that an entry reads as, with the status of a refused read. Sub-index 0 is the index header. -/
def entryBytes (who : Requester) (auth applied : Bool) (key : Nat) (s : State) : Nat × List Nat × State :=
  if key % 256 = 0 then
    match indexHeader (key / 256) with
    | some n => (0, [n], s)
    | none => (stUnknown, [], s)
  else match keyEntry key with
    | none => (stUnknown, [], s)
    | some e =>
      if e.right = .wo then (stRight, [], s)
      else if actsOnly key then
        let r := openBytes e s
        (0, r.1, r.2)
      else if e.varying then varyingBytes auth applied key s
      else
        let d := measuredNow key s
        (0, leBytes e.size (cnt (8 * e.size) (entryValue who applied s d.1 key e)), d.2)

end Sys2Proof.Machine
end

