-- ==== Sys2Proof/Machine/Writes.lean ====
section
/-! DEFINITION. What a write of any entry does (R463, R464, R466, R481, R497): the checks, then the entry's own effect, which
is the operation of the command that the table lists for it, or the value kept. -/

namespace Sys2Proof.Machine

/-! Commits and lengths. -/

/-- A write that applies shadows (R481). -/
def commitWrite (key v : Nat) : Bool :=
  let i := key / 256
  let sub := key % 256
  [Reg.strCommit, Reg.fsPoolCommit, Reg.fsWinCommit, Reg.audCommit, Reg.safeSetCommit].contains key ||
    (decide (0x7000 ≤ i ∧ i < 0x7040) && sub == 9) ||
    (v == 1 && ((decide (0x5000 ≤ i ∧ i < 0x5030) && sub == 6) || (decide (0x6100 ≤ i ∧ i < 0x6110) && sub == 4) ||
      (decide (0x3000 ≤ i ∧ i < 0x3020) && (sub == 9 || sub == 0x19)) || (decide (0x2000 ≤ i ∧ i < 0x200C) && sub == 0x0B) ||
      (decide (0x2100 ≤ i ∧ i < 0x2110) && sub == 0x0C) || key == Reg.govControl || key == Reg.netControl)) ||
    (v == 2 && decide (0x3000 ≤ i ∧ i < 0x3020) && sub == 0x19) || (key == Reg.canControl && v % 128 == 1)

/-- Entries of type DOMAIN; the others of no number type are STR (R463). -/
def isDomain (e : Entry) : Bool := e.hi == 0 && !(e.varying && e.size == 64)

/-- Entries whose owning chapter has a result of its own for a wrong length (R83, R497, R531, R573, R597). -/
def ownLength (key : Nat) : Bool :=
  [Reg.takeGroup, Reg.secUpdate, Reg.lcRequest, Reg.fwImage].contains key

/-- The writable tables of R497 of one fixed length. -/
def recordTable (key : Nat) : Bool :=
  let i := key / 256
  let sub := key % 256
  [Reg.strOutTable, Reg.strTileTable, Reg.spinePhaseTable, Reg.fsPoolTable, Reg.fsStreamPool, Reg.fsWinTable,
    Reg.audXpointTable, Reg.audOutTable, Reg.chimeTable].contains key ||
    (decide (0x7000 ≤ i ∧ i < 0x7040) && (sub == 2 || sub == 3 || sub == 8)) ||
    (decide (0x3000 ≤ i ∧ i < 0x3020) && sub == 0x13)

/-- Status of a value's length (R463, R472, R497). -/
def lengthCode (e : Entry) (key n : Nat) : Nat :=
  if ownLength key then stDone
  else if e.varying then
    if key = Reg.safeSet ∧ n % 32 ≠ 0 ∨ key = Reg.safeOutTable ∧ n % 16 ≠ 0 then stLength
    else if e.size < n then stTooLong else stDone
  else if n = e.size then stDone
  else if isDomain e && !recordTable key && decide (e.size < n) then stTooLong
  else stLength

/-! Effects. -/

/-- An operation by the value written; any other value is refused. -/
def controlOp (ops : List (Nat × (State → State × Nat))) (v : Nat) (s : State) : State × Nat :=
  match ops.find? fun o => o.1 == v with
  | some o => o.2 s
  | none => (s, stValue)

/-- The value is kept, if its range and its entry's own rule allow it. -/
def keepValue (key v : Nat) (s : State) : State × Nat :=
  let v := storedValue key v
  if valueOk s key v then (s.setReg key v, stDone) else (s, stValue)

/-- A value kept that has an effect as well. -/
def keepThen (key v : Nat) (f : State → State) (s : State) : State × Nat :=
  let r := keepValue key v s
  if r.2 = stDone then (f r.1, stDone) else r

/-- SAFE_SET and SAFE_OUT_TABLE, whose records may be fewer than the most. -/
def keepRecords (key : Nat) (data : List Nat) (s : State) : State × Nat :=
  ((s.setReg key (storedValue key (leNat data))).setReg (2 ^ 24 + key) data.length, stDone)

/-- DAP_PATH_ENABLE: paths leave service and enter it (R462, R481, R487). -/
def pathEnableOp (v : Nat) (s : State) : State × Nat :=
  let old := s.reg Reg.dapPathEnable
  keepThen Reg.dapPathEnable v (fun s =>
    s.each (List.range 35) fun s p =>
      if bit old p && !bit v p then pathDown p s else if !bit old p && bit v p then pathUp p s else s) s

/-- DAP_NOTIFY_ENABLE: a bit that is set starts NSEQ again (R487). -/
def notifyEnableOp (v : Nat) (s : State) : State × Nat :=
  let old := s.reg Reg.dapNotifyEnable
  keepThen Reg.dapNotifyEnable v (fun s =>
    s.each ((List.range 35).filter fun p => !bit old p && bit v p) fun s p => pathUp p s) s

/-- DAP_LOCK (R481). -/
def dapLockOp (path v : Nat) (s : State) : State × Nat :=
  let held := s.reg Reg.dapLock
  if v ≠ 0xFF ∧ v ≠ path then (s, stValue)
  else if held ≠ 0xFF ∧ held ≠ path then (s, stBusy)
  else if v = 0xFF then (releaseLock s, stDone)
  else (({ s with dap := { s.dap with lockMsg := s.dt } } : State).setReg Reg.dapLock v, stDone)

/-- SEC_TAMPER_ENABLE: in MANUFACTURE and PROVISION only. -/
def tamperEnableOp (v : Nat) (s : State) : State × Nat :=
  if 1 < s.nvm.lc then (s, stNotNow) else keepValue Reg.secTamperEnable v s

/-- FS_BUF_CMD: 64 bits (R193). An OP that is none, or a reserved field that is not 0, has code 0x1B (R194, against R8; log entry 44). -/
def fsBufCmdOp (v : Nat) (s : State) : State × Nat :=
  match fld v 63 56 with
  | 1 => fsAllocOp v s
  | 2 => fsFreeOp v s
  | 3 => fsCancelQueuedOp v s
  | _ => bufResult 0x1B s

/-- A window operation after which a held warm reset may go (R561). -/
def thenWarm (op : State → State × Nat) (s : State) : State × Nat :=
  let r := op s
  (warmMet r.1, r.2)

/-- DOM_CONTROL 0x01 as an entry write: the build-out at the switch is open. -/
def domApplyWrite (d : Nat) (s : State) : State × Nat :=
  let build := (List.range 12).map fun n => (n, toInt 32 (Config.freeValue (s.free + n) % 2 ^ 32))
  domApplyOp d build { s with free := s.free + 12 }

/-- CHIME_CMD (R330): the time from the command to the first sample is open. -/
def chimeCmdOp (v : Nat) (s : State) : State × Nat :=
  let g := fld v 12 8
  let d := s.draw
  match fld v 7 0 with
  | 1 => chimeStartOp g d.1 d.2
  | 2 => chimeStopOp g s
  | 3 => chimeStopAllOp s
  | _ => (s, stValue)

/-- Writes in 0x1000 to 0x1FFF that act. -/
def writeManagement (src : Src) (key v : Nat) (data : List Nat) (ok : Bool) (s : State) : State × Nat :=
  let i := key / 256
  let sub := key % 256
  if i = 0x1300 then evtStatusOp (sub - 1) v s
  else if i = 0x1301 then evtEnableOp (sub - 1) v s
  else if i = 0x1302 then evtSeverityOp (sub - 1) v s
  else if key = Reg.evtClearAll then controlOp [(1, evtClearAllOp)] v s
  else if key = Reg.evtClearId then evtClearIdOp v s
  else if key = Reg.evtTest then evtTestOp v s
  else if key = Reg.evtDefaults then controlOp [(1, evtDefaultsOp)] v s
  else if key = Reg.pwrStatsClear then controlOp [(1, pwrStatsClearOp)] v s
  else if key = Reg.govControl then
    controlOp [(1, govApplyOp), (2, govPauseOp), (3, govResumeOp), (4, govClearFaultOp)] v s
  else if key = Reg.rstCmd then controlOp [(1, rstColdOp), (2, rstWarmOp), (3, rstProcOp)] v s
  else if key = Reg.rstSubsystem then rstSubsystemOp v ok s
  else if key = Reg.rstProceed then controlOp [(1, rstProceedOp)] v s
  else if key = Reg.startFailedClear then controlOp [(1, startFailedClearOp)] v s
  else if key = Reg.lcRequest then lcRequestOp data ok s
  else if key = Reg.cbNote then cbNoteOp data s
  else if key = Reg.cbStatsClear then controlOp [(1, cbStatsClearOp)] v s
  else if key = Reg.fwImage then fwImageOp data ok s
  else if key = Reg.fwActivate then controlOp [(1, fwTrialOp), (2, fwConfirmOp), (3, fwRevertOp)] v s
  else if key = Reg.busStatsClear then controlOp [(1, busStatsClearOp)] v s
  else if key = Reg.assetWrite then assetWriteOp data ok s
  else if key = Reg.assetDelete then assetDeleteOp v s
  else if key = Reg.svcWindowData then windowWriteOp data s
  else if key = Reg.secUpdate then secUpdateOp src data ok s
  else if key = Reg.secChallenge then secChallengeOp src data s
  else if key = Reg.secTamperEnable then tamperEnableOp v s
  else if key = Reg.secStatsClear then controlOp [(1, secStatsClearOp)] v s
  else if key = Reg.dapPathEnable then pathEnableOp v s
  else if key = Reg.dapNotifyEnable then notifyEnableOp v s
  else if key = Reg.dapLock then dapLockOp src.who.path v s
  else if key = Reg.dapStatsClear then controlOp [(1, dapStatsClearOp)] v s
  else if key = Reg.netControl then controlOp [(1, netApplyOp), (2, netRestartOp)] v s
  else if key = Reg.canControl then controlOp [(1, canApplyOp (v / 128)), (2, canLeaveOp (v / 128))] (v % 128) s
  else keepValue key v s

/-- Writes in 0x2000 to 0x3FFF that act. -/
def writeLink (key v : Nat) (s : State) : State × Nat :=
  let i := key / 256
  let sub := key % 256
  let n := i % 256
  if i < 0x200C ∧ sub = 0x0B then controlOp [(1, refApplyOp n), (2, refRequalifyOp n), (3, refClearCountsOp n)] v s
  else if key = Reg.refStatsClear then controlOp [(1, refStatsClearOp)] v s
  else if key = Reg.dtDomain then dtDomainOp v s
  else if 0x2100 ≤ i ∧ i < 0x2110 ∧ sub = 0x0C then
    controlOp [(1, domApplyWrite n), (2, domClearHistoryOp n), (3, domClearCountsOp n)] v s
  else if 0x3000 ≤ i ∧ i < 0x3020 ∧ sub = 9 then
    controlOp [(1, phyApplyOp n), (2, phyRetrainOp n), (3, phyLowPowerOp n 3), (4, phyLowPowerOp n 4), (5, phyWakeOp n),
      (6, phyLoopStartOp n), (7, phyLoopStopOp n), (8, phySweepOp n), (9, phyClearCountsOp n)] v s
  else if 0x3000 ≤ i ∧ i < 0x3020 ∧ sub = 0x18 then lnkRateRequestOp n v s
  else if 0x3000 ≤ i ∧ i < 0x3020 ∧ sub = 0x19 then
    controlOp [(1, lnkApplyOp n), (2, lnkAnnounceOp n), (3, lnkRenegotiateOp n), (4, lnkCancelOp n), (5, lnkClearOp n)] v s
  else if key = Reg.lnkStatsClear then controlOp [(1, lnkStatsClearOp)] v s
  else keepValue key v s

/-- Writes in 0x4000 to 0x4FFF that act. -/
def writeRoutes (key v : Nat) (data : List Nat) (ok : Bool) (s : State) : State × Nat :=
  if key = Reg.strCommit then controlOp [(1, strCommitOp)] v s
  else if key = Reg.strEndpointKeep then keepThen key v releaseUnnamed s
  else if key = Reg.stvClear then controlOp [(1, stvClearOp)] v s
  else if key = Reg.takeGroup then takeGroupOp data s
  else if key = Reg.takeCancel then takeCancelled v s
  else if key = Reg.takeStatsClear then controlOp [(1, takeStatsClearOp)] v s
  else if key = Reg.safeSet ∨ key = Reg.safeOutTable then keepRecords key data s
  else if key = Reg.safeSetCommit then controlOp [(1, safeSetCommitOp ok)] v s
  else if key = Reg.fabPortRestore then controlOp [(1, fabRestoreOp ok)] v s
  else if key = Reg.fabStatsClear then controlOp [(1, fabStatsClearOp)] v s
  else keepValue key v s

/-- Writes in 0x5000 to 0x6FFF that act. -/
def writeStore (key v : Nat) (data : List Nat) (ok : Bool) (s : State) : State × Nat :=
  let i := key / 256
  let sub := key % 256
  let n := i % 256
  if i < 0x5030 ∧ sub = 6 then
    controlOp [(1, convApplyOp n), (2, convDisableOp n), (3, convEnableOp n), (4, convRetestOp n ok), (5, convClearOp n)] v s
  else if 0x6100 ≤ i ∧ i < 0x6110 ∧ sub = 4 then
    controlOp [(1, cmpApplyOp n), (2, cmpDisableOp n), (3, cmpEnableOp n), (4, cmpRetestOp n ok), (5, cmpClearOp n)] v s
  else if key = Reg.cmpStatsClear then controlOp [(1, cmpStatsClearOp)] v s
  else if key = Reg.fsPoolCommit then controlOp [(1, fsPoolCommitOp)] v s
  else if key = Reg.fsBufCmd then fsBufCmdOp v s
  else if key = Reg.fsBufWrite then
    if data.length < 16 then (s, stLength) else fsBufWriteOp (leNat (data.take 16)) (data.drop 16) s
  else if key = Reg.fsStatsClear then controlOp [(1, fsStatsClearOp)] v s
  else if key = Reg.fsChCmd then
    controlOp [(1, fsChRetireOp (fld v 10 8)), (2, fsChRestoreOp (fld v 10 8)), (3, fsChSweepOp (fld v 10 8))] (fld v 7 0) s
  else if key = Reg.fsWinCommit then controlOp [(1, thenWarm fsWinCommitOp)] v s
  else if key = Reg.fsWinCmd then
    controlOp [(1, fsWinTriggerOp (fld v 13 8)), (2, thenWarm (fsWinReleaseOp (fld v 13 8))),
      (3, fsWinRestartOp (fld v 13 8))] (fld v 7 0) s
  else keepValue key v s

/-- Writes in 0x7000 to 0x7FFF that act. -/
def writeOutput (key v : Nat) (data : List Nat) (ok : Bool) (s : State) : State × Nat :=
  let i := key / 256
  let sub := key % 256
  let n := i % 256
  if i < 0x7040 ∧ sub = 6 then
    controlOp [(1, outDisableOp n), (2, outEnableOp n), (3, outRetestOp n ok), (4, outClearOp n)] v s
  else if i < 0x7040 ∧ sub = 9 then controlOp [(1, outCommitOp n)] v s
  else if i < 0x7040 ∧ sub = 0x0C then
    controlOp [(1, rasterClearLateOp n), (2, rasterClearCountsOp n), (3, resetRegionsOp n)] v s
  else if key = Reg.audCommit then controlOp [(1, audCommitOp)] v s
  else if key = Reg.audStatsClear then controlOp [(1, audStatsClearOp)] v s
  else if key = Reg.audMuteAll then audMuteOp v s
  else if 0x7801 ≤ i ∧ i < 0x7809 ∧ sub = 3 then
    controlOp [(1, tdmClearOp (i - 0x7801)), (2, tdmResyncOp (i - 0x7801))] v s
  else if key = Reg.chimeTable then chimeTableOp (storedValue key v) s
  else if key = Reg.chimeCmd then chimeCmdOp v s
  else if key = Reg.soundWrite then soundWriteOp data ok s
  else if key = Reg.soundDelete then soundDeleteOp v s
  else keepValue key v s

/-- The effect of a write that its checks let through; `ok`: the NVM write or retest that it calls for succeeds. -/
def writeEffect (src : Src) (key : Nat) (data : List Nat) (ok : Bool) (s : State) : State × Nat :=
  let v := leNat data
  if key < 0x200000 then writeManagement src key v data ok s
  else if key < 0x400000 then writeLink key v s
  else if key < 0x500000 then writeRoutes key v data ok s
  else if key < 0x700000 then writeStore key v data ok s
  else writeOutput key v data ok s

/-- A write of an entry: its state and status. Sub-index 0 is the index header (R494). -/
def writeEntry (src : Src) (key : Nat) (data : List Nat) (ok : Bool) (s : State) : State × Nat :=
  if key % 256 = 0 then (s, if (indexHeader (key / 256)).isSome then stRight else stUnknown)
  else
    match keyEntry key with
    | none => (s, stUnknown)
    | some e =>
      let window := if key = Reg.svcWindowData then windowCode s src.auth true else stDone
      let g := gate src key (commitWrite key (leNat data)) s
      let l := lengthCode e key data.length
      if window ≠ stDone then (s, window)
      else if g ≠ stDone then (s, g)
      else if l ≠ stDone then (s, l)
      else writeEffect src key data ok s

/-! Commands that write or read one entry. -/

/-- Writes whose outcome the NVM or a retest decides. -/
def needsOutcome (key : Nat) : Bool :=
  let i := key / 256
  let sub := key % 256
  [Reg.rstSubsystem, Reg.lcRequest, Reg.fwImage, Reg.assetWrite, Reg.secUpdate, Reg.safeSetCommit, Reg.fabPortRestore,
    Reg.soundWrite].contains key || (decide (0x5000 ≤ i ∧ i < 0x5030) && sub == 6) ||
    (decide (0x6100 ≤ i ∧ i < 0x6110) && sub == 4) || (decide (0x7000 ≤ i ∧ i < 0x7040) && sub == 6)

/-- REGISTER_WRITE: any write of an entry; what the NVM or a retest answers is open. -/
def execRegisterWrite (t : Nat) (src : Src) (index sub : Nat) (data : List Nat) (s : State) : Res :=
  let s := s.begin t
  let key := ekey (index % 2 ^ 16) (sub % 256)
  let d := if needsOutcome key then s.draw else (1, s)
  let r := writeEntry src key (data.map (· % 256)) (d.1 % 2 == 1) d.2
  .next (r.1.emit (.status src.who r.2))

/-- A write of DAP_LOCK. -/
def execDapLockWrite (t : Nat) (src : Src) (value : Nat) (s : State) : Res :=
  .next (answer src Reg.dapLock false (dapLockOp src.who.path (value % 256)) (s.begin t))

/-- DAP_LOCK_TIMEOUT passes without a message of the path that holds the lock. -/
def execLockTimeoutExpired (t : Nat) (s : State) : Res :=
  let s := s.begin t
  .next (if s.reg Reg.dapLock ≠ 0xFF ∧ s.dap.lockMsg + s.reg Reg.dapLockTimeout * sec ≤ s.dt then releaseLock s else s)

/-- FS_BUF_READ of the range that FS_BUF_READ_SEL selects (R190, R193). -/
def execFsBufRead (t : Nat) (who : Requester) (s : State) : Res :=
  let s := s.begin t
  .next (match fsBufReadOp (frozenState s Reg.fsBufRead) with
    | some d => s.emit (.bytes who d)
    | none => s.emit (.status who stValue))

end Sys2Proof.Machine
end

