-- ==== Sys2Proof/Machine/Dap.lean ====
section
/-! DEFINITION. The DAP engine (R469 to R481): the checks of a message, its execution, the response, duplicates, long values,
sessions, and SAVE with the requests that wait behind it. -/

namespace Sys2Proof.Machine

/-! FLAGS (R470). -/

abbrev flAuth : Nat := 7
abbrev flMore : Nat := 6
abbrev flSnapshot : Nat := 5
abbrev flApplied : Nat := 4
abbrev flEnd : Nat := 3
abbrev flSubscribe : Nat := 2

/-- What a request comes to: its status, response data, whether the data reaches the end of the value, and the state; a
SAVE is answered later. -/
structure Reply where
  status : Nat
  data : List Nat := []
  final : Bool := false
  later : Bool := false
  state : State

/-! Responses. -/

/-- A session with the number under which it authenticated a request. -/
abbrev Proven := Option (Nat × Session)

/-- Responses of a requester kept for duplicates, the newest 16 (R476). -/
def keepResponse (who : Requester) (k : Kept) (s : State) : State :=
  let key := reqKey who
  let l := tget (fun _ => []) s.dap.kept key ++ [k]
  { s with dap := { s.dap with kept := tset (fun _ => []) s.dap.kept key (l.drop (l.length - 16)) } }

/-- A response leaves under the PRIORITY or MSG of its request. -/
def sendDap (who : Requester) (bytes : List Nat) (s : State) : State :=
  sendMessage who 0 (tget (fun _ => 0) s.dap.ways (reqKey who)) bytes s

/-- A response (R466, R469, R479): errors are counted, a request that a session authenticated is answered under the SEQ of
the device, and the response is kept. -/
def respond (who : Requester) (m : Msg) (auth : Proven) (status : Nat) (data : List Nat) (final : Bool) (s : State) :
    State :=
  let s := if status = 0 then s else
    (s.count Reg.dapErrors 1).modPath who.path fun p => { p with errors := p.errors + 1 }
  let flags := (if final then 2 ^ flEnd else 0) + if auth.isSome then 2 ^ flAuth else 0
  let head := headerBytes m ((m.op + 0x80) % 256) status flags data.length
  let r : List Nat × State := match auth with
    | none => (head ++ data, s)
    | some (n, x) =>
      let seq := x.devSeq + 1
      let tail := trailerTail n seq
      let mac := messageMac x.key head data tail
      (head ++ data ++ leBytes 16 mac ++ tail,
        match oget s.dap.sessions n with
        | some y => { s with dap := { s.dap with sessions := oset s.dap.sessions n (some { y with devSeq := seq }) } }
        | none => s)
  let k : Kept := ⟨m.tag, m.op, m.index, m.sub, if bit m.flags flAuth then m.trailer.map (·.seq) else none, r.1, s.dt⟩
  sendDap who r.1 (keepResponse who k r.2)

/-- The kept response that a request repeats (R476). -/
def keptFor (who : Requester) (m : Msg) (s : State) : Option Kept :=
  let seq := if bit m.flags flAuth then m.trailer.map (·.seq) else none
  (tget (fun _ => []) s.dap.kept (reqKey who)).find? fun k =>
    k.tag == m.tag && k.op == m.op && k.index == m.index && k.sub == m.sub && k.seq == seq

/-! Checks of a message. -/

/-- The revision from which an OP is (R471); NOTIFY is sent by the U3264 only. -/
def opRevision (op : Nat) : Option Nat :=
  if op = 0 ∨ 9 < op then none else if op ≤ 3 then some 1 else some 2

/-- Status of the header (R402, R469 to R472). -/
def headerCode (s : State) (who : Requester) (m : Msg) : Nat :=
  if m.rev < 1 ∨ 2 < m.rev then stRevision
  else if 3 ≤ who.path ∧ laneDapRev (s.link (who.path - 3)) < m.rev then stRevision
  else match opRevision m.op with
    | none => stOp
    | some r =>
      if m.rev < r then stRevision
      else if m.rev < 2 ∧ fld m.flags 7 4 ≠ 0 then stRevision
      else if m.rev < 2 ∧ m.offset ≠ 0 then stRevision
      else if 4096 < m.length then stTooLong
      else stDone

/-- A session of a requester. -/
def dapSession (s : State) (who : Requester) (n : Nat) : Option Session :=
  match oget s.dap.sessions n with
  | some x => if x.who = who then some x else none
  | none => none

/-- A message that names a session keeps it from being idle. -/
def touchSession (n : Nat) (f : Session → Session) (s : State) : State :=
  match oget s.dap.sessions n with
  | some x => { s with dap := { s.dap with sessions := oset s.dap.sessions n (some (f { x with lastMsg := s.dt })) } }
  | none => s

/-- Authentication of a request (R479): the session that it ran under, or the status that refuses it. -/
def authenticate (who : Requester) (m : Msg) (s : State) : Nat × Proven × State :=
  if bit m.flags flAuth then
    match m.trailer with
    | none => (stAuth, none, s)
    | some t =>
      match dapSession s who t.session with
      | none => (stAuth, none, s)
      | some x =>
        let tail := trailerTail t.session t.seq
        if !x.proved || messageMac x.key (headerBytes m m.op 0 m.flags m.length) m.data tail != t.mac then
          (stAuth, none, s)
        else if t.seq ≤ x.hostSeq then (stSequence, none, s)
        else
          let s := touchSession t.session (fun y => { y with hostSeq := t.seq }) s
          (stDone, some (t.session, { x with hostSeq := t.seq }), s)
  else (stDone, none, s)

/-! READ (R471, R474). -/

/-- The part of a value that a READ returns. -/
def readPart (m : Msg) (bytes : List Nat) (s : State) : Reply :=
  if bytes.length < m.offset then { status := stOffset, state := s }
  else
    let part := (bytes.drop m.offset).take (if m.length = 0 then 4096 else min m.length 4096)
    { status := stDone, data := part, final := decide (bytes.length ≤ m.offset + part.length), state := s }

def setSnap (who : Requester) (v : Option Snapshot) (s : State) : State :=
  { s with dap := { s.dap with snaps := oset s.dap.snaps (reqKey who) v } }

def dapReadOp (who : Requester) (m : Msg) (auth : Proven) (s : State) : Reply :=
  let key := ekey m.index m.sub
  let long : Bool := match keyEntry key with
    | some e => isDomain e
    | none => false
  if m.offset ≠ 0 ∧ !long ∧ ((keyEntry key).isSome ∨ m.sub = 0) then { status := stLength, state := s }
  else if bit m.flags flSnapshot ∧ m.offset ≠ 0 then
    match oget s.dap.snaps (reqKey who) with
    | some p =>
      if p.index = m.index ∧ p.sub = m.sub then readPart m p.data (setSnap who (some { p with last := s.dt }) s)
      else { status := stOffset, state := s }
    | none => { status := stOffset, state := s }
  else
    let r := entryBytes who auth.isSome (bit m.flags flApplied) key s
    if r.1 ≠ stDone then { status := r.1, state := s }
    else if bit m.flags flSnapshot then
      if 262144 < r.2.1.length then { status := stTooLong, state := s }
      else readPart m r.2.1 (setSnap who (some ⟨m.index, m.sub, r.2.1, r.2.2.dt⟩) r.2.2)
    else readPart m r.2.1 r.2.2

/-! WRITE (R466, R473). -/

def setStaged (who : Requester) (v : Option Staged) (s : State) : State :=
  { s with dap := { s.dap with staged := oset s.dap.staged (reqKey who) v } }

/-- The first message of a staged firmware image starts the writing of the idle bank (R597). -/
def imageBegins (key : Nat) (s : State) : State :=
  if key = Reg.fwImage ∧ s.sup.trial.isNone then
    (s.setBank s.idleBank { s.bank s.idleBank with state := 3 }).setReg Reg.fwUpdateState 1
  else s

/-- The value of a write is whole. One of FW_IMAGE that a check keeps from its own rule leaves no verified image. -/
def wholeWrite (src : Src) (key : Nat) (data : List Nat) (ok : Bool) (s : State) : Reply :=
  let r := writeEntry src key data ok s
  let lost := decide (key = Reg.fwImage) && (r.1.bank r.1.idleBank).state == 3
  { status := r.2, state := if lost then
      (r.1.setBank r.1.idleBank { r.1.bank r.1.idleBank with state := 2 }).setReg Reg.fwUpdateState 0 else r.1 }

/-- Data joins a staged write, which ends with its last message. -/
def stageMore (src : Src) (m : Msg) (key size : Nat) (ok : Bool) (before : List Nat) (s : State) : Reply :=
  let data := before ++ m.data
  if size < data.length then { status := stTooLong, state := endStaged (reqKey src.who) (setStaged src.who
    (some ⟨m.index, m.sub, before, s.dt⟩) s) }
  else if bit m.flags flMore then
    let s := if before = [] then imageBegins key s else s
    { status := stDone, state := setStaged src.who (some ⟨m.index, m.sub, data, s.dt⟩) s }
  else wholeWrite src key data ok (setStaged src.who none s)

/-- A WRITE, of a whole value or of part of one. -/
def dapWriteOp (who : Requester) (m : Msg) (auth : Proven) (ok : Bool) (s : State) : Reply :=
  let src : Src := ⟨who, auth.isSome⟩
  let key := ekey m.index m.sub
  let own := oget s.dap.staged (reqKey who)
  let mine : Bool := match own with
    | some g => g.index == m.index && g.sub == m.sub
    | none => false
  match keyEntry key with
  | none => wholeWrite src key m.data ok s
  | some e =>
    let part := bit m.flags flMore || m.offset != 0 || mine
    let g := gate src key false s
    if !part then wholeWrite src key m.data ok s
    else if !isDomain e then { status := stLength, state := s }
    else if g ≠ stDone then { status := g, state := s }
    else match own with
      | some x =>
        if mine then
          if m.offset = x.data.length then stageMore src m key e.size ok x.data s
          else { status := stOffset, state := endStaged (reqKey who) s }
        else if bit m.flags flMore then { status := stBusy, state := s }
        else { status := stOffset, state := s }
      | none =>
        if m.offset ≠ 0 then { status := stOffset, state := s } else stageMore src m key e.size ok [] s

/-- ABORT (R473). -/
def dapAbortOp (who : Requester) (s : State) : Reply := { status := stDone, state := endStaged (reqKey who) s }

/-! HELLO (R471, R487). -/

/-- SUBSCRIBE takes a place on Ethernet, or renews one. -/
def subscribe (who : Requester) (s : State) : State :=
  let held := lowest 4 fun i => (oget s.dap.places i).map (·.1) == some who.id
  let free := lowest 4 fun i => (oget s.dap.places i).isNone
  let place (i : Nat) (s : State) : State :=
    { s with dap := { s.dap with places := oset s.dap.places i (some (who.id, s.dt)) } }
  match held, free with
  | some i, _ => place i s
  | none, some i => place i (s.setQueue (reqKey who) {})
  | none, none => s

def dapHelloOp (who : Requester) (m : Msg) (s : State) : Reply :=
  let s := if who.path = 2 ∧ bit m.flags flSubscribe then subscribe who s else s
  { status := stDone, data := helloBytes who s, state := s }

/-! SAVE and RESTORE_DEFAULTS (R467, R468). -/

/-- Not in the present start step or life-cycle state. -/
def State.readOnly (s : State) : Bool := s.retired || !s.writesOpen

def dapSaveOp (who : Requester) (m : Msg) (auth : Proven) (s : State) : Reply :=
  if s.readOnly then { status := stNotNow, state := s }
  else if auth.isNone then { status := stSession, state := s }
  else if s.dap.save.isSome then { status := stBusy, state := s }
  else if s.inReserve then { status := stUnpowered, state := s }
  else
    let s : State := { s with dap := { s.dap with save := some ⟨who, m, imageSnapshot s, s.dt⟩ } }
    { status := stDone, later := true, state := s.setReg Reg.dapSaveState 1 }

def restoreDefaultsOp (auth : Proven) (s : State) : Reply :=
  if s.readOnly then { status := stNotNow, state := s }
  else if auth.isNone then { status := stSession, state := s }
  else { status := stDone, state := { s with nvm := { s.nvm with imageMarked := s.nvm.image.isSome } } }

/-! Sessions (R478, R480, R526). -/

/-- A proof of R526. -/
def dapProof (s : State) (label : String) (n : Nat) (x : Session) : List Nat :=
  hmac128 (s.slotKey x.slot) (ascii label ++ x.hostNonce ++ x.devNonce ++ beBytes 8 Config.deviceId ++ [n])

def setSession (n : Nat) (x : Session) (s : State) : State :=
  { s with dap := { s.dap with sessions := oset s.dap.sessions n (some x) } }

def sessionOpenOp (who : Requester) (m : Msg) (s : State) : Reply :=
  let slot := nth m.data 0 0
  let locked : Bool := match (s.path who.path).lockout with
    | some u => decide (s.dt < u)
    | none => false
  let own := (s.dap.sessions.filter fun e => match e.2 with
    | some x => x.who == who
    | none => false).length
  if m.data.length ≠ 16 then { status := stLength, state := s }
  else if locked || !s.slotAuth slot then { status := stAuth, state := s }
  else match (lowest 8 fun k => (oget s.dap.sessions (k + 1)).isNone).map (· + 1) with
    | none => { status := stResources, state := s }
    | some n =>
      if 2 ≤ own then { status := stResources, state := s }
      else
        let d := s.drawBytes 12
        { status := stDone, data := [n, 0, 0, 0] ++ d.1
          state := setSession n { who, slot, hostNonce := m.data.drop 4, devNonce := d.1, lastMsg := s.dt } d.2 }

/-- A failed proof: five on one path within 60 s lock it. -/
def proofFails (path slot : Nat) (s : State) : State :=
  let recent := ((s.path path).failures.filter fun t => decide (s.dt < t + 60 * sec)) ++ [s.dt]
  let locks := decide (5 ≤ recent.length)
  let s := s.modPath path fun p => { p with
    failures := if locks then [] else recent, lockout := if locks then some (s.dt + 60 * sec) else p.lockout }
  s.raise Ev.authFailedDap [slot, path, if locks then 2 else 1]

def sessionProveOp (who : Requester) (m : Msg) (s : State) : Reply :=
  let n := nth m.data 0 0
  if m.data.length ≠ 20 then { status := stLength, state := s }
  else match dapSession s who n with
    | none => { status := stAuth, state := s }
    | some x =>
      if x.proved then { status := stAuth, state := s }
      else if !s.slotAuth x.slot || m.data.drop 4 != dapProof s "DAP-HOST" n x then
        { status := stAuth, state := proofFails who.path x.slot (endSession n s) }
      else
        let key := kdf (s.slotKey x.slot) "DAPS" (x.hostNonce ++ x.devNonce ++ [n]) 256
        let y := { x with proved := true, key, opened := s.dt, lastMsg := s.dt }
        { status := stDone, data := dapProof s "DAP-DEVICE" n x, state := setSession n y (useSlot x.slot s) }

def sessionCloseOp (who : Requester) (m : Msg) (s : State) : Reply :=
  let n := nth m.data 0 0
  if m.data.length ≠ 4 then { status := stLength, state := s }
  else if (dapSession s who n).isNone then { status := stAuth, state := s }
  else { status := stDone, state := endSession n s }

/-! Execution. -/

/-- The operation of a message. -/
def dapAct (who : Requester) (m : Msg) (auth : Proven) (ok : Bool) (s : State) : Reply :=
  match m.op with
  | 1 => dapReadOp who m auth s
  | 2 => dapWriteOp who m auth ok s
  | 3 => dapHelloOp who m s
  | 4 => dapSaveOp who m auth s
  | 5 => restoreDefaultsOp auth s
  | 6 => sessionOpenOp who m s
  | 7 => sessionProveOp who m s
  | 8 => sessionCloseOp who m s
  | _ => dapAbortOp who s

/-- A request is executed and answered (R475, R476), `act` its operation; a duplicate is answered again. -/
def dapExecute (who : Requester) (m : Msg) (act : Proven → State → Reply) (s : State) : State :=
  match keptFor who m s with
  | some k =>
    let s := match m.trailer with
      | some t => if bit m.flags flAuth && (dapSession s who t.session).isSome then touchSession t.session id s else s
      | none => s
    sendDap who k.resp s
  | none =>
    let c := headerCode s who m
    if c ≠ stDone then respond who m none c [] false s
    else
      let a := authenticate who m s
      if a.1 ≠ stDone then respond who m none a.1 [] false a.2.2
      else
        let r := act a.2.1 a.2.2
        if r.later then r.state else respond who m a.2.1 r.status r.data r.final r.state

/-- A requester's requests wait behind its SAVE (R475). -/
def waitsFor (who : Requester) (s : State) : Bool :=
  (match s.dap.save with
    | some x => x.who == who
    | none => false) || s.dap.waiting.any fun w => w.who == who

/-- Requests that wait behind a SAVE that has ended, in their order, up to one that starts another; at most n. -/
def runWaiting : Nat → State → State
  | 0, s => s
  | n + 1, s =>
    match s.dap.waiting.find? fun w => match s.dap.save with
        | some x => x.who != w.who
        | none => true with
    | none => s
    | some w =>
      let s : State := { s with dap := { s.dap with waiting := s.dap.waiting.erase w } }
      runWaiting n (dapExecute w.who w.msg (fun a s => dapAct w.who w.msg a w.ok s) s)

/-- A message arrives on a path (R462, R475, R481, R491): it is counted, and executed in its turn. A ninth request outstanding
is refused. -/
def dapMessage (who : Requester) (m : Msg) (ok : Bool) (act : Proven → State → Reply) (s : State) : State :=
  if !pathServes s who.path then s
  else
    let s := s.modPath who.path fun p => { p with requests := p.requests + 1, lastMsg := some s.dt }
    let s : State := if s.reg Reg.dapLock = who.path then { s with dap := { s.dap with lockMsg := s.dt } } else s
    let s := if s.dap.save.isNone then runWaiting s.dap.waiting.length s else s
    if waitsFor who s then
      if 7 ≤ (s.dap.waiting.filter fun w => w.who == who).length then respond who m none stResources [] false s
      else { s with dap := { s.dap with waiting := s.dap.waiting ++ [⟨who, m, ok⟩] } }
    else dapExecute who m act s

/-- A message as reassembled from its segments. -/
def dapArrives (who : Requester) (m : Msg) (ok : Bool) (s : State) : State :=
  dapMessage who m ok (fun a s => dapAct who m a ok s) s

end Sys2Proof.Machine
end

