-- ==== Sys2Proof/Machine/DapCmds.lean ====
section
/-! DEFINITION. The commands of the DAP engine: messages as reassembled, the segments that carry them, the times that run
out, and NOTIFY (R469 to R487). -/

namespace Sys2Proof.Machine

/-! Messages. -/

def execDapRead (t : Nat) (who : Requester) (m : Msg) (s : State) : Res :=
  .next (dapMessage who m true (fun a s => dapReadOp who m a s) (s.begin t))

def execDapWrite (t : Nat) (who : Requester) (m : Msg) (ok : Bool) (s : State) : Res :=
  .next (dapMessage who m ok (fun a s => dapWriteOp who m a ok s) (s.begin t))

def execDapHello (t : Nat) (who : Requester) (m : Msg) (s : State) : Res :=
  .next (dapMessage who m true (fun _ s => dapHelloOp who m s) (s.begin t))

def execDapSave (t : Nat) (who : Requester) (m : Msg) (s : State) : Res :=
  .next (dapMessage who m true (fun a s => dapSaveOp who m a s) (s.begin t))

def execRestoreDefaults (t : Nat) (who : Requester) (m : Msg) (s : State) : Res :=
  .next (dapMessage who m true (fun a s => restoreDefaultsOp a s) (s.begin t))

def execSessionOpen (t : Nat) (who : Requester) (m : Msg) (s : State) : Res :=
  .next (dapMessage who m true (fun _ s => sessionOpenOp who m s) (s.begin t))

def execSessionProve (t : Nat) (who : Requester) (m : Msg) (s : State) : Res :=
  .next (dapMessage who m true (fun _ s => sessionProveOp who m s) (s.begin t))

def execSessionClose (t : Nat) (who : Requester) (m : Msg) (s : State) : Res :=
  .next (dapMessage who m true (fun _ s => sessionCloseOp who m s) (s.begin t))

def execDapAbort (t : Nat) (who : Requester) (m : Msg) (s : State) : Res :=
  .next (dapMessage who m true (fun _ s => dapAbortOp who s) (s.begin t))

/-- The commit word of SAVE is written, or the NVM fails (R467); the response is sent, and the requests behind it go on. -/
def execSaveCommitWord (t : Nat) (ok : Bool) (s : State) : Res :=
  let s := s.begin t
  .next (match s.dap.save with
    | none => s
    | some x =>
      let auth : Proven := x.msg.trailer.bind fun r => (dapSession s x.who r.session).map fun y => (r.session, y)
      let s : State := if ok then saveStands x s
        else ({ s with dap := { s.dap with save := none } } : State).setReg Reg.dapSaveState 3
      let s := respond x.who x.msg auth (if ok then stDone else stNvm) [] false s
      runWaiting s.dap.waiting.length s)

/-! Times that run out. -/

def execStagedWriteTimeout (t : Nat) (who : Requester) (s : State) : Res :=
  let s := s.begin t
  .next (match oget s.dap.staged (reqKey who) with
    | some g => if g.last + s.reg Reg.dapStageTimeout * ms ≤ s.dt then endStaged (reqKey who) s else s
    | none => s)

def execSessionIdleTimeout (t session : Nat) (s : State) : Res :=
  let s := s.begin t
  .next (match oget s.dap.sessions session with
    | some x => if x.lastMsg + s.reg Reg.dapSessionIdle * sec ≤ s.dt then endSession session s else s
    | none => s)

/-- A snapshot is discarded 1 s after its last read. -/
def execSnapshotDiscard (t : Nat) (who : Requester) (s : State) : Res :=
  let s := s.begin t
  .next (match oget s.dap.snaps (reqKey who) with
    | some p => if p.last + sec ≤ s.dt then setSnap who none s else s
    | none => s)

/-- Responses are kept for 2 s. -/
def execKeptResponseExpiry (t : Nat) (who : Requester) (s : State) : Res :=
  let s := s.begin t
  let l := tget (fun _ => []) s.dap.kept (reqKey who)
  .next { s with dap := { s.dap with
    kept := tset (fun _ => []) s.dap.kept (reqKey who) (l.filter fun k => decide (s.dt < k.since + 2 * sec)) } }

def execProofLockoutEnd (t path : Nat) (s : State) : Res :=
  let s := s.begin t
  .next (match (s.path path).lockout with
    | some u => if u ≤ s.dt then s.modPath path fun p => { p with lockout := none } else s
    | none => s)

/-- DAP_PATH_IDLE passes without a HELLO that renews a place. -/
def execSubscriptionExpiry (t place : Nat) (s : State) : Res :=
  let s := s.begin t
  .next (match oget s.dap.places place with
    | some (id, since) =>
      if since + s.reg Reg.dapPathIdle * sec ≤ s.dt then
        ({ s with dap := { s.dap with places := oset s.dap.places place none } } : State).setQueue (reqKey ⟨2, id⟩) {}
      else s
    | none => s)

/-! NOTIFY (R487). -/

/-- A NOTIFY record as it is sent. -/
def notifyBytes (r : NotifyRec) (overflow : Bool) (nseq : Nat) : List Nat :=
  leBytes 32 (pack [(16, r.event), (2, r.severity), (1, ofBool overflow), (13, 0), (32, nseq), (64, r.dt), (128, r.body)])

/-- The first n records of a queue, SAFE ones first, and the queue without them. -/
def notifyTake (n : Nat) (q : NotifyQ) : List NotifyRec × NotifyQ :=
  let all := q.recs.filter (fun r => r.severity == 0) ++ q.recs.filter (fun r => r.severity != 0)
  let go := all.take n
  (go, { recs := go.foldl (fun l r => l.erase r) q.recs, nseq := (q.nseq + go.length) % 2 ^ 32, dropped := false })

/-- A NOTIFY message of at most 16 records: a message of OP 0x0A, whose TAG, and whose MSG on Ethernet, the spec leaves
open. -/
def execNotifySend (t : Nat) (who : Requester) (n : Nat) (s : State) : Res :=
  let s := s.begin t
  let key := reqKey who
  let q := s.queue key
  .next (if q.recs == [] || n = 0 || !(notifyKeys s).contains key then s
    else
      let r := notifyTake (min n 16) q
      let d := s.draw
      let data := ((List.range r.1.length).map fun i =>
        notifyBytes (nth r.1 i ⟨0, 0, 0, 0, false⟩) (q.dropped && i == 0) ((q.nseq + i) % 2 ^ 32)).flatten
      let rev := if who.path < 3 then 2 else max 1 (laneDapRev (s.link (who.path - 3)))
      let m : Msg := ⟨d.1 % 65536, 0x0A, 0, 0, 0, 0, rev, data.length, [], none⟩
      let way := if who.path < 2 then (if r.1.any (fun x => x.severity == 0) then 0 else 3) else d.1 / 65536 % 256
      sendMessage who 1 way (headerBytes m 0x0A 0 0 data.length ++ data) (d.2.setQueue key r.2))

/-! CAN FD (R483, R484). -/

/-- A frame that names the U3264: from a host to its node, or to node 0x7F for HELLO. -/
def canForUs (s : State) (ident : Nat) : Bool :=
  !bit ident 25 && (fld ident 24 18 == s.reg Reg.idNodeId || fld ident 24 18 == 0x7F) && decide (fld ident 17 11 ≤ 126)

/-- A DAP frame is counted. -/
def canCounted (port : Nat) (s : State) : State := s.setCan port { s.can port with frames := (s.can port).frames + 1 }

/-- A frame arrives: others than FD frames with 29-bit identifiers are foreign. -/
def execCanSegment (t port : Nat) (frame : CanFrame) (ok : Bool) (s : State) : Res :=
  let s := s.begin t
  let id := frame.ident
  let who : Requester := ⟨port, fld id 17 11⟩
  .next (if 1 < port || !canUp s port then s
    else if !frame.fd || !frame.ext then s.count Reg.canForeign 1
    else if !canForUs s id || fld id 10 8 != 0 then s
    else
      let s := canCounted port s
      if !pathServes s port then s
      else
        let h := nth frame.data 0 0
        let r := takeSegment (reqKey who) (bit h 7) (bit h 6) (fld h 5 0) 64 0 ((frame.data.drop 1).map (· % 256)) s
        match r.1.bind parseMsg with
        | none => r.2.2
        | some m =>
          if fld id 24 18 ≠ s.reg Reg.idNodeId ∧ m.op ≠ 3 then r.2.2
          else
            let s : State := { r.2.2 with dap := { r.2.2.dap with
              ways := tset (fun _ => 0) r.2.2.dap.ways (reqKey who) (fld id 28 26) } }
            dapArrives who m ok s)

/-- KIND 2 aborts the sender's reassembly. -/
def execCanReassemblyAbort (t port : Nat) (frame : CanFrame) (s : State) : Res :=
  let s := s.begin t
  .next (if 1 < port || !canUp s port || !frame.fd || !frame.ext || !canForUs s frame.ident || fld frame.ident 10 8 != 2 then s
    else (canCounted port s).setReasm (reqKey ⟨port, fld frame.ident 17 11⟩) none)

def execCanReassemblyTimeout (t port host : Nat) (s : State) : Res := .next (reasmExpires (reqKey ⟨port, host⟩) (s.begin t))

/-! Management Ethernet (R485). -/

/-- A datagram to port 30471. -/
def execNetDatagram (t : Nat) (who : Requester) (data : List Nat) (ok : Bool) (s : State) : Res :=
  let s := s.begin t
  .next (if who.path ≠ 2 || !netUp s then s
    else
      let s : State := { s with dap := { s.dap with datagrams := s.dap.datagrams + 1 } }
      let h := leNat (data.take 4)
      if !pathServes s 2 then s
      else if data.length < 4 ∨ 1472 < data.length then (s.setReasm (reqKey who) none).count Reg.netForeign 1
      else
        let r := takeSegment (reqKey who) (bit h 31) (bit h 30) (fld h 15 0) 65536 (fld h 23 16)
          ((data.drop 4).map (· % 256)) s
        let s : State := if r.2.1 then r.2.2 else r.2.2.count Reg.netForeign 1
        match r.1 with
        | none => s
        | some b =>
          match parseMsg b with
          | none => s.count Reg.netForeign 1
          | some m =>
            let s : State := { s with dap := { s.dap with ways := tset (fun _ => 0) s.dap.ways (reqKey who) (fld h 23 16) } }
            dapArrives who m ok s)

def execNetReassemblyTimeout (t : Nat) (who : Requester) (s : State) : Res := .next (reasmExpires (reqKey who) (s.begin t))

/-! Lanes (R398, R486). -/

/-- A DAP folio. -/
def dapFolio (lane body : Nat) (ok : Bool) (s : State) : State :=
  let who : Requester := ⟨3 + lane, 0⟩
  let n := fld body 111 108
  if !pathServes s (3 + lane) then s
  else if n = 0 ∨ 13 < n then s.setReasm (reqKey who) none
  else
    let r := takeSegment (reqKey who) (bit body 119) (bit body 118) (fld body 117 112) 64 0 (leBytes n (fld body 103 0)) s
    match r.1.bind parseMsg with
    | some m => dapArrives who m ok r.2.2
    | none => r.2.2

def execLaneDapSegment (t lane body : Nat) (ok : Bool) (s : State) : Res :=
  .next (received lane (dapFolio lane body ok) (s.begin t))

end Sys2Proof.Machine
end

