-- ==== Sys2Proof/Machine/Dispatch.lean ====
section
/-! DEFINITION. The dispatcher: one arm per command of the table, each one direct call of the command's meaning. -/

namespace Sys2Proof.Machine

/-- A command's effect on everything but the queue. -/
def exec (i : Instr) (s : State) : Host.Outcome State Fault Refusal :=
  match i with
  | .registerWrite t src index sub data => Sys2Proof.Machine.execRegisterWrite t src index sub data s
  | .dapRead t who m => Sys2Proof.Machine.execDapRead t who m s
  | .dapWrite t who m ok => Sys2Proof.Machine.execDapWrite t who m ok s
  | .dapHello t who m => Sys2Proof.Machine.execDapHello t who m s
  | .dapSave t who m => Sys2Proof.Machine.execDapSave t who m s
  | .saveCommitWord t ok => Sys2Proof.Machine.execSaveCommitWord t ok s
  | .restoreDefaults t who m => Sys2Proof.Machine.execRestoreDefaults t who m s
  | .sessionOpen t who m => Sys2Proof.Machine.execSessionOpen t who m s
  | .sessionProve t who m => Sys2Proof.Machine.execSessionProve t who m s
  | .sessionClose t who m => Sys2Proof.Machine.execSessionClose t who m s
  | .dapAbort t who m => Sys2Proof.Machine.execDapAbort t who m s
  | .stagedWriteTimeout t who => Sys2Proof.Machine.execStagedWriteTimeout t who s
  | .sessionIdleTimeout t session => Sys2Proof.Machine.execSessionIdleTimeout t session s
  | .dapLockWrite t src value => Sys2Proof.Machine.execDapLockWrite t src value s
  | .lockTimeoutExpired t => Sys2Proof.Machine.execLockTimeoutExpired t s
  | .snapshotDiscard t who => Sys2Proof.Machine.execSnapshotDiscard t who s
  | .keptResponseExpiry t who => Sys2Proof.Machine.execKeptResponseExpiry t who s
  | .proofLockoutEnd t path => Sys2Proof.Machine.execProofLockoutEnd t path s
  | .subscriptionExpiry t place => Sys2Proof.Machine.execSubscriptionExpiry t place s
  | .notifySend t who n => Sys2Proof.Machine.execNotifySend t who n s
  | .canSegment t port frame ok => Sys2Proof.Machine.execCanSegment t port frame ok s
  | .canReassemblyAbort t port frame => Sys2Proof.Machine.execCanReassemblyAbort t port frame s
  | .canReassemblyTimeout t port host => Sys2Proof.Machine.execCanReassemblyTimeout t port host s
  | .netDatagram t who data ok => Sys2Proof.Machine.execNetDatagram t who data ok s
  | .netReassemblyTimeout t who => Sys2Proof.Machine.execNetReassemblyTimeout t who s
  | .arpRequest t target senderIp senderMac => Sys2Proof.Machine.execArpRequest t target senderIp senderMac s
  | .icmpEcho t source dest data => Sys2Proof.Machine.execIcmpEcho t source dest data s
  | .laneDapSegment t lane body ok => Sys2Proof.Machine.execLaneDapSegment t lane body ok s
  | .canApplySetup t src port => Sys2Proof.Machine.execCanApplySetup t src port s
  | .canLeaveBusOff t src port => Sys2Proof.Machine.execCanLeaveBusOff t src port s
  | .netApplySetup t src => Sys2Proof.Machine.execNetApplySetup t src s
  | .netRestartPhy t src => Sys2Proof.Machine.execNetRestartPhy t src s
  | .dapStatsClear t src => Sys2Proof.Machine.execDapStatsClear t src s
  | .evtStatusClear t src w value => Sys2Proof.Machine.execEvtStatusClear t src w value s
  | .evtEnableWrite t src w value => Sys2Proof.Machine.execEvtEnableWrite t src w value s
  | .evtSeverityWrite t src w value => Sys2Proof.Machine.execEvtSeverityWrite t src w value s
  | .evtClearAll t src => Sys2Proof.Machine.execEvtClearAll t src s
  | .evtClearId t src id => Sys2Proof.Machine.execEvtClearId t src id s
  | .evtTest t src id => Sys2Proof.Machine.execEvtTest t src id s
  | .evtDefaults t src => Sys2Proof.Machine.execEvtDefaults t src s
  | .safeMinLowExpiry t => Sys2Proof.Machine.execSafeMinLowExpiry t s
  | .endpointRecord t lane body => Sys2Proof.Machine.execEndpointRecord t lane body s
  | .streamRecord t lane body => Sys2Proof.Machine.execStreamRecord t lane body s
  | .withdrawFolio t lane body => Sys2Proof.Machine.execWithdrawFolio t lane body s
  | .heartbeatFolio t lane body => Sys2Proof.Machine.execHeartbeatFolio t lane body s
  | .heartbeatWindowEnd t ep => Sys2Proof.Machine.execHeartbeatWindowEnd t ep s
  | .deviceHeartbeatSend t => Sys2Proof.Machine.execDeviceHeartbeatSend t s
  | .streamRecordRepeat t => Sys2Proof.Machine.execStreamRecordRepeat t s
  | .stallTimeout t stream => Sys2Proof.Machine.execStallTimeout t stream s
  | .inputFrameStart t stream => Sys2Proof.Machine.execInputFrameStart t stream s
  | .dataFolio t lane slot payload => Sys2Proof.Machine.execDataFolio t lane slot payload s
  | .lineCheckFolio t lane body => Sys2Proof.Machine.execLineCheckFolio t lane body s
  | .poisonFolio t lane body => Sys2Proof.Machine.execPoisonFolio t lane body s
  | .tagFolio t lane body => Sys2Proof.Machine.execTagFolio t lane body s
  | .audioFolio t lane body => Sys2Proof.Machine.execAudioFolio t lane body s
  | .strCommit t src => Sys2Proof.Machine.execStrCommit t src s
  | .stvClear t src => Sys2Proof.Machine.execStvClear t src s
  | .takeGroup t src data => Sys2Proof.Machine.execTakeGroup t src data s
  | .takeCancel t src id => Sys2Proof.Machine.execTakeCancel t src id s
  | .takeEffectiveDt t id => Sys2Proof.Machine.execTakeEffectiveDt t id s
  | .c0TakeOverdue t id route => Sys2Proof.Machine.execC0TakeOverdue t id route s
  | .takeStatsClear t src => Sys2Proof.Machine.execTakeStatsClear t src s
  | .holdExpired t route => Sys2Proof.Machine.execHoldExpired t route s
  | .restoreDelayExpired t route => Sys2Proof.Machine.execRestoreDelayExpired t route s
  | .safeSetCommit t src ok => Sys2Proof.Machine.execSafeSetCommit t src ok s
  | .outputFrameBoundary t b => Sys2Proof.Machine.execOutputFrameBoundary t b s
  | .firstActiveLine t b => Sys2Proof.Machine.execFirstActiveLine t b s
  | .outputLineStart t n line late => Sys2Proof.Machine.execOutputLineStart t n line late s
  | .pushDone t n => Sys2Proof.Machine.execPushDone t n s
  | .syncEvent t n => Sys2Proof.Machine.execSyncEvent t n s
  | .syncTimeout t n => Sys2Proof.Machine.execSyncTimeout t n s
  | .outCommit t src n => Sys2Proof.Machine.execOutCommit t src n s
  | .rasterClearLate t src n => Sys2Proof.Machine.execRasterClearLate t src n s
  | .rasterClearCounts t src n => Sys2Proof.Machine.execRasterClearCounts t src n s
  | .rasterResetRegions t src n => Sys2Proof.Machine.execRasterResetRegions t src n s
  | .outCompDisable t src n => Sys2Proof.Machine.execOutCompDisable t src n s
  | .outCompEnable t src n => Sys2Proof.Machine.execOutCompEnable t src n s
  | .outCompRetest t src n pass => Sys2Proof.Machine.execOutCompRetest t src n pass s
  | .outCompClearCounters t src n => Sys2Proof.Machine.execOutCompClearCounters t src n s
  | .fabPortRestore t src pass => Sys2Proof.Machine.execFabPortRestore t src pass s
  | .fabStatsClear t src => Sys2Proof.Machine.execFabStatsClear t src s
  | .sharedFlitArrival t port offers => Sys2Proof.Machine.execSharedFlitArrival t port offers s
  | .spineTransfer t egress offers => Sys2Proof.Machine.execSpineTransfer t egress offers s
  | .handshakeTimeout t spine port => Sys2Proof.Machine.execHandshakeTimeout t spine port s
  | .egressStall t port => Sys2Proof.Machine.execEgressStall t port s
  | .fabSpeedUpdate t speeds => Sys2Proof.Machine.execFabSpeedUpdate t speeds s
  | .convApply t src unit => Sys2Proof.Machine.execConvApply t src unit s
  | .convDisable t src unit => Sys2Proof.Machine.execConvDisable t src unit s
  | .convEnable t src unit => Sys2Proof.Machine.execConvEnable t src unit s
  | .convRetest t src unit pass => Sys2Proof.Machine.execConvRetest t src unit pass s
  | .convClearCounts t src unit => Sys2Proof.Machine.execConvClearCounts t src unit s
  | .convSpeedUpdate t speeds => Sys2Proof.Machine.execConvSpeedUpdate t speeds s
  | .fsPoolCommit t src => Sys2Proof.Machine.execFsPoolCommit t src s
  | .fsAlloc t src cmd => Sys2Proof.Machine.execFsAlloc t src cmd s
  | .fsFree t src cmd => Sys2Proof.Machine.execFsFree t src cmd s
  | .fsCancelQueued t src cmd => Sys2Proof.Machine.execFsCancelQueued t src cmd s
  | .fsBufWrite t src header data => Sys2Proof.Machine.execFsBufWrite t src header data s
  | .fsBufRead t who => Sys2Proof.Machine.execFsBufRead t who s
  | .queuedWriteTimeout t handle => Sys2Proof.Machine.execQueuedWriteTimeout t handle s
  | .fsChRetire t src k => Sys2Proof.Machine.execFsChRetire t src k s
  | .fsChRestore t src k => Sys2Proof.Machine.execFsChRestore t src k s
  | .fsChSweep t src k => Sys2Proof.Machine.execFsChSweep t src k s
  | .marginSweepStart t load => Sys2Proof.Machine.execMarginSweepStart t load s
  | .sweepPartDone t margin => Sys2Proof.Machine.execSweepPartDone t margin s
  | .evacuationDone t k => Sys2Proof.Machine.execEvacuationDone t k s
  | .evacuationRetry t k => Sys2Proof.Machine.execEvacuationRetry t k s
  | .channelRetrainDone t k trained slow margin => Sys2Proof.Machine.execChannelRetrainDone t k trained slow margin s
  | .dramBurstRead t k use c0 reads => Sys2Proof.Machine.execDramBurstRead t k use c0 reads s
  | .fsWinCommit t src => Sys2Proof.Machine.execFsWinCommit t src s
  | .fsWinTrigger t src w => Sys2Proof.Machine.execFsWinTrigger t src w s
  | .fsWinRelease t src w => Sys2Proof.Machine.execFsWinRelease t src w s
  | .fsWinRestart t src w => Sys2Proof.Machine.execFsWinRestart t src w s
  | .windowPostExpiry t w => Sys2Proof.Machine.execWindowPostExpiry t w s
  | .fsStatsClear t src => Sys2Proof.Machine.execFsStatsClear t src s
  | .cmpApply t src engine => Sys2Proof.Machine.execCmpApply t src engine s
  | .cmpDisable t src engine => Sys2Proof.Machine.execCmpDisable t src engine s
  | .cmpEnable t src engine => Sys2Proof.Machine.execCmpEnable t src engine s
  | .cmpRetest t src engine pass => Sys2Proof.Machine.execCmpRetest t src engine pass s
  | .cmpClearCounters t src engine => Sys2Proof.Machine.execCmpClearCounters t src engine s
  | .cmpStatsClear t src => Sys2Proof.Machine.execCmpStatsClear t src s
  | .audCommit t src => Sys2Proof.Machine.execAudCommit t src s
  | .audioBlockBoundary t clipped readings => Sys2Proof.Machine.execAudioBlockBoundary t clipped readings s
  | .chimeStart t src g latency => Sys2Proof.Machine.execChimeStart t src g latency s
  | .chimeStop t src g => Sys2Proof.Machine.execChimeStop t src g s
  | .chimeStopAll t src => Sys2Proof.Machine.execChimeStopAll t src s
  | .chimePatternStep t g => Sys2Proof.Machine.execChimePatternStep t g s
  | .tdmFrame t port rate => Sys2Proof.Machine.execTdmFrame t port rate s
  | .tdmClockTimeout t port => Sys2Proof.Machine.execTdmClockTimeout t port s
  | .tdmClearCounts t src port => Sys2Proof.Machine.execTdmClearCounts t src port s
  | .tdmResync t src port => Sys2Proof.Machine.execTdmResync t src port s
  | .audMuteAll t src value => Sys2Proof.Machine.execAudMuteAll t src value s
  | .audStatsClear t src => Sys2Proof.Machine.execAudStatsClear t src s
  | .soundWrite t src data ok => Sys2Proof.Machine.execSoundWrite t src data ok s
  | .soundDelete t src id => Sys2Proof.Machine.execSoundDelete t src id s
  | .phyApply t src lane => Sys2Proof.Machine.execPhyApply t src lane s
  | .phyRetrain t src lane => Sys2Proof.Machine.execPhyRetrain t src lane s
  | .phyQuiet t src lane => Sys2Proof.Machine.execPhyQuiet t src lane s
  | .phyDormant t src lane => Sys2Proof.Machine.execPhyDormant t src lane s
  | .phyWake t src lane => Sys2Proof.Machine.execPhyWake t src lane s
  | .phyLoopStart t src lane => Sys2Proof.Machine.execPhyLoopStart t src lane s
  | .phyLoopStop t src lane => Sys2Proof.Machine.execPhyLoopStop t src lane s
  | .phySweep t src lane => Sys2Proof.Machine.execPhySweep t src lane s
  | .phyClearCounts t src lane => Sys2Proof.Machine.execPhyClearCounts t src lane s
  | .calibrationDone t lane => Sys2Proof.Machine.execCalibrationDone t lane s
  | .trainingDone t lane converged residue => Sys2Proof.Machine.execTrainingDone t lane converged residue s
  | .noSignalTimeout t lane => Sys2Proof.Machine.execNoSignalTimeout t lane s
  | .signalLoss t lane => Sys2Proof.Machine.execSignalLoss t lane s
  | .relockDone t lane locked full signal => Sys2Proof.Machine.execRelockDone t lane locked full signal s
  | .failedRetry t lane => Sys2Proof.Machine.execFailedRetry t lane s
  | .quietDelayExpiry t lane => Sys2Proof.Machine.execQuietDelayExpiry t lane s
  | .dormantDelayExpiry t lane => Sys2Proof.Machine.execDormantDelayExpiry t lane s
  | .wakeBurst t lane => Sys2Proof.Machine.execWakeBurst t lane s
  | .wakeDone t lane exit => Sys2Proof.Machine.execWakeDone t lane exit s
  | .loopDurationExpiry t lane bits errors => Sys2Proof.Machine.execLoopDurationExpiry t lane bits errors s
  | .loopSyncTimeout t lane => Sys2Proof.Machine.execLoopSyncTimeout t lane s
  | .histogramWindow t lane levels => Sys2Proof.Machine.execHistogramWindow t lane levels s
  | .idleRun t lane => Sys2Proof.Machine.execIdleRun t lane s
  | .phyrefLoss t => Sys2Proof.Machine.execPhyrefLoss t s
  | .turnFolio t lane skew symbols => Sys2Proof.Machine.execTurnFolio t lane skew symbols s
  | .skipFolio t lane => Sys2Proof.Machine.execSkipFolio t lane s
  | .idleFolio t lane slot => Sys2Proof.Machine.execIdleFolio t lane slot s
  | .invalidHeader t lane slot => Sys2Proof.Machine.execInvalidHeader t lane slot s
  | .txTurnStart t lane => Sys2Proof.Machine.execTxTurnStart t lane s
  | .calendarSegment t lane body => Sys2Proof.Machine.execCalendarSegment t lane body s
  | .calendarCommit t lane body => Sys2Proof.Machine.execCalendarCommit t lane body s
  | .calendarAck t lane body => Sys2Proof.Machine.execCalendarAck t lane body s
  | .calendarRefuse t lane body => Sys2Proof.Machine.execCalendarRefuse t lane body s
  | .colophonPart0 t lane body => Sys2Proof.Machine.execColophonPart0 t lane body s
  | .colophonPart1 t lane body => Sys2Proof.Machine.execColophonPart1 t lane body s
  | .colophonPart2 t lane body => Sys2Proof.Machine.execColophonPart2 t lane body s
  | .colophonResponse t lane part3 part4 => Sys2Proof.Machine.execColophonResponse t lane part3 part4 s
  | .colophonTimeout t lane => Sys2Proof.Machine.execColophonTimeout t lane s
  | .authTimeout t lane => Sys2Proof.Machine.execAuthTimeout t lane s
  | .resumeTimeout t lane => Sys2Proof.Machine.execResumeTimeout t lane s
  | .rateRequestFolio t lane body => Sys2Proof.Machine.execRateRequestFolio t lane body s
  | .rateAcceptFolio t lane body => Sys2Proof.Machine.execRateAcceptFolio t lane body s
  | .rateRefuseFolio t lane body => Sys2Proof.Machine.execRateRefuseFolio t lane body s
  | .quietRequestFolio t lane => Sys2Proof.Machine.execQuietRequestFolio t lane s
  | .dormantRequestFolio t lane => Sys2Proof.Machine.execDormantRequestFolio t lane s
  | .lpAcceptFolio t lane => Sys2Proof.Machine.execLpAcceptFolio t lane s
  | .lpRefuseFolio t lane => Sys2Proof.Machine.execLpRefuseFolio t lane s
  | .loopRequestFolio t lane body => Sys2Proof.Machine.execLoopRequestFolio t lane body s
  | .loopAcceptFolio t lane => Sys2Proof.Machine.execLoopAcceptFolio t lane s
  | .loopRefuseFolio t lane => Sys2Proof.Machine.execLoopRefuseFolio t lane s
  | .loopEndFolio t lane => Sys2Proof.Machine.execLoopEndFolio t lane s
  | .bondMemberLost t lane body => Sys2Proof.Machine.execBondMemberLost t lane body s
  | .bondMemberWithdrawn t lane body => Sys2Proof.Machine.execBondMemberWithdrawn t lane body s
  | .bondMemberReady t lane body => Sys2Proof.Machine.execBondMemberReady t lane body s
  | .lnkApplySetup t src lane => Sys2Proof.Machine.execLnkApplySetup t src lane s
  | .lnkAnnounceCalendar t src lane => Sys2Proof.Machine.execLnkAnnounceCalendar t src lane s
  | .lnkRenegotiate t src lane => Sys2Proof.Machine.execLnkRenegotiate t src lane s
  | .lnkCancelCalendar t src lane => Sys2Proof.Machine.execLnkCancelCalendar t src lane s
  | .lnkClearCounts t src lane => Sys2Proof.Machine.execLnkClearCounts t src lane s
  | .lnkRateRequest t src lane rate => Sys2Proof.Machine.execLnkRateRequest t src lane rate s
  | .lnkStatsClear t src => Sys2Proof.Machine.execLnkStatsClear t src s
  | .epochAdvance t lane => Sys2Proof.Machine.execEpochAdvance t lane s
  | .orphanEpochEnd t who => Sys2Proof.Machine.execOrphanEpochEnd t who s
  | .reauthRetry t lane => Sys2Proof.Machine.execReauthRetry t lane s
  | .refApply t src n => Sys2Proof.Machine.execRefApply t src n s
  | .refRequalify t src n => Sys2Proof.Machine.execRefRequalify t src n s
  | .refClearCounts t src n => Sys2Proof.Machine.execRefClearCounts t src n s
  | .domApply t src n build => Sys2Proof.Machine.execDomApply t src n build s
  | .domClearHistory t src n => Sys2Proof.Machine.execDomClearHistory t src n s
  | .domClearCounts t src n => Sys2Proof.Machine.execDomClearCounts t src n s
  | .refStatsClear t src => Sys2Proof.Machine.execRefStatsClear t src s
  | .refActivityTimeout t n => Sys2Proof.Machine.execRefActivityTimeout t n s
  | .refPulseEdge t n => Sys2Proof.Machine.execRefPulseEdge t n s
  | .refWindowEnd t n offset doms => Sys2Proof.Machine.execRefWindowEnd t n offset doms s
  | .refQualTimeExpiry t n => Sys2Proof.Machine.execRefQualTimeExpiry t n s
  | .selectionEval t build => Sys2Proof.Machine.execSelectionEval t build s
  | .historyTick t freqs => Sys2Proof.Machine.execHistoryTick t freqs s
  | .domFramePulse t n => Sys2Proof.Machine.execDomFramePulse t n s
  | .dtDomainWrite t src value => Sys2Proof.Machine.execDtDomainWrite t src value s
  | .gptpSync t gm delay => Sys2Proof.Machine.execGptpSync t gm delay s
  | .netMapLatch t seconds nanos => Sys2Proof.Machine.execNetMapLatch t seconds nanos s
  | .xoLoss t phyref => Sys2Proof.Machine.execXoLoss t phyref s
  | .secUpdate t src data ok => Sys2Proof.Machine.execSecUpdate t src data ok s
  | .secChallenge t src data => Sys2Proof.Machine.execSecChallenge t src data s
  | .secStatsClear t src => Sys2Proof.Machine.execSecStatsClear t src s
  | .tamperTrip t source => Sys2Proof.Machine.execTamperTrip t source s
  | .remaskTick t slot => Sys2Proof.Machine.execRemaskTick t slot s
  | .transportKeyLoad t key => Sys2Proof.Machine.execTransportKeyLoad t key s
  | .recoveryWaitEnd t => Sys2Proof.Machine.execRecoveryWaitEnd t s
  | .railGood t rail mv => Sys2Proof.Machine.execRailGood t rail mv s
  | .keeperRailFail t rail mv => Sys2Proof.Machine.execKeeperRailFail t rail mv s
  | .bulkRailFail t rail mv => Sys2Proof.Machine.execBulkRailFail t rail mv s
  | .railHigh t rail mv => Sys2Proof.Machine.execRailHigh t rail mv s
  | .mainQualified t => Sys2Proof.Machine.execMainQualified t s
  | .sideAQualified t => Sys2Proof.Machine.execSideAQualified t s
  | .holdupEntry t => Sys2Proof.Machine.execHoldupEntry t s
  | .holdupIndicatorTick t mv => Sys2Proof.Machine.execHoldupIndicatorTick t mv s
  | .thermalTrip t sensors => Sys2Proof.Machine.execThermalTrip t sensors s
  | .thermalReturn t sensors => Sys2Proof.Machine.execThermalReturn t sensors s
  | .tjRangeCrossing t sensors => Sys2Proof.Machine.execTjRangeCrossing t sensors s
  | .govApply t src => Sys2Proof.Machine.execGovApply t src s
  | .govPause t src => Sys2Proof.Machine.execGovPause t src s
  | .govResume t src => Sys2Proof.Machine.execGovResume t src s
  | .govClearFault t src => Sys2Proof.Machine.execGovClearFault t src s
  | .govInterval t => Sys2Proof.Machine.execGovInterval t s
  | .govWaitTimeout t => Sys2Proof.Machine.execGovWaitTimeout t s
  | .avsTransactionDone t read => Sys2Proof.Machine.execAvsTransactionDone t read s
  | .pwrStatsClear t src => Sys2Proof.Machine.execPwrStatsClear t src s
  | .powerOn t good straps => Sys2Proof.Machine.execPowerOn t good straps s
  | .resetNAssert t => Sys2Proof.Machine.execResetNAssert t s
  | .resetNRelease t straps => Sys2Proof.Machine.execResetNRelease t straps s
  | .rstCold t src => Sys2Proof.Machine.execRstCold t src s
  | .rstWarm t src => Sys2Proof.Machine.execRstWarm t src s
  | .rstProcRestart t src => Sys2Proof.Machine.execRstProcRestart t src s
  | .rstSubsystem t src value pass => Sys2Proof.Machine.execRstSubsystem t src value pass s
  | .rstProceed t src => Sys2Proof.Machine.execRstProceed t src s
  | .warmHoldExpiry t => Sys2Proof.Machine.execWarmHoldExpiry t s
  | .startFailedClear t src => Sys2Proof.Machine.execStartFailedClear t src s
  | .startS0Supply t good mv => Sys2Proof.Machine.execStartS0Supply t good mv s
  | .startS1Osc t xo phyref => Sys2Proof.Machine.execStartS1Osc t xo phyref s
  | .startS2Nvm t ok => Sys2Proof.Machine.execStartS2Nvm t ok s
  | .startS3Root t root puf => Sys2Proof.Machine.execStartS3Root t root puf s
  | .startS4Firmware t a b => Sys2Proof.Machine.execStartS4Firmware t a b s
  | .startS5Keeper t failed assets sounds => Sys2Proof.Machine.execStartS5Keeper t failed assets sounds s
  | .startS6Firstlight t => Sys2Proof.Machine.execStartS6Firstlight t s
  | .startS7DramTrain t results => Sys2Proof.Machine.execStartS7DramTrain t results s
  | .startS8DramWipe t failed => Sys2Proof.Machine.execStartS8DramWipe t failed s
  | .startS9Lanes t => Sys2Proof.Machine.execStartS9Lanes t s
  | .startS10Config t ok => Sys2Proof.Machine.execStartS10Config t ok s
  | .startS11Routes t => Sys2Proof.Machine.execStartS11Routes t s
  | .lcRequest t src data ok => Sys2Proof.Machine.execLcRequest t src data ok s
  | .cbCommit t ok => Sys2Proof.Machine.execCbCommit t ok s
  | .cbNote t src text => Sys2Proof.Machine.execCbNote t src text s
  | .cbStatsClear t src => Sys2Proof.Machine.execCbStatsClear t src s
  | .cbDigestTick t => Sys2Proof.Machine.execCbDigestTick t s
  | .cbNvmRetry t ok => Sys2Proof.Machine.execCbNvmRetry t ok s
  | .cbRead t who damaged => Sys2Proof.Machine.execCbRead t who damaged s
  | .busWatchdogExpiry t hang => Sys2Proof.Machine.execBusWatchdogExpiry t hang s
  | .assetWrite t src data ok => Sys2Proof.Machine.execAssetWrite t src data ok s
  | .assetDelete t src id => Sys2Proof.Machine.execAssetDelete t src id s
  | .svcWindowAccess t src data => Sys2Proof.Machine.execSvcWindowAccess t src data s
  | .fwImageWrite t src image ok => Sys2Proof.Machine.execFwImageWrite t src image ok s
  | .fwTrial t src => Sys2Proof.Machine.execFwTrial t src s
  | .fwConfirm t src => Sys2Proof.Machine.execFwConfirm t src s
  | .fwRevert t src => Sys2Proof.Machine.execFwRevert t src s
  | .fwConfirmTimeout t => Sys2Proof.Machine.execFwConfirmTimeout t s
  | .procWatchdogExpiry t => Sys2Proof.Machine.execProcWatchdogExpiry t s
  | .drainDone t kind inst => Sys2Proof.Machine.execDrainDone t kind inst s
  | .drainLimit t kind inst lost => Sys2Proof.Machine.execDrainLimit t kind inst lost s
  | .busStatsClear t src => Sys2Proof.Machine.execBusStatsClear t src s
  | .clockSourceActive t n => Sys2Proof.Machine.execClockSourceActive t n s
  | .holdInFail t mv => Sys2Proof.Machine.execHoldInFail t mv s
  | .holdupStoreExhausted t => Sys2Proof.Machine.execHoldupStoreExhausted t s
  | .asrcUnlock t input out ratio => Sys2Proof.Machine.execAsrcUnlock t input out ratio s
  | .netLinkChange t up => Sys2Proof.Machine.execNetLinkChange t up s
  | .canBusError t port tec rec => Sys2Proof.Machine.execCanBusError t port tec rec s
  | .canBusOffRecovery t port => Sys2Proof.Machine.execCanBusOffRecovery t port s
  | .vddqAboveVdd2 t vddq vdd2 => Sys2Proof.Machine.execVddqAboveVdd2 t vddq vdd2 s
  | .unknownControlFolio t lane slot ctype => Sys2Proof.Machine.execUnknownControlFolio t lane slot ctype s

end Sys2Proof.Machine
end

