-- ==== Sys2Proof/Safety.lean ====
section
/-! DEFINITION. What a state of a safe run is, in the terms that the statements use. -/

namespace Sys2Proof

open Machine

/-- The memory of the frame store in its canonical form: addresses strictly rising, and no entry equal to 0, what an unlisted
byte reads as. -/
abbrev Memory.wf (m : List Host.Cell) : Bool := twf (fun _ => (0 : BitVec 8)) m

/-- How far a life-cycle state is on the way of R571; FIELD and SERVICE change into each other. -/
def lcRank (lc : Nat) : Nat := if lc < 2 then lc else if lc ≤ 3 then 2 else 3

/-- The two pins as R488 ties them to the latched events: EVT_N is low exactly while a latched event is enabled; SAFE_N is low
through the start hold and while a bit latched under severity SAFE stands; such a bit is a status bit. -/
structure PinsOk (e : EvtState) : Prop where
  evtN : e.evtN = ((e.status &&& e.enable) == 0)
  hold : e.startHold = true → e.safeN = false
  safe : e.safeBits ≠ 0 → e.safeN = false
  latched : e.safeBits &&& e.status = e.safeBits

/-- A request that a path executes at once, in the state as the command finds it: the path serves, no SAVE runs and nothing
waits behind one, it repeats no request whose response is kept, and its header passes (R469 to R476). -/
structure Executes (who : Requester) (m : Msg) (s : State) : Prop where
  serves : pathServes s who.path = true
  save : s.dap.save = none
  waiting : s.dap.waiting = []
  fresh : keptFor who m s = none
  header : headerCode s who m = stDone

/-- The request carries no authentication. -/
def plainRequest (m : Msg) : Prop := bit m.flags flAuth = false

/-- The session n, whose state is x, authenticates the request (R479): proved, its requester's, with a higher SEQ and the
right MAC. -/
structure Proves (who : Requester) (m : Msg) (n : Nat) (x : Session) (s : State) : Prop where
  auth : bit m.flags flAuth = true
  named : ∃ tr, m.trailer = some tr ∧ tr.session = n ∧ x.hostSeq < tr.seq ∧
    tr.mac = messageMac x.key (headerBytes m m.op 0 m.flags m.length) m.data (trailerTail n tr.seq)
  held : oget s.dap.sessions n = some x
  owner : x.who = who
  proved : x.proved = true

/-- The response to m that its requester gets, and that is kept for a repetition (R469, R476): status, FLAGS and data. -/
def Answered (who : Requester) (m : Msg) (status flags : Nat) (data : List Nat) (s : State) : Prop :=
  ∃ k ∈ tget (fun _ => []) s.dap.kept (reqKey who), k.tag = m.tag ∧ k.op = m.op ∧
    k.resp = headerBytes m ((m.op + 0x80) % 256) status flags data.length ++ data

/-- The counts that a raise may change beside the event block: NOTIFY records dropped (R487), casebook records lost (R584), and
the chimes played with their last DT (R330). -/
def raiseRegs : List Nat := [Reg.dapNotifyDropped, Reg.cbLost, Reg.chimeCount, Reg.chimeLastDt]

/-- b is a with the events `ids` raised (R503). Their status bits are latched, those of severity SAFE for
SAFE_N too (R506), and each raise is counted; no latched bit is lost, and no other bit is new but CB_RECORDS_LOST (R584) and CHIME_PLAYED of a generator that a raise starts (R330).
Nothing else changes but the event block, the casebook's queue, the NOTIFY queues, the windows that a SAFE event triggers
(R209), and the chimes and the ducking that a raise starts; of the registers, the counts of `raiseRegs` alone. -/
structure Raises (ids : List Nat) (a b : State) : Prop where
  latched : ∀ i, (bit a.evt.status i = true ∨ i ∈ ids) → bit b.evt.status i = true
  only : ∀ i, bit b.evt.status i = true →
    bit a.evt.status i = true ∨ i ∈ ids ∨ i = Ev.cbRecordsLost ∨ ∃ g, i = Ev.chimePlayed g
  safe : ∀ i, (bit a.evt.safeBits i = true ∨ i ∈ ids ∧ a.severityOf i = 0) → bit b.evt.safeBits i = true
  count : a.evt.count + ids.length ≤ b.evt.count
  words : b.evt.enable = a.evt.enable ∧ b.evt.severity = a.evt.severity ∧ b.evt.startHold = a.evt.startHold
  rest : b = { a with
    evt := b.evt, cb := b.cb, regs := b.regs
    dap := { a.dap with queues := b.dap.queues }
    fs := { a.fs with wins := b.fs.wins }
    aud := { a.aud with chimes := b.aud.chimes, outs := b.aud.outs } }
  regs : ∀ k, k ∉ raiseRegs → b.reg k = a.reg k

/-- The state in which a request that executes at once is carried out: it is counted on its path (R491), and a message of the
path that holds DAP_LOCK keeps the lock (R481). -/
def arrived (t : Nat) (who : Requester) (s : State) : State :=
  let a := (s.begin t).modPath who.path fun p => { p with requests := p.requests + 1, lastMsg := some (max s.dt t) }
  if s.reg Reg.dapLock = who.path then { a with dap := { a.dap with lockMsg := max s.dt t } } else a

/-- The same for a request that session n authenticates: the session takes the request's SEQ and is not idle (R478, R479). -/
def arrivedBy (t : Nat) (who : Requester) (m : Msg) (n : Nat) (x : Session) (s : State) : State :=
  let a := arrived t who s
  let y : Session := { x with lastMsg := max s.dt t, hostSeq := (m.trailer.map (·.seq)).getD 0 }
  { a with dap := { a.dap with sessions := oset a.dap.sessions n (some y) } }

/-- Answering a request changes nothing but what is sent, the responses kept for its requester, and on a lane the control
folios that wait there. -/
structure OnlyAnswered (who : Requester) (a b : State) : Prop where
  rest : b = { a with out := b.out, lnk := b.lnk, dap := { a.dap with kept := b.dap.kept } }
  lanes : who.path < 3 → b.lnk = a.lnk
  links : ∀ n, 3 + n ≠ who.path → b.link n = a.link n
  others : ∀ k, k ≠ reqKey who → tget (fun _ => []) b.dap.kept k = tget (fun _ => []) a.dap.kept k

/-- The state with an error response counted (R490, R491). -/
def errorCounted (who : Requester) (s : State) : State :=
  (s.count Reg.dapErrors 1).modPath who.path fun p => { p with errors := p.errors + 1 }

/-- The authenticated response to m under session n, whose state is x (R479): with AUTH set, the data, the MAC, and the trailer
with the SEQ of the device, which rises by 1. -/
def AnsweredBy (who : Requester) (m : Msg) (n : Nat) (x : Session) (status : Nat) (data : List Nat) (s : State) : Prop :=
  let head := headerBytes m ((m.op + 0x80) % 256) status (2 ^ flAuth) data.length
  let tail := trailerTail n (x.devSeq + 1)
  ∃ k ∈ tget (fun _ => []) s.dap.kept (reqKey who), k.tag = m.tag ∧ k.op = m.op ∧
    k.resp = head ++ data ++ leBytes 16 (messageMac x.key head data tail) ++ tail

/-- The authenticated response that carries a part of a value (R471, R479): as AnsweredBy, with END where `final` says that the
part reaches the end. -/
def AnsweredPart (who : Requester) (m : Msg) (n : Nat) (x : Session) (final : Bool) (data : List Nat) (s : State) : Prop :=
  let head := headerBytes m ((m.op + 0x80) % 256) stDone ((if final then 2 ^ flEnd else 0) + 2 ^ flAuth) data.length
  let tail := trailerTail n (x.devSeq + 1)
  ∃ k ∈ tget (fun _ => []) s.dap.kept (reqKey who), k.tag = m.tag ∧ k.op = m.op ∧
    k.resp = head ++ data ++ leBytes 16 (messageMac x.key head data tail) ++ tail

/-- RW and RWC entries whose write does more than keep the value, or is limited to some values by its own rule: the status and
enable words (R504, R505), DAP_PATH_ENABLE and DAP_NOTIFY_ENABLE (R462, R487), DAP_LOCK (R481), DT_DOMAIN (R446),
LNK_RATE_REQUEST (R420), STR_ENDPOINT_KEEP (R411), AUD_MUTE_ALL (R335) and CHIME_TABLE (R329). -/
def actsOnWrite (key : Nat) : Bool :=
  let i := key / 256
  i == 0x1300 || i == 0x1301 || (decide (0x3000 ≤ i ∧ i < 0x3020) && key % 256 == 0x18) ||
    [Reg.dapPathEnable, Reg.dapNotifyEnable, Reg.dapLock, Reg.dtDomain, Reg.strEndpointKeep, Reg.audMuteAll, Reg.chimeTable].contains key

/-- A lane on which nothing leans: no lane clock (R432), no lane phased to it (R105), no frame arriving, no push under way, no
in-service change of it (R600), and its link down. -/
structure LaneAlone (lane : Nat) (s : State) : Prop where
  clock : ∀ n ∈ [8, 9, 10], rsEnable (s.refSetup n) = true → rsLane (s.refSetup n) ≠ lane
  phase : ∀ n, n < 32 → (s.phase n).source ≠ some lane
  streams : ∀ e ∈ s.str.ins, e.2.frame = none
  pushes : ∀ o ∈ s.comp.outs, o.2.push = none
  change : s.sup.inservice ≠ some (laneChange lane)
  link : (s.link lane).mode = .down

/-- A raise of an event that is reported at most once in `period` is reported at time `now` (R510). -/
def reportDue (period id now : Nat) (s : State) : Prop :=
  ∀ x, (tget (fun _ => {}) s.evt.limits id : Limit).last = some x → x + period ≤ now

end Sys2Proof
end

