-- ==== Sys2Proof/Certificates/Slice0/Obligations.lean ====
section
/-! DEFINITION. The statements about the model. In each, `u` is the next state; what a statement does not say of `u`
through a field it names is said by its last clause, the frame: `u` is the state before with the named fields changed.
`gate` is the check that every write of the host passes first (GateRefuses says what it is). -/

open Sys2Proof Sys2Proof.Machine

/-! The queue, reset and what every step keeps. -/

/-- The command at the front of the queue runs on the state with the queue's rest, and an empty queue idles (the model's own
reading of the queue, log entry 4). -/
def Obligations.StepRunsFrontCommand : Prop :=
  (∀ (c : Instr) (rest : List Instr) (s : State), s.pending = c :: rest → step s = exec c { s with pending := rest }) ∧
  (∀ s : State, s.pending = [] → step s = .next s) ∧
  ∀ (c : Instr) (s : State), step (s.withCommand c) = exec c s

/-- What the spec states of the machine right after reset: DT is 0 (R446), the status words are 0 and the enable and severity
words hold their defaults (R510), SAFE_N is low and EVT_N high (R488), no lane, output, buffer, session or route is in use,
and entries read the defaults of their tables. -/
def Obligations.ResetHoldsTheStatedValues : Prop :=
  State.reset.dt = 0 ∧ State.reset.pending = [] ∧ State.reset.evt.status = 0 ∧ State.reset.evt.safeN = false ∧
  State.reset.evt.evtN = true ∧ State.reset.evt.enable = evtDefaultEnable ∧ State.reset.evt.severity = evtDefaultSeverity ∧
  (∀ n, (State.reset.lane n).mode = .off ∧ (State.reset.link n).mode = .down ∧ (State.reset.link n).rxCal = factoryCalendar) ∧
  (∀ n, (State.reset.outp n).comp = .off ∧ (State.reset.outp n).raster = .off) ∧
  (∀ r, (State.reset.route r).mode = .empty) ∧ (∀ k, (State.reset.ins k).mode = .absent) ∧
  (∀ b, (State.reset.buf b).mode = .free) ∧ (∀ k, (State.reset.chan k).mode = .untrained) ∧
  (∀ n, oget State.reset.dap.sessions n = none) ∧ State.reset.start.next = 0 ∧
  State.reset.reg Reg.dapLock = 0xFF ∧ State.reset.reg Reg.strStallTime = 100 ∧ State.reset.reg Reg.rtHoldDefault = 500 ∧
  State.reset.reg Reg.evtSafeMinLow = 10 ∧ State.reset.reg Reg.govVcoreSet = 750 ∧ State.reset.reg Reg.startLoopLimit = 3

/-- What every step keeps: the memory of the frame store in canonical form, the pins as R488 ties them to the latched
events, and a life-cycle state among the five of R571. -/
def Obligations.StepKeepsTheInvariants : Prop :=
  ∀ s u : State, step s = .next u →
    (Memory.wf s.fs.mem = true → Memory.wf u.fs.mem = true) ∧ (PinsOk s.evt → PinsOk u.evt) ∧ (s.nvm.lc ≤ 4 → u.nvm.lc ≤ 4)

/-- The invariants of StepKeepsTheInvariants hold after reset. -/
def Obligations.ResetMeetsTheInvariants : Prop :=
  Memory.wf State.reset.fs.mem = true ∧ PinsOk State.reset.evt ∧ State.reset.nvm.lc ≤ 4

/-- Device time never falls and never wraps (R19): it is a whole number that no step but a power-on makes smaller, and a command
of a later time brings it there. -/
def Obligations.DeviceTimeNeverFalls : Prop :=
  (∀ s u : State, step s = .next u → (∀ t good straps, s.pending.head? ≠ some (.powerOn t good straps)) → s.dt ≤ u.dt) ∧
  ∀ (t : Nat) (s : State), (s.begin t).dt = max s.dt t

/-- What no step turns back: the life-cycle on the way of R571; the boot count, the key
update counter (R533) and the casebook's next sequence number (R580). And no step touches the queue but to take its front. -/
def Obligations.StepNeverTurnsBack : Prop :=
  ∀ s u : State, step s = .next u →
    lcRank s.nvm.lc ≤ lcRank u.nvm.lc ∧ s.nvm.boot ≤ u.nvm.boot ∧ s.nvm.keys.counter ≤ u.nvm.keys.counter ∧
    s.nvm.cb.nextSeq ≤ u.nvm.cb.nextSeq ∧ u.pending = s.pending.tail

/-- Every command has its effect: none of the 293 stops the machine, in any state. -/
def Obligations.EveryCommandAnswersNext : Prop :=
  ∀ (c : Instr) (s : State), ∃ u : State, exec c s = .next u ∧ u.pending = s.pending

/-! Writes of the host. -/

/-- What turns a write away before its entry's own rule, in the order of log entry 18 (the order is the model's choice): an
unknown entry, an entry without write access (R464), a write before the end of S10 (R462) or to a RETIRED part (R574), an
entry under RWS without a session (R464), and an entry under the lock that another path holds (R481). Nothing else of the state
changes: a command of the host that the gate turns away sends its status and does no more (R4). -/
def Obligations.GateRefuses : Prop :=
  (∀ src key commit (s : State), keyEntry key = none → gate src key commit s = stUnknown) ∧
  (∀ src key commit e (s : State), keyEntry key = some e → (e.right = .ro ∨ e.right = .const) → gate src key commit s = stRight) ∧
  (∀ src key commit e (s : State), keyEntry key = some e → e.right ≠ .ro → e.right ≠ .const → s.nvm.lc = 4 →
    gate src key commit s = stNotNow) ∧
  (∀ src key commit e (s : State), keyEntry key = some e → e.right ≠ .ro → e.right ≠ .const → s.start.next < 5 →
    s.start.kind ≠ 3 → s.start.recovery ≠ 2 → gate src key commit s = stNotNow) ∧
  (∀ src key commit e (s : State), keyEntry key = some e → e.right = .rws → src.auth = false → s.nvm.lc ≠ 4 →
    11 ≤ s.start.next → s.reg Reg.pwrState = 1 → gate src key commit s = stSession) ∧
  (∀ src key commit e (s : State), keyEntry key = some e → (e.right = .rwc ∨ (e.right = .rws ∧ src.auth = true) ∨
      (commit = true ∧ e.right = .wo)) → s.nvm.lc ≠ 4 → 11 ≤ s.start.next → s.reg Reg.pwrState = 1 →
    s.reg Reg.dapLock ≠ 0xFF → s.reg Reg.dapLock ≠ src.who.path → gate src key commit s = stBusy) ∧
  ∀ src key commit (op : State → State × Nat) (s : State), gate src key commit s ≠ stDone →
    answer src key commit op s = s.emit (.status src.who (gate src key commit s))

/-! The event words (R502 to R511). -/

/-- Clearing status bits (R504, R507): a write of a status word clears the bits written as 1, EVT_CLEAR_ALL all of them,
EVT_CLEAR_ID one. A cleared bit no longer holds SAFE_N low (R506), and the pins follow (R488). -/
def Obligations.EventStatusClears : Prop :=
  ∀ (t : Nat) (src : Src) (s : State) (c : Instr) (cleared : Nat → Bool),
    (c = .evtClearAll t src ∧ gate src Reg.evtClearAll false (s.begin t) = stDone ∧ (cleared = fun i => decide (i < 1152)) ∨
     (∃ id, id < 1152 ∧ c = .evtClearId t src id ∧ gate src Reg.evtClearId false (s.begin t) = stDone ∧
       cleared = fun i => decide (i = id)) ∨
     ∃ w v, w < 36 ∧ v < 2 ^ 32 ∧ c = .evtStatusClear t src w v ∧ gate src (Reg.evtStatus w) false (s.begin t) = stDone ∧
       cleared = fun i => decide (i / 32 = w) && bit v (i % 32)) →
    ∃ u : State, exec c s = .next u ∧
      (∀ i, bit u.evt.status i = (bit s.evt.status i && !cleared i)) ∧
      (∀ i, bit u.evt.safeBits i = (bit s.evt.safeBits i && !cleared i)) ∧
      u.evt.evtN = ((u.evt.status &&& u.evt.enable) == 0) ∧
      (u.evt.safeN = false ↔ u.evt.startHold = true ∨ u.evt.safeBits ≠ 0 ∨ ∃ e, u.evt.minLow = some e ∧ u.dt < e) ∧
      u = { s with
        dt := max s.dt t, out := [.status src.who stDone]
        evt := { s.evt with
          status := u.evt.status, safeBits := u.evt.safeBits, evtN := u.evt.evtN, safeN := u.evt.safeN } }

/-- An enable word is written, the enables of reserved IDs staying 0 (R498), and EVT_N is recomputed at once from the latched
bits and the new enables (R505); SAFE_N follows no enable. A severity word that lowers no default of SAFE is written, and what
it says of latched bits changes nothing (R506); one that lowers such a default is refused whole. EVT_DEFAULTS brings both back. -/
def Obligations.EventWordWrites : Prop :=
  (∀ (t : Nat) (src : Src) (s : State) (w v : Nat), w < 36 → v < 2 ^ 32 →
    gate src (Reg.evtEnable w) false (s.begin t) = stDone →
    ∃ u : State, exec (.evtEnableWrite t src w v) s = .next u ∧
      (∀ i, bit u.evt.enable i = if i / 32 = w then bit evtAssigned i && bit v (i % 32) else bit s.evt.enable i) ∧
      u.evt.evtN = ((u.evt.status &&& u.evt.enable) == 0) ∧
      (u.evt.safeN = false ↔ s.evt.startHold = true ∨ s.evt.safeBits ≠ 0 ∨ ∃ e, s.evt.minLow = some e ∧ max s.dt t < e) ∧
      u = { s with
        dt := max s.dt t, out := [.status src.who stDone]
        evt := { s.evt with enable := u.evt.enable, evtN := u.evt.evtN, safeN := u.evt.safeN } }) ∧
  (∀ (t : Nat) (src : Src) (s : State) (w v : Nat), w < 36 → v < 2 ^ 64 →
    gate src (Reg.evtSeverity w) false (s.begin t) = stDone →
    ∃ u : State, exec (.evtSeverityWrite t src w v) s = .next u ∧
      ((∃ b, b < 32 ∧ bit evtAssigned (32 * w + b) = true ∧
          fld evtDefaultSeverity (2 * (32 * w + b) + 1) (2 * (32 * w + b)) = 0 ∧ fld v (2 * b + 1) (2 * b) ≠ 0) →
        u = { s with dt := max s.dt t, out := [.status src.who stValue] }) ∧
      ((∀ b, b < 32 → bit evtAssigned (32 * w + b) = true →
          fld evtDefaultSeverity (2 * (32 * w + b) + 1) (2 * (32 * w + b)) = 0 → fld v (2 * b + 1) (2 * b) = 0) →
        (∀ i, u.severityOf i = if i / 32 = w then (if bit evtAssigned i then fld v (2 * (i % 32) + 1) (2 * (i % 32)) else 0)
          else s.severityOf i) ∧
        u = { s with
          dt := max s.dt t, out := [.status src.who stDone], evt := { s.evt with severity := u.evt.severity } })) ∧
  ∀ (t : Nat) (src : Src) (s : State), gate src Reg.evtDefaults false (s.begin t) = stDone →
    ∃ u : State, exec (.evtDefaults t src) s = .next u ∧
      u.evt.enable = evtDefaultEnable ∧ u.evt.severity = evtDefaultSeverity ∧
      u.evt.evtN = ((u.evt.status &&& u.evt.enable) == 0) ∧
      u = { s with
        dt := max s.dt t, out := [.status src.who stDone]
        evt := { s.evt with
          enable := evtDefaultEnable, severity := evtDefaultSeverity, evtN := u.evt.evtN, safeN := u.evt.safeN } }

/-- EVT_TEST raises the event it names in MANUFACTURE and SERVICE; elsewhere it is refused with 0x0E, and a
reserved ID with 0x04 (R509). What the raise does, where no chime has the event as its TRIGGER and the casebook's queue has room
(R503): the status bit is latched, and under severity SAFE also for SAFE_N, whose minimum low time starts (R488, R506); the last
raise is shown with TEST, its severity and DT, and counted; every requester of NOTIFY whose queue has room gets its record,
with bit 127 of the body set, if the event is enabled (R487, R505); the casebook gets an EVENT record with that body; and the
windows with FREEZE_ON_SAFE go into post-trigger under severity SAFE (R209). -/
def Obligations.EventTestRaises : Prop :=
  ∀ (t : Nat) (src : Src) (s : State) (id : Nat), id < 2 ^ 16 → gate src Reg.evtTest false (s.begin t) = stDone →
    (s.nvm.lc ≠ 0 → s.nvm.lc ≠ 3 →
      exec (.evtTest t src id) s = .next { s with dt := max s.dt t, out := [.status src.who stNotNow] }) ∧
    ((s.nvm.lc = 0 ∨ s.nvm.lc = 3) → bit evtAssigned id = false →
      exec (.evtTest t src id) s = .next { s with dt := max s.dt t, out := [.status src.who stValue] }) ∧
    ((s.nvm.lc = 0 ∨ s.nvm.lc = 3) → bit evtAssigned id = true →
      ∃ u : State, exec (.evtTest t src id) s = .next u ∧
        Raises [id] { s with dt := max s.dt t, out := [.status src.who stDone] } u ∧
        (s.severityOf id = 0 → PinsOk s.evt → bit u.evt.safeBits id = true ∧ u.evt.safeN = false) ∧
        ((∀ g, g < 32 → s.chimeUsable g = true → chimeTrigger (s.chimeRec g) ≠ id) → cbUsed s.cb.queue + 72 ≤ 262144 →
          let sev := s.severityOf id
          let now := max s.dt t
          let body := Config.bodyBits id [] % 2 ^ 127 + 2 ^ 127
          u.evt = { s.evt with
            status := setBit s.evt.status id, safeBits := if sev = 0 then setBit s.evt.safeBits id else s.evt.safeBits
            minLow := if sev = 0 then some (now + s.reg Reg.evtSafeMinLow * ms) else s.evt.minLow
            lastEvent := id, lastSeverity := sev, lastTest := true, lastDt := now, count := s.evt.count + 1
            evtN := (setBit s.evt.status id &&& s.evt.enable) == 0, safeN := u.evt.safeN } ∧
          (u.evt.safeN = false ↔ s.evt.startHold = true ∨ u.evt.safeBits ≠ 0 ∨ ∃ e, u.evt.minLow = some e ∧ now < e) ∧
          (bit s.evt.enable id = true → ∀ k ∈ notifyKeys s, (s.queue k).recs.length < 64 →
            ⟨id, sev, now, body, false⟩ ∈ (u.queue k).recs) ∧
          (bit s.evt.enable id = false → u.dap = s.dap) ∧
          u.cb = { s.cb with queue := s.cb.queue ++ [⟨1, eventBody id sev body, now, sev == 0, true⟩] } ∧
          (sev = 0 → ∀ w, w < 64 → bit (s.winRec w) 127 = true → bit (s.winRec w) 118 = true → (s.win w).mode = .recording →
            u.win w = { s.win w with mode := .post, postEnd := now + fld (s.winRec w) 79 64 * (100 * ms) }) ∧
          (sev ≠ 0 → u.fs = s.fs) ∧ u.aud = s.aud))

/-- The minimum low time of SAFE_N ends (R488): SAFE_N goes high exactly if no latched bit of severity SAFE and no start hold
keeps it low. -/
def Obligations.SafeMinimumLowEnds : Prop :=
  ∀ (t : Nat) (s : State) (e : Time), s.evt.minLow = some e → e ≤ max s.dt t →
    ∃ u : State, exec (.safeMinLowExpiry t) s = .next u ∧
      (u.evt.safeN = true ↔ s.evt.startHold = false ∧ s.evt.safeBits = 0) ∧ u.evt.minLow = none ∧
      u.evt.evtN = ((s.evt.status &&& s.evt.enable) == 0) ∧
      u = { s with
        dt := max s.dt t, out := []
        evt := { s.evt with minLow := none, evtN := u.evt.evtN, safeN := u.evt.safeN } }

/-! Messages of DAP (R469 to R481). `Executes` and `Proves` (Safety) are conditions on the request and the state before. -/

/-- HELLO is answered with the 16 bytes of R471 (ID_DEVICE, ID_PRODUCT 0x3264, silicon B0, DAP revisions 1 and 2, the path, the
low 8 bits of the boot count, two reserved bytes); without SUBSCRIBE nothing else changes. ABORT ends the requester's staged
write unapplied and is answered with 0x00 (R473). HELLO with SUBSCRIBE on the management port while a place is free and the
requester holds none takes the lowest free place (R487) and starts an empty queue whose NSEQ is 0; while it holds one, it keeps
that place with its time renewed; with no place free it takes none. -/
def Obligations.DapHelloAndAbort : Prop :=
  ((∀ (t : Nat) (who : Requester) (m : Msg) (s : State), Executes who m s → m.op = 3 → plainRequest m →
    (who.path ≠ 2 ∨ bit m.flags flSubscribe = false) →
    ∃ u : State, exec (.dapHello t who m) s = .next u ∧
      Answered who m stDone 0 (leBytes 8 Config.deviceId ++ leBytes 2 0x3264 ++
        [0xB0, 0x12, who.path % 256, s.nvm.boot % 256, 0, 0]) u ∧
      OnlyAnswered who (arrived t who s) u) ∧
  ∀ (t : Nat) (who : Requester) (m : Msg) (s : State) (g : Staged), Executes who m s → m.op = 9 → plainRequest m →
    oget s.dap.staged (reqKey who) = some g → ekey g.index g.sub ≠ Reg.fwImage →
    ∃ u : State, exec (.dapAbort t who m) s = .next u ∧ Answered who m stDone 0 [] u ∧
      OnlyAnswered who (setStaged who none (arrived t who s)) u) ∧
  ∀ (t : Nat) (who : Requester) (m : Msg) (s : State), Executes who m s → m.op = 3 → plainRequest m → who.path = 2 →
    bit m.flags flSubscribe = true →
    ∃ u : State, exec (.dapHello t who m) s = .next u ∧
      (∀ i, i < 4 → (oget s.dap.places i).map (·.1) = some who.id →
        (∀ j, j < i → (oget s.dap.places j).map (·.1) ≠ some who.id) →
        oget u.dap.places i = some (who.id, max s.dt t) ∧ u.queue (reqKey who) = s.queue (reqKey who)) ∧
      (∀ i, i < 4 → (∀ j, j < 4 → (oget s.dap.places j).map (·.1) ≠ some who.id) → oget s.dap.places i = none →
        (∀ j, j < i → oget s.dap.places j ≠ none) →
        oget u.dap.places i = some (who.id, max s.dt t) ∧
        u.dap.queues = tset (fun _ => {}) s.dap.queues (reqKey who) {}) ∧
      ((∀ j, j < 4 → oget s.dap.places j ≠ none ∧ (oget s.dap.places j).map (·.1) ≠ some who.id) →
        u.dap.places = s.dap.places ∧ u.dap.queues = s.dap.queues) ∧
      OnlyAnswered who { arrived t who s with
        dap := { (arrived t who s).dap with places := u.dap.places, queues := u.dap.queues } } u

/-- READ (R463, R464, R469 to R474). `key` is the entry's key, `n` the most bytes that LENGTH asks for (0: up to 4,096). A READ
is answered with at most n bytes of the entry's value from OFFSET on, with END where they reach its end, plainly or under a
session (R479); an OFFSET beyond the value is refused with 0x0A, one other than 0 of an entry that is no DOMAIN with 0x03. With
SNAPSHOT the first READ keeps the value, and the READs at later OFFSETs are answered from the copy of the same entry, or refused
with 0x0A where there is none (R474). The bytes of a value: of sub-index 0 the index's header; of an entry of one fixed size
the little-endian bytes of `entryValue`, of one that the part measures a value free at each READ; a WO entry is refused with
0x02 (R464), an unknown one with 0x01 (R472). And what `entryValue` is of an RWC entry without RO fields, out of reserve
operation: its shadow, and with APPLIED the value in force (R464). -/
def Obligations.DapReadAnswersTheValue : Prop :=
  (∀ (t : Nat) (who : Requester) (m : Msg) (s : State), Executes who m s → m.op = 1 → plainRequest m → m.sub < 256 →
    let key := ekey m.index m.sub
    let long : Prop := ∃ e, keyEntry key = some e ∧ isDomain e = true
    let z := arrived t who s
    let r := entryBytes who false (bit m.flags flApplied) key z
    let n := if m.length = 0 then 4096 else m.length
    let answers (bytes : List Nat) (a : State) : Prop := ∃ u : State, exec (.dapRead t who m) s = .next u ∧
      Answered who m stDone (if bytes.length ≤ m.offset + n then 2 ^ flEnd else 0) ((bytes.drop m.offset).take n) u ∧
      OnlyAnswered who a u
    let refused (status : Nat) (a : State) : Prop := ∃ u : State, exec (.dapRead t who m) s = .next u ∧
      Answered who m status 0 [] u ∧ OnlyAnswered who (errorCounted who a) u
    (m.offset ≠ 0 → ¬ long → ((keyEntry key).isSome = true ∨ m.sub = 0) → refused stLength z) ∧
    ((m.offset = 0 ∨ long ∨ (keyEntry key = none ∧ m.sub ≠ 0)) → (m.offset = 0 ∨ bit m.flags flSnapshot = false) →
      r.1 ≠ stDone → refused r.1 z) ∧
    (bit m.flags flSnapshot = false → (m.offset = 0 ∨ long) → r.1 = stDone →
      (m.offset ≤ r.2.1.length → answers r.2.1 r.2.2) ∧ (r.2.1.length < m.offset → refused stOffset r.2.2)) ∧
    (bit m.flags flSnapshot = true → m.offset = 0 → r.1 = stDone →
      (r.2.1.length ≤ 262144 → answers r.2.1 (setSnap who (some ⟨m.index, m.sub, r.2.1, max s.dt t⟩) r.2.2)) ∧
      (262144 < r.2.1.length → refused stTooLong z)) ∧
    (bit m.flags flSnapshot = true → m.offset ≠ 0 → long →
      (∀ p, oget s.dap.snaps (reqKey who) = some p → p.index = m.index → p.sub = m.sub →
        (m.offset ≤ p.data.length → answers p.data (setSnap who (some { p with last := max s.dt t }) z)) ∧
        (p.data.length < m.offset → refused stOffset (setSnap who (some { p with last := max s.dt t }) z))) ∧
      ((∀ p, oget s.dap.snaps (reqKey who) = some p → p.index = m.index → p.sub ≠ m.sub) → refused stOffset z))) ∧
  (∀ (t : Nat) (who : Requester) (m : Msg) (k : Nat) (x : Session) (s : State), Executes who m s → m.op = 1 →
    Proves who m k x s → m.sub < 256 → bit m.flags flSnapshot = false →
    let key := ekey m.index m.sub
    let r := entryBytes who true (bit m.flags flApplied) key (arrivedBy t who m k x s)
    let n := if m.length = 0 then 4096 else m.length
    (m.offset = 0 ∨ ∃ e, keyEntry key = some e ∧ isDomain e = true) → r.1 = stDone → m.offset ≤ r.2.1.length →
    ∃ u : State, exec (.dapRead t who m) s = .next u ∧
      AnsweredPart who m k x (decide (r.2.1.length ≤ m.offset + n)) ((r.2.1.drop m.offset).take n) u ∧
      (∃ y, oget u.dap.sessions k = some y ∧ y.devSeq = x.devSeq + 1) ∧
      OnlyAnswered who { r.2.2 with dap := { r.2.2.dap with sessions := u.dap.sessions } } u) ∧
  (∀ (who : Requester) (auth applied : Bool) (key : Nat) (s : State),
    let r := entryBytes who auth applied key s
    (key % 256 = 0 → (∀ n, indexHeader (key / 256) = some n → r = (stDone, [n], s)) ∧
      (indexHeader (key / 256) = none → r.1 = stUnknown)) ∧
    (key % 256 ≠ 0 → keyEntry key = none → r.1 = stUnknown) ∧
    ∀ e, key % 256 ≠ 0 → keyEntry key = some e →
      (e.right = .wo → r.1 = stRight) ∧
      (e.right ≠ .wo → actsOnly key = false → e.varying = false →
        (measured key = false → r = (stDone, leBytes e.size (cnt (8 * e.size) (entryValue who applied s 0 key e)), s)) ∧
        (measured key = true → s.inReserve = false →
          r = (stDone, leBytes e.size (cnt (8 * e.size) (entryValue who applied s (Config.freeValue s.free) key e)),
            { s with free := s.free + 1 })))) ∧
  ∀ (who : Requester) (s : State) (f key : Nat) (e : Entry), keyEntry key = some e → s.inReserve = false → e.right = .rwc →
    (∀ v, withRoFields s f key v = v) → key % 256 ≠ 4 → key % 256 ≠ 0x0B →
    entryValue who false s f key e = s.reg key ∧ entryValue who true s f key e = s.valueInForce key

/-- A WRITE of a whole value (OFFSET 0, no MORE, no staged write of the requester) is carried out as `writeEntry` says of the
entry, and answered with its status once it is done (R466, R472). A staged write (R473): the first message of a DOMAIN entry that the gate lets through, with MORE and OFFSET 0, is kept and
changes no entry; a message of it with the wrong OFFSET ends it unapplied with 0x0A. -/
def Obligations.DapWritesAreAnswered : Prop :=
  (∀ (t : Nat) (who : Requester) (m : Msg) (ok : Bool) (s : State), Executes who m s → m.op = 2 → plainRequest m →
    bit m.flags flMore = false → m.offset = 0 → oget s.dap.staged (reqKey who) = none →
    ekey m.index m.sub ≠ Reg.fwImage →
    let r := writeEntry ⟨who, false⟩ (ekey m.index m.sub) m.data ok (arrived t who s)
    ∃ u : State, exec (.dapWrite t who m ok) s = .next u ∧ Answered who m r.2 0 [] u ∧
      (r.2 = stDone → OnlyAnswered who r.1 u) ∧ (r.2 ≠ stDone → OnlyAnswered who (errorCounted who r.1) u)) ∧
  ∀ (t : Nat) (who : Requester) (m : Msg) (ok : Bool) (e : Entry) (s : State), Executes who m s → m.op = 2 → plainRequest m →
    keyEntry (ekey m.index m.sub) = some e → isDomain e = true → ekey m.index m.sub ≠ Reg.fwImage →
    gate ⟨who, false⟩ (ekey m.index m.sub) false (arrived t who s) = stDone →
    (bit m.flags flMore = true → m.offset = 0 → m.data.length ≤ e.size → oget s.dap.staged (reqKey who) = none →
      ∃ u : State, exec (.dapWrite t who m ok) s = .next u ∧ Answered who m stDone 0 [] u ∧
        OnlyAnswered who (setStaged who (some ⟨m.index, m.sub, m.data, max s.dt t⟩) (arrived t who s)) u) ∧
    (∀ before since, oget s.dap.staged (reqKey who) = some ⟨m.index, m.sub, before, since⟩ → m.offset ≠ before.length →
      ∃ u : State, exec (.dapWrite t who m ok) s = .next u ∧ Answered who m stOffset 0 [] u ∧
        OnlyAnswered who (errorCounted who (setStaged who none (arrived t who s))) u)

/-- SAVE under a session, out of reserve operation and with no SAVE running, takes its snapshot of the values in force at
acceptance and is not yet answered; without a session it is refused with 0x07, and in reserve operation with 0x06 (R467).
The commit word brings the image into force, with its mark gone (R468), the result, DT, digest and count of the SAVE are shown
(R490), and SAVE is answered with 0x00; an NVM failure leaves the previous image and is answered with 0x10 (R467, R472). The
answer goes out under the session that asked, if it is still open; then the requests that waited behind the SAVE are carried
out (R475). RESTORE_DEFAULTS under a session marks the image in force, and changes no value (R468); without a session it
is refused with 0x07. -/
def Obligations.SaveAndRestoreDefaults : Prop :=
  ((∀ (t : Nat) (who : Requester) (m : Msg) (n : Nat) (x : Session) (s : State), Executes who m s → m.op = 4 →
    Proves who m n x s → s.inReserve = false → s.nvm.lc ≠ 4 → 11 ≤ s.start.next →
    exec (.dapSave t who m) s = .next ({ arrivedBy t who m n x s with
      dap := { (arrivedBy t who m n x s).dap with
        save := some ⟨who, m, imageSnapshot (arrivedBy t who m n x s), max s.dt t⟩ } }.setReg Reg.dapSaveState 1)) ∧
  (∀ (t : Nat) (who : Requester) (m : Msg) (s : State), Executes who m s → m.op = 4 → plainRequest m → s.nvm.lc ≠ 4 →
    11 ≤ s.start.next →
    ∃ u : State, exec (.dapSave t who m) s = .next u ∧ Answered who m stSession 0 [] u ∧
      OnlyAnswered who (errorCounted who (arrived t who s)) u) ∧
  (∀ (t : Nat) (who : Requester) (m : Msg) (n : Nat) (x : Session) (s : State), Executes who m s → m.op = 4 →
    Proves who m n x s → s.inReserve = true → s.nvm.lc ≠ 4 → 11 ≤ s.start.next →
    ∃ u : State, exec (.dapSave t who m) s = .next u ∧ AnsweredBy who m n x stUnpowered [] u ∧ u.dap.save = none ∧
      OnlyAnswered who { errorCounted who (arrivedBy t who m n x s) with
        dap := { (errorCounted who (arrivedBy t who m n x s)).dap with sessions := u.dap.sessions } } u) ∧
  ∀ (t : Nat) (ok : Bool) (x : SaveRun) (s : State), s.dap.save = some x →
    let img := imageBytes x.image
    let ended : State := { s with dt := max s.dt t, out := [], dap := { s.dap with save := none } }
    let stands : State := { ended with nvm := { s.nvm with image := some img, imageMarked := false } }
    let shown : State := (((stands.setReg Reg.dapSaveState 2).setReg Reg.dapSaveDt x.at_).setReg Reg.dapSaveDigest
      (leNat (img.drop (img.length - 4)))).count Reg.dapSaveCount 1
    let base : State := if ok then shown else errorCounted x.who (ended.setReg Reg.dapSaveState 3)
    let status := if ok then stDone else stNvm
    ∃ z : State, exec (.saveCommitWord t ok) s = .next (runWaiting s.dap.waiting.length z) ∧
      (∀ tr y, x.msg.trailer = some tr → oget s.dap.sessions tr.session = some y → y.who = x.who →
        AnsweredBy x.who x.msg tr.session y status [] z ∧
        oget z.dap.sessions tr.session = some { y with devSeq := y.devSeq + 1 }) ∧
      ((∀ tr, x.msg.trailer = some tr → ∀ y, oget s.dap.sessions tr.session = some y → y.who ≠ x.who) →
        Answered x.who x.msg status 0 [] z ∧ z.dap.sessions = s.dap.sessions) ∧
      OnlyAnswered x.who { base with dap := { base.dap with sessions := z.dap.sessions } } z) ∧
  (∀ (t : Nat) (who : Requester) (m : Msg) (n : Nat) (x : Session) (s : State), Executes who m s → m.op = 5 →
    Proves who m n x s → s.nvm.lc ≠ 4 → 11 ≤ s.start.next →
    ∃ u : State, exec (.restoreDefaults t who m) s = .next u ∧ AnsweredBy who m n x stDone [] u ∧
      (∃ y, oget u.dap.sessions n = some y ∧ y.devSeq = x.devSeq + 1) ∧
      OnlyAnswered who { arrivedBy t who m n x s with
        nvm := { s.nvm with imageMarked := s.nvm.image.isSome }
        dap := { (arrivedBy t who m n x s).dap with sessions := u.dap.sessions } } u) ∧
  ∀ (t : Nat) (who : Requester) (m : Msg) (s : State), Executes who m s → m.op = 5 → plainRequest m → s.nvm.lc ≠ 4 →
    11 ≤ s.start.next →
    ∃ u : State, exec (.restoreDefaults t who m) s = .next u ∧ Answered who m stSession 0 [] u ∧
      OnlyAnswered who (errorCounted who (arrived t who s)) u

/-- SESSION_OPEN with its 16 bytes, naming a slot that may answer challenges (R518), on a path that is not locked out, while the
requester has fewer than two sessions and n is the lowest number from 1 to 8 that no session holds: session n waits for its
proof with both nonces, and the answer carries n and the device nonce, 12 free bytes (R478). With eight sessions held it is
refused with 0x0F. SESSION_PROVE with the host's response of R526 proves session n: it gets its session key by R522 and R526,
its slot counts a use, and the device answers with its own response (R478). A wrong response ends the session, raises
AUTH_FAILED_DAP (event 1009) and is refused with 0x08 (R478, R480). SESSION_CLOSE ends session n (R478). -/
def Obligations.SessionsOpenProveAndClose : Prop :=
  (∀ (t : Nat) (who : Requester) (m : Msg) (s : State), Executes who m s → m.op = 6 → plainRequest m → m.data.length = 16 →
    s.slotAuth (nth m.data 0 0) = true → (∀ u, (s.path who.path).lockout = some u → u ≤ max s.dt t) →
    ((s.dap.sessions.filter fun e => match e.2 with | some x => x.who == who | none => false).length < 2 →
      ∀ n, 1 ≤ n → n ≤ 8 → oget s.dap.sessions n = none → (∀ k, 1 ≤ k → k < n → oget s.dap.sessions k ≠ none) →
      ∃ (u : State) (nonce : List Nat), exec (.sessionOpen t who m) s = .next u ∧
        nonce = (List.range 12).map (fun i => Config.freeValue (s.free + i) % 256) ∧
        Answered who m stDone 0 ([n, 0, 0, 0] ++ nonce) u ∧
        OnlyAnswered who (setSession n
          { who, slot := nth m.data 0 0, hostNonce := m.data.drop 4, devNonce := nonce, lastMsg := max s.dt t }
          { arrived t who s with free := s.free + 12 }) u) ∧
    ((∀ k, 1 ≤ k → k ≤ 8 → oget s.dap.sessions k ≠ none) →
      ∃ u : State, exec (.sessionOpen t who m) s = .next u ∧ Answered who m stResources 0 [] u ∧
        OnlyAnswered who (errorCounted who (arrived t who s)) u)) ∧
  (∀ (t : Nat) (who : Requester) (m : Msg) (x : Session) (s : State), Executes who m s → m.op = 7 → plainRequest m →
    m.data.length = 20 → oget s.dap.sessions (nth m.data 0 0) = some x → x.who = who → x.proved = false →
    s.slotAuth x.slot = true → m.data.drop 4 = dapProof s "DAP-HOST" (nth m.data 0 0) x →
    ∃ u : State, exec (.sessionProve t who m) s = .next u ∧
      Answered who m stDone 0 (dapProof s "DAP-DEVICE" (nth m.data 0 0) x) u ∧
      OnlyAnswered who (setSession (nth m.data 0 0)
        { x with
          proved := true, opened := max s.dt t, lastMsg := max s.dt t
          key := kdf (s.slotKey x.slot) "DAPS" (x.hostNonce ++ x.devNonce ++ [nth m.data 0 0]) 256 }
        (useSlot x.slot (arrived t who s))) u) ∧
  (∀ (t : Nat) (who : Requester) (m : Msg) (x : Session) (s : State), Executes who m s → m.op = 7 → plainRequest m →
    m.data.length = 20 → oget s.dap.sessions (nth m.data 0 0) = some x → x.who = who → x.proved = false →
    m.data.drop 4 ≠ dapProof s "DAP-HOST" (nth m.data 0 0) x →
    ∃ u : State, exec (.sessionProve t who m) s = .next u ∧ Answered who m stAuth 0 [] u ∧
      u.dap.sessions = oset s.dap.sessions (nth m.data 0 0) none ∧ bit u.evt.status Ev.authFailedDap = true ∧
      u.nvm = s.nvm ∧ u.sec = s.sec ∧ u.fs.mem = s.fs.mem) ∧
  ∀ (t : Nat) (who : Requester) (m : Msg) (x : Session) (s : State), Executes who m s → m.op = 8 → plainRequest m →
    m.data.length = 4 → oget s.dap.sessions (nth m.data 0 0) = some x → x.who = who →
    ∃ u : State, exec (.sessionClose t who m) s = .next u ∧ Answered who m stDone 0 [] u ∧
      OnlyAnswered who (endSession (nth m.data 0 0) (arrived t who s)) u

/-! Times of the DAP engine, the lock, and the plain write of an entry. -/

/-- What ends when its time has passed, and stays as it was before that: a staged write (R473; unless it writes a firmware
image, see R597), a session (R478), a snapshot (R474), kept responses (R476), the lockout of a path (R480), a subscription
place (R487), and the reassemblies of CAN and Ethernet (R484, R485). -/
def Obligations.DapTimesRunOut : Prop :=
  (∀ (t : Nat) (who : Requester) (g : Staged) (s : State), oget s.dap.staged (reqKey who) = some g →
    ekey g.index g.sub ≠ Reg.fwImage →
    exec (.stagedWriteTimeout t who) s = .next { s with
      dt := max s.dt t, out := []
      dap := { s.dap with
        staged := if g.last + s.reg Reg.dapStageTimeout * ms ≤ max s.dt t then oset s.dap.staged (reqKey who) none else s.dap.staged } }) ∧
  (∀ (t n : Nat) (x : Session) (s : State), oget s.dap.sessions n = some x →
    exec (.sessionIdleTimeout t n) s = .next { s with
      dt := max s.dt t, out := []
      dap := { s.dap with
        sessions := if x.lastMsg + s.reg Reg.dapSessionIdle * sec ≤ max s.dt t then oset s.dap.sessions n none else s.dap.sessions } }) ∧
  (∀ (t : Nat) (who : Requester) (p : Snapshot) (s : State), oget s.dap.snaps (reqKey who) = some p →
    exec (.snapshotDiscard t who) s = .next { s with
      dt := max s.dt t, out := []
      dap := { s.dap with
        snaps := if p.last + sec ≤ max s.dt t then oset s.dap.snaps (reqKey who) none else s.dap.snaps } }) ∧
  (∀ (t : Nat) (who : Requester) (s : State),
    exec (.keptResponseExpiry t who) s = .next { s with
      dt := max s.dt t, out := []
      dap := { s.dap with
        kept := tset (fun _ => []) s.dap.kept (reqKey who)
          ((tget (fun _ => []) s.dap.kept (reqKey who)).filter fun k => decide (max s.dt t < k.since + 2 * sec)) } }) ∧
  (∀ (t path e : Nat) (s : State), (s.path path).lockout = some e →
    exec (.proofLockoutEnd t path) s = .next { s with
      dt := max s.dt t, out := []
      dap := { s.dap with
        paths := if e ≤ max s.dt t then tset (fun _ => {}) s.dap.paths path { s.path path with lockout := none } else s.dap.paths } }) ∧
  (∀ (t place id since : Nat) (s : State), oget s.dap.places place = some (id, since) →
    exec (.subscriptionExpiry t place) s = .next { s with
      dt := max s.dt t, out := []
      dap :=
        if since + s.reg Reg.dapPathIdle * sec ≤ max s.dt t then
          { s.dap with
            places := oset s.dap.places place none, queues := tset (fun _ => {}) s.dap.queues (reqKey ⟨2, id⟩) {} }
        else s.dap }) ∧
  ∀ (t port host : Nat) (who : Requester) (r : Reasm) (s : State) (c : Instr) (key : Nat),
    (c = .canReassemblyTimeout t port host ∧ key = reqKey ⟨port, host⟩ ∨ c = .netReassemblyTimeout t who ∧ key = reqKey who) →
    oget s.dap.reasm key = some r →
    exec c s = .next { s with
      dt := max s.dt t, out := []
      dap := { s.dap with
        reasm := if r.last + 100 * ms ≤ max s.dt t then oset s.dap.reasm key none else s.dap.reasm } }

/-- DAP_LOCK behaves as the table of R481: every cell of it, by the value written and who holds the lock. The lock is released
when its path has sent no message for DAP_LOCK_TIMEOUT. -/
def Obligations.DapLockTable : Prop :=
  (∀ (t : Nat) (src : Src) (v : Nat) (s : State), v < 256 → src.who.path < 35 →
    gate src Reg.dapLock false (s.begin t) = stDone →
    let held := s.reg Reg.dapLock
    let done (z : State) (status : Nat) := exec (.dapLockWrite t src v) s = .next { z with
      dt := max s.dt t, out := [.status src.who status] }
    let taken : State := s.setReg Reg.dapLock src.who.path
    (v ≠ src.who.path → v ≠ 0xFF → done s stValue) ∧
    (v = src.who.path → (held = 0xFF ∨ held = src.who.path) →
      done { taken with dap := { s.dap with lockMsg := max s.dt t } } stDone) ∧
    (v = 0xFF → (held = 0xFF ∨ held = src.who.path) → done (s.setReg Reg.dapLock 0xFF) stDone) ∧
    ((v = src.who.path ∨ v = 0xFF) → held ≠ 0xFF → held ≠ src.who.path → done s stBusy)) ∧
  ∀ (t : Nat) (s : State), exec (.lockTimeoutExpired t) s = .next
    (if s.reg Reg.dapLock ≠ 0xFF ∧ s.dap.lockMsg + s.reg Reg.dapLockTimeout * sec ≤ max s.dt t
      then (s.begin t).setReg Reg.dapLock 0xFF else s.begin t)

/-- A write of an RW or RWC entry of fixed size that only keeps its value (every such entry but those of `actsOnWrite`), of
the entry's length and within its range and rule, is kept with its reserved bits and RO fields left alone (R8, R464, R466): an RW
entry holds it at once, an RWC entry's shadow holds it and what is in force stays. Out of range it is refused with 0x04, of
another length with 0x03 or 0x09, and changes nothing. -/
def Obligations.PlainRegisterWrite : Prop :=
  ∀ (t : Nat) (src : Src) (index sub : Nat) (data : List Nat) (e : Entry) (s : State), index < 2 ^ 16 → 0 < sub → sub < 256 →
    (∀ b ∈ data, b < 256) → keyEntry (ekey index sub) = some e → (e.right = .rw ∨ e.right = .rwc) → e.varying = false →
    actsOnWrite (ekey index sub) = false →
    gate src (ekey index sub) (commitWrite (ekey index sub) (leNat data)) (s.begin t) = stDone →
    let v := storedValue (ekey index sub) (leNat data)
    (data.length = e.size → valueOk (s.begin t) (ekey index sub) v = true →
      exec (.registerWrite t src index sub data) s = .next { s.setReg (ekey index sub) v with
        dt := max s.dt t, out := [.status src.who stDone] }) ∧
    (data.length = e.size → valueOk (s.begin t) (ekey index sub) v = false →
      exec (.registerWrite t src index sub data) s = .next { s with dt := max s.dt t, out := [.status src.who stValue] }) ∧
    (data.length ≠ e.size → ∃ status, (status = stLength ∨ status = stTooLong) ∧
      exec (.registerWrite t src index sub data) s = .next { s with dt := max s.dt t, out := [.status src.who status] })

/-! Transports (R483 to R487). -/

/-- CAN FD (R483, R484). A frame that is no FD frame with a 29-bit identifier is counted in CAN_FOREIGN and changes nothing else.
A segment for the U3264 (DIR 0, its node, KIND 0) that is FIRST with SEQ 0 and not LAST begins a reassembly; one that goes on with
the next SEQ is added; a gap discards it. A frame of KIND 2 aborts the sender's reassembly. -/
def Obligations.CanFrames : Prop :=
  ∀ (t port : Nat) (frame : CanFrame) (ok : Bool) (s : State), port < 2 → canUp s port = true →
    let key := reqKey ⟨port, fld frame.ident 17 11⟩
    let h := nth frame.data 0 0
    let counted : DapState := { s.dap with can := tset (fun _ => {}) s.dap.can port { s.can port with frames := (s.can port).frames + 1 } }
    let bytes := (frame.data.drop 1).map (· % 256)
    ((frame.fd = false ∨ frame.ext = false) → exec (.canSegment t port frame ok) s =
      .next { s.count Reg.canForeign 1 with dt := max s.dt t, out := [] }) ∧
    (frame.fd = true → frame.ext = true → canForUs s frame.ident = true → fld frame.ident 10 8 = 2 →
      exec (.canReassemblyAbort t port frame) s = .next { s with
        dt := max s.dt t, out := [], dap := { counted with reasm := oset s.dap.reasm key none } }) ∧
    (frame.fd = true → frame.ext = true → canForUs s frame.ident = true → fld frame.ident 10 8 = 0 → pathServes s port = true →
      bit h 6 = false →
      (bit h 7 = true → fld h 5 0 = 0 → exec (.canSegment t port frame ok) s = .next { s with
        dt := max s.dt t, out := []
        dap := { counted with reasm := oset s.dap.reasm key (some ⟨bytes, 1, 0, max s.dt t⟩) } }) ∧
      (∀ r, bit h 7 = false → oget s.dap.reasm key = some r → fld h 5 0 = r.next → r.msg = 0 →
        exec (.canSegment t port frame ok) s = .next { s with
          dt := max s.dt t, out := []
          dap := { counted with
            reasm := oset s.dap.reasm key (some ⟨r.bytes ++ bytes, (r.next + 1) % 64, 0, max s.dt t⟩) } }) ∧
      (∀ r, bit h 7 = false → oget s.dap.reasm key = some r → fld h 5 0 ≠ r.next →
        exec (.canSegment t port frame ok) s = .next { s with
          dt := max s.dt t, out := [], dap := { counted with reasm := oset s.dap.reasm key none } }))

/-- The last segment of a message makes it run: with SEQ as expected and a whole message in the bytes, the message arrives for its
requester, on CAN (R484), Ethernet (R485) and a lane (R486), and its response will leave with the PRIORITY or MSG of the request. -/
def Obligations.LastSegmentRunsTheMessage : Prop :=
  (∀ (t port : Nat) (frame : CanFrame) (ok : Bool) (r : Reasm) (m : Msg) (s : State), port < 2 → frame.fd = true →
    frame.ext = true → pathServes s port = true → canForUs s frame.ident = true → fld frame.ident 10 8 = 0 →
    fld frame.ident 24 18 = s.reg Reg.idNodeId →
    let who : Requester := ⟨port, fld frame.ident 17 11⟩
    bit (nth frame.data 0 0) 7 = false → bit (nth frame.data 0 0) 6 = true → fld (nth frame.data 0 0) 5 0 = r.next → r.msg = 0 →
    oget s.dap.reasm (reqKey who) = some r → parseMsg (r.bytes ++ (frame.data.drop 1).map (· % 256)) = some m →
    exec (.canSegment t port frame ok) s = .next (dapArrives who m ok { s with
      dt := max s.dt t, out := []
      dap := { s.dap with
        can := tset (fun _ => {}) s.dap.can port { s.can port with frames := (s.can port).frames + 1 }
        reasm := oset s.dap.reasm (reqKey who) none
        ways := tset (fun _ => 0) s.dap.ways (reqKey who) (fld frame.ident 28 26) } })) ∧
  (∀ (t : Nat) (who : Requester) (data : List Nat) (ok : Bool) (r : Reasm) (m : Msg) (s : State), who.path = 2 →
    pathServes s 2 = true → 4 ≤ data.length → data.length ≤ 1472 →
    let h := leNat (data.take 4)
    bit h 31 = false → bit h 30 = true → fld h 15 0 = r.next → fld h 23 16 = r.msg →
    oget s.dap.reasm (reqKey who) = some r → parseMsg (r.bytes ++ (data.drop 4).map (· % 256)) = some m →
    exec (.netDatagram t who data ok) s = .next (dapArrives who m ok { s with
      dt := max s.dt t, out := []
      dap := { s.dap with
        datagrams := s.dap.datagrams + 1, reasm := oset s.dap.reasm (reqKey who) none
        ways := tset (fun _ => 0) s.dap.ways (reqKey who) (fld h 23 16) } })) ∧
  ∀ (t lane body : Nat) (ok : Bool) (r : Reasm) (m : Msg) (s : State), (s.link lane).mode = .up →
    pathServes s (3 + lane) = true →
    let n := fld body 111 108
    let who : Requester := ⟨3 + lane, 0⟩
    let z : State := (s.begin t).setLink lane { s.link lane with bad := (s.link lane).bad * 2 % 2 ^ 128 }
    1 ≤ n → n ≤ 13 → bit body 118 = true →
    (bit body 119 = true ∧ r = {} ∨ bit body 119 = false ∧ oget s.dap.reasm (reqKey who) = some r) →
    fld body 117 112 = r.next → r.msg = 0 → parseMsg (r.bytes ++ leBytes n (fld body 103 0)) = some m →
    exec (.laneDapSegment t lane body ok) s = .next (dapArrives who m ok
      { z with dap := { s.dap with reasm := oset s.dap.reasm (reqKey who) none } })

/-- A NOTIFY message to a requester that receives NOTIFY carries the first 1 to 16 records of its queue, every SAFE record before
all others and each kind in the order of the raises (R487): it is a message of OP 0x0A whose data is the records sent, each with
its event, severity, DT, body and NSEQ, the first with OVERFLOW if records were dropped before it. NSEQ rises by the records
sent, modulo 2^32, the others stay queued, and the mark of a drop is gone. The TAG, and the MSG on Ethernet, are free values
(log entry 5); on CAN it goes at priority 0 if it carries a SAFE record, else 3 (R484). -/
def Obligations.NotifySendsSafeFirst : Prop :=
  ∀ (t : Nat) (who : Requester) (n : Nat) (s : State), (s.queue (reqKey who)).recs ≠ [] → 0 < n →
    (notifyKeys s).contains (reqKey who) = true →
    let q := s.queue (reqKey who)
    let safe := q.recs.filter fun r => r.severity == 0
    let others := q.recs.filter fun r => r.severity != 0
    let sent := (safe ++ others).take (min n 16)
    ∃ (u : State) (rest : List NotifyRec) (data : List Nat) (m : Msg) (way : Nat), exec (.notifySend t who n) s = .next u ∧
      rest.filter (fun r => r.severity == 0) = safe.drop (min n 16) ∧
      rest.filter (fun r => r.severity != 0) = others.drop (min n 16 - safe.length) ∧
      data.length = 32 * sent.length ∧
      (∀ i, i < sent.length → (data.drop (32 * i)).take 32 =
        notifyBytes (nth sent i ⟨0, 0, 0, 0, false⟩) (q.dropped && i == 0) ((q.nseq + i) % 2 ^ 32)) ∧
      m.tag = Config.freeValue s.free % 65536 ∧ m.index = 0 ∧ m.sub = 0 ∧ m.offset = 0 ∧
      (who.path < 2 → way = if safe = [] then 3 else 0) ∧
      u = sendMessage who 1 way (headerBytes m 0x0A 0 0 data.length ++ data) { s with
        dt := max s.dt t, out := [], free := s.free + 1
        dap := { s.dap with
          queues := tset (fun _ => {}) s.dap.queues (reqKey who) ⟨rest, (q.nseq + sent.length) % 2 ^ 32, false⟩ } }

/-! The ports (R483, R485, R490, R492). -/

/-- CAN_CONTROL op 0x01 brings a setup within R492 into force and refuses another with 0x04; op 0x02 and the recovery of ISO
11898-1 bring a port in bus-off back with its error counts at 0; a bus error sets the counts, and a transmit count beyond 255 is
bus-off (R483, R490, R492). A path that leaves service loses its sessions; where the transport of the path stays as it was,
nothing but the setup or the port changes. NET_CONTROL 0x01 brings a NET_SETUP within R492 into force and refuses another with
0x04; 0x02 restarts the PHY, whose link is then down; the link goes up and down (R462, R490, R492). When the port leaves service
its sessions and subscriptions end (R478, R487). DAP_STATS_CLEAR clears the counts of R490 and R491 and nothing else. The management port answers ARP and ICMP echo for its own address once it serves (R485), and nothing of its state but the
time changes; for another address it sends nothing. -/
def Obligations.ControlPorts : Prop :=
  (((∀ (t : Nat) (src : Src) (p : Nat) (s : State), gate src Reg.canControl true (s.begin t) = stDone →
    ((1 < p ∨ canSetupOk (s.reg (Reg.canSetup p)) = false) →
      exec (.canApplySetup t src p) s = .next { s with dt := max s.dt t, out := [.status src.who stValue] }) ∧
    (p < 2 → canSetupOk (s.reg (Reg.canSetup p)) = true → ∃ u : State, exec (.canApplySetup t src p) s = .next u ∧
      u.inForce = (s.apply (Reg.canSetup p)).inForce ∧ u.out = [.status src.who stDone] ∧
      (transportUp s p = true → transportUp u p = false → ∀ x ∈ u.dap.sessions, ∀ y, x.2 = some y → y.who.path ≠ p) ∧
      u = { s with
        dt := max s.dt t, out := u.out, inForce := u.inForce, dap := u.dap, regs := u.regs, nvm := u.nvm } ∧
      (transportUp s p = transportUp u p → u.regs = s.regs ∧ u.nvm = s.nvm ∧
        u.dap = { s.dap with can := u.dap.can } ∧
        ∀ q, q ≠ p → u.can q = s.can q))) ∧
  (∀ (t : Nat) (src : Src) (p : Nat) (s : State) (c : Instr), p < 2 → (s.can p).busOff = true →
    (c = .canLeaveBusOff t src p ∧ gate src Reg.canControl false (s.begin t) = stDone ∨ c = .canBusOffRecovery t p) →
    ∃ u : State, exec c s = .next u ∧
      u.dap = { s.dap with
        can := tset (fun _ => {}) s.dap.can p { s.can p with txErr := 0, rxErr := 0, busOff := false }
        queues := u.dap.queues } ∧
      u = { s with dt := max s.dt t, out := u.out, dap := u.dap }) ∧
  ∀ (t p tec re : Nat) (s : State), p < 2 → (s.can p).busOff = false → bit (s.force (Reg.canSetup p)) 63 = true →
    ∃ u : State, exec (.canBusError t p tec re) s = .next u ∧
      u.dap.can = tset (fun _ => {}) s.dap.can p { s.can p with
        txErr := tec, rxErr := re, busOff := decide (255 < tec), busOffs := (s.can p).busOffs + if 255 < tec then 1 else 0 } ∧
      (tec ≤ 255 → u = { s with dt := max s.dt t, out := [], dap := { s.dap with can := u.dap.can } }) ∧
      u = { s with dt := max s.dt t, out := [], dap := u.dap, regs := u.regs, nvm := u.nvm }) ∧
  (∀ (t : Nat) (src : Src) (s : State), gate src Reg.netControl true (s.begin t) = stDone →
    (netSetupOk (s.reg Reg.netSetup) = false →
      exec (.netApplySetup t src) s = .next { s with dt := max s.dt t, out := [.status src.who stValue] }) ∧
    (netSetupOk (s.reg Reg.netSetup) = true → ∃ u : State, exec (.netApplySetup t src) s = .next u ∧
      u.inForce = (s.apply Reg.netSetup).inForce ∧ u.out = [.status src.who stDone] ∧
      u = { s with
        dt := max s.dt t, out := u.out, inForce := u.inForce, dap := u.dap, regs := u.regs, nvm := u.nvm } ∧
      (netUp s = netUp u → u.regs = s.regs ∧ u.nvm = s.nvm ∧ u.dap = s.dap))) ∧
  (∀ (t : Nat) (src : Src) (up : Bool) (s : State) (c : Instr),
    (c = .netLinkChange t up ∨ up = false ∧ c = .netRestartPhy t src ∧ gate src Reg.netControl false (s.begin t) = stDone) →
    ∃ u : State, exec c s = .next u ∧ u.dap.netLink = up ∧
      (netUp s = true → up = false → u.dap.places = [] ∧ ∀ x ∈ u.dap.sessions, ∀ y, x.2 = some y → y.who.path ≠ 2) ∧
      u = { s with dt := max s.dt t, out := u.out, dap := u.dap, regs := u.regs, nvm := u.nvm }) ∧
  ∀ (t : Nat) (src : Src) (s : State), gate src Reg.dapStatsClear false (s.begin t) = stDone →
    ∃ u : State, exec (.dapStatsClear t src) s = .next u ∧
      (∀ x ∈ u.dap.paths, x.2.errors = 0 ∧ x.2.requests = 0) ∧
      u.regs = (s.clear [Reg.dapErrors, Reg.dapNotifyDropped, Reg.canForeign, Reg.netForeign]).regs ∧
      u = { s with
        dt := max s.dt t, out := [.status src.who stDone], regs := u.regs, dap := { s.dap with paths := u.dap.paths } }) ∧
  (∀ (t target ip mac : Nat) (s : State), netUp s = true → controlStarted s = true →
    exec (.arpRequest t target ip mac) s = .next { s with
      dt := max s.dt t
      out := if target = netAddress s then [.arp ip mac target (Config.macAddress % 2 ^ 48)] else [] }) ∧
  ∀ (t source dest : Nat) (data : List Nat) (s : State), netUp s = true → controlStarted s = true →
    exec (.icmpEcho t source dest data) s = .next { s with
      dt := max s.dt t, out := if dest = netAddress s then [.echo source data] else [] }

/-! Lanes below the link (R354 to R373). `put` changes the lane alone. -/

/-- The transitions of R354 between CALIBRATING, TRAINING, READY, RETRAINING and FAILED. A first training tries RATE_MAX and steps
down to RATE_MIN (R355, R564); the third attempt that fails is TRAIN_FAILED; READY brings the link to ALIGNING (R407); a loss of
signal in READY raises LOCK_LOST. Where a lane enters or leaves READY, or fails, the next state is given whole for a lane on which
nothing leans, and of any other lane what becomes of the lane itself; in the other states of the lane the happenings change
nothing. -/
def Obligations.LaneTrains : Prop :=
  ∀ (t lane : Nat) (s : State),
    let z := s.begin t
    let l := s.lane lane
    let put (x : PhyLane) : State := z.setLane lane x
    let free := s.sup.inservice ≠ some (laneChange lane)
    let trains (x : PhyLane) : PhyLane := { x with mode := .training, attempts := 0, trainings := l.trainings + 1 }
    let setup (v : Nat) : State := z.setForce (Reg.phySetup lane) (withTrainingFields (s.phySetup lane) v)
    let isReady (x : PhyLane) : PhyLane := { x with
      mode := .ready, attempts := 0, initial := false, inService := false
      holdReason := if l.holdReason = 3 then 0 else l.holdReason, emptySince := some (max s.dt t) }
    let ready (x : PhyLane) : State :=
      (put (isReady x)).setLink lane { s.link lane with mode := .aligning, headers := 0, bad := 0 }
    let linked (c : Instr) (x : PhyLane) : Prop :=
      (LaneAlone lane s → exec c s = .next (ready x)) ∧
      (free → ∃ u : State, exec c s = .next u ∧ u.lane lane = isReady x ∧ (∀ n, n ≠ lane → u.lane n = s.lane n) ∧
        ((s.link lane).mode = .down → (u.link lane).mode = .aligning))
    (l.mode ≠ .calibrating → exec (.calibrationDone t lane) s = .next z) ∧
    (l.mode = .calibrating →
      (l.nextSetup = none →
        exec (.calibrationDone t lane) s = .next (put (trains { l with rate := psRateMax (s.phySetup lane), initial := true }))) ∧
      ∀ v, l.nextSetup = some v → exec (.calibrationDone t lane) s = .next ((setup v).setLane lane
        (trains { l with rate := psRateMax v, initial := true, nextSetup := none }))) ∧
    (l.mode ≠ .training → exec (.noSignalTimeout t lane) s = .next z ∧
      ∀ converged residue, exec (.trainingDone t lane converged residue) s = .next z) ∧
    (l.mode = .training →
      (∀ residue, linked (.trainingDone t lane true residue) { l with
        floats := if psFloatPin (s.phySetup lane) then psFloatPos (s.phySetup lane) else floatPlaces residue }) ∧
      (∀ residue, l.attempts < 2 →
        exec (.trainingDone t lane false residue) s = .next (put { l with attempts := l.attempts + 1 })) ∧
      (∀ residue, 2 ≤ l.attempts → l.initial = true → l.rate < psRateMin (s.phySetup lane) →
        exec (.trainingDone t lane false residue) s =
          .next (put { l with rate := l.rate + 1, attempts := 0, trainings := l.trainings + 1 })) ∧
      (∀ residue, 2 ≤ l.attempts → (l.initial = false ∨ psRateMin (s.phySetup lane) ≤ l.rate) → free →
        (s.link lane).mode = .down →
        exec (.trainingDone t lane false residue) s =
          .next (put { l with mode := .failed, attempts := 3, inService := false })) ∧
      exec (.noSignalTimeout t lane) s = .next (put { l with mode := .retraining, attempts := 0 })) ∧
    (l.mode ≠ .retraining → ∀ locked full signal, exec (.relockDone t lane locked full signal) s = .next z) ∧
    (l.mode = .retraining → ∀ (locked full signal : Bool),
      let x : PhyLane := { l with trainings := if full then l.trainings + 1 else l.trainings }
      (locked = true → linked (.relockDone t lane locked full signal) x) ∧
      (locked = false → full = true → signal = true → 2 ≤ l.attempts → free → exec (.relockDone t lane locked full signal) s =
        .next (put { x with mode := .failed, attempts := 3, inService := false })) ∧
      (locked = false → full = true → signal = true → l.attempts < 2 → exec (.relockDone t lane locked full signal) s =
        .next (put { x with attempts := l.attempts + 1 })) ∧
      (locked = false → signal = false → exec (.relockDone t lane locked full signal) s = .next (put { x with attempts := 0 })) ∧
      (locked = false → full = false → signal = true → exec (.relockDone t lane locked full signal) s = .next (put l))) ∧
    (l.mode ≠ .failed → exec (.failedRetry t lane) s = .next z) ∧
    (l.mode = .failed →
      (l.nextSetup = none → exec (.failedRetry t lane) s = .next (put (trains l))) ∧
      ∀ v, l.nextSetup = some v → exec (.failedRetry t lane) s =
        .next ((setup v).setLane lane (trains { l with nextSetup := none, rate := rateWithin v l.rate }))) ∧
    (l.mode ≠ .ready → l.mode ≠ .loop → exec (.signalLoss t lane) s = .next z) ∧
    (LaneAlone lane s →
      (l.mode = .ready → ∃ u : State, exec (.signalLoss t lane) s = .next u ∧
        Raises [Ev.lockLost lane] (put { l with mode := .retraining, attempts := 0, lockLosses := l.lockLosses + 1 }) u) ∧
      (l.mode = .loop → l.nextSetup = none → ∃ u : State, exec (.signalLoss t lane) s = .next u ∧
        Raises [Ev.lockLost lane] (put (trains { l with
          lockLosses := l.lockLosses + 1, loop := { l.loop with until_ := none, lstate := 3 } })) u))

/-- Low power (R356 to R359). The host's Quiet and Dormant commands are refused with 0x04 while the calendar holds a data slot; in
READY they ask the partner in a RATE folio where the link is UP, both sides offer the state (R405) and no calendar change is pending
(R422), and are refused where not; and Dormant from Quiet is entered at once. LP_POLICY asks for
Quiet after QUIET_DELAY and goes from Quiet to Dormant after DORMANT_DELAY. A wake command or a burst of the partner wakes the
lane, which sends its burst; the end of the wake is READY with LOW_POWER_EXIT. -/
def Obligations.LaneSleepsAndWakes : Prop :=
  ∀ (t : Nat) (src : Src) (lane : Nat) (s : State),
    let l := s.lane lane
    let put (x : PhyLane) : State := (s.begin t).setLane lane x
    let replied (status : Nat) (z : State) : State := z.emit (.status src.who status)
    let asked (op : Nat) : State := pushCtl lane 0x12 (rateBody op 0) (put { l with lpAsked := op })
    (gate src (Reg.phyControl lane) false (s.begin t) = stDone →
      (laneHasData s lane = true →
        exec (.phyQuiet t src lane) s = .next (replied stValue (s.begin t)) ∧
        exec (.phyDormant t src lane) s = .next (replied stValue (s.begin t))) ∧
      (laneHasData s lane = false → l.mode = .ready →
        (sleepAskable s lane 3 = true → exec (.phyQuiet t src lane) s = .next (replied stDone (asked 3))) ∧
        (sleepAskable s lane 4 = true → exec (.phyDormant t src lane) s = .next (replied stDone (asked 4)))) ∧
      (laneHasData s lane = false → l.mode = .quiet →
        exec (.phyDormant t src lane) s = .next (replied stDone (put { l with
          mode := .dormant, dormants := l.dormants + 1, quietSince := max s.dt t }))) ∧
      ((l.mode = .quiet ∨ l.mode = .dormant) →
        exec (.phyWake t src lane) s = .next (replied stDone
          ((put { l with mode := .waking, fromDormant := l.mode == .dormant }).emit (.wakeBurst lane)))) ∧
      (l.mode ≠ .quiet → l.mode ≠ .dormant → exec (.phyWake t src lane) s = .next (replied stDone (s.begin t))) ∧
      (laneHasData s lane = false →
        (l.mode ≠ .ready ∨ sleepAskable s lane 3 = false → exec (.phyQuiet t src lane) s = .next (replied stValue (s.begin t))) ∧
        (l.mode ≠ .ready ∨ sleepAskable s lane 4 = false → l.mode ≠ .quiet →
          exec (.phyDormant t src lane) s = .next (replied stValue (s.begin t))))) ∧
    (l.mode ≠ .quiet → l.mode ≠ .dormant →
      (l.lpEntry = 0 → exec (.wakeBurst t lane) s = .next (s.begin t)) ∧
      (l.lpEntry ≠ 0 → (s.link lane).mode = .lowPower → exec (.wakeBurst t lane) s =
        .next ((put { l with lpEntry := 0, lpAsked := 0 }).setLink lane { s.link lane with mode := .up }))) ∧
    ((l.mode = .quiet ∨ l.mode = .dormant) →
      exec (.wakeBurst t lane) s =
        .next ((put { l with mode := .waking, fromDormant := l.mode == .dormant }).emit (.wakeBurst lane))) ∧
    (l.mode ≠ .ready ∨ l.emptySince = none ∨ psLowPower (s.phySetup lane) = 0 ∨ laneHasData s lane = true ∨
      sleepAskable s lane 3 = false → exec (.quietDelayExpiry t lane) s = .next (s.begin t)) ∧
    (∀ since, l.mode = .ready → l.emptySince = some since → psLowPower (s.phySetup lane) ≠ 0 → laneHasData s lane = false →
      sleepAskable s lane 3 = true →
      exec (.quietDelayExpiry t lane) s =
        .next (if since + psQuietDelay (s.phySetup lane) ≤ max s.dt t then asked 3 else s.begin t)) ∧
    (l.mode = .quiet → psLowPower (s.phySetup lane) = 2 →
      exec (.dormantDelayExpiry t lane) s =
        .next (if l.quietSince + psDormantDelay (s.phySetup lane) ≤ max s.dt t
          then put { l with mode := .dormant, dormants := l.dormants + 1 } else s.begin t)) ∧
    (l.mode ≠ .quiet ∨ psLowPower (s.phySetup lane) ≠ 2 → exec (.dormantDelayExpiry t lane) s = .next (s.begin t)) ∧
    (∀ exit, l.mode ≠ .waking → exec (.wakeDone t lane exit) s = .next (s.begin t)) ∧
    (∀ exit, LaneAlone lane s → l.mode = .waking → ∃ u : State, exec (.wakeDone t lane exit) s = .next u ∧
      Raises [Ev.lowPowerExit lane]
        ((put { l with
          mode := .ready, attempts := 0, initial := false, inService := false
          holdReason := if l.holdReason = 3 then 0 else l.holdReason, emptySince := some (max s.dt t)
          quietWorst := if l.fromDormant then l.quietWorst else max l.quietWorst exit
          dormantWorst := if l.fromDormant then max l.dormantWorst (exit / us) else l.dormantWorst }).setLink lane
          { s.link lane with mode := .aligning, headers := 0, bad := 0 }) u)

/-- The other commands of PHY_CONTROL (R360 to R364, R370, R371), and what a loop and the adaptation do by themselves (R348, R349,
R361). A setup out of range, or one with ENABLE 0 while a route uses the lane, is refused with 0x04; one in range is in force at
once (a FAILED lane trains at once where its rates change, R354) but for rates, polarity and float settings, which wait for the next training, and amplitude and FFE ramp from where they
are (R342). -/
def Obligations.LaneCommands : Prop :=
  ∀ (t : Nat) (src : Src) (lane : Nat) (s : State),
    let l := s.lane lane
    let put (x : PhyLane) : State := (s.begin t).setLane lane x
    let replied (status : Nat) (z : State) : State := z.emit (.status src.who status)
    let v := s.reg (Reg.phySetup lane)
    let now := ffeNow (s.begin t) lane
    let kind := fld (s.reg (Reg.phyLoop lane)) 63 62
    let pattern := fld (s.reg (Reg.phyLoop lane)) 61 59
    let duration := fld (s.reg (Reg.phyLoop lane)) 57 32
    let looping : PhyLane := { l with
      mode := .loop, loop := ⟨kind, pattern, if duration = 0 then none else some (max s.dt t + duration * ms), 0, 0, 1⟩ }
    let held (reason : Nat) (x : PhyLane) : PhyLane := { x with holdReason := reason, heldData := 0, holds := x.holds + 1 }
    (gate src (Reg.phyControl lane) true (s.begin t) = stDone →
      ((phySetupOk v = false ∨ psEnable v = false ∧ laneUsed s lane = true) →
        exec (.phyApply t src lane) s = .next (replied stValue (s.begin t))) ∧
      (phySetupOk v = true → psEnable v = true → (l.mode ≠ .failed ∨ fld v 126 121 = fld (s.phySetup lane) 126 121) →
        exec (.phyApply t src lane) s = .next (replied stDone ((put { l with
          amp := ⟨now.1, max s.dt t⟩, pre := ⟨now.2.1, max s.dt t⟩, post := ⟨now.2.2, max s.dt t⟩
          nextSetup := if trainingFields v = trainingFields (s.phySetup lane) then none else some v
          emptySince := if l.emptySince.isSome then some (max s.dt t) else none }).setForce (Reg.phySetup lane)
            (withTrainingFields v (s.phySetup lane)))) ∧
        ∀ start since target, rampNow ⟨start, since⟩ target since = start) ∧
      (phySetupOk v = true → psEnable v = true → l.mode = .failed → fld v 126 121 ≠ fld (s.phySetup lane) 126 121 →
        ∃ u : State, exec (.phyApply t src lane) s = .next u ∧ (u.lane lane).mode = .training ∧
          (u.lane lane).rate = rateWithin v l.rate ∧ (u.lane lane).attempts = 0) ∧
      (phySetupOk v = true → psEnable v = false → laneUsed s lane = false → LaneAlone lane s → twf (fun _ => ({} : PhyLane)) s.phy = true →
        exec (.phyApply t src lane) s = .next (replied stDone (((s.begin t).setForce (Reg.phySetup lane)
          (withTrainingFields v (s.phySetup lane))).setLane lane { l with
            mode := .off, attempts := 0, holdReason := 0
            amp := ⟨now.1, max s.dt t⟩, pre := ⟨now.2.1, max s.dt t⟩, post := ⟨now.2.2, max s.dt t⟩
            nextSetup := if trainingFields v = trainingFields (s.phySetup lane) then none else some v
            emptySince := if l.emptySince.isSome then some (max s.dt t) else none })))) ∧
    (gate src (Reg.phyControl lane) false (s.begin t) = stDone →
      ((laneHasC0 s lane = true ∨ l.mode ≠ .ready) →
        exec (.phyRetrain t src lane) s = .next (replied stValue (s.begin t))) ∧
      (lane < 32 → laneHasC0 s lane = false → l.mode = .ready → LaneAlone lane s → s.bondOf lane = none → l.nextSetup = none →
        s.sup.inservice = none → s.sup.waiting = [] →
        ∃ u : State, exec (.phyRetrain t src lane) s = .next u ∧ u.sup.inservice = some (laneChange lane) ∧
          u.lane lane = { l with
            mode := .training, inService := true, retrainDue := false, retrains := l.retrains + 1, attempts := 0
            trainings := l.trainings + 1 } ∧
          (∀ n, n ≠ lane → u.lane n = s.lane n ∧ u.link n = s.link n) ∧
          u = { s with
            dt := max s.dt t, out := [.status src.who stDone], phy := u.phy, lnk := u.lnk
            sup := { s.sup with inservice := some (laneChange lane) } }) ∧
      ((laneUsed s lane = true ∨ lanePending s lane = true ∨ kind = 0 ∨ 4 < pattern ∨ l.mode ≠ .ready) →
        exec (.phyLoopStart t src lane) s = .next (replied stValue (s.begin t))) ∧
      (laneUsed s lane = false → lanePending s lane = false → kind = 1 ∨ kind = 2 → pattern ≤ 4 → l.mode = .ready →
        LaneAlone lane s → exec (.phyLoopStart t src lane) s =
          .next (replied stDone ((put looping).modLink lane fun k => { k with loopAsked := false }))) ∧
      (laneUsed s lane = false → lanePending s lane = false → kind = 3 → pattern ≤ 4 → l.mode = .ready →
        let k := s.link lane
        let asks := k.mode = .up ∧ capUsed k 4 = true
        (¬ asks → exec (.phyLoopStart t src lane) s = .next (replied stValue (s.begin t))) ∧
        (asks → exec (.phyLoopStart t src lane) s =
          .next (replied stDone (pushCtl lane 0x11 (loopBody 0 duration) ((s.begin t).setLink lane { k with loopAsked := true }))))) ∧
      (l.mode ≠ .loop → exec (.phyLoopStop t src lane) s = .next (replied stDone (s.begin t))) ∧
      (l.mode = .loop → l.loop.kind = 3 → l.nextSetup = none →
        exec (.phyLoopStop t src lane) s = .next (replied stDone (((s.begin t).emit (.control lane 0x11 (loopBody 3 0))).setLane lane
          { l with
            mode := .training, attempts := 0, trainings := l.trainings + 1
            loop := { l.loop with until_ := none, lstate := if l.loop.lstate = 1 then 2 else l.loop.lstate } }))) ∧
      (l.mode = .loop → l.loop.kind ≠ 3 → l.nextSetup = none →
        exec (.phyLoopStop t src lane) s = .next (replied stDone (put { l with
          mode := .training, attempts := 0, trainings := l.trainings + 1
          loop := { l.loop with until_ := none, lstate := if l.loop.lstate = 1 then 2 else l.loop.lstate } }))) ∧
      (l.mode ≠ .ready → exec (.phySweep t src lane) s = .next (replied stValue (s.begin t))) ∧
      (l.mode = .ready → (sweepNow s ≠ none ∨ s.fs.sweep.paused = true) →
        exec (.phySweep t src lane) s = .next (replied stDone { s.begin t with
          fs := { s.fs with sweep := { s.fs.sweep with single := s.fs.sweep.single ++ [0x500 + lane] } } })) ∧
      (l.mode = .ready → lane < 32 → sweepNow s = none → s.fs.sweep.paused = false → s.fs.sweep.single = [] → s.reg Reg.govState ≠ 2 →
        exec (.phySweep t src lane) s = .next (replied stDone { s.begin t with
          fs := { s.fs with sweep := { s.fs.sweep with single := [0x500 + lane] } } })) ∧
      exec (.phyClearCounts t src lane) s = .next (replied stDone (put { l with
        lockLosses := 0, holds := 0, quiets := 0, dormants := 0, trainings := 0, quietWorst := 0, dormantWorst := 0 }))) ∧
    (∀ bits errors e, l.mode = .loop → l.loop.kind ≠ 3 → l.nextSetup = none → l.loop.until_ = some e → e ≤ max s.dt t →
      exec (.loopDurationExpiry t lane bits errors) s = .next (put { l with
        mode := .training, attempts := 0, trainings := l.trainings + 1
        loop := { l.loop with
          until_ := none, lstate := if l.loop.lstate = 1 then 2 else l.loop.lstate, bits := bits, errors := errors } })) ∧
    (∀ bits errors, (l.mode ≠ .loop ∨ ∀ e, l.loop.until_ = some e → max s.dt t < e) →
      exec (.loopDurationExpiry t lane bits errors) s = .next (s.begin t)) ∧
    (l.mode ≠ .loop ∨ l.loop.lstate ≠ 1 → exec (.loopSyncTimeout t lane) s = .next (s.begin t)) ∧
    (l.mode = .loop → l.loop.lstate = 1 →
      exec (.loopSyncTimeout t lane) s = .next (put { l with loop := { l.loop with lstate := 3 } })) ∧
    (∀ levels, l.mode ≠ .ready → exec (.histogramWindow t lane levels) s =
      .next (put { l with windowOk := levelsOk l.rate levels, levelMin := levels.foldl min 1000 })) ∧
    (∀ levels, l.mode = .ready → (l.holdReason = 1 ∨ l.holdReason = 2) → levelsOk l.rate levels = true →
      exec (.histogramWindow t lane levels) s = .next (put (if 256 ≤ l.heldData
        then { l with windowOk := true, levelMin := levels.foldl min 1000, holdReason := 0, heldData := 0 }
        else { l with windowOk := true, levelMin := levels.foldl min 1000 }))) ∧
    (∀ levels, l.mode = .ready → l.holdReason ≠ 0 → levelsOk l.rate levels = false →
      exec (.histogramWindow t lane levels) s = .next (put { l with windowOk := false, levelMin := levels.foldl min 1000 })) ∧
    (l.mode ≠ .ready ∨ l.holdReason ≠ 0 → exec (.idleRun t lane) s = .next (s.begin t)) ∧
    (∀ levels, l.mode = .ready → l.holdReason ≠ 1 → l.holdReason ≠ 2 → levelsOk l.rate levels = true →
      exec (.histogramWindow t lane levels) s =
        .next (put { l with windowOk := true, levelMin := levels.foldl min 1000 })) ∧
    (∀ levels, l.mode = .ready → l.holdReason = 0 → levelsOk l.rate levels = false →
      ∃ u : State, exec (.histogramWindow t lane levels) s = .next u ∧
        let z := put (held 1 { l with windowOk := false, levelMin := levels.foldl min 1000 })
        (reportDue sec (Ev.adaptHeld lane) (max s.dt t) s → Raises [Ev.adaptHeld lane] z u) ∧
        (¬ reportDue sec (Ev.adaptHeld lane) (max s.dt t) s → Raises [] z u)) ∧
    (l.mode = .ready → l.holdReason = 0 → ∃ u : State, exec (.idleRun t lane) s = .next u ∧
      (reportDue sec (Ev.adaptHeld lane) (max s.dt t) s → Raises [Ev.adaptHeld lane] (put (held 2 l)) u) ∧
      (¬ reportDue sec (Ev.adaptHeld lane) (max s.dt t) s → Raises [] (put (held 2 l)) u))

/-! The Phokis link (R379 to R426) on a lane of its own, outside any bond. `k` is the lane's link as the command finds it, `put`
replaces it, and `counted` is `k` with a valid header counted (R379). -/

/-- Headers, alignment and turns (R379, R380, R382, R407, R415). 64 valid headers in a row end ALIGNING, an invalid one starts
the count anew; 16 invalid ones within 128 lose alignment, with ALIGN_LOST; an IDLE where a TURN was awaited, and a folio of a
reserved TYPE, are counted. The first TURN of TURN_HUNT is kept; one that follows the last moves the count on, shows the members,
and at SWITCH_TURN with the new EPOCH brings the partner's calendar into force (which counts in STR_CHANGE_SEQ if it changes the slots of an input stream, R95). The TURN is the last folio of the symbols that came since
the one before it, destuffed and descrambled by R376 to R378 (`turnReceived`); a lane phased to this one sends its SKIP where this
one receives one (R107). -/
def Obligations.LinkFollowsTurns : Prop :=
  ∀ (t lane : Nat) (s : State), s.bondOf lane = none →
    let k := s.link lane
    let put (x : LinkLane) : State := (s.begin t).setLink lane x
    let counted : LinkLane := { k with bad := k.bad * 2 % 2 ^ 128 }
    let lost : LinkLane := { k with
      bad := (k.bad * 2 + 1) % 2 ^ 128, counts := { k.counts with foliosLost := k.counts.foliosLost + 1 } }
    let follow (a : State) : State := a.each (phasedTo s lane) fun a n => sendSkip n a
    (k.mode = .aligning →
      (k.headers < 63 → exec (.skipFolio t lane) s = .next (follow (put { k with headers := k.headers + 1 }))) ∧
      (63 ≤ k.headers → exec (.skipFolio t lane) s =
        .next (follow (put { k with mode := .turnHunt, headers := 0, bad := 0, missRun := 0, locked := false }))) ∧
      ∀ slot, exec (.invalidHeader t lane slot) s = .next (put { k with headers := 0 })) ∧
    (k.mode = .up → exec (.skipFolio t lane) s = .next (follow (put counted)) ∧
      (∀ slot, slot ≠ 0 → exec (.idleFolio t lane slot) s = .next (put counted)) ∧
      (k.missRun = 0 → exec (.idleFolio t lane 0) s = .next (put { counted with
        missRun := 1, lastTurn := k.lastTurn.map fun n => (n + 1) % 2 ^ 32
        counts := { k.counts with turnMisses := k.counts.turnMisses + 1 } })) ∧
      (∀ slot ctype, slot ≠ 0 → slotFlow s lane slot = none → exec (.unknownControlFolio t lane slot ctype) s =
        .next (put { counted with counts := { k.counts with unknownTypes := k.counts.unknownTypes + 1 } }))) ∧
    (k.mode = .turnHunt → ∀ slot,
      (popCount 128 lost.bad < 16 → exec (.invalidHeader t lane slot) s = .next (put lost)) ∧
      (16 ≤ popCount 128 lost.bad → (∀ e ∈ s.str.ins, e.2.frame = none) →
        ∃ u : State, exec (.invalidHeader t lane slot) s = .next u ∧
          Raises [Ev.alignLost lane] (put { lost with
            mode := .aligning, headers := 0, bad := 0, lastTurn := none, missRun := 0, locked := false
            counts := { lost.counts with alignLosses := k.counts.alignLosses + 1 } }) u)) ∧
    (∀ (skew : Nat) (symbols : List Int),
      let c := turnReceived s lane symbols
      let body := folioBody c.folio
      let n := fld body 119 88
      let seen : LinkLane := { counted with
        rxWire := c.wire, rxStuff := c.stuff, lastTurn := some n
        rxOmitNext := (c.omitted.filter fun p => decide (512 < p)).map (· - 512)
        counts := { k.counts with stuffSymbols := k.counts.stuffSymbols + c.deleted } }
      (k.mode = .turnHunt → k.locked = false → k.lastTurn = none →
        exec (.turnFolio t lane skew symbols) s = .next (put seen)) ∧
      (∀ p, k.mode = .up → k.lastTurn = some p → n = (p + 1) % 2 ^ 32 → k.rxChange = none →
        exec (.turnFolio t lane skew symbols) s = .next (put { seen with missRun := 0, members := fld body 79 48 })) ∧
      (∀ p c, k.mode = .up → k.lastTurn = some p → n = (p + 1) % 2 ^ 32 → k.rxChange = some c → c.switchTurn = some n →
        fld body 87 80 = c.epoch → (s.lane lane).mode = .ready → (s.lane lane).retrainDue = false →
        (∀ slot, tget (fun _ => 0) c.got slot < 2 ^ 16) →
        ∃ u : State, exec (.turnFolio t lane skew symbols) s = .next u ∧
          (∀ slot, slot < 511 → record (u.link lane).rxCal 0 16 slot = tget (fun _ => 0) c.got (slot + 1)) ∧
          (u.link lane).rxEpoch = c.epoch ∧ (u.link lane).rxChange = none ∧ (∀ m, m ≠ lane → u.link m = s.link m) ∧
          (∀ r, r ≠ Reg.strChangeSeq → u.reg r = s.reg r) ∧
          u = { s with
            dt := max s.dt t, out := [], regs := u.regs, lnk := u.lnk, phy := u.phy, eps := { s.eps with bonds := u.eps.bonds } }))

/-- What a transmit turn of a lane in READY carries (R380 to R384, R400), where no calendar, member, phase or rate changes with it. A SKIP
goes before every even turn (log entry 66). The turn begins with the TURN with its number, the epoch of the calendar and the
members. Where stuffing omits no slot, the slots that are no data slots carry the control folios that wait, by precedence, as many
as they hold, each data slot the next folio that waits on its flow, and IDLEs fill the rest. The lane keeps the wire, the stuff
count and what waits still, and its symbols go out. -/
def Obligations.LinkSendsTurns : Prop :=
  ∀ (t lane : Nat) (s : State), s.bondOf lane = none → (s.lane lane).mode = .ready → (s.lane lane).lpEntry = 0 →
    let k := s.link lane
    k.mode ≠ .down → k.mode ≠ .loop → k.rateAgreed = none → k.txChange = none → k.txCleared = 0 → k.txReturning = 0 →
    (s.phase lane).source = none →
    let n := (k.txTurn + 1) % 2 ^ 32
    let turn := pack [(32, n), (8, k.txEpoch), (32, 1), (5, 0), (43, 0)]
    let z : State := (s.begin t).setLink lane { k with txTurn := n }
    let a : State := if (s.phase lane).state ≠ 2 ∧ n % 2 = 0 then sendSkip lane z else z
    let b : State := if k.mode = .negotiating ∨ k.locked = true then sendParts lane a else a
    let w := turnSent b lane turn
    let queue := ctlOrder (b.link lane).queue
    let room := ((calList k.txCal).filter fun e => !isData e).length
    let slots (f : Nat) : Nat := ((calList k.txCal).filter fun e => isData e && entryFlow e == f).length
    let kept : LinkLane := { b.link lane with
      txWire := w.wire, txStuff := w.stuff, queue := w.queue, idleCount := w.idle
      omitNext := (w.omitted.filter fun p => decide (512 ≤ p)).map (· - 512)
      counts := { k.counts with
        slotsOmitted := k.counts.slotsOmitted + (w.omitted.length - k.omitNext.length)
        foliosDeferred := k.counts.foliosDeferred + w.deferred } }
    (∃ u : State, exec (.txTurnStart t lane) s = .next u ∧ u.link lane = kept ∧ (∀ m, m ≠ lane → u.link m = s.link m) ∧
      u.out = b.out ++ w.out ++ [.symbols lane w.symbols] ∧
      (w.deferred = 0 →
        (twf (fun _ => ({} : OutSend)) s.str.sends = true → ∀ f, 0 < slots f → (u.send f).queue = tget (fun _ => []) w.flows f) ∧
        (∀ f, slots f = 0 → u.send f = s.send f) ∧
        u = { s with dt := max s.dt t, out := u.out, lnk := u.lnk, str := { s.str with sends := u.str.sends } })) ∧
    (w.omitted = [] →
      w.deferred = 0 ∧ w.queue = queue.drop room ∧
      (∀ f, 0 < slots f → tget (fun _ => []) w.flows f = (s.send f).queue.drop (slots f)) ∧
      ((∀ f, 0 < slots f → (s.send f).queue = []) → w.idle = k.idleCount + (511 - (queue.take room).length) ∧
        w.out = .control lane 0x01 turn :: (queue.take room).map fun f => .control lane f.type f.body))

/-- The calendar exchange (R415). A calendar that breaks a rule is refused with its code; else it is announced in 86 segments and
a commit, or held until the link is UP. The partner's segments are collected; its commit is answered with an acknowledge, which
fixes SWITCH_TURN, or with a refusal; an acknowledge in time stands, a late one cancels; a refusal of our own announcement
ends it. -/
def Obligations.LinkExchangesCalendars : Prop :=
  ∀ (t lane : Nat) (src : Src) (s : State), s.bondOf lane = none →
    let k := s.link lane
    let put (x : LinkLane) : State := (s.begin t).setLink lane x
    let counted : LinkLane := { k with bad := k.bad * 2 % 2 ^ 128 }
    let cal := s.reg (Reg.lnkTxCalendar lane)
    let code := txCalCode s lane cal
    (gate src (Reg.lnkControl lane) true (s.begin t) = stDone →
      (code ≠ 0 → exec (.lnkAnnounceCalendar t src lane) s = .next ((put { k with
        calRefusal := code, calResult := if k.txChange.isSome then k.calResult else 3 }).emit (.status src.who stValue))) ∧
      (code = 0 → k.mode ≠ .up → k.mode ≠ .down → (s.lane lane).mode ≠ .quiet → (s.lane lane).mode ≠ .dormant →
        ∃ u : State, exec (.lnkAnnounceCalendar t src lane) s = .next u ∧
          u.link lane = { k with
            calRefusal := 0, calResult := 1, txChange := some { epoch := (k.txEpoch + 1) % 256, entries := cal } } ∧
          (∀ m, m ≠ lane → u.link m = s.link m) ∧
          u = { s with dt := max s.dt t, out := [.status src.who stDone], lnk := u.lnk }) ∧
      (code = 0 → k.mode = .up → (s.lane lane).mode ≠ .quiet → (s.lane lane).mode ≠ .dormant →
        ∃ (u : State) (turn : Nat), exec (.lnkAnnounceCalendar t src lane) s = .next u ∧
          u.link lane = { k with
            calRefusal := 0, calResult := 1, reannounce := none
            txChange := some ⟨(k.txEpoch + 1) % 256, cal, turn, true, false, false⟩
            queue := k.queue ++ ((List.range 86).map fun i =>
                ⟨0x04, segmentBody ((k.txEpoch + 1) % 256) cal (6 * i + 1) % 2 ^ 120⟩) ++
              [⟨0x04, commitBody ((k.txEpoch + 1) % 256) cal turn % 2 ^ 120⟩] } ∧
          (∀ m, m ≠ lane → u.link m = s.link m) ∧
          u = { s with dt := max s.dt t, out := [.status src.who stDone], lnk := u.lnk })) ∧
    (gate src (Reg.lnkControl lane) false (s.begin t) = stDone → ∀ c, k.txChange = some c →
      exec (.lnkCancelCalendar t src lane) s = .next ((put { k with
        txChange := none, calResult := 4
        queue := k.queue.filter fun f => !(f.type == 0x04 && decide (fld f.body 119 118 < 2)) }).emit
          (.status src.who stDone))) ∧
    (∀ body, k.mode = .up →
      let epoch := fld body 117 110
      let first := fld body 109 101
      let n := fld body 100 98
      (k.rxChange = none → 0 < n → n ≤ 6 → 0 < first → first + n ≤ 512 →
        ∃ got, exec (.calendarSegment t lane body) s = .next (put { counted with rxChange := some ⟨epoch, got, none⟩ }) ∧
          (∀ i, i < n → tget (fun _ => 0) got (first + i) = fld body (97 - 16 * i) (82 - 16 * i)) ∧
          ∀ j, j < first ∨ first + n ≤ j → tget (fun _ => 0) got j = 0) ∧
      (rxCalCode s lane body = 0 → exec (.calendarCommit t lane body) s = .next (put { counted with
        queue := k.queue ++ [⟨0x04, answerBody epoch 0 % 2 ^ 120⟩]
        rxChange := k.rxChange.map fun c => { c with switchTurn := some (fld body 109 78) } })) ∧
      (rxCalCode s lane body ≠ 0 → exec (.calendarCommit t lane body) s = .next (put { counted with
        queue := k.queue ++ [⟨0x04, answerBody epoch (rxCalCode s lane body) % 2 ^ 120⟩]
        rxChange := if rxCalCode s lane body = 0x07 then k.rxChange else none })) ∧
      ∀ c, k.txChange = some c → c.announced = true → c.epoch = epoch →
        (2 ≤ turnsAhead c.switchTurn k.txTurn → turnsAhead c.switchTurn k.txTurn < 2 ^ 31 →
          exec (.calendarAck t lane body) s =
            .next (put { counted with txChange := some { c with acked := true }, calResult := 2 })) ∧
        (turnsAhead c.switchTurn k.txTurn < 2 →
          exec (.calendarAck t lane body) s = .next (put { counted with txChange := none, calResult := 4 })) ∧
        ((fld body 109 102 ≠ 0x01 ∨ c.again = true) → exec (.calendarRefuse t lane body) s =
          .next (put { counted with txChange := none, calResult := 3, calRefusal := fld body 109 102 })) ∧
        (fld body 109 102 = 0x01 → c.again = false → exec (.calendarRefuse t lane body) s =
          .next (announce lane c.entries true
            (put { counted with txChange := none, calResult := 3, calRefusal := 0x01 }))))

/-- Negotiation and authentication (R401 to R408, R524, R525). Without a common revision, or with CHOSEN 0xF shown, the partner
is INCOMPATIBLE, with its event; with the same CHOSEN shown the link is UP, with PARTNER_JOINED, when no authentication is asked
for. A challenge is answered with the response of R524 in parts 3 and 4 by a slot that may answer; a right response is noted; a
wrong or late one fails the authentication, with AUTH_FAILED_LINK. A partner gone for 8 ms has left; LNK_CONTROL 0x03 negotiates
anew. -/
def Obligations.LinkNegotiates : Prop :=
  ∀ (t lane : Nat) (src : Src) (s : State), s.bondOf lane = none →
    let k := s.link lane
    let put (x : LinkLane) : State := (s.begin t).setLink lane x
    let counted : LinkLane := { k with bad := k.bad * 2 % 2 ^ 128 }
    (∀ body, k.mode = .negotiating →
      let chosen := min (s.reg Reg.lnkRevMax) (fld body 112 109)
      let common := max (s.reg Reg.lnkRevMin) (fld body 116 113) ≤ chosen
      ((¬ common ∨ fld body 108 105 = 0xF) → ∃ u : State, exec (.colophonPart0 t lane body) s = .next u ∧
        (u.link lane).mode = .incompatible ∧ (∀ m, m ≠ lane → u.link m = s.link m) ∧
        Raises [Ev.partnerIncompatible lane] { s with dt := max s.dt t, out := [], lnk := u.lnk } u) ∧
      (common → fld body 108 105 ≠ 0xF → fld body 108 105 ≠ chosen → ∃ u : State,
        exec (.colophonPart0 t lane body) s = .next u ∧ (u.link lane).mode = .negotiating ∧ (u.link lane).chosen = chosen ∧
        (u.link lane).peer0 = body % 2 ^ 120 ∧ (∀ m, m ≠ lane → u.link m = s.link m) ∧
        u = { s with dt := max s.dt t, out := [], lnk := u.lnk }) ∧
      (common → fld body 108 105 ≠ 0xF → fld body 108 105 = chosen → k.policy = 1 → k.rateNew = false → ∃ u : State,
        exec (.colophonPart0 t lane body) s = .next u ∧ (u.link lane).mode = .up ∧ (u.link lane).rev = chosen ∧
        bit u.evt.status (Ev.partnerJoined lane) = true) ∧
      (k.leftAt = none → exec (.colophonPart1 t lane body) s = .next (put { counted with peer1 := body % 2 ^ 120 }))) ∧
    (k.mode = .authenticating →
      (∀ body, s.slotAuth (fld body 116 109) = true → k.peerValid = false →
        let slot := fld body 116 109
        let nonce := beBytes 12 (fld body 108 13)
        let r := linkResponse (s.slotKey slot) nonce Config.deviceId (peerId k)
        exec (.colophonPart2 t lane body) s = .next (useSlot slot (put { counted with
          peerNonce := nonce, peerSlot := slot, responseSent := true
          queue := k.queue ++ [⟨0x05, pack [(3, 3), (64, r / 2 ^ 64), (53, 0)] % 2 ^ 120⟩,
            ⟨0x05, pack [(3, 4), (64, r), (53, 0)] % 2 ^ 120⟩] }))) ∧
      ∀ part3 part4, k.peerValid = false →
        let right := fld part3 116 53 * 2 ^ 64 + fld part4 116 53 =
          linkResponse (s.slotKey k.ownSlot) k.ownNonce (peerId k) Config.deviceId
        (s.slotAuth k.ownSlot = true → right → k.responseSent = false →
          exec (.colophonResponse t lane part3 part4) s = .next (useSlot k.ownSlot (put { counted with peerValid := true }))) ∧
        ((s.slotAuth k.ownSlot = false ∨ ¬ right) → k.reauth = false → k.policy = 3 → ∃ u : State,
          exec (.colophonResponse t lane part3 part4) s = .next u ∧
          Raises [Ev.authFailedLink, Ev.partnerIncompatible lane] (setLinkShown lane { counted with
            mode := .incompatible, authFailed := true, authenticated := false, session := none } (put counted)) u)) ∧
    (k.mode = .authenticating → k.reauth = false → k.peerValid = false → k.policy = 3 → k.authSince + s.reg Reg.lnkAuthTimeout * ms ≤ max s.dt t →
      ∃ u : State, exec (.authTimeout t lane) s = .next u ∧ Raises [Ev.authFailedLink, Ev.partnerIncompatible lane]
        (setLinkShown lane { k with mode := .incompatible, authFailed := true, authenticated := false, session := none } (s.begin t)) u) ∧
    (k.mode = .negotiating → k.seen0 = false →
      (k.negSince + s.reg Reg.lnkColophonTimeout * ms ≤ max s.dt t → ∃ u : State, exec (.colophonTimeout t lane) s = .next u ∧
        Raises [Ev.partnerIncompatible lane] (put { k with mode := .incompatible }) u) ∧
      (max s.dt t < k.negSince + s.reg Reg.lnkColophonTimeout * ms →
        exec (.colophonTimeout t lane) s = .next (s.begin t))) ∧
    (∀ left, k.leftAt = some left → k.mode ≠ .up → left + 8 * ms ≤ max s.dt t →
      ∃ u : State, exec (.resumeTimeout t lane) s = .next u ∧
        Raises [Ev.partnerLeft lane] (put { k with leftAt := none }) u) ∧
    (gate src (Reg.lnkControl lane) false (s.begin t) = stDone → k.mode = .incompatible →
      ∃ u : State, exec (.lnkRenegotiate t src lane) s = .next u ∧ (u.link lane).mode = .negotiating ∧
        (u.link lane).negSince = max s.dt t ∧ (u.link lane).seen0 = false ∧ (u.link lane).authenticated = false ∧
        (∀ m, m ≠ lane → u.link m = s.link m) ∧ (∀ r, r ≠ Reg.strChangeSeq → u.reg r = s.reg r) ∧
        (k.authenticated = false → u.regs = s.regs) ∧
        u = { s with dt := max s.dt t, out := [.status src.who stDone], regs := u.regs, lnk := u.lnk })

/-- Tag epochs (R529, R536, R537). The sending epoch advances by 1 modulo 256, no sooner than 1 s after the last advance, with
EPOCH_ADVANCED; a session whose slot is not orphaned does not end with its epoch, one on a replaced slot of DAP does; a failed
re-authentication is tried again once its time has come, by a fresh challenge. -/
def Obligations.TagEpochs : Prop :=
  ∀ (t lane : Nat) (s : State) (x : TagSession),
    let k := s.link lane
    let put (y : LinkLane) : State := (s.begin t).setLink lane y
    k.session = some x →
    ((x.orphaned = true ∨ max s.dt t < x.txSince + sec) → exec (.epochAdvance t lane) s = .next (s.begin t)) ∧
    (x.orphaned = false → x.txSince + sec ≤ max s.dt t → x.advances < 255 → ∃ u : State,
      exec (.epochAdvance t lane) s = .next u ∧ Raises [Ev.epochAdvanced] (put { k with session := some { x with
        txEpoch := (x.txEpoch + 1) % 256, txSince := max s.dt t, advances := x.advances + 1 } }) u) ∧
    (lane < 32 → x.orphaned = false → exec (.orphanEpochEnd t lane) s = .next (s.begin t)) ∧
    (∀ n y at_, oget s.dap.sessions n = some y → y.orphanedAt = some at_ → kaOrphaned (s.keySlot y.slot).attr = false →
      let period := max 1 (s.reg Reg.secEpochTime) * sec
      exec (.orphanEpochEnd t (32 + n)) s = .next (if (at_ - y.opened) / period < (max s.dt t - y.opened) / period
        then endSession n (s.begin t) else s.begin t)) ∧
    (∀ due, x.retryAt = some due → max s.dt t < due → exec (.reauthRetry t lane) s = .next (s.begin t)) ∧
    (∀ due, x.retryAt = some due → due ≤ max s.dt t → k.mode = .up → s.slotValid x.slot = true →
      kaOrphaned (s.keySlot x.slot).attr = false →
      let nonce := (List.range 12).map fun i => Config.freeValue (s.free + i) % 256
      let slot := s.reg Reg.lnkAuthSlot
      exec (.reauthRetry t lane) s = .next { put { k with
          reauth := true, ownNonce := nonce, ownSlot := slot, authSince := max s.dt t, peerValid := false
          responseSent := false, peerNonce := []
          queue := k.queue ++ [⟨0x05, pack [(3, 2), (8, slot), (96, beNat nonce), (13, 0)] % 2 ^ 120⟩] } with
        free := s.free + 12 })

/-- Requests of the partner and of the host on a link that is UP (R363, R397, R418 to R426): a rate within the lane's range is
accepted and agreed, another refused; Quiet or Dormant is accepted while no data slot is sent and none of the calendars changes;
a refusal ends what was asked for; a loop is echoed or refused, and ends on LOOP_END; a bond member leaves or comes back with the
next TURN. The host's setup is applied, its rate request goes out or is refused, and its clears clear. -/
def Obligations.LinkRequests : Prop :=
  ∀ (t lane : Nat) (src : Src) (s : State),
    let k := s.link lane
    let l := s.lane lane
    let put (x : LinkLane) : State := (s.begin t).setLink lane x
    let replied (status : Nat) (z : State) : State := z.emit (.status src.who status)
    let counted : LinkLane := { k with bad := k.bad * 2 % 2 ^ 128 }
    let leaving (c : Instr) (mode : LinkMode) (answer : Nat) (u : State) : Prop := exec c s = .next u ∧
      (u.link lane).mode = mode ∧ (answer ≠ 0 → ⟨0x12, answer % 2 ^ 120⟩ ∈ (u.link lane).queue) ∧
      ∀ m, m ≠ lane → u.link m = s.link m
    (k.mode = .up → s.bondOf lane = none → ∀ body,
      let rate := fld body 115 113
      (k.rateAsked = none → rateRefused s lane rate = true → exec (.rateRequestFolio t lane body) s =
        .next (put { counted with queue := k.queue ++ [⟨0x12, rateBody 2 rate % 2 ^ 120⟩] })) ∧
      (k.rateAsked = none → rateRefused s lane rate = false → ∃ u : State,
        leaving (.rateRequestFolio t lane body) .rateChange (rateBody 1 rate) u ∧ (u.link lane).rateAgreed = some rate ∧
        u = { s with
          dt := max s.dt t, out := [], lnk := u.lnk, eps := u.eps, dap := u.dap, regs := u.regs, nvm := u.nvm }) ∧
      (k.rateAsked = some rate → ∃ u : State, leaving (.rateAcceptFolio t lane body) .rateChange 0 u ∧
        (u.link lane).rateAgreed = some rate ∧ (u.link lane).rateAsked = none ∧
        u = { s with
          dt := max s.dt t, out := [], lnk := u.lnk, eps := u.eps, dap := u.dap, regs := u.regs, nvm := u.nvm }) ∧
      (k.rateAsked = some rate →
        exec (.rateRefuseFolio t lane body) s = .next (put { counted with rateAsked := none }))) ∧
    (k.mode = .up → s.bondOf lane = none → ∀ op c, (op = 3 ∧ c = .quietRequestFolio t lane ∨ op = 4 ∧ c = .dormantRequestFolio t lane) →
      let refused := calHasData k.txCal = true ∨ capInUse k (op - 1) = false ∨ calendarPending s lane = true
      (refused → exec c s = .next (put { counted with queue := k.queue ++ [⟨0x12, rateBody 6 0 % 2 ^ 120⟩] })) ∧
      (¬ refused → ∃ u : State, leaving c .lowPower (rateBody 5 0) u ∧ (u.lane lane).lpEntry = op ∧
        (u.lane lane).lpAsked = 0 ∧ ∀ m, m ≠ lane → u.lane m = s.lane m)) ∧
    (k.mode = .up →
      (l.lpAsked ≠ 0 → ∃ u : State, leaving (.lpAcceptFolio t lane) .lowPower 0 u ∧ (u.lane lane).lpEntry = l.lpAsked ∧
        (u.lane lane).lpAsked = 0 ∧ ∀ m, m ≠ lane → u.lane m = s.lane m) ∧
      exec (.lpRefuseFolio t lane) s = .next ((put counted).setLane lane { l with lpAsked := 0 }) ∧
      exec (.loopRefuseFolio t lane) s = .next (put { counted with loopAsked := false }) ∧
      ∀ body, let may := psEcho (s.phySetup lane) = true ∧ laneUsed s lane = false ∧ lanePending s lane = false
        (¬ may → exec (.loopRequestFolio t lane body) s =
          .next (put { counted with queue := k.queue ++ [⟨0x11, loopBody 2 0 % 2 ^ 120⟩] })) ∧
        (may → ∃ u : State, leaving (.loopRequestFolio t lane body) .loop 0 u ∧ (u.link lane).echo = true ∧
          (u.lane lane).mode = .loop ∧ .control lane 0x11 (loopBody 1 (fld body 117 92)) ∈ u.out ∧
          ∀ m, m ≠ lane → u.lane m = s.lane m)) ∧
    (k.mode = .up → k.loopAsked = true → l.mode = .ready → ∃ u : State, leaving (.loopAcceptFolio t lane) .loop 0 u ∧
      (u.lane lane).mode = .loop ∧ (u.lane lane).loop.kind = 3 ∧ (u.link lane).loopAsked = false) ∧
    (k.echo = true → l.mode = .loop → l.loop.kind ≠ 3 → l.nextSetup = none →
      exec (.loopEndFolio t lane) s = .next ((put { k with echo := false }).setLane lane { l with
        mode := .training, attempts := 0, trainings := l.trainings + 1
        loop := { l.loop with until_ := none, lstate := 2 } })) ∧
    (k.mode = .up → ∀ body first n, s.bondOf lane = some (first, n) → fld body 117 113 < n →
      let m := fld body 117 113
      let leaves := .next ((put counted).modLink first fun x => { x with
        txCleared := setBit x.txCleared m, txReturning := clrBit x.txReturning m })
      exec (.bondMemberLost t lane body) s = leaves ∧ exec (.bondMemberWithdrawn t lane body) s = leaves ∧
      exec (.bondMemberReady t lane body) s = .next ((put counted).modLink first fun x => { x with
        txReturning := setBit x.txReturning m, txCleared := clrBit x.txCleared m })) ∧
    (gate src (Reg.lnkControl lane) true (s.begin t) = stDone →
      exec (.lnkApplySetup t src lane) s = .next (replied stDone ((s.begin t).apply (Reg.lnkSetup lane)))) ∧
    (gate src (Reg.lnkControl lane) false (s.begin t) = stDone →
      exec (.lnkClearCounts t src lane) s = .next (replied stDone (put { k with counts := {} }))) ∧
    (∀ rate, gate src (Reg.lnkRateRequest lane) false (s.begin t) = stDone →
      let refused := k.mode ≠ .up ∨ 5 < rate ∨ (∃ n ∈ s.bondLanes lane, rateOutside s n rate = true) ∨ calendarPending s lane = true ∨
        k.rateAsked.isSome = true
      (refused → exec (.lnkRateRequest t src lane rate) s = .next (replied stValue (s.begin t))) ∧
      (¬ refused → exec (.lnkRateRequest t src lane rate) s = .next (replied stDone (put { k with
        rateAsked := some rate, queue := k.queue ++ [⟨0x12, rateBody 0 rate % 2 ^ 120⟩] })))) ∧
    (gate src Reg.lnkStatsClear false (s.begin t) = stDone → exec (.lnkStatsClear t src) s = .next (replied stDone
      (((s.begin t).each (List.range 32) fun z n => z.modCounts n fun _ => {}).setReg Reg.lnkEpRefused 0)))

/-! Endpoints, streams and their frames (R46 to R54, R387 to R394, R409 to R412). `z` is the state with a valid header counted on
an UP link outside any bond; `routes = []` says that no route looks at the stream. -/

/-- Endpoints (R410 to R412). A new one takes the lowest free index, and a record of a known one changes
its kind and number of streams; a PARTNER_ID that another endpoint has is refused. A bit in a
HEARTBEAT ends the misses; a window without one is a miss, and the eighth in a row makes the endpoint leave and be kept as
departed; WITHDRAW with stream 0xFF makes it leave (each said here of an endpoint without streams). Each change moves LNK_EP_SEQ. The U3264 sends its own HEARTBEAT on every UP
lane once a millisecond, and its stream records once a second. -/
def Obligations.EndpointsComeAndGo : Prop :=
  ∀ (t lane : Nat) (s : State), s.bondOf lane = none → (s.link lane).mode = .up →
    let z : State := (s.begin t).setLink lane { s.link lane with bad := (s.link lane).bad * 2 % 2 ^ 128 }
    (∀ body e, s.endpointAt lane (sbEp body) = none → s.keptAt lane (sbEp body) = none →
      (∀ x p, s.endpoint x = some p → p.identity ≠ fld body 108 77) → e < 1024 → s.endpoint e = none →
      (∀ x, x < e → s.endpoint x ≠ none) →
      exec (.endpointRecord t lane body) s = .next ((z.setEndpoint e (some {
        sink := bit body 67, lane := lane, ep := sbEp body, streams := fld body 76 68, windowEnd := max s.dt t + ms
        identity := fld body 108 77 })).count Reg.lnkEpSeq 1)) ∧
    (∀ body e p, s.endpointAt lane (sbEp body) = some e → s.endpoint e = some p → p.identity = fld body 108 77 →
      (∀ x q, s.endpoint x = some q → q.identity = p.identity → q.lane = lane ∧ q.ep = sbEp body) →
      let q : Endpoint := { p with sink := bit body 67, streams := fld body 76 68 }
      exec (.endpointRecord t lane body) s = .next (if q = p then z else (z.setEndpoint e (some q)).count Reg.lnkEpSeq 1)) ∧
    (∀ body x p, s.endpoint x = some p → p.identity = fld body 108 77 → (p.lane ≠ lane ∨ p.ep ≠ sbEp body) →
      exec (.endpointRecord t lane body) s = .next (z.count Reg.lnkEpRefused 1)) ∧
    (∀ body,
      let base := fld body 119 110
      let hit (ep : Nat) : Bool := decide (base ≤ ep ∧ ep < base + 96) && bit body (ep - base)
      ∃ u : State, exec (.heartbeatFolio t lane body) s = .next u ∧
        (∀ e p, s.endpoint e = some p → u.endpoint e = some (if p.lane = lane ∧ hit p.ep = true
          then { p with heard := true, missed := 0, lastHeard := max s.dt t } else p)) ∧
        (∀ e, s.endpoint e = none → u.endpoint e = none) ∧
        u = { z with eps := { s.eps with
          table := u.eps.table
          departed := s.eps.departed.map fun d => if d.lane = lane ∧ hit d.ep then { d with alive := true } else d } }) ∧
    (∀ body e, s.endpointAt lane (fld body 119 110) = some e → fld body 109 102 = 0xFF → s.streamsOf e = [] →
      exec (.withdrawFolio t lane body) s = .next { (z.setEndpoint e none).count Reg.lnkEpSeq 1 with
        eps := { (z.setEndpoint e none).eps with
          departed := s.eps.departed.filter fun d => !(d.lane == lane && d.ep == fld body 119 110) } }) ∧
    (∀ e p, s.endpoint e = some p →
      let after (q : Endpoint) : Prop := exec (.heartbeatWindowEnd t e) s =
        .next ((s.begin t).setEndpoint e (some { q with windowEnd := p.windowEnd + ms }))
      (max s.dt t < p.windowEnd → exec (.heartbeatWindowEnd t e) s = .next (s.begin t)) ∧
      (p.windowEnd ≤ max s.dt t →
        (windowsCount s p.lane = false → after p) ∧
        (windowsCount s p.lane = true → p.heard = true → after { p with heard := false, missed := 0 }) ∧
        (windowsCount s p.lane = true → p.heard = false → p.missed < 7 → after { p with missed := p.missed + 1 }) ∧
        (windowsCount s p.lane = true → p.heard = false → 7 ≤ p.missed → s.streamsOf e = [] →
          exec (.heartbeatWindowEnd t e) s = .next { ((s.begin t).setEndpoint e none).count Reg.lnkEpSeq 1 with
            eps := { ((s.begin t).setEndpoint e none).eps with
              departed := s.eps.departed ++ [{ lane := p.lane, ep := p.ep, identity := p.identity }] } }))) ∧
    (max s.dt t < s.eps.nextHeartbeat → exec (.deviceHeartbeatSend t) s = .next (s.begin t)) ∧
    (s.eps.nextHeartbeat ≤ max s.dt t → lane < 32 → ∃ u : State, exec (.deviceHeartbeatSend t) s = .next u ∧
      u.link lane = { s.link lane with queue := (s.link lane).queue ++ [⟨0x08, 0⟩] } ∧
      (∀ n, (s.link n).mode ≠ .up → u.link n = s.link n) ∧
      u = { s with dt := max s.dt t, out := [], lnk := u.lnk, eps := { s.eps with nextHeartbeat := max s.dt t + ms } }) ∧
    (max s.dt t < s.eps.nextRepeat → exec (.streamRecordRepeat t) s = .next (s.begin t)) ∧
    (s.eps.nextRepeat ≤ max s.dt t → ∃ u : State, exec (.streamRecordRepeat t) s = .next u ∧
      (∀ k, k < 256 → outUsed (s.outDesc k) = true → dLane (s.outDesc k) = lane →
        ⟨0x06, outRecord s k % 2 ^ 120⟩ ∈ (u.link lane).queue) ∧
      (∀ n, (s.link n).mode ≠ .up → u.link n = s.link n) ∧
      u = { s with dt := max s.dt t, out := [], lnk := u.lnk, eps := { s.eps with nextRepeat := max s.dt t + sec } })

/-- Streams (R49 to R53), while no route looks at any. A record of a new pair takes the lowest free ID: ANNOUNCED with STREAM_JOINED when its format is
accepted, else UNSUPPORTED with its event. WITHDRAW makes it GONE, and a LIVE stream without a frame start for STR_STALL_TIME is
STALLED; either with its event. Each change moves STR_CHANGE_SEQ. -/
def Obligations.StreamsJoinStallAndLeave : Prop :=
  ∀ (t lane : Nat) (s : State), s.bondOf lane = none → (s.link lane).mode = .up → s.str.routes = [] →
    let z : State := (s.begin t).setLink lane { s.link lane with bad := (s.link lane).bad * 2 % 2 ^ 128 }
    (∀ body e p k, s.endpointAt lane (sbEp body) = some e → s.endpoint e = some p →
      s.boundId p.identity (fld body 108 101) = none → k < 512 → (s.ins k).mode = .absent →
      (∀ j, j < k → (s.ins j).mode ≠ .absent) → s.str.safeWait = [] →
      (p.identity ≠ 0 ∨ fld body 108 101 ≠ 0) →
      let desc := recordDesc s lane e body
      ∃ u : State, exec (.streamRecord t lane body) s = .next u ∧
        (u.ins k).identity = p.identity ∧ (u.ins k).number = fld body 108 101 ∧ (u.ins k).desc = desc ∧
        (u.ins k).flow = fld body 100 92 ∧ (u.ins k).frame = none ∧ (∀ j, j ≠ k → u.ins j = s.ins j) ∧
        u.reg Reg.strChangeSeq = s.reg Reg.strChangeSeq + 1 ∧
        (formatAccepted desc = true → dCompressed desc = false →
          (u.ins k).mode = .announced ∧ bit u.evt.status Ev.streamJoined = true) ∧
        (formatAccepted desc = false → (u.ins k).mode = .unsupported ∧ bit u.evt.status Ev.streamUnsupported = true)) ∧
    (∀ body e k, s.endpointAt lane (fld body 119 110) = some e → fld body 109 102 ≠ 0xFF →
      (s.streamsOf e).filter (fun j => (s.ins j).number == fld body 109 102) = [k] → (s.ins k).mode = .live → (s.ins k).frame = none →
      s.reg Reg.strEndpointKeep = 0 → ∃ u : State, exec (.withdrawFolio t lane body) s = .next u ∧
        Raises [Ev.streamLeft] ((z.setIns k { s.ins k with
          mode := .gone, leftAt := max s.dt t, engine := none, untagged := none, secondNext := false
          tagState := 0, lapsed := false, bare := false }).count Reg.strChangeSeq 1) u) ∧
    (∀ k, (s.ins k).mode = .live → (s.ins k).frame = none →
      (max s.dt t < (s.ins k).lastStart + s.reg Reg.strStallTime * ms →
        exec (.stallTimeout t k) s = .next (s.begin t)) ∧
      ((s.ins k).lastStart + s.reg Reg.strStallTime * ms ≤ max s.dt t → ∃ u : State,
        exec (.stallTimeout t k) s = .next u ∧ Raises [Ev.streamStalled]
          (((s.begin t).setIns k { s.ins k with mode := .stalled }).count Reg.strChangeSeq 1) u))

/-- Frames and their folios (R46, R53, R387 to R394), on a stream k of a flow of the lane that is not stored. A frame start
opens a frame, or its second field; a data folio joins its line; a LINE_CHECK that names the line under way, with every folio
there and the right CRC, adds its samples, the last line completes the frame and makes the stream LIVE; a wrong LINE_CHECK or a
POISON conceals the line from the frame before, counts it and reports it at most once a second; on a stream with AUTH a wrong TAG
makes the stream unverified and a right one verified; audio keeps its SEQ. -/
def Obligations.FramesArrive : Prop :=
  ∀ (t lane : Nat) (s : State) (k : Nat), s.bondOf lane = none → (s.link lane).mode = .up → s.str.routes = [] →
    s.streamPool k = none → (s.lane lane).holdReason = 0 →
    let i := s.ins k
    let z : State := (s.begin t).setLink lane { s.link lane with bad := (s.link lane).bad * 2 % 2 ^ 128 }
    (intakeOpen s k = true → intakeBegins s k = true → dMedia i.desc ≠ 1 → i.frame = none → i.untagged = none →
      exec (.inputFrameStart t k) s = .next ((s.begin t).setIns k { i with
        frame := some { start := max s.dt t }, secondNext := false, prevStart := i.lastStart, lastStart := max s.dt t
        lastSecond := 0, period := if i.lastStart = 0 then 0 else max s.dt t - i.lastStart })) ∧
    (∀ f, intakeOpen s k = true → dMedia i.desc ≠ 1 → i.frame = some f → i.secondNext = true → f.buf = none → f.wins = [] →
      exec (.inputFrameStart t k) s = .next ((s.begin t).setIns k { i with
        lastSecond := max s.dt t, secondNext := false
        frame := some { f with second := true, line := 0, payloads := [], coded := [], lost := false } })) ∧
    (∀ f slot flow payload, i.frame = some f → i.secondNext = false → slot ≠ 0 → slotFlow s lane slot = some flow →
      flowStream s lane flow = some k → exec (.dataFolio t lane slot payload) s = .next (z.setIns k { i with
        frame := some { f with
          payloads := f.payloads ++ [payload % 2 ^ 128], sent := f.sent ++ [payload % 2 ^ 128] } })) ∧
    (∀ f body, i.frame = some f → i.secondNext = false → intakeOpen s k = true → dCompressed i.desc = false →
      dInterlaced i.desc = false → f.buf = none → f.wins = [] → f.second = false → f.lost = false → f.broken = false →
      flowStream s lane (fld body 119 111) = some k → fld body 110 97 = f.line → fld body 94 79 = f.number →
      f.line < dHeight i.desc →
      let samples := unpackLine (dWidth i.desc) (dChroma i.desc) (dDepth i.desc) f.payloads
      (f.payloads.length = streamLineFolios i → fld body 78 63 = crc16Line f.payloads →
        (bit body 95 = false → exec (.lineCheckFolio t lane body) s = .next (z.setIns k { i with
          frame := some { f with lines := f.lines ++ [samples], line := f.line + 1, payloads := [] } })) ∧
        (bit body 95 = true → f.line + 1 = dHeight i.desc → (i.mode = .announced ∨ i.mode = .stalled) →
          ∃ u : State, exec (.lineCheckFolio t lane body) s = .next u ∧ (u.ins k).mode = .live ∧ (u.ins k).frame = none ∧
            (u.ins k).frames = i.frames + 1 ∧ (u.ins k).last = f.lines ++ [samples] ∧
            (u.ins k).untagged = some ⟨f.number, f.sent, []⟩ ∧ (∀ j, j ≠ k → u.ins j = s.ins j) ∧
            u.reg Reg.strChangeSeq = s.reg Reg.strChangeSeq + 1)) ∧
      ((f.payloads.length ≠ streamLineFolios i ∨ fld body 78 63 ≠ crc16Line f.payloads) → bit body 95 = false →
        ∃ u : State, exec (.lineCheckFolio t lane body) s = .next u ∧
        let a : State := (z.setIns k { i with
          lineFail := i.lineFail + 1
          frame := some { f with
            lines := f.lines ++ [concealLine i 0 f.line], bad := f.bad ++ [f.line], line := f.line + 1
            payloads := [] } }).modCounts lane fun c => { c with lineFails := c.lineFails + 1 }
        (reportDue sec (Ev.lineCheckFailed lane) (max s.dt t) s → Raises [Ev.lineCheckFailed lane] a u) ∧
        (¬ reportDue sec (Ev.lineCheckFailed lane) (max s.dt t) s → Raises [] a u)) ∧
      (bit body 95 = false → ∃ u : State, exec (.poisonFolio t lane body) s = .next u ∧
        let a : State := (z.setIns k { i with
          lineFail := i.lineFail + 1
          frame := some { f with
            lines := f.lines ++ [concealLine i 0 f.line], bad := f.bad ++ [f.line], line := f.line + 1
            payloads := [] } }).modCounts lane fun c => { c with
            poisonsRx := c.poisonsRx + 1, lineFails := c.lineFails + 1 }
        (reportDue sec (Ev.lineCheckFailed lane) (max s.dt t) s → Raises [Ev.lineCheckFailed lane] a u) ∧
        (¬ reportDue sec (Ev.lineCheckFailed lane) (max s.dt t) s → Raises [] a u))) ∧
    (∀ body v, i.untagged = some v → v.bufs = [] → flowStream s lane (fld body 119 111) = some k →
      (s.streamAuth k = false → exec (.tagFolio t lane body) s = .next z) ∧
      (s.streamAuth k = true → tagValid s lane body v = false → exec (.tagFolio t lane body) s =
        .next (z.setIns k { i with tagFail := i.tagFail + 1, tagState := 2, untagged := none })) ∧
      (s.streamAuth k = true → tagValid s lane body v = true → ∃ u : State, exec (.tagFolio t lane body) s = .next u ∧
        u.ins k = { i with tagState := if sessionC0 s lane then 1 else 3, lapsed := false, bare := false, untagged := none } ∧
        (∀ j, j ≠ k → u.ins j = s.ins j) ∧ (∀ n, n ≠ lane → u.link n = s.link n) ∧
        u = { s with dt := max s.dt t, out := [], lnk := u.lnk, str := { s.str with ins := u.str.ins } })) ∧
    (∀ body, flowStream s lane (fld body 119 111) = some k → oget s.aud.bind k = none →
      exec (.audioFolio t lane body) s =
        .next (z.setIns k { i with audioSeq := some ((fld body 102 96 + 1) % 128) }))

/-! Commits, routes and takes (R57 to R94). -/

/-- The commits of the host. STR_COMMIT is refused with 0x0F while changes of the last one wait, and with 0x04 and its code
where a changed record is not admitted; else each changed descriptor of an output stream that runs waits for its boundary, and
every other one, and the tiles, come into force at once, where no route uses them (R57 to R62); SAFE_SET_COMMIT stores the safe image with its CRC, refuses an inadmissible
record with 0x04, and leaves the stored image when the NVM fails (R90, R91, R629); the clears clear (R95, R96). -/
def Obligations.StreamCommits : Prop :=
  ∀ (t : Nat) (src : Src) (s : State),
    let replied (status : Nat) (z : State) : State := z.emit (.status src.who status)
    let outs := changedRecords (s.reg Reg.strOutTable) (s.force Reg.strOutTable) 128 256
    let tiles := changedRecords (s.reg Reg.strTileTable) (s.force Reg.strTileTable) 96 1024
    let codes := (outs.map fun k => outDescCode s k (record (s.reg Reg.strOutTable) 0 128 k)) ++
      tiles.map fun i => tileCode s (record (s.reg Reg.strTileTable) 0 96 i)
    (gate src Reg.strCommit true (s.begin t) = stDone →
      (s.strWaiting = true → exec (.strCommit t src) s = .next (replied stBusy (s.begin t))) ∧
      (∀ c, s.strWaiting = false → codes.find? (· != 0) = some c →
        exec (.strCommit t src) s = .next (replied stValue { s.begin t with str := { s.str with commitCode := c } })) ∧
      (s.strWaiting = false → codes.find? (· != 0) = none → s.str.routes = [] → s.reg Reg.strEndpointKeep = 0 →
        ∃ u : State, exec (.strCommit t src) s = .next u ∧
          (∀ k, k ∈ outs → outTiming s k = false →
            u.outDesc k = record (s.reg Reg.strOutTable) 0 128 k ∧ oget u.str.outWait k = oget s.str.outWait k) ∧
          (∀ k, k ∈ outs → outTiming s k = true →
            u.outDesc k = s.outDesc k ∧ oget u.str.outWait k = some (record (s.reg Reg.strOutTable) 0 128 k)) ∧
          (∀ k, k ∉ outs → u.outDesc k = s.outDesc k ∧ oget u.str.outWait k = oget s.str.outWait k) ∧
          u.force Reg.strTileTable = s.reg Reg.strTileTable ∧
          (∀ n, (s.link n).mode ≠ .up → u.link n = s.link n) ∧
          u = { s with
            dt := max s.dt t, out := [.status src.who stDone], inForce := u.inForce, lnk := u.lnk
            str := { s.str with commitCode := 0, outWait := u.str.outWait } })) ∧
    (gate src Reg.stvClear false (s.begin t) = stDone →
      let k := s.reg Reg.strViewSelect
      exec (.stvClear t src) s = .next (replied stDone
        ((s.begin t).setIns k { s.ins k with frames := 0, lineFail := 0, tagFail := 0 }))) ∧
    (gate src Reg.takeStatsClear false (s.begin t) = stDone →
      exec (.takeStatsClear t src) s = .next (replied stDone
        ((s.begin t).clear [Reg.takeC0Worst, Reg.takeOverdueCount, Reg.takeCount]))) ∧
    (gate src Reg.safeSetCommit true (s.begin t) = stDone →
      let fits := (List.range s.safeCount).all fun i => safeOk s (s.safeRec i)
      (∀ ok, fits = false → exec (.safeSetCommit t src ok) s = .next (replied stValue (s.begin t))) ∧
      (fits = true → exec (.safeSetCommit t src false) s = .next (replied stNvm (s.begin t))) ∧
      (fits = true → s.reg Reg.strEndpointKeep = 0 → exec (.safeSetCommit t src true) s = .next (replied stDone
        (((({ s.begin t with
          nvm := { s.nvm with safe := safeImage s ++ leBytes 4 (crc32c (safeImage s)) } } : State).setReg Reg.safeSetCount
            s.safeCount).setReg Reg.safeSetDigest (crc32c (safeImage s))).setReg Reg.safeSetState 1 |>.setReg
              Reg.chimeSafeDigest (crc32c (leBytes 512 (s.reg Reg.chimeTable))))))) 

/-- Take groups (R81 to R88). A refused group changes nothing but the result entries, with TAKE_REFUSED; an accepted one
waits in the order of effective DT, no sooner than 1 ms from now, with one take for each record (SET, CLEAR or SOURCE), and the
EMPTY routes that it sets are PENDING. TAKE_CANCEL of a group whose DT has not come drops it, and PENDING routes that no other
group sets are EMPTY again; of another it is refused with 0x04. At the effective DT the source state is latched, and the first
frame of a stored route is held; a C0 take that has not flipped within 2 frame periods is counted and reported, once. -/
def Obligations.TakeGroups : Prop :=
  ∀ (t : Nat) (src : Src) (s : State),
    let replied (status : Nat) (z : State) : State := z.emit (.status src.who status)
    let result (code index : Nat) (z : State) : State := (z.setReg Reg.takeLastResult code).setReg Reg.takeLastIndex index
    (∀ data, gate src Reg.takeGroup false (s.begin t) = stDone →
      let h := groupHeader data
      let named : State := (s.begin t).setReg Reg.takeLastId (ghId h)
      let c := groupCode (s.begin t) data
      (c.1 ≠ 0 → ∃ u : State, exec (.takeGroup t src data) s =
          .next (replied (if c.1 = 0x01 then stLength else stValue) u) ∧
        Raises [Ev.takeRefused] (result c.1 c.2 named) u) ∧
      (c.1 = 0 →
        let floor := max s.dt t + ms
        let eff := if ghImmediate h then floor else max floor (ghEffective h)
        let take (i : Nat) : Take :=
          let k := takeRecord data i
          { route := trRoute k, op := trOp k
            image := takenImage (s.begin t) (trOp k) (plannedImage s.planned (trRoute k)) (trImage k) }
        let g : Group := {
          id := ghId h, moved := !ghImmediate h && decide (ghEffective h < floor), eff := eff
          takes := (List.range (ghCount h)).map take }
        let sets (r : Nat) : Prop := (s.route r).mode = .empty ∧ ∃ k ∈ g.takes, k.op = 0 ∧ k.route = r
        ∃ u : State, exec (.takeGroup t src data) s = .next u ∧
          (∀ r, sets r → (u.route r).mode = .pending) ∧ (∀ r, ¬ sets r → u.route r = s.route r) ∧
          Raises (if bit (s.reg Reg.takeNotify) 0 then [Ev.takeAccepted] else [])
            { replied stDone (result 0 0xFF named) with
              str := { s.str with groups := insertGroup g s.str.groups, routes := u.str.routes } } u)) ∧
    (∀ id, gate src Reg.takeCancel false (s.begin t) = stDone → s.reg Reg.strEndpointKeep = 0 →
      (∀ g, s.str.groups.find? (fun g => !g.restore && g.id == id && decide (max s.dt t < g.eff)) = some g →
        let left := s.str.groups.erase g
        let goes (r : Nat) : Prop := (s.route r).mode = .pending ∧ (∃ k ∈ g.takes, k.route = r) ∧
          ∀ x ∈ left, ∀ k ∈ x.takes, k.op = 0 → k.route ≠ r
        ∃ u : State, exec (.takeCancel t src id) s = .next u ∧
          (0 < max s.dt t → ∀ r, goes r → (u.route r).mode = .empty) ∧ (∀ r, ¬ goes r → u.route r = s.route r) ∧
          u = { replied stDone (result 0 0xFF (s.begin t)) with
            str := { s.str with groups := left, routes := u.str.routes } }) ∧
      (s.str.groups.find? (fun g => !g.restore && g.id == id && decide (max s.dt t < g.eff)) = none →
        ∃ u : State, exec (.takeCancel t src id) s = .next (replied stValue u) ∧
          Raises [Ev.takeRefused] (result 0x0F 0xFF (s.begin t)) u)) ∧
    (∀ g, s.str.groups = [g] → g.restore = false → g.latched = false → g.eff ≤ max s.dt t →
      let takes := g.takes.map (latchTake (s.begin t) [] g.eff)
      (∃ k ∈ takes, k.flipped = false) →
      ∃ u : State, exec (.takeEffectiveDt t g.id) s = .next u ∧
        (∀ k ∈ takes, ∀ b, k.first = some b → (s.buf b).mode = .complete → .take k.route ∈ (u.buf b).tokens) ∧
        u = { s.begin t with
          str := { s.str with groups := [{ g with latched := true, takes := takes }] }
          fs := { s.fs with bufs := u.fs.bufs } } ∧
        ((∀ k ∈ takes, k.first = none) → u.fs = s.fs)) ∧
    (∀ g k, s.str.groups = [g] → g.restore = false → k ∈ g.takes → k.op = 0 →
      let r := k.image
      let x := latchTake (s.begin t) [] g.eff k
      let own := (s.begin t).sourceReason r
      x.image = r ∧ x.route = k.route ∧ x.c0 = (rClass r == 0) ∧ x.fallback = (s.begin t).fallbackUsable r ∧
        (own ≠ 0 → x.reason = own) ∧ (own = 0 → (rUnits r).all (s.begin t).unitActive = true → x.reason = 0) ∧
        (own = 0 → (rUnits r).all (s.begin t).unitActive = false → x.reason = 6) ∧
        (rKind r ≠ 2 → x.first = none) ∧
        ∀ b, x.first = some b → b ∈ (s.begin t).framesOf ((s.begin t).srcStream (rSrcType r) (rSrc r)).get! ∧ (s.buf b).done ≤ g.eff) ∧
    (∀ id route,
      let late := fun g => g.takes.any (dueOverdue (s.begin t) id route g)
      (s.str.groups.any late = false → exec (.c0TakeOverdue t id route) s = .next (s.begin t)) ∧
      (s.str.groups.any late = true → ∃ u : State, exec (.c0TakeOverdue t id route) s = .next u ∧
        Raises [Ev.c0TakeOverdue] (({ s.begin t with
          str := { s.str with groups := s.str.groups.map (markOverdue (s.begin t) id route) } } : State).count
            Reg.takeOverdueCount 1) u))

/-- The orphan sequence by time (R69, R72, R76). A route in HOLD whose hold ends goes to its fallback, counted and with
ROUTE_FALLBACK, or where that is not usable to COLOUR; its tokens of the hold are returned and its reason stands. A source that
has been usable for RT_RESTORE_DELAY is due to return at the next boundary. Before those times nothing changes. -/
def Obligations.RoutesFallAndReturn : Prop :=
  ∀ (t r : Nat) (s : State),
    let x := s.route r
    (∀ e, x.mode = .hold → x.holdEnd = some e →
      (max s.dt t < e → exec (.holdExpired t r) s = .next (s.begin t)) ∧
      (e ≤ max s.dt t → s.fs.bufs = [] →
        let fallen (mode : RtMode) : State :=
          (s.begin t).setRoute r { x with mode := mode, since := max s.dt t, holdEnd := none }
        (s.fallbackUsable x.image = true → ∃ u : State, exec (.holdExpired t r) s = .next u ∧
          Raises [Ev.routeFallback] ((fallen .fallback).count Reg.rtFallbackTotal 1) u) ∧
        (s.fallbackUsable x.image = false → rToLayer x.image = false → ∃ u : State, exec (.holdExpired t r) s = .next u ∧
          Raises [Ev.routeFallback] (fallen .colour) u) ∧
        (s.fallbackUsable x.image = false → rToLayer x.image = true → ∃ u : State, exec (.holdExpired t r) s = .next u ∧
          Raises [Ev.routeFallback, Ev.noSource (rEngine x.image)] (fallen .colour) u))) ∧
    (∀ since, rtOrphaned x.mode = true → x.usableSince = some since →
      exec (.restoreDelayExpired t r) s = .next (if since + s.reg Reg.rtRestoreDelay * ms ≤ max s.dt t
        then (s.begin t).setRoute r { x with returnDue := true } else s.begin t))

/-! Outputs: commits, frames and the controls of an engine (R277 to R306). `z` is the state in which the command comes about. -/

/-- OUT_COMMIT (R302, R304). It is refused with 0x0F while a commit under the C0 discipline is queued or MODE is changing; a
snapshot that breaks a rule is refused with 0x04, its code recorded (a free value where the spec states none, log entry 23), and
nothing else changes. One that breaks none is queued
whole; under the C0 discipline after the window has closed it waits one boundary more and raises COMMIT_LATE. On a raster that
is OFF it applies at once (said of an engine that drives no output stream). That of a member of a gang is ignored (R272). The controls of the raster clear what they name; 0x03 ends every alarm of the watch (R311). -/
def Obligations.OutputCommits : Prop :=
  ∀ (t n : Nat) (src : Src) (s : State),
    let z := s.begin t
    let o := s.outp n
    let replied (status : Nat) (a : State) : State := a.emit (.status src.who status)
    let new := z.outShadows n
    let plan (m : Nat) : OutQueued := if m = n then new else z.outPlan m
    let held := (∃ q, o.queued = some q ∧ q.c0 = true) ∨
      ((o.raster = .toCommand ∨ o.raster = .toLocked) ∧ raMode new.raster ≠ raMode (s.rasterOf n))
    let planned := outputCode z plan (plannedImages z.planned) n
    let code := if planned ≠ 0 then planned else if outputCode z plan z.liveImages n ≠ 0 then outputCode z plan z.liveImages n
      else if switchLacking z n (raMode new.raster) then 0x0D else 0
    let c0 := new.spine ≠ s.force (Reg.outSpineTable n) ∨ raSafety new.raster = true ∨ raSafety (s.rasterOf n) = true
    let closed := ∃ c, windowClose z n = some c ∧ c ≤ max s.dt t
    let transfer := ∃ b, o.boundary = some b ∧ max s.dt t ≤ b + raLines (s.rasterOf n) 1
    let noted (q : OutQueued) : OutState := { o with
      discipline := q.c0, lastResult := 0, lastCommitDt := max s.dt t, queued := some q }
    (gate src (Reg.outCommit n) true z = stDone → o.comp = .member → exec (.outCommit t src n) s = .next (replied stDone z)) ∧
    (gate src (Reg.outCommit n) true z = stDone → o.comp ≠ .member →
      (held → exec (.outCommit t src n) s = .next (replied stBusy z)) ∧
      (¬ held → code ≠ 0 → code ≠ 0x100 → exec (.outCommit t src n) s =
        .next (replied stValue (z.setOutp n { o with lastResult := code, lastRefusal := code }))) ∧
      (¬ held → code = 0x100 → let free := Config.freeValue s.free % 256
        exec (.outCommit t src n) s = .next (replied stValue
          { z.setOutp n { o with lastResult := free, lastRefusal := free } with free := s.free + 1 })) ∧
      (¬ held → code = 0 → o.raster ≠ .off →
        (¬ c0 → transfer → exec (.outCommit t src n) s =
          .next (replied stDone (z.setOutp n (noted { new with c0 := false, late := false, skip := 0, state := 3 })))) ∧
        (¬ c0 → ¬ transfer → exec (.outCommit t src n) s =
          .next (replied stDone (z.setOutp n (noted { new with c0 := false, late := false, skip := 0, state := 1 })))) ∧
        (c0 → ¬ closed → exec (.outCommit t src n) s =
          .next (replied stDone (z.setOutp n (noted { new with c0 := true, late := false, skip := 0, state := 1 })))) ∧
        (c0 → closed → ∃ u : State, exec (.outCommit t src n) s = .next (replied stDone u) ∧
          Raises [Ev.commitLate n] (z.setOutp n { noted { new with c0 := true, late := true, skip := 1, state := 2 } with
            commitLate := true, lateCount := o.lateCount + 1 }) u)) ∧
      (¬ held → code = 0 → o.raster = .off → s.engineStream n = none → n < 64 → ∃ u : State,
        exec (.outCommit t src n) s = .next u ∧ u.out = [.status src.who stDone] ∧
        u.inForce = ((((z.apply (Reg.outCompSetup n)).apply (Reg.outLayerTable n)).apply (Reg.outSpineTable n)).apply
          (Reg.outRaster n) |>.apply (Reg.outWatchTable n)).inForce ∧
        (u.outp n).queued = none ∧ (u.outp n).flipDue = true ∧
        (u.outp n).raster = (match raMode new.raster with
          | 1 => .starting
          | 2 => .toCommand
          | _ => .off) ∧
        u = { s with dt := max s.dt t, out := u.out, inForce := u.inForce, comp := u.comp, sup := u.sup })) ∧
    (gate src (Reg.outRasterControl n) false z = stDone →
      exec (.rasterClearLate t src n) s = .next (replied stDone (z.setOutp n { o with commitLate := false })) ∧
      exec (.rasterClearCounts t src n) s = .next (replied stDone (z.setOutp n { o with lateCount := 0, irregular := 0 })) ∧
      (twf (fun _ => ({} : OutState)) s.comp.outs = true → twf (fun _ => ({} : Region)) o.regions = true →
        ∃ u : State, exec (.rasterResetRegions t src n) s = .next (replied stDone u) ∧
          Raises (((List.range 8).filter fun r => (s.region n r).wstate != 0).map fun _ => Ev.freeze n)
            (z.each (List.range 8) fun a r => a.setRegion n r { s.region n r with srcRun := 0, devRun := 0, wstate := 0 }) u))

/-- The frames of an output (R285, R290, R294, R297, R300, R304, R306), while no route and no take group is there. A boundary
counts the frame that ended, keeps its layers and begins the next; a queued commit is in force from the boundary it waits for. The
first active line counts its frame, LOCKS a raster that STARTS, and is the flip of a commit. Each line of an output without
layers and zones leaves as BACKGROUND. Sync events and their absence move the raster by the table of R297. -/
def Obligations.OutputFrames : Prop :=
  ∀ (t n : Nat) (s : State), n < 64 → s.str.routes = [] → s.str.groups = [] →
    let z := s.begin t
    let now := max s.dt t
    let o := s.outp n
    let a := s.rasterOf n
    let put (x : OutState) : State := z.setOutp n x
    (∀ b, o.raster = .locked → raMode a = 1 → o.comp = .active → o.boundary = some b →
      (∀ q, o.queued = some q → q.skip = 0 → raMode q.raster = 1) →
      ∃ u : State, exec (.outputFrameBoundary t (.output n)) s = .next u ∧
        (u.outp n).boundary = some now ∧ (u.outp n).frames = o.frames + 1 ∧ (u.outp n).lastLayers = o.layers ∧
        (u.outp n).underran = 0 ∧ (u.outp n).frameCount = o.frameCount ∧
        (∀ q, o.queued = some q → q.skip ≠ 0 → (u.outp n).queued = some { q with skip := q.skip - 1 }) ∧
        (∀ q, o.queued = some q → q.skip = 0 → (u.outp n).queued = none ∧ (u.outp n).flipDue = true ∧
          ∀ x ∈ [(Reg.outCompSetup n, q.setup), (Reg.outLayerTable n, q.layers), (Reg.outSpineTable n, q.spine),
            (Reg.outRaster n, q.raster), (Reg.outWatchTable n, q.watch)], x.2 ≠ entryDefault x.1 → u.force x.1 = x.2)) ∧
    (rasterRuns o = false → exec (.outputFrameBoundary t (.output n)) s = .next z) ∧
    (∀ w, s.reg Reg.strEndpointKeep = 0 → exec (.outputFrameBoundary t (.window w)) s = .next z) ∧
    (∀ k d, s.str.outWait = [(k, some d)] → dEngineDriven (s.outDesc k) = false → s.str.outHeld = [] → s.conv.units = [] →
      s.cmp = [] → (s.link (dLane (record (putFld (s.force Reg.strOutTable) (128 * k + 127) (128 * k) d) 0 128 k))).mode ≠ .up →
      s.reg Reg.strEndpointKeep = 0 → exec (.outputFrameBoundary t (.stream k)) s =
        .next (({ z with str := { s.str with outWait := [] } } : State).setForce Reg.strOutTable
          (putFld (s.force Reg.strOutTable) (128 * k + 127) (128 * k) d))) ∧
    (∀ k, exec (.firstActiveLine t (.stream k)) s = .next (z.setSend k { s.send k with next := 0, start := some now, late := [] })) ∧
    (∀ w, exec (.firstActiveLine t (.window w)) s = .next z) ∧
    (∀ b, (o.raster = .locked ∨ (o.raster = .starting ∧ o.nextLine = 0)) → o.comp ≠ .member → o.boundary = some b →
      let begun : OutState := { o with
        raster := .locked, phaseError := phaseOf z n, frameCount := (o.frameCount + 1) % 2 ^ 32, lastFrame := now
        irregular := if o.cutNext then o.irregular + 1 else o.irregular, cutNext := false }
      (o.flipDue = false → o.modeDue = false → exec (.firstActiveLine t (.output n)) s = .next (put begun)) ∧
      (o.flipDue = true → o.modeDue = false → ∃ u : State, exec (.firstActiveLine t (.output n)) s = .next u ∧
        Raises [Ev.flip n] (put { begun with flipDue := false, lastFlip := now, flipFrame := (o.frameCount + 1) % 2 ^ 32 }) u) ∧
      (o.flipDue = false → o.modeDue = true → ∃ u : State, exec (.firstActiveLine t (.output n)) s = .next u ∧
        Raises [Ev.modeChangeDone n] (put { begun with modeDue := false }) u)) ∧
    (∀ line late,
      (rasterRuns o = false ∨ o.boundary = none ∨ raHeight a ≤ line → exec (.outputLineStart t n line late) s = .next z) ∧
      ∀ b k, o.raster = .locked → o.comp = .active → o.boundary = some b → o.push = none → line < raHeight a →
        (∀ i, i < 24 → lrEnable (s.layerOf n i) = false) → s.zonesOf n = [] →
        csGang (s.force (Reg.outCompSetup n)) = 1 → s.engineStream n = some k →
        (∀ r, r < 8 → waMode (watchRec (s.force (Reg.outWatchTable n)) r) = 0) →
        exec (.outputLineStart t n line late) s = .next ((sendSamples k line (line + 1 == raHeight a)
          (sentLine z n (s.outDesc k) line late
            (List.replicate (raWidth a) (colour12 (csBackground (s.force (Reg.outCompSetup n)))))) z).setOutp n
              { o with nextLine := line + 1 })) ∧
    (o.push = none → exec (.pushDone t n) s = .next z) ∧
    (∀ p, o.push = some p → s.fs.bufs = [] →
      (o.raster = .command → raMode a = 2 → exec (.pushDone t n) s = .next (put { o with push := none })) ∧
      ∀ k, o.raster = .toLocked → s.engineStream n = some k → exec (.pushDone t n) s =
        .next (pushCtl (dLane (s.outDesc k)) 0x0F (pack [(9, k), (8, (s.send k).starts), (103, 0)])
          ((put { o with push := none }).setSend k { s.send k with starts := ((s.send k).starts + 1) % 256 }))) ∧
    (raMode a ≠ 1 ∨ rasterRuns o = false → exec (.syncEvent t n) s = .next z) ∧
    (raMode a = 1 → rasterRuns o = true →
      (o.lastSync = none → o.raster = .starting → exec (.syncEvent t n) s = .next (put { o with
        lastSync := some now, outOfRange := 0 })) ∧
      ∀ y, o.lastSync = some y →
        let seen : OutState := { o with lastSync := some now, syncPeriod := now - y, outOfRange := 0 }
        (inPull a (now - y) = true →
          ((o.raster = .locked ∨ o.raster = .slewing) → exec (.syncEvent t n) s = .next (put seen)) ∧
          ((o.raster = .holdover ∨ o.raster = .mismatch) → raCut a = true →
            exec (.syncEvent t n) s = .next (put { seen with raster := .locked, cutNext := true })) ∧
          ((o.raster = .holdover ∨ o.raster = .mismatch) → raCut a = false →
            exec (.syncEvent t n) s = .next (put { seen with raster := .slewing }))) ∧
        (inPull a (now - y) = false → (o.raster = .locked ∨ o.raster = .slewing) →
          (o.outOfRange = 0 → exec (.syncEvent t n) s = .next (put { o with lastSync := some now, outOfRange := 1 })) ∧
          (1 ≤ o.outOfRange → exec (.syncEvent t n) s = .next (put { o with
            lastSync := some now, outOfRange := 0, raster := .mismatch })))) ∧
    (raMode a = 1 →
      (∀ y, (o.raster = .locked ∨ o.raster = .slewing) → o.lastSync = some y →
        exec (.syncTimeout t n) s = .next (if 2 * (y + raPeriod a) + raPeriod a ≤ 2 * now
          then put { o with raster := .holdover } else z)) ∧
      ((o.raster = .starting ∨ o.raster = .toLocked) → o.lastSync = none →
        exec (.syncTimeout t n) s = .next (if o.modeDt + 4 * raPeriod a ≤ now then put { o with raster := .holdover } else z)))

/-- OUT_COMP_CONTROL (R128, R277, R278): 0x01 is refused with 0x04 while a C0 layer or a zone is there and drains an engine that
is ACTIVE, for a frame and 1 ms; 0x02 brings an IDLE engine back, and one that drains when its drain has ended; 0x03 retests an
ISOLATED one, which is ACTIVE, or again a member of its gang, when it passes, with the ports of its group; 0x04 clears the counts. -/
def Obligations.OutputControls : Prop :=
  ∀ (t n : Nat) (src : Src) (s : State), gate src (Reg.outCompControl n) false (s.begin t) = stDone →
    let z := s.begin t
    let o := s.outp n
    let replied (status : Nat) (a : State) : State := a.emit (.status src.who status)
    let used := s.zonesOf n ≠ [] ∨ ∃ r ∈ s.liveImages, rToLayer r = true ∧ rEngine r = n ∧ rClass r = 0
    (used → exec (.outCompDisable t src n) s = .next (replied stValue z)) ∧
    (¬ used →
      (o.comp = .active → exec (.outCompDisable t src n) s = .next (replied stDone (qsChanged qsOut n (z.setOutp n { o with
        comp := .draining, drainEnd := max s.dt t + raPeriod (s.rasterOf n) + ms, reEnable := false })))) ∧
      (o.comp = .draining → exec (.outCompDisable t src n) s = .next (replied stDone (z.setOutp n { o with reEnable := false }))) ∧
      (o.comp ≠ .active → o.comp ≠ .draining → exec (.outCompDisable t src n) s = .next (replied stDone z))) ∧
    (o.comp = .idle → s.str.routes = [] → exec (.outCompEnable t src n) s =
      .next (replied stDone (qsChanged qsOut n (z.setOutp n { o with comp := .active })))) ∧
    (o.comp = .draining → exec (.outCompEnable t src n) s = .next (replied stDone (z.setOutp n { o with reEnable := true }))) ∧
    (o.comp ≠ .idle → o.comp ≠ .draining → exec (.outCompEnable t src n) s = .next (replied stDone z)) ∧
    (∀ pass, o.comp ≠ .isolated → exec (.outCompRetest t src n pass) s = .next (replied stValue z)) ∧
    (o.comp = .isolated → exec (.outCompRetest t src n false) s = .next (replied stDone z)) ∧
    (o.comp = .isolated → s.str.routes = [] → (s.port (104 + n / 4)).isolated = false →
      (∀ x ∈ spinePorts (104 + n / 4), x ∉ s.fab.spineIsolated) → exec (.outCompRetest t src n true) s =
      .next (replied stDone (qsChanged qsOut n (z.setOutp n { o with comp := if o.lead.isSome then .member else .active })))) ∧
    (o.comp = .isolated → s.str.routes = [] →
      ((s.port (104 + n / 4)).isolated = true ∨ ∃ x ∈ spinePorts (104 + n / 4), x ∈ s.fab.spineIsolated) →
      ∃ u : State, exec (.outCompRetest t src n true) s = .next (replied stDone u) ∧
        let a := (qsChanged qsOut n (z.setOutp n { o with comp := if o.lead.isSome then .member else .active })).setPort (104 + n / 4)
          { s.port (104 + n / 4) with isolated := false }
        Raises [Ev.portRestored] { a with fab := { a.fab with
          spineIsolated := s.fab.spineIsolated.filter fun p => !(spinePorts (104 + n / 4)).contains p } } u) ∧
    (twf (fun _ => ({} : OutState)) s.comp.outs = true → twf (fun _ => ({} : Layer)) o.layers = true → ∃ u : State,
      exec (.outCompClearCounters t src n) s = .next u ∧
      (u.outp n).underruns = 0 ∧ (u.outp n).frames = 0 ∧
      (∀ i, u.layer n i = if i < 24 then { s.layer n i with underruns := 0 } else s.layer n i) ∧
      (∀ m, m ≠ n → u.outp m = s.outp m) ∧
      u.outp n = { o with underruns := 0, frames := 0, layers := (u.outp n).layers } ∧
      u = { s with dt := max s.dt t, out := [.status src.who stDone], comp := { s.comp with outs := u.comp.outs } })

/-! Converter units, compression engines, drains, and the fabric (R98 to R131, R168 to R178, R239 to R245, R595). -/

/-- CONV_CONTROL (R128, R153, R170 to R172): a setup or tables out of range, or that the route of the unit cannot carry, is
refused with 0x04; one in range is in force at once on a unit without a route, else it waits for the boundary. Disable drains the
whole gang of a route of class C1 to C3 for an input frame and 1 ms, is refused for one of class C0, and makes a unit without a
route IDLE. Enable brings an IDLE unit back, a retest that passes an isolated one with its ports; what both do to routes that wait
for the unit is said of states without routes. An update of the cycle times keeps each cluster's time, slack and run of negative
slacks; the update that first brings a cluster above 1,667 ps, and the tenth negative slack of a run, report its units. -/
def Obligations.ConverterUnits : Prop :=
  ∀ (t u : Nat) (src : Src) (s : State),
    let z := s.begin t
    let v := s.unit u
    let replied (status : Nat) (a : State) : State := a.emit (.status src.who status)
    let setup := s.reg (Reg.convSetup u)
    let tables := s.reg (Reg.convTables u)
    (gate src (Reg.convControl u) true z = stDone →
      (convSetupOk setup = false ∨ convTablesOk setup tables = false ∨
        (∃ r, unitImage s u = some r ∧
          (rKind r = 1 ∧ cvDeint setup = 2 ∨ rConvFirst r = u ∧ loadsOk z r setup = false)) →
        exec (.convApply t src u) s = .next (replied stValue z)) ∧
      (convSetupOk setup = true → convTablesOk setup tables = true →
        (v.holder = none → exec (.convApply t src u) s =
          .next (replied stDone (((z.setUnit u { v with wait := none }).apply (Reg.convSetup u)).apply (Reg.convTables u)))) ∧
        (∀ r, unitImage s u = some r → ¬ (rKind r = 1 ∧ cvDeint setup = 2) → (rConvFirst r ≠ u ∨ loadsOk z r setup = true) →
          exec (.convApply t src u) s = .next (replied stDone (z.setUnit u { v with wait := some (setup, tables) }))))) ∧
    (gate src (Reg.convControl u) false z = stDone →
      (v.mode = .active → v.holder = none → exec (.convDisable t src u) s =
        .next (replied stDone (qsChanged qsConv u (z.setUnit u { v with mode := .idle })))) ∧
      (∀ r, v.mode = .active → unitImage s u = some r →
        (rClass r = 0 → exec (.convDisable t src u) s = .next (replied stValue z)) ∧
        (rClass r ≠ 0 → ∃ x : State, exec (.convDisable t src u) s = .next (replied stDone x) ∧
          ∀ m, x.unit m = if m ∈ rUnits r ∧ (s.unit m).mode = .active then
            { s.unit m with mode := .draining, drainEnd := max s.dt t + inputPeriod z r + ms, reEnable := false }
            else s.unit m)) ∧
      (v.mode = .draining →
        exec (.convDisable t src u) s = .next (replied stDone (z.setUnit u { v with reEnable := false })) ∧
        exec (.convEnable t src u) s = .next (replied stDone (z.setUnit u { v with reEnable := true }))) ∧
      (v.mode = .idle ∨ v.mode = .isolated → exec (.convDisable t src u) s = .next (replied stDone z)) ∧
      (v.mode = .active ∨ v.mode = .isolated → exec (.convEnable t src u) s = .next (replied stDone z)) ∧
      (v.mode = .idle → s.str.routes = [] → exec (.convEnable t src u) s =
        .next (replied stDone (qsChanged qsConv u (z.setUnit u { v with mode := .active })))) ∧
      (∀ pass, v.mode ≠ .isolated → exec (.convRetest t src u pass) s = .next (replied stValue z)) ∧
      (v.mode = .isolated → exec (.convRetest t src u false) s = .next (replied stDone z)) ∧
      (v.mode = .isolated → s.str.routes = [] → (s.port (32 + u)).isolated = false →
        (∀ x ∈ spinePorts (32 + u), x ∉ s.fab.spineIsolated) → exec (.convRetest t src u true) s =
        .next (replied stDone (qsChanged qsConv u (z.setUnit u { v with mode := .active })))) ∧
      (v.mode = .isolated → s.str.routes = [] →
        ((s.port (32 + u)).isolated = true ∨ ∃ x ∈ spinePorts (32 + u), x ∈ s.fab.spineIsolated) →
        ∃ x : State, exec (.convRetest t src u true) s = .next (replied stDone x) ∧
          let a := (qsChanged qsConv u (z.setUnit u { v with mode := .active })).setPort (32 + u)
            { s.port (32 + u) with isolated := false }
          Raises [Ev.portRestored] { a with fab := { a.fab with
            spineIsolated := s.fab.spineIsolated.filter fun p => !(spinePorts (32 + u)).contains p } } x) ∧
      exec (.convClearCounts t src u) s = .next (replied stDone (z.setUnit u { v with linesLate := 0, frames := 0 }))) ∧
    (∀ speeds, s.pwr.bulk = false → exec (.convSpeedUpdate t speeds) s = .next z) ∧
    (∀ speeds, s.pwr.bulk = true → s.conv.units = [] → exec (.convSpeedUpdate t speeds) s = .next
        (z.each ((List.range 12).zip speeds) fun a x => a.setConvCluster x.1 { speed := x.2, slack := 1000, negative := 0 })) ∧
    (∀ speed r, s.pwr.bulk = true → (s.unit 0).holder = some r → (∀ i, 0 < i → i < 4 → (s.unit i).holder = none) →
      let slack := clusterSlack z 0 speed
      let run := if slack < 0 then (s.convCluster 0).negative + 1 else 0
      let a := z.setConvCluster 0 { speed := speed, slack := slack, negative := run }
      let told := (1667 < speed ∧ (s.convCluster 0).speed ≤ 1667) ∨ run = 10
      (¬ told → exec (.convSpeedUpdate t [speed]) s = .next a) ∧
      (told → ∃ x : State, exec (.convSpeedUpdate t [speed]) s = .next x ∧ Raises [Ev.unitSlow 0] a x))

/-- CMP_CONTROL (R239 to R244) while no stream and no route is there, so that nothing waits for an engine: a setup out of range,
or one that changes block size or split of an engine in use, is refused with 0x04; one in range is in force. Disable drains an
ACTIVE engine, enable and retest bring it back, and the clears clear. Drains that no reset started (R595), while an engine writes
no frame: the work in hand ends, and the function is IDLE, or ACTIVE where an enable came meanwhile; at the limit the work lost is
counted with QUIESCE_FORCED. -/
def Obligations.EnginesAndDrains : Prop :=
  ∀ (t e : Nat) (src : Src) (s : State), s.str.ins = [] → s.str.routes = [] →
    let z := s.begin t
    let v := s.engine e
    let replied (status : Nat) (a : State) : State := a.emit (.status src.who status)
    let new := s.reg (Reg.cmpSetup e)
    let refused := cmpSetupOk new = false ∨ fld new 127 120 ≠ fld (s.force (Reg.cmpSetup e)) 127 120 ∧ engineUsed z e = true
    (gate src (Reg.cmpControl e) true z = stDone →
      (refused → exec (.cmpApply t src e) s = .next (replied stValue z)) ∧
      (¬ refused → exec (.cmpApply t src e) s = .next (replied stDone
        ((z.setEngine e { v with due := (engineUsers z e).map fun u => (u, z.userSetup e u) }).apply (Reg.cmpSetup e))))) ∧
    (gate src (Reg.cmpControl e) false z = stDone →
      (v.mode = .active → exec (.cmpDisable t src e) s = .next (replied stDone (qsChanged qsCmp e
        (z.setEngine e { v with mode := .draining, drainEnd := max s.dt t + ms, reEnable := false })))) ∧
      (v.mode = .draining →
        exec (.cmpDisable t src e) s = .next (replied stDone (z.setEngine e { v with reEnable := false })) ∧
        exec (.cmpEnable t src e) s = .next (replied stDone (z.setEngine e { v with reEnable := true }))) ∧
      (v.mode = .idle ∨ v.mode = .isolated → exec (.cmpDisable t src e) s = .next (replied stDone z)) ∧
      (v.mode = .active ∨ v.mode = .isolated → exec (.cmpEnable t src e) s = .next (replied stDone z)) ∧
      (v.mode = .idle → exec (.cmpEnable t src e) s =
        .next (replied stDone (qsChanged qsCmp e (z.setEngine e { v with mode := .active })))) ∧
      (∀ pass, v.mode ≠ .isolated → exec (.cmpRetest t src e pass) s = .next (replied stValue z)) ∧
      (v.mode = .isolated → exec (.cmpRetest t src e false) s = .next (replied stDone z)) ∧
      (v.mode = .isolated → e < 16 → (s.port (80 + e)).isolated = false → exec (.cmpRetest t src e true) s =
        .next (replied stDone (qsChanged qsCmp e (z.setEngine e { v with mode := .active })))) ∧
      (v.mode = .isolated → e < 16 → (s.port (80 + e)).isolated = true → ∃ x : State,
        exec (.cmpRetest t src e true) s = .next (replied stDone x) ∧
          let a := (qsChanged qsCmp e (z.setEngine e { v with mode := .active })).setPort (80 + e)
            { s.port (80 + e) with isolated := false }
          Raises [Ev.portRestored] a x) ∧
      exec (.cmpClearCounters t src e) s = .next (replied stDone (z.setEngine e { v with raw := 0, invalid := 0, requant := 0 }))) ∧
    (gate src Reg.cmpStatsClear false z = stDone → exec (.cmpStatsClear t src) s = .next (replied stDone
      ((z.clear [Reg.cmpRawTotal, Reg.cmpInvalidTotal]).each (List.range 16) fun a n =>
        a.setEngine n { a.engine n with raw := 0, invalid := 0, requant := 0 }))) ∧
    ∀ kind, kind = qsConv ∨ kind = qsCmp ∨ kind = qsOut →
      let drains := (kind = qsConv → (s.unit e).mode = .draining ∧ (s.unit e).resetDue = false) ∧
        (kind = qsCmp → v.mode = .draining ∧ v.resetDue = false ∧ ∀ b ∈ s.fs.bufs, b.2.mode ≠ .writing) ∧
        (kind = qsOut → (s.outp e).comp = .draining ∧ (s.outp e).resetDue = false)
      let limit := if kind = qsConv then (s.unit e).drainEnd else if kind = qsCmp then v.drainEnd else (s.outp e).drainEnd
      let ends (a : State) : State := qsChanged kind e (
        if kind = qsConv then a.setUnit e { s.unit e with
          mode := if (s.unit e).reEnable then .active else .idle, reEnable := false }
        else if kind = qsCmp then a.setEngine e { v with mode := if v.reEnable then .active else .idle, reEnable := false }
        else a.setOutp e { s.outp e with comp := if (s.outp e).reEnable then .active else .idle, reEnable := false })
      drains →
        exec (.drainDone t kind e) s = .next (ends z) ∧
        ∀ lost, (max s.dt t < limit → exec (.drainLimit t kind e lost) s = .next z) ∧
          (limit ≤ max s.dt t → ∃ u : State, exec (.drainLimit t kind e lost) s = .next u ∧ Raises [Ev.quiesceForced]
            (ends (({ z with
              sup := { s.sup with
                qsDiscarded := tset (fun _ => 0) s.sup.qsDiscarded (qsKey kind e)
                  (tget (fun _ => 0) s.sup.qsDiscarded (qsKey kind e) + lost) } } : State).count Reg.qsForcedCount 1)) u)

/-- The fabric (R99 to R130). Flits: one flit that an ingress offers to an egress with nothing queued is admitted where R129 lets
its owners admit it, takes the credit of its class (R119), and arrives in the same step; with the right CRC-8 it is counted, a
data flit of a pass-through route filling slots of its lane; at an isolated port, or one whose owner is IDLE, it is discarded; a
wrong CRC is counted and reported, and FAB_CRC_LIMIT of them within 1 s degrade the port. A Spine transfer of a pass-through route
leaves as a folio in the slot of its flow, a late one in the route's next slot (R112). A stall discards what is queued; while no
route is there, a handshake that does not complete isolates the port and its owner, and a retest that passes restores it. The order
of the classes, the folios of a flit and the input of the Spine CRC are the model's choices (log entries 54 to 56). -/
def Obligations.Fabric : Prop :=
  ∀ (t : Nat) (src : Src) (s : State),
    let z := s.begin t
    let now := max s.dt t
    let replied (status : Nat) (a : State) : State := a.emit (.status src.who status)
    (∀ p offers, s.pwr.bulk = false → exec (.sharedFlitArrival t p offers) s = .next z) ∧
    (∀ p : Nat, s.pwr.bulk = true → (∀ i < 128, s.flitQueue p i = []) → twf (fun _ => ([] : List Queued)) s.fab.queues = true →
      exec (.sharedFlitArrival t p []) s = .next z ∧
      ∀ f : Flit, f.dest = p → p < 128 → f.ingress < 128 →
        let run := exec (.sharedFlitArrival t p [f]) s
        let c := useClass s f.use
        let line := (p, f.ingress, useFlow f.use)
        let admitted := (portOwner s p ≠ 1 ∧ portOwner s f.ingress ≠ 1) ∨ (f.pos ≠ 1 ∧ f.pos ≠ 3 ∧ line ∈ s.fab.begun)
        let shut (q : Nat) := (s.port q).isolated = true ∨ portOwner s q = 2 ∨ 32 ≤ q ∧ q < 80 ∧ onSpine s (q - 32) = true
        let discarded (q : Nat) (a : State) : State := a.setPort q { s.port q with discard := (s.port q).discard + 1 }
        (c = 0 ∨ 3 < c → run = .next z) ∧
        (1 ≤ c → c ≤ 3 → shut f.ingress → run = .next (discarded f.ingress z)) ∧
        (1 ≤ c → c ≤ 3 → ¬ shut f.ingress → shut p → run = .next (discarded p z)) ∧
        (1 ≤ c → c ≤ 3 → ¬ shut f.ingress → ¬ shut p → ¬ admitted → run = .next z) ∧
        (1 ≤ c → c ≤ 3 → ¬ shut f.ingress → ¬ shut p → admitted →
          let v := s.port p
          let r := s.round p
          let credits := if nth r.credits (c - 1) 0 = 0 then [s.reg Reg.fabWeightC1, s.reg Reg.fabWeightC2, s.reg Reg.fabWeightC3]
            else r.credits
          let begun := if f.pos = 1 then (if line ∈ s.fab.begun then s.fab.begun else s.fab.begun ++ [line])
            else if f.pos = 2 then s.fab.begun.filter fun x => x != line else s.fab.begun
          let turn : Round :=
            { credits := credits.set (c - 1) (nth credits (c - 1) 0 - 1), last := r.last.set (c - 1) f.ingress, idle := none }
          let a : State := { z with fab := { s.fab with begun := begun, rounds := tset (fun _ => {}) s.fab.rounds p turn } }
          let header := flitHeader s f ^^^ (f.flips % 2 ^ 32)
          let payload := f.payload ^^^ (f.flips / 2 ^ 32)
          let right := fld header 7 0 = crc8 (bitsUp 256 payload ++ bitsUp 24 (header / 256))
          let load := loadAt v now
          let counted := a.setPort p
            { v with flits := v.flits + 1, load := load.1, loadSince := load.2.1, loadNow := load.2.2 + 1 }
          let onset := v.degraded = false ∧ s.reg Reg.fabCrcLimit ≤ (recentWith now v.recent).length
          let failed := flitLost p f.use (a.setPort p { v with
            crc := v.crc + 1, recent := recentWith now v.recent, degraded := v.degraded || decide onset })
          (p < 32 → (s.lane p).mode ≠ .ready → run = .next (discarded p a)) ∧
          (32 ≤ p ∨ (s.lane p).mode = .ready →
            (right → (32 ≤ p ∨ ∀ r, f.use ≠ .data r) → run = .next counted) ∧
            (∀ n, right → p < 32 → f.use = .data n →
              let image := (s.route n).image
              let k := fld (rDst image) 7 0
              let carried := rKind image = 0 ∧ rDstType image = 0 ∧ p ∈ dLanes (s.outDesc k)
              let one := 2 ≤ fld header 22 21 ∧ ∃ i, s.srcStream (rSrcType image) (rSrc image) = some i ∧
                streamLineFolios (s.ins i) % 2 = 1
              let put (x : Nat) (b : State) : State := sendFolio k (dataFolio x) (b.emit (.data p k x))
              (¬ carried → run = .next counted) ∧
              (carried → one → run = .next (put (payload % 2 ^ 128) counted)) ∧
              (carried → ¬ one → run = .next (put (payload / 2 ^ 128) (put (payload % 2 ^ 128) counted)))) ∧
            (¬ right → onset → ∃ u : State, run = .next u ∧ Raises [Ev.flitCrcShared, Ev.portDegraded] failed u) ∧
            (¬ right → ¬ onset → ∃ u : State, run = .next u ∧ Raises [Ev.flitCrcShared] failed u)))) ∧
    (∀ egress offers, spineOpen s (128 + egress) = false → exec (.spineTransfer t egress offers) s = .next z) ∧
    (∀ (egress : Nat) (x : Transfer), spineOpen s (128 + egress) = true → tget (fun _ => []) s.fab.held egress = [] →
      twf (fun _ => ([] : List Transfer)) s.fab.held = true → x.ingress ≤ 88 →
      let run := exec (.spineTransfer t egress [x]) s
      let right := x.crc = crc8 (bitsUp 128 x.payload ++ bitsUp 9 x.slot)
      let image := (s.route x.route).image
      let flow := fld (rDst image) 7 0
      let slots := c0Slots (s.entries true egress) flow
      let carried := egress < 32 ∧ (s.route x.route).mode ≠ .empty ∧ rKind image = 0 ∧ rDstType image = 0 ∧ x.slot ∈ slots
      let nominal := (s.link egress).txTurn * 512 + x.slot
      let lagged := (tget (fun _ => none) s.fab.lag x.route).filter fun n => decide (nominal ≤ n ∧ n < nominal + 1024)
      let place := match lagged with
        | some n => nextSlot slots n
        | none => if x.late then nextSlot slots nominal else nominal
      let a : State := { z with fab := { s.fab with spineLast := tset (fun _ => 88) s.fab.spineLast egress x.ingress } }
      let b : State := { a with fab := { a.fab with
        lag := tset (fun _ => none) s.fab.lag x.route (if x.late || lagged.isSome then some place else none) } }
      let n := s.reg Reg.spineProbeCount
      let ps := 100 * x.latency
      let sum := s.fab.probeSum + ps
      let probed (c : State) : State :=
        if s.reg Reg.spineProbeRoute = x.route ∧ rClass image = 0 ∧ rKind image = 0 then
          (((({ c with fab := { c.fab with probeSum := sum } } : State).setReg Reg.spineProbeMin
            (if n = 0 then ps else min ps (s.reg Reg.spineProbeMin))).setReg Reg.spineProbeMax
            (max ps (s.reg Reg.spineProbeMax))).setReg Reg.spineProbeMean (roundTo sum (n + 1)).toNat).setReg
            Reg.spineProbeCount (n + 1)
        else c
      let done (c : State) := (x.late = false → run = .next (probed c)) ∧
        (x.late = true → ∃ u : State, run = .next u ∧ Raises [Ev.spineLate] (probed c) u)
      let recent := recentWith now (tget (fun _ => []) s.fab.spineRecent (128 + egress))
      let onset := (128 + egress) ∉ s.fab.spineDegraded ∧ s.reg Reg.fabCrcLimit ≤ recent.length
      let told := ({ a with fab := { a.fab with
        spineRecent := tset (fun _ => []) s.fab.spineRecent (128 + egress) recent
        spineDegraded := if onset then s.fab.spineDegraded ++ [128 + egress] else s.fab.spineDegraded } } : State).count
          Reg.spineCrc 1
      (spineOpen s x.ingress = false → run = .next z) ∧
      (spineOpen s x.ingress = true →
        (right → ¬ carried → done a) ∧
        (right → carried → done (sendFolio flow (dataFolio x.payload)
          (b.emit (.slotData egress (place % 512) flow (x.payload % 2 ^ 128))))) ∧
        (¬ right → egress < 96 → ∃ u : State, run = .next u ∧
          Raises (Ev.flitCrcSpine :: if onset then [Ev.portDegraded] else [])
            (dataLost egress x.route (if egress < 32 then sendIdle egress told else told)) u) ∧
        (¬ right → 96 ≤ egress → ∃ u : State, run = .next u ∧
          Raises (Ev.flitCrcSpine :: if onset then [Ev.portDegraded] else [])
            (match s.srcStream (rSrcType image) (rSrc image) with
              | some k => storeHurt k told
              | none => told) u))) ∧
    (∀ p, s.str.routes = [] →
      let v := s.port p
      let hung := (z.setPort p { v with isolated := true }).setRound p { s.round p with idle := none }
      ((∀ i < 128, s.flitQueue p i = []) →
        (p < 32 ∨ 120 ≤ p → ∃ u : State, exec (.handshakeTimeout t false p) s = .next u ∧ Raises [Ev.handshakeTimeout] hung u) ∧
        (32 ≤ p → p < 80 → ∃ u : State, exec (.handshakeTimeout t false p) s = .next u ∧
          Raises [Ev.handshakeTimeout] (qsChanged qsConv (p - 32) (hung.setUnit (p - 32)
            { s.unit (p - 32) with mode := .isolated, resetDue := false, reEnable := false })) u) ∧
        (80 ≤ p → p < 96 → s.str.ins = [] → (∀ b ∈ s.fs.bufs, b.2.mode ≠ .writing) → ∃ u : State,
          exec (.handshakeTimeout t false p) s = .next u ∧
          Raises [Ev.handshakeTimeout] (qsChanged qsCmp (p - 80) (hung.setEngine (p - 80)
            { s.engine (p - 80) with mode := .isolated, resetDue := false, reEnable := false })) u)) ∧
      let isolated := if p ∈ s.fab.spineIsolated then s.fab.spineIsolated else s.fab.spineIsolated ++ [p]
      let gone : State := { z with fab := { s.fab with
        spineIsolated := isolated
        held := if 128 ≤ p then tset (fun _ => []) s.fab.held (p - 128) [] else s.fab.held } }
      (p < 32 ∨ 128 ≤ p ∧ p < 160 → ∃ u : State, exec (.handshakeTimeout t true p) s = .next u ∧
        Raises [Ev.handshakeTimeout] gone u) ∧
      ∀ m < 48, p = 32 + m ∨ p = 176 + m → ∃ u : State, exec (.handshakeTimeout t true p) s = .next u ∧
        Raises [Ev.handshakeTimeout] (qsChanged qsConv m (gone.setUnit m
          { s.unit m with mode := .isolated, resetDue := false, reEnable := false })) u) ∧
    (∀ p,
      let timeUp := ∃ since, (s.round p).idle = some since ∧ since + s.reg Reg.fabStallLimit * us ≤ now
      (s.pwr.bulk = false ∨ (s.port p).isolated = true ∨ ¬ timeUp → exec (.egressStall t p) s = .next z) ∧
      (s.pwr.bulk = true → (s.port p).isolated = false → timeUp →
        (∃ u : State, exec (.egressStall t p) s = .next u ∧ Raises [Ev.egressStall] (flushFlits p z) u) ∧
        ∀ i q, i < 128 → s.flitQueue p i = [q] → (∀ j < 128, j ≠ i → s.flitQueue p j = []) → (∃ tag, q.use = .dap tag) →
          flushFlits p z = ((z.setFlitQueue p i []).setRound p { s.round p with idle := none }).setPort p
            { s.port p with discard := (s.port p).discard + 1 })) ∧
    (gate src Reg.fabPortRestore false z = stDone →
      let p := s.reg Reg.fabPortSelect
      (∀ pass, (s.port p).isolated = false ∨ pass = false → exec (.fabPortRestore t src pass) s = .next (replied stDone z)) ∧
      ((s.port p).isolated = true → s.str.routes = [] → ∃ u : State, exec (.fabPortRestore t src true) s = .next (replied stDone u) ∧
        Raises [Ev.portRestored] { z.setPort p { s.port p with isolated := false } with
          fab := { (z.setPort p { s.port p with isolated := false }).fab with
            spineIsolated := s.fab.spineIsolated.filter fun x => !(spinePorts p).contains x } } u)) ∧
    (gate src Reg.fabStatsClear false z = stDone → ∃ u : State, exec (.fabStatsClear t src) s = .next u ∧
      (twf (fun _ => ({} : Port)) s.fab.ports = true → ∀ p, u.port p =
        if p < 128 then { s.port p with flits := 0, crc := 0, discard := 0 } else s.port p) ∧
      u.regs = (s.clear [Reg.spineProbeMin, Reg.spineProbeMax, Reg.spineProbeMean, Reg.spineProbeCount, Reg.spineCrc]).regs ∧
      u = { s with
        dt := now, out := [.status src.who stDone], regs := u.regs, fab := { s.fab with ports := u.fab.ports, probeSum := 0 } }) ∧
    ∀ speeds,
      let demands := portDemands z
      let slow := (List.range 4).filter fun q => decide (s.reg (Reg.fabSpeed q) ≤ 2000) && decide (2000 < nth speeds q 0)
      let slacks := (List.range 4).map fun q => quadSlack (nth speeds q 0) demands q
      let least := slacks.foldl min (slacks.headD 1000)
      let run := if least < 0 then s.fab.negative + 1 else 0
      (s.pwr.bulk = false → exec (.fabSpeedUpdate t speeds) s = .next z) ∧
      (s.pwr.bulk = true → ∃ u : State, exec (.fabSpeedUpdate t speeds) s = .next u ∧
        Raises (slow.map (fun _ => Ev.speedLow) ++ if run = 10 then [Ev.slackNegative] else [])
          (let a := z.each (List.range 4) fun a q => a.setReg (Reg.fabSpeed q) (nth speeds q 0)
           { (((a.setReg Reg.fabSpeedWorst (speeds.foldl max (a.reg Reg.fabSpeedWorst))).setReg Reg.fabSlackQuad
             (packRecords 16 (slacks.map (ofInt 16)))).setReg Reg.fabSlack (ofInt 16 least)).setReg Reg.fabReqCycle
             (match tightest demands with
              | some d => (2 * portWork d.1 + d.2) / (2 * max 1 d.2)
              | none => 0xFFFF) with fab := { s.fab with negative := run } }) u)

/-! The frame store (R179 to R216): buffers and windows, then channels. `result` is FS_BUF_RESULT with the status that goes
with it (R194). -/

/-- FS_BUF_CMD, FS_BUF_WRITE and FS_BUF_READ (R188 to R194). ALLOC takes a FREE buffer of a host pool, whose generation rises by
1; FREE frees a buffer without tokens and queued writes, else it is RELEASING or its queue is dropped; a write to an ALLOCATED
buffer without tokens changes exactly its bytes, with those of the writes held for it, one that must wait is queued, in order; a
write that does not fit is refused by its code; what waits longer than FS_WQ_TIMEOUT is dropped with WRITE_REFUSED. -/
def Obligations.HostBuffers : Prop :=
  ∀ (t : Nat) (src : Src) (s : State),
    let z := s.begin t
    let now := max s.dt t
    let replied (status : Nat) (a : State) : State := a.emit (.status src.who status)
    let result (code : Nat) (a : State) : State :=
      replied (if code < 0x10 then stDone else stValue) (a.setReg Reg.fsBufResult code)
    (∀ cmd, gate src Reg.fsBufCmd false z = stDone →
      let word := fld cmd 31 0
      let p := word / 2 ^ 26
      let r := s.poolRec p
      let index := fld word 25 8
      let key := word / 256
      let b := s.buf key
      let taken (k : Nat) : State := result 0 ((z.setBuf k { s.buf k with
        mode := .allocated, born := (s.buf k).born + 1, damaged := [], tokens := [], lines := 0, verdict := 0, stream := 0
        frame := 0, times := [], firstDone := 0, first := false, second := 0, bad := [], sigs := []
        window := false }).setReg Reg.fsBufSelect (k * 256 + (s.bufGen k + 1) % 256))
      (cmdBad cmd 1 = true → exec (.fsAlloc t src cmd) s = .next (result 0x1B z)) ∧
      (cmdBad cmd 1 = false →
        (s.storeActive = false → exec (.fsAlloc t src cmd) s = .next (result 0x17 z)) ∧
        (s.storeActive = true → pValid r = false → exec (.fsAlloc t src cmd) s = .next (result 0x10 z)) ∧
        (s.storeActive = true → pValid r = true → pStream r = true → exec (.fsAlloc t src cmd) s = .next (result 0x12 z)) ∧
        (s.storeActive = true → pValid r = true → pStream r = false →
          (index = 0x3FFFF → s.freeBuf p = none → exec (.fsAlloc t src cmd) s = .next (result 0x16 z)) ∧
          (∀ k, index = 0x3FFFF → s.freeBuf p = some k → exec (.fsAlloc t src cmd) s = .next (taken k)) ∧
          (index ≠ 0x3FFFF → pCount r ≤ index → exec (.fsAlloc t src cmd) s = .next (result 0x10 z)) ∧
          (index ≠ 0x3FFFF → index < pCount r → (s.buf (p * 2 ^ 18 + index)).mode ≠ .free →
            exec (.fsAlloc t src cmd) s = .next (result 0x12 z)) ∧
          (index ≠ 0x3FFFF → index < pCount r → (s.buf (p * 2 ^ 18 + index)).mode = .free →
            exec (.fsAlloc t src cmd) s = .next (taken (p * 2 ^ 18 + index))))) ∧
      (cmdBad cmd 2 = true → exec (.fsFree t src cmd) s = .next (result 0x1B z)) ∧
      (cmdBad cmd 2 = false →
        (handleCode s word ≠ 0 → exec (.fsFree t src cmd) s = .next (result (handleCode s word) z)) ∧
        (handleCode s word = 0 → b.mode ≠ .allocated → exec (.fsFree t src cmd) s = .next (result 0x12 z)) ∧
        (handleCode s word = 0 → b.mode = .allocated → s.str.routes = [] →
          (b.tokens = [] → (∀ w ∈ s.fs.writes, w.key ≠ key) → exec (.fsFree t src cmd) s =
            .next (result 0 (z.setBuf key { b with mode := .free, tokens := [], damaged := [] }))) ∧
          (b.tokens = [] → (∃ w ∈ s.fs.writes, w.key = key) →
            let freed := z.setBuf key { b with mode := .free, tokens := [], damaged := [] }
            let dropped : State := { freed with fs := { freed.fs with writes := s.fs.writes.filter fun w => w.key != key } }
            let told := s.reg Reg.fsReleaseNotify = 1 ∧ s.pwr.bulk = true
            (¬ told → exec (.fsFree t src cmd) s = .next (result 0x02 dropped)) ∧
            (told → ∃ u : State, exec (.fsFree t src cmd) s = .next (result 0x02 u) ∧ Raises [Ev.bufferReleased] dropped u)) ∧
          (b.tokens ≠ [] → exec (.fsFree t src cmd) s = .next (result 0x02 (z.setBuf key { b with mode := .releasing }))))) ∧
      (cmdBad cmd 3 = true → exec (.fsCancelQueued t src cmd) s = .next (result 0x1B z)) ∧
      (cmdBad cmd 3 = false →
        (handleCode s word ≠ 0 → exec (.fsCancelQueued t src cmd) s = .next (result (handleCode s word) z)) ∧
        (handleCode s word = 0 → b.mode ≠ .allocated → b.mode ≠ .releasing →
          exec (.fsCancelQueued t src cmd) s = .next (result 0x12 z)) ∧
        (handleCode s word = 0 → (b.mode = .allocated ∨ b.mode = .releasing) → exec (.fsCancelQueued t src cmd) s =
          .next (result 0 { z with fs := { s.fs with writes := s.fs.writes.filter fun w => w.key != key } })))) ∧
    (∀ header data, gate src Reg.fsBufWrite false z = stDone →
      let word := fld header 127 96
      let key := word / 256
      let offset := fld header 95 64
      let r := s.poolRec (handlePool key)
      let b := s.buf key
      let waiting := s.fs.writes.filter fun w => handlePool w.key == handlePool key
      let at_ := bufAddr key offset
      let sized := data.length = fld header 63 32 ∧ 0 < data.length ∧ data.length ≤ 16 * 1024 * 1024
      let direct := bit header 0 = false ∧ b.tokens = []
      (¬ sized → exec (.fsBufWrite t src header data) s = .next (replied stLength z)) ∧
      (sized → fld header 31 1 ≠ 0 → exec (.fsBufWrite t src header data) s = .next (result 0x1B z)) ∧
      (sized → fld header 31 1 = 0 → handleCode s word ≠ 0 →
        exec (.fsBufWrite t src header data) s = .next (result (handleCode s word) z)) ∧
      (sized → fld header 31 1 = 0 → handleCode s word = 0 →
        ((pStream r = true ∨ b.mode ≠ .allocated) → exec (.fsBufWrite t src header data) s = .next (result 0x12 z)) ∧
        (pStream r = false → b.mode = .allocated →
          (s.poolFrame r < offset + data.length → exec (.fsBufWrite t src header data) s = .next (result 0x15 z)) ∧
          (offset + data.length ≤ s.poolFrame r →
            (¬ direct → pDepthQueue r ≤ waiting.length → exec (.fsBufWrite t src header data) s = .next (result 0x13 z)) ∧
            (¬ direct → waiting.length < pDepthQueue r → 512 * 1024 * 1024 < stagingUsed s + data.length →
              exec (.fsBufWrite t src header data) s = .next (result 0x14 z)) ∧
            (¬ direct → waiting.length < pDepthQueue r → stagingUsed s + data.length ≤ 512 * 1024 * 1024 →
              exec (.fsBufWrite t src header data) s = .next (result 0x01 { z with
                fs := { s.fs with writes := s.fs.writes ++ [⟨key, offset, data, bit header 0, now⟩] } })) ∧
            (direct → (∀ w ∈ s.fs.writes, w.key ≠ key) → Memory.wf s.fs.mem = true → ∃ u : State,
              exec (.fsBufWrite t src header data) s = .next (result 0 u) ∧
              (∀ a, u.readByte a = if at_ ≤ a ∧ a < at_ + data.length then BitVec.ofNat 8 (nth data (a - at_) 0)
                else s.readByte a) ∧
              u = { s with
                dt := now, out := []
                fs := { (s.setBuf key { b with
                    done := now
                    damaged := b.damaged.filter fun o =>
                      !decide (offset ≤ o ∧ min (o + 64) (s.poolFrame r) ≤ offset + data.length) }).fs with
                  mem := u.fs.mem
                  traffic := (s.fs.traffic.filter fun e => decide (now < e.1 + ms)) ++ [(now, data.length)] } }) ∧
            (direct → (∃ w ∈ s.fs.writes, w.key = key) → Memory.wf s.fs.mem = true → ∃ u : State,
              exec (.fsBufWrite t src header data) s = .next (result 0 u) ∧
              u.fs.writes = s.fs.writes.filter (fun w => w.key != key) ∧
              (∀ a, at_ ≤ a → a < at_ + data.length → u.readByte a = BitVec.ofNat 8 (nth data (a - at_) 0)) ∧
              ∀ a, ¬ (at_ ≤ a ∧ a < at_ + data.length) →
                (∀ w ∈ s.fs.writes, w.key = key → ¬ (bufAddr key w.offset ≤ a ∧ a < bufAddr key w.offset + w.data.length)) →
                u.readByte a = s.readByte a))))) ∧
    (∀ who, s.inReserve = false →
      let sel := s.reg Reg.fsBufReadSel
      let word := fld sel 95 64
      let key := word / 256
      let reads := handleCode s word = 0 ∧ fld sel 31 0 ≤ 1024 * 1024 ∧
        fld sel 63 32 + fld sel 31 0 ≤ s.poolFrame (s.poolRec (handlePool key)) ∧
        ((s.buf key).mode = .allocated ∨ (s.buf key).mode = .complete)
      (reads → exec (.fsBufRead t who) s = .next (z.emit (.bytes who (s.readBytes (bufAddr key (fld sel 63 32)) (fld sel 31 0))))) ∧
      (¬ reads → exec (.fsBufRead t who) s = .next (z.emit (.status who stValue)))) ∧
    (∀ key,
      ((∀ w ∈ s.fs.writes, w.key ≠ key) → exec (.queuedWriteTimeout t key) s = .next z) ∧
      ∀ w, s.fs.writes.filter (fun x => x.key == key) = [w] → w.hold = false →
        (now < w.at_ + s.reg Reg.fsWqTimeout * ms → exec (.queuedWriteTimeout t key) s = .next z) ∧
        (w.at_ + s.reg Reg.fsWqTimeout * ms ≤ now → ∃ u : State, exec (.queuedWriteTimeout t key) s = .next u ∧
          Raises [Ev.writeRefused] (({ z with fs := { s.fs with writes := s.fs.writes.filter fun x => x.key != key } } : State).setReg
            Reg.fsBufResult 0x18) u))

/-- FS_POOL_COMMIT (R182 to R185, R194), with nothing moved by a refusal, which leaves its code; and the rolling windows (R207 to
R210): a trigger lets a recording window go on for POST and is ignored otherwise, at its end the window is FROZEN and holds its
frames, a release returns its token of each, and a released window records again. -/
def Obligations.PoolsAndWindows : Prop :=
  ∀ (t : Nat) (src : Src) (s : State),
    let z := s.begin t
    let now := max s.dt t
    let replied (status : Nat) (a : State) : State := a.emit (.status src.who status)
    (gate src Reg.fsPoolCommit true z = stDone →
      let new (p : Nat) : Nat := record (s.reg Reg.fsPoolTable) 0 128 p
      let changed := (List.range 64).filter fun p => poolFields (new p) != poolFields (s.poolRec p)
      let refuses (code : Nat) : Prop := exec (.fsPoolCommit t src) s = .next (replied stValue (z.setReg Reg.fsPoolResult code))
      (s.storeActive = false → refuses 0x17) ∧
      (s.storeActive = true → (∃ p ∈ changed, poolChangeBad s p (new p) = true) → refuses 0x1A) ∧
      (s.storeActive = true → (∀ p ∈ changed, poolChangeBad s p (new p) = false) →
        ((∃ p ∈ changed, poolRefused s (new p) = true) ∨ fieldsBad s new (s.reg Reg.fsStreamPool) = true → refuses 0x19)) ∧
      ((applyPools z).2 ≠ 0 → refuses (applyPools z).2) ∧
      ((applyPools z).2 = 0 → s.str.routes = [] → ∃ u : State, exec (.fsPoolCommit t src) s = .next (replied stDone u) ∧
        u.inForce = ((s.apply Reg.fsPoolTable).apply Reg.fsStreamPool).inForce ∧
        (∀ p ∈ changed, poolBusy s p = false → pValid (new p) = true → ∀ i, i < pCount (new p) →
          ∀ o, Memory.wf s.fs.mem = true → o < 2 ^ 32 → u.readByte (bufAddr (p * 2 ^ 18 + i) o) = 0) ∧
        u = { z.setReg Reg.fsPoolResult 0 with
          inForce := u.inForce, fs := { s.fs with place := u.fs.place, bufs := u.fs.bufs, mem := u.fs.mem } })) ∧
    (gate src Reg.fsWinCommit true z = stDone → s.pwr.warmPending = none →
      ((∃ w, w < 64 ∧ winOk s (s.reg Reg.fsWinTable) w = false) → exec (.fsWinCommit t src) s = .next (replied stValue z)) ∧
      ((∀ w, w < 64 → winOk s (s.reg Reg.fsWinTable) w = true) → s.fs.wins = [] → s.fs.bufs = [] →
        (∀ e ∈ s.str.ins, e.2.frame = none) → exec (.fsWinCommit t src) s = .next (replied stDone (z.apply Reg.fsWinTable)))) ∧
    (∀ w, gate src Reg.fsWinCmd false z = stDone →
      let v := s.win w
      (bit (s.winRec w) 127 = false → exec (.fsWinTrigger t src w) s = .next (replied stValue z)) ∧
      (bit (s.winRec w) 127 = true → v.mode = .recording → exec (.fsWinTrigger t src w) s =
        .next (replied stDone (z.setWin w { v with mode := .post, postEnd := now + fld (s.winRec w) 79 64 * (100 * ms) }))) ∧
      (bit (s.winRec w) 127 = true → v.mode ≠ .recording → exec (.fsWinTrigger t src w) s = .next (replied stDone z)) ∧
      (s.pwr.warmPending = none →
        (v.mode ≠ .frozen → exec (.fsWinRelease t src w) s = .next (replied stValue z)) ∧
        (v.mode = .frozen → (∀ e ∈ s.fs.bufs, .window w ∉ e.2.tokens) → exec (.fsWinRelease t src w) s =
          .next (replied stDone (z.setWin w { v with released := true }))) ∧
        (v.mode = .frozen → twf (fun _ => ({} : Buffer)) s.fs.bufs = true → ∃ u : State,
          exec (.fsWinRelease t src w) s = .next (replied stDone u) ∧ (u.win w).mode = .frozen ∧ (u.win w).released = true ∧
          ∀ key, (u.buf key).tokens = (s.buf key).tokens.erase (.window w))) ∧
      (v.mode = .frozen → v.released = true → exec (.fsWinRestart t src w) s =
        .next (replied stDone (z.setWin w { v with mode := .recording, freezeDt := 0 }))) ∧
      (v.mode ≠ .frozen ∨ v.released = false → exec (.fsWinRestart t src w) s = .next (replied stValue z))) ∧
    (∀ w,
      let v := s.win w
      (v.mode ≠ .post ∨ now < v.postEnd → exec (.windowPostExpiry t w) s = .next z) ∧
      (v.mode = .post → v.postEnd ≤ now → (∀ e ∈ s.str.ins, e.2.frame = none) → ∃ u : State,
        exec (.windowPostExpiry t w) s = .next u ∧ Raises [Ev.windowFrozen]
          ((z.setWin w { v with mode := .frozen, freezeDt := now, released := false }).each v.frames
            fun a f => takeToken f.1 (.window w) a) u)) ∧
    (gate src Reg.fsStatsClear false z = stDone → ∃ u : State, exec (.fsStatsClear t src) s = .next u ∧
      (twf (fun _ => ({} : Window)) s.fs.wins = true →
        ∀ w, u.win w = if w < 64 then { s.win w with dropped := 0 } else s.win w) ∧
      u.regs = (s.clear [Reg.fsC0FetchWorst, Reg.fsExhaustCount]).regs ∧
      u = { s with
        dt := now, out := [.status src.who stDone], regs := u.regs
        fs := { s.fs with wins := u.fs.wins, fetches := 0, fetchSum := 0 } })

/-- The DRAM channels (R197, R199 to R206, R600), while no other in-service change is under way or waits and no route is there. A
retirement evacuates the channel first, a restore trains it, a sweep measures it; a low margin is reported and the channel is
evacuated and retrained; a good retraining brings it back, the second bad one retires it. Each read of a burst is an access of its
own, counted for its class, and late above 1 us for C0; a burst that reads clean after a retry raises CRC_RETRY; one that fails
every read is concealed, or its host block is DAMAGED, with CRC_CONCEAL, and FS_CRC_RETIRE_LIMIT of them within 1 s retire the
channel. -/
def Obligations.DramChannels : Prop :=
  ∀ (t k : Nat) (src : Src) (s : State), k < 8 → s.str.routes = [] → s.sup.waiting = [] →
    let z := s.begin t
    let now := max s.dt t
    let c := s.chan k
    let replied (status : Nat) (a : State) : State := a.emit (.status src.who status)
    let changing (by_ : Option Nat) (a : State) : State := { a with sup := { s.sup with inservice := by_ } }
    let steady : ChanMode := if c.slow then .slow else .fast
    let serves := c.mode = .fast ∨ c.mode = .slow
    (gate src Reg.fsChCmd false z = stDone →
      (¬ serves ∨ s.sup.inservice = some (dramChange k) →
        exec (.fsChRetire t src k) s = .next (replied stValue (z.setReg Reg.fsChResult 0x17)) ∧
        exec (.fsChSweep t src k) s = .next (replied stValue (z.setReg Reg.fsChResult 0x17))) ∧
      (serves → s.sup.inservice = none →
        let a : State := changing (some (dramChange k)) ((chCmdRuns 1 k z).setChan k { c with retiring := true })
        let b : State := a.setChan k { c with
          retiring := true, mode := .evacuating, limit := now + s.reg Reg.fsWqTimeout * ms, retryAt := none }
        c.restoring = false →
        (evacFits k a = true → exec (.fsChRetire t src k) s = .next (replied stDone b)) ∧
        (evacFits k a = false → ∃ u : State, exec (.fsChRetire t src k) s = .next (replied stDone u) ∧
          Raises [Ev.evacuationBlocked] b u)) ∧
      (c.mode ≠ .retired ∨ s.pwr.vddqHold = true →
        exec (.fsChRestore t src k) s = .next (replied stValue (z.setReg Reg.fsChResult 0x17))) ∧
      (c.mode = .retired → s.pwr.vddqHold = false → s.sup.inservice = none → exec (.fsChRestore t src k) s =
        .next (replied stDone (changing (some (dramChange k)) ((chCmdRuns 2 k z).setChan k { c with
          restoring := true, fails := 0, mode := .retraining })))) ∧
      (serves → s.sup.inservice = none → sweepNow s = none → s.fs.sweep.paused = false → s.fs.sweep.single = [] →
        s.reg Reg.govState ≠ 2 → ∃ u : State, exec (.fsChSweep t src k) s = .next u ∧ (u.chan k).mode = .sweeping ∧
          u = { s with
            dt := now, out := [.status src.who stDone], regs := (s.setReg Reg.fsChResult 1).regs
            fs := { (s.setChan k { c with mode := .sweeping }).fs with
              chCmd := 3 * 256 + k, sweep := { s.fs.sweep with single := [0x400 + k] } } })) ∧
    (∀ load,
      let due := s.fs.sweep.state = 0 ∧ 12 ≤ s.start.next ∧ s.sup.trial = none ∧ s.pwr.bulk = true ∧ s.reg Reg.fsSweepLoad * 10 < load
      let a : State := { z with fs := { s.fs with traffic := [(now, load * 480000)] } }
      (¬ due → exec (.marginSweepStart t load) s = .next a) ∧
      (due → s.fs.sweep.single ≠ [] → exec (.marginSweepStart t load) s =
        .next { a with fs := { a.fs with sweep := { s.fs.sweep with due := true } } }) ∧
      (due → s.fs.sweep.single = [] → (s.chan 0).mode = .fast ∨ (s.chan 0).mode = .slow → s.reg Reg.govState ≠ 2 →
        exec (.marginSweepStart t load) s = .next { a with
          fs := { (a.setChan 0 { s.chan 0 with mode := .sweeping }).fs with
            sweep := { s.fs.sweep with state := 1, since := now, part := 0, paused := false, due := false } } })) ∧
    (∀ margin,
      let done (a : State) : State := { a with fs := { a.fs with sweep := { s.fs.sweep with single := [] } } }
      (sweepNow s = none → exec (.sweepPartDone t margin) s = .next z) ∧
      (s.fs.sweep.state ≠ 1 → s.fs.sweep.paused = false → s.fs.sweep.due = false → s.fs.sweep.single = [0x400 + k] → c.mode = .sweeping →
        s.reg Reg.govState ≠ 3 →
        (s.reg Reg.fsMarginMin ≤ margin → exec (.sweepPartDone t margin) s =
          .next (chCmdEnds 3 k 0 (done (z.setChan k { c with mode := steady, margin := margin })))) ∧
        (margin < s.reg Reg.fsMarginMin → s.sup.inservice = none → c.retiring = false → c.restoring = false →
          let a : State := z.setChan k { c with mode := steady, margin := margin, fails := 0 }
          evacFits k a = true → ∃ u : State, exec (.sweepPartDone t margin) s = .next u ∧ Raises [Ev.marginLow k]
            (chCmdEnds 3 k 0 (done (changing (some (dramChange k)) (z.setChan k { c with
              mode := .evacuating, margin := margin, fails := 0, retryAt := none })))) u)) ∧
      ∀ lane, lane < 32 → s.fs.sweep.state ≠ 1 → s.fs.sweep.paused = false → s.fs.sweep.due = false →
        s.fs.sweep.single = [0x500 + lane] →
        (s.lane lane).mode = .ready → s.reg Reg.govState ≠ 3 → psMarginMin (s.phySetup lane) ≤ margin →
        exec (.sweepPartDone t margin) s = .next (done (z.setLane lane { s.lane lane with
          sweepMargin := margin, marginLow := false, lowRun := 0 }))) ∧
    (c.mode ≠ .evacuating → exec (.evacuationDone t k) s = .next z) ∧
    (c.mode = .evacuating → s.sup.inservice = some (dramChange k) → s.fs.sweep.paused = false →
      let moved : State := evacMove k (z.chanExtents k) z
      (c.retiring = false → moved.chanExtents k = 0 →
        exec (.evacuationDone t k) s = .next (moved.setChan k { c with mode := .retraining })) ∧
      (c.retiring = false → moved.chanExtents k ≠ 0 → ∃ u : State, exec (.evacuationDone t k) s = .next u ∧
        Raises [Ev.evacuationBlocked] (changing none (moved.setChan k { c with
          mode := steady, retryAt := some (now + 10 * sec) })) u) ∧
      (c.retiring = true → s.fs.place = [] → s.fs.overPools = [] → s.str.ins = [] → ∃ u : State, exec (.evacuationDone t k) s = .next u ∧
        Raises [Ev.channelRetired k] (changing none (chCmdEnds 1 k 0 (z.setChan k { c with
          mode := .retired, retiring := false, retryAt := none, recent := [] }))) u)) ∧
    ((∀ due, c.retryAt = some due → now < due) → exec (.evacuationRetry t k) s = .next z) ∧
    (∀ due, c.retryAt = some due → due ≤ now → serves → c.retiring = false → c.restoring = false → s.sup.inservice = none →
      evacFits k z = true → exec (.evacuationRetry t k) s =
        .next (changing (some (dramChange k)) (z.setChan k { c with mode := .evacuating, retryAt := none }))) ∧
    (∀ trained slow margin,
      let good := trained = true ∧ s.reg Reg.fsMarginMin ≤ margin
      (c.mode ≠ .retraining → exec (.channelRetrainDone t k trained slow margin) s = .next z) ∧
      (c.mode = .retraining → s.sup.inservice = some (dramChange k) → s.fs.sweep.paused = false → s.fs.overPools = [] →
        (good → c.restoring = false → ∃ u : State, exec (.channelRetrainDone t k trained slow margin) s = .next u ∧
          Raises ((if slow = true ∧ c.slow = false then [Ev.speedFallback k] else []) ++ [Ev.retrainDone k])
            (changing none (z.setChan k { c with
              mode := if slow then .slow else .fast, slow := slow, fails := 0, retiring := false
              retrains := c.retrains + 1 })) u) ∧
        (good → c.restoring = true → s.fs.place = [] → ∃ u : State,
          exec (.channelRetrainDone t k trained slow margin) s = .next u ∧
          Raises ((if slow then [Ev.speedFallback k] else []) ++ [Ev.retrainDone k])
            (changing none (chCmdEnds 2 k 0 (z.setChan k { c with
              mode := if slow then .slow else .fast, slow := slow, fails := 0, retiring := false, restoring := false }))) u) ∧
        (¬ good → c.restoring = false → c.fails = 0 → exec (.channelRetrainDone t k trained slow margin) s =
          .next (z.setChan k { c with fails := 1 })) ∧
        (¬ good → c.restoring = false → 1 ≤ c.fails → ∃ u : State,
          exec (.channelRetrainDone t k trained slow margin) s = .next u ∧ Raises [Ev.retrainFailed k]
            (changing none (z.setChan k { c with mode := .retired, fails := 0 })) u) ∧
        (¬ good → c.restoring = true → ∃ u : State, exec (.channelRetrainDone t k trained slow margin) s = .next u ∧
          Raises [Ev.retrainFailed k] (changing none
            (chCmdEnds 2 k 0x17 (z.setChan k { c with mode := .retired, restoring := false }))) u))) ∧
    ∀ use c0 reads, reads ≠ [] →
      let bad := ((reads.take 3).takeWhile burstBad).length
      let tries := reads.take (min 3 (bad + 1))
      let moved : State := { z with fs := { s.fs with
        traffic := (s.fs.traffic.filter fun e => decide (now < e.1 + ms)) ++ [(now, 64 * tries.length)] } }
      let fetched : State := moved.each tries fun a x =>
        if c0 then ({ a with fs := { a.fs with fetches := a.fs.fetches + 1, fetchSum := a.fs.fetchSum + x.time } } : State).setReg
          Reg.fsC0FetchWorst (max (a.reg Reg.fsC0FetchWorst) x.time)
        else { a with fs := { a.fs with times := (a.fs.times.filter fun e => decide (now < e.1 + sec)) ++ [(now, x.time)] } }
      let late := if c0 then (tries.filter fun x => decide (1000 < x.time)).map fun _ => Ev.c0FetchLate k else []
      let answers (ids : List Nat) (a : State) : Prop :=
        ∃ u : State, exec (.dramBurstRead t k use c0 reads) s = .next u ∧ Raises (late ++ ids) a u
      (bad = 0 → answers [] fetched ∧ (late = [] → exec (.dramBurstRead t k use c0 reads) s = .next fetched)) ∧
      (0 < bad → bad < (reads.take 3).length → answers [Ev.crcRetry k] (fetched.setChan k { c with retries := c.retries + 1 })) ∧
      (bad = (reads.take 3).length →
        let recent := (c.recent.filter fun x => decide (now < x + sec)) ++ [now]
        let live := takesExtents c = true ∨ c.mode = .evacuating
        let failed : Chan := { c with conceals := c.conceals + 1, recent := recent }
        (¬ live ∨ c.retiring = true ∨ recent.length < s.reg Reg.fsCrcRetireLimit →
          (∀ key offset, use = .video key offset →
            let b := s.buf key
            let o := offset / 64 * 64
            let r := s.poolRec (handlePool key)
            (pStream r = false → answers [Ev.crcConceal k] ((fetched.setBuf key { b with
              damaged := if b.damaged.contains o then b.damaged else b.damaged ++ [o] }).setChan k failed)) ∧
            (pStream r = true → 16 ≤ pComp r → answers [Ev.crcConceal k] (((concealBytes key o 64 fetched).setBuf key { b with
              bad := (b.bad ++ [o / max 1 (s.poolLine r)]).eraseDups }).setChan k failed)) ∧
            (pStream r = true → pComp r < 16 → answers [Ev.crcConceal k] ((concealStored key o 64 fetched).setChan k failed))) ∧
          (∀ out, use = .delay out →
            answers [Ev.delayCrcMute, Ev.crcConceal k] ((fetched.count Reg.audCrcMutes 1).setChan k failed)) ∧
          (∀ id, use = .asset id → answers [Ev.crcConceal k] (fetched.setChan k failed))) ∧
        (live → c.retiring = false → s.reg Reg.fsCrcRetireLimit ≤ recent.length → ∀ id, use = .asset id →
          let a : State := { fetched.setChan k { failed with
              retiring := true, restoring := false, mode := .evacuating, limit := now + s.reg Reg.fsWqTimeout * ms, retryAt := none } with
            sup := { s.sup with inservice := if s.sup.inservice.isNone then some (dramChange k) else s.sup.inservice } }
          answers (if evacFits k a = true then [Ev.crcConceal k] else [Ev.crcConceal k, Ev.evacuationBlocked]) a))

/-! Audio (R316 to R335). `follows moved a x`: x is a with a crossfade begun on exactly those output channels whose sound, or
whose delay (`moved`), has changed, each counted (R323, R325). -/

/-- The audio engine (R319 to R335). AUD_COMMIT is refused with its code and event, or waits for the next block boundary, where it
applies; a boundary crossfades what changed and counts clips. A generator starts, steps through its pattern and ends, with its
ducking. A slave port that loses its clock or its rate is faulted with its event and comes back after 64 good frames. A
ratio error silences an input on an output. A sound is stored whole with its CRC or refused; the safe image protects its own. -/
def Obligations.AudioEngine : Prop :=
  ∀ (t : Nat) (src : Src) (s : State), twf (fun _ => ({} : AudOut)) s.aud.outs = true →
    let z := s.begin t
    let now := max s.dt t
    let replied (status : Nat) (a : State) : State := a.emit (.status src.who status)
    let follows (moved : List Nat) (a x : State) : Prop :=
      let heard (o : Nat) : List (Nat × Nat) :=
        if a.audCarries o then a.hears (xpoints (a.force Reg.audXpointTable)) o else []
      let changed := (List.range 512).filter fun o => heard o != (a.audOut o).heard || moved.contains o
      (∀ o, x.audOut o = if o ∈ changed then { a.audOut o with heard := heard o, xfade := some a.dt } else a.audOut o) ∧
      x.reg Reg.audXfadeCount = a.reg Reg.audXfadeCount + changed.length ∧
      (∀ k, k ≠ Reg.audXfadeCount → x.reg k = a.reg k) ∧
      x = { a with regs := x.regs, aud := { a.aud with outs := x.aud.outs } }
    (gate src Reg.audCommit true z = stDone →
      let tdm := (List.range 8).map fun p => s.reg (Reg.tdmSetup p)
      let code := audCheck s (s.reg Reg.audXpointTable) (s.reg Reg.audOutTable) tdm
      (code ≠ 0 → ∃ u : State, exec (.audCommit t src) s = .next (replied stValue u) ∧
        Raises [Ev.audCommitRefused] (z.setReg Reg.audCommitResult code) u) ∧
      (code = 0 → exec (.audCommit t src) s = .next (replied stDone (({ z with
        aud := { s.aud with
          waiting := some ⟨now, s.reg Reg.audXpointTable, s.reg Reg.audOutTable, tdm⟩ } } : State).setReg
            Reg.audCommitResult 1)))) ∧
    (∀ clipped readings,
      (s.aud.running = false → exec (.audioBlockBoundary t clipped readings) s = .next z) ∧
      (s.aud.running = true → s.aud.waiting = none → ∃ x : State, follows [] z x ∧
        exec (.audioBlockBoundary t [] readings) s = .next (x.each readings takeReading) ∧
        ∀ o n, n ≠ 0 → reportDue sec Ev.audioClip now s → ∃ u : State,
          exec (.audioBlockBoundary t [(o, n)] []) s = .next u ∧ Raises [Ev.audioClip]
            ((x.setAudOut o { x.audOut o with clips := (x.audOut o).clips + n }).count Reg.audClips n) u) ∧
      ∀ c, s.aud.running = true → s.aud.waiting = some c →
        let moved := (List.range 512).filter fun o =>
          aoDelay (record c.outs 0 96 o) != aoDelay (s.audOutRec o) && aoValid (record c.outs 0 96 o)
        let b : State := ((((z.setForce Reg.audXpointTable c.xpoints).setForce Reg.audOutTable c.outs).each (List.range 8)
          fun a p => tdmApply p (nth c.tdm p 0) a).setReg Reg.audCommitResult 0).setReg Reg.audCommitDt now
        ∃ x : State, follows moved { b with aud := { b.aud with waiting := none } } x ∧
          exec (.audioBlockBoundary t [] []) s = .next (x.each (List.range 512) duckChannel)) ∧
    (∀ g, gate src Reg.chimeCmd false z = stDone →
      let c := s.chime g
      let ended : State := duckAll g (z.setChime g { c with playing := false, on := false, left := 0 })
      (∀ latency,
        let begun : State := (duckAll g (((z.setChime g ⟨true, true, chimeRepeat (s.chimeRec g), now + s.chimeOnTime g⟩).count
          Reg.chimeCount 1).setReg Reg.chimeLastDt now)).setReg Reg.chimeWorst (max latency (s.reg Reg.chimeWorst))
        (chimeEnable (s.chimeRec g) = false → exec (.chimeStart t src g latency) s = .next (replied stValue z)) ∧
        (chimeEnable (s.chimeRec g) = true → s.chimeUsable g = false →
          exec (.chimeStart t src g latency) s = .next (replied stDone z)) ∧
        (s.chimeUsable g = true → ∃ u : State, exec (.chimeStart t src g latency) s = .next (replied stDone u) ∧
          Raises (if 1000 < latency then [Ev.chimePlayed g, Ev.chimeLate] else [Ev.chimePlayed g]) begun u)) ∧
      (c.playing = true → exec (.chimeStop t src g) s = .next (replied stDone ended)) ∧
      (c.playing = false → exec (.chimeStop t src g) s = .next (replied stDone z)) ∧
      (twf (fun _ => ({} : Chime)) s.aud.chimes = true → ∃ u : State, exec (.chimeStopAll t src) s = .next (replied stDone u) ∧
        (∀ n, n < 32 → (u.chime n).playing = false) ∧
        (∀ n, (s.chime n).playing = false → u.chime n = s.chime n) ∧
        u = { z with aud := { s.aud with chimes := u.aud.chimes, outs := u.aud.outs } })) ∧
    (∀ g,
      let c := s.chime g
      let r := s.chimeRec g
      (c.playing = false ∨ now < c.until_ → exec (.chimePatternStep t g) s = .next z) ∧
      (c.playing = true → c.until_ ≤ now →
        (c.on = true → c.left ≤ 1 → exec (.chimePatternStep t g) s = .next
          (duckAll g (z.setChime g { c with playing := false, on := false, left := 0 }))) ∧
        (c.on = true → 1 < c.left → exec (.chimePatternStep t g) s = .next
          (z.setChime g { c with on := false, until_ := c.until_ + chimeOff r * (10 * ms) })) ∧
        (c.on = false → exec (.chimePatternStep t g) s = .next (z.setChime g { c with
          on := true, left := if c.left = 255 then 255 else c.left - 1, until_ := c.until_ + s.chimeOnTime g })))) ∧
    (∀ p,
      let v := s.tdm p
      let slave := tsSlave (s.tdmSetup p) = true
      let faulted (mode : TdmMode) (w : TdmPort) : TdmPort := { w with mode := mode, errors := w.errors + 1, good := 0 }
      (∀ rate,
        let w : TdmPort := { v with frames := v.frames + 1, rate := rate }
        let off := (tsRate (s.tdmSetup p) : Int) < 1000 * ((rate : Int) - tsRate (s.tdmSetup p)).natAbs
        (v.mode = .off ∨ s.aud.running = false → exec (.tdmFrame t p rate) s = .next z) ∧
        (v.mode ≠ .off → s.aud.running = true →
          (¬ slave → exec (.tdmFrame t p rate) s = .next (z.setTdm p w)) ∧
          (slave → off → v.mode = .rateError → exec (.tdmFrame t p rate) s = .next (z.setTdm p { w with good := 0 })) ∧
          (slave → off → v.mode ≠ .rateError → ∃ x u : State, exec (.tdmFrame t p rate) s = .next u ∧
            follows [] (z.setTdm p (faulted .rateError w)) x ∧ Raises [Ev.tdmRateError p] x u) ∧
          (slave → ¬ off → v.mode = .running → exec (.tdmFrame t p rate) s = .next (z.setTdm p w)) ∧
          (slave → ¬ off → v.mode ≠ .running → v.good < 63 →
            exec (.tdmFrame t p rate) s = .next (z.setTdm p { w with good := v.good + 1 })) ∧
          (slave → ¬ off → v.mode ≠ .running → 63 ≤ v.good → ∃ x : State, exec (.tdmFrame t p rate) s = .next x ∧
            follows [] (z.setTdm p { w with mode := .running, good := 0 }) x))) ∧
      (v.mode = .off ∨ s.aud.running = false ∨ ¬ slave → exec (.tdmClockTimeout t p) s = .next z) ∧
      (v.mode = .clockLost → s.aud.running = true → slave →
        exec (.tdmClockTimeout t p) s = .next (z.setTdm p { v with good := 0 })) ∧
      (v.mode ≠ .off → v.mode ≠ .clockLost → s.aud.running = true → slave → ∃ x u : State,
        exec (.tdmClockTimeout t p) s = .next u ∧ follows [] (z.setTdm p (faulted .clockLost v)) x ∧
        Raises [Ev.tdmClockLost p] x u) ∧
      (gate src (Reg.tdmControl p) false z = stDone →
        exec (.tdmClearCounts t src p) s = .next (replied stDone (z.setTdm p { v with frames := 0, errors := 0 })) ∧
        exec (.tdmResync t src p) s = .next (replied stDone (z.setTdm p { v with good := 0 })))) ∧
    (∀ value, gate src Reg.audMuteAll false z = stDone →
      (1 < value → exec (.audMuteAll t src value) s = .next (replied stValue z)) ∧
      (value ≤ 1 → ∃ x : State, exec (.audMuteAll t src value) s = .next (replied stDone x) ∧
        follows [] { z.setReg Reg.audMuteAll value with aud := { s.aud with
          muted := value == 1, muteSince := if (value == 1) = s.aud.muted then s.aud.muteSince else now } } x)) ∧
    (∀ input out ratio,
      let a := s.audIn input
      let wrong := 100000 < (toInt 32 ratio).natAbs
      (s.aud.running = false → exec (.asrcUnlock t input out ratio) s = .next z) ∧
      (s.aud.running = true → wrong → out ∈ a.unlocked →
        exec (.asrcUnlock t input out ratio) s = .next (z.setAudIn input { a with ratio := ratio })) ∧
      (s.aud.running = true → wrong → out ∉ a.unlocked → ∃ x u : State, exec (.asrcUnlock t input out ratio) s = .next u ∧
        follows [] (z.setAudIn input { a with unlocked := a.unlocked ++ [out], unlocks := a.unlocks + 1, ratio := ratio }) x ∧
        Raises [Ev.asrcUnlock] x u) ∧
      (s.aud.running = true → ¬ wrong → ∃ x : State, exec (.asrcUnlock t input out ratio) s = .next x ∧
        follows [] (z.setAudIn input { a with unlocked := a.unlocked.filter (· != out), ratio := ratio }) x)) ∧
    (gate src Reg.audStatsClear false z = stDone → twf (fun _ => ({} : AudIn)) s.aud.ins = true →
      twf (fun _ => ({} : TdmPort)) s.aud.tdm = true → ∃ u : State, exec (.audStatsClear t src) s = .next u ∧
      (∀ o, u.audOut o = { s.audOut o with clips := 0 }) ∧ (∀ c, u.audIn c = { s.audIn c with unlocks := 0 }) ∧
      (∀ p, u.tdm p = if p < 8 then { s.tdm p with frames := 0, errors := 0 } else s.tdm p) ∧
      u.regs = (s.clear [Reg.audClips, Reg.audCrcMutes, Reg.audXfadeCount, Reg.chimeCount]).regs ∧
      u = { s with
        dt := now, out := [.status src.who stDone], regs := u.regs
        aud := { s.aud with outs := u.aud.outs, ins := u.aud.ins, tdm := u.aud.tdm } }) ∧
    (∀ data ok, gate src Reg.soundWrite false z = stDone →
      let id := leNat (data.take 2)
      let length := leNat ((data.drop 8).take 4)
      let old := match oget s.nvm.sounds id with
        | some x => x.data.length
        | none => 0
      let sized := 16 ≤ data.length ∧ length = data.length - 16
      let formed := 0 < id ∧ id ≤ 0xFFF ∧ length % 3 = 0 ∧ length ≤ 1440000 ∧
        crc32c (data.take 12 ++ data.drop 16) = leNat ((data.drop 12).take 4)
      (¬ sized → exec (.soundWrite t src data ok) s = .next (replied stLength z)) ∧
      (sized → ¬ formed → exec (.soundWrite t src data ok) s = .next (replied stValue z)) ∧
      (sized → formed → 33554432 < s.soundsUsed - old + data.length →
        exec (.soundWrite t src data ok) s = .next (replied stResources z)) ∧
      (sized → formed → s.soundsUsed - old + data.length ≤ 33554432 → exec (.soundWrite t src data ok) s =
        .next (if ok then replied stDone { z with nvm := { s.nvm with
          sounds := oset s.nvm.sounds id (some ⟨data, leNat ((data.drop 12).take 4)⟩) } } else replied stNvm z))) ∧
    ∀ id, gate src Reg.soundDelete false z = stDone →
      let kept := oget s.nvm.sounds id = none ∨ id ∈ tableSounds (leNat s.safeChimes)
      (kept → exec (.soundDelete t src id) s = .next (replied stValue z)) ∧
      (¬ kept → exec (.soundDelete t src id) s =
        .next (replied stDone { z with nvm := { s.nvm with sounds := oset s.nvm.sounds id none } }))

/-! References and device time (R429 to R460). `into mode v` is a source that enters a state now; `lost` raises REF_LOST where a
domain selects or could select the source (R460). -/

/-- The sources (R430 to R435, R448 to R451, R455). An apply in range is in force and enables, disables or requalifies; activity
and its loss, edges, QUAL_TIME and the detection windows move a source by the table of R435, each with its event; network time
counts its Sync messages and is inactive on a change of grandmaster; a failed oscillator raises its event and holds every
transmit PLL; the clears and a write of DT_DOMAIN do what they name. -/
def Obligations.ReferenceSources : Prop :=
  ∀ (t n : Nat) (src : Src) (s : State), n < 12 → twf (fun _ => ({} : RefSource)) s.clk.srcs = true →
    let z := s.begin t
    let now := max s.dt t
    let v := s.src n
    let replied (status : Nat) (a : State) : State := a.emit (.status src.who status)
    let into (mode : RefMode) (x : RefSource) : RefSource := { x with
      mode := mode, since := now, within := none, runIn := 0, agree := none, disagree := []
      majority := if mode = .outvoted then x.majority else []
      marginalAt := if mode = .marginal then some now else if mode = .qualifying ∨ mode = .qualified then none else x.marginalAt }
    let lost (a u : State) : Prop := Raises (if a.refDomains n = [] then [] else [Ev.refLost n]) a u
    let out := v.mode = .disabled ∨ v.mode = .absent
    (gate src (Reg.refControl n) true z = stDone →
      let new := s.reg (Reg.refSetup n)
      let applied : State := (z.apply (Reg.refSetup n)).apply (Reg.refLimits n)
      let bad := refSetupOk n new = false ∨ refLimitsOk (s.reg (Reg.refLimits n)) = false ∨
        (8 ≤ n ∧ n < 11 ∧ rsEnable new = true ∧ laneNamed s n (rsLane new) = true)
      (bad → exec (.refApply t src n) s = .next (replied stValue z)) ∧
      (¬ bad → rsEnable new = false →
        (v.mode = .disabled → exec (.refApply t src n) s = .next (replied stDone applied)) ∧
        (v.mode ≠ .disabled → exec (.refApply t src n) s = .next (replied stDone (applied.setSrc n (into .disabled v))))) ∧
      (¬ bad → rsEnable new = true → n < 8 →
        (v.mode = .disabled → exec (.refApply t src n) s =
          .next (replied stDone (applied.setSrc n (into .absent { v with good := 0, offsets := [] })))) ∧
        (v.mode ≠ .disabled → (refChanged n (s.refSetup n) new = false ∨ v.mode = .absent) →
          exec (.refApply t src n) s = .next (replied stDone applied)) ∧
        (¬ out → refChanged n (s.refSetup n) new = true → ∃ u : State, exec (.refApply t src n) s = .next (replied stDone u) ∧
          lost ((applied.setSrc n (into .qualifying { v with offsets := [], good := 0 })).each
            ((List.range 16).filter fun d => (s.dom d).selected == some n) fun a d =>
              a.setDom d { s.dom d with bandwidth := some (a.loopBandwidth d n) }) u)) ∧
      (¬ bad → rsEnable new = true → 8 ≤ n → n < 11 →
        let ready := (s.lane (rsLane new)).mode = .ready
        (v.mode = .disabled → exec (.refApply t src n) s = .next (replied stDone (applied.setSrc n
          (into (if ready then .qualifying else .absent) { v with good := 0, offsets := [] })))) ∧
        (refChanged n (s.refSetup n) new = false → (ready ∧ ¬ out ∨ ¬ ready ∧ v.mode = .absent) →
          exec (.refApply t src n) s = .next (replied stDone applied))) ∧
      (¬ bad → rsEnable new = true → n = 11 →
        let a : State := if rsEnable (s.refSetup n) then applied else { applied with clk := { s.clk with everSync := false } }
        exec (.refApply t src n) s = .next (replied stDone (if v.mode = .disabled
          then a.setSrc n (into .absent { v with good := 0, offsets := [] }) else a)))) ∧
    (gate src (Reg.refControl n) false z = stDone →
      (out → exec (.refRequalify t src n) s = .next (replied stDone z)) ∧
      (¬ out → ∃ u : State, exec (.refRequalify t src n) s = .next (replied stDone u) ∧
        lost (z.setSrc n (into .qualifying { v with offsets := [], good := 0 })) u) ∧
      exec (.refClearCounts t src n) s = .next (replied stDone (z.setSrc n { v with
        losses := 0, rejects := 0, marginals := 0, disagrees := 0, outvotes := 0 }))) ∧
    (gate src Reg.refStatsClear false z = stDone → twf (fun _ => ({} : Domain)) s.clk.doms = true → ∃ u : State,
      exec (.refStatsClear t src) s = .next (replied stDone (u.setReg Reg.refSwitchTotal 0)) ∧
      (∀ m, u.src m = if m < 12 then { s.src m with
        losses := 0, rejects := 0, marginals := 0, disagrees := 0, outvotes := 0 } else s.src m) ∧
      (∀ d, u.dom d = if d < 16 then { s.dom d with switches := 0 } else s.dom d) ∧
      u = { z with clk := { s.clk with srcs := u.clk.srcs, doms := u.clk.doms } }) ∧
    (∀ value, gate src Reg.dtDomain false z = stDone →
      (15 < value → exec (.dtDomainWrite t src value) s = .next (replied stValue z)) ∧
      (value ≤ 15 → exec (.dtDomainWrite t src value) s = .next (replied stDone
        (({ z with clk := { s.clk with slew := some (s.reg Reg.dtDomain, now) } } : State).setReg Reg.dtDomain value)))) ∧
    (let quiet := match s.srcType n with
       | .pps | .frame => v.good ≤ 1 ∨ v.lastEdge + pulseLimit s n ≤ now
       | .lane => (s.lane (rsLane (s.refSetup n))).mode ≠ .ready
       | .clock | .net => True
     (out ∨ ¬ quiet → exec (.refActivityTimeout t n) s = .next z) ∧
     (¬ out → quiet → ∃ u : State, exec (.refActivityTimeout t n) s = .next u ∧
       lost (z.setSrc n (into .absent { v with losses := v.losses + 1, good := 0, offsets := [] })) u)) ∧
    (s.srcType n = .clock → v.mode = .absent →
      exec (.clockSourceActive t n) s = .next (z.setSrc n (into .qualifying { v with offsets := [] }))) ∧
    (s.srcType n ≠ .clock ∨ v.mode ≠ .absent → exec (.clockSourceActive t n) s = .next z) ∧
    (let pulse := s.srcType n = .pps ∨ s.srcType n = .frame
     let counting := v.mode = .absent ∨ v.mode = .qualifying
     let good := if ¬ counting then v.good else if v.good ≠ 0 ∧ periodOk s n (now - v.lastEdge) = true then v.good + 1 else 1
     let x : RefSource := { v with period := now - v.lastEdge, lastEdge := now, good := good }
     (¬ pulse ∨ v.mode = .disabled → exec (.refPulseEdge t n) s = .next z) ∧
     (pulse → v.mode ≠ .disabled →
       (v.mode = .absent → pulseGood s n ≤ good →
         exec (.refPulseEdge t n) s = .next (z.setSrc n (into .qualifying { x with offsets := [] }))) ∧
       (v.mode ≠ .absent ∨ good < pulseGood s n → exec (.refPulseEdge t n) s = .next (z.setSrc n x)))) ∧
    (∀ offset,
      let offsets := (offset :: v.offsets).take 4
      let d := driftRate (s.srcWindow n) offsets
      let x : RefSource := { v with offsets := offsets, drift := roundTo d.1 (max 1 d.2) }
      let b : State := (z.setReg (Reg.refOffset n) (ofInt 32 offset)).setReg (Reg.refDrift n) (ofInt 32 x.drift)
      let ok := refWithin s n offset d.1 d.2 = true
      let far := (rlReject (s.refLimits n)).natAbs < offset.natAbs
      (out → exec (.refWindowEnd t n offset []) s = .next z) ∧
      (¬ out → v.disagree = [] → (∀ m, m < 12 → m ≠ n → rsRank (s.refSetup m) ≠ rsRank (s.refSetup n)) →
        (∀ e, e < 16 → (s.dom e).selected ≠ some n) →
        (v.mode = .qualifying → exec (.refWindowEnd t n offset []) s =
          .next (b.setSrc n { x with within := if ok then some (v.within.getD now) else none })) ∧
        ((v.mode = .qualified ∨ v.mode = .marginal) → far → ∃ u : State, exec (.refWindowEnd t n offset []) s = .next u ∧
          lost (b.setSrc n (into .rejected { x with rejects := v.rejects + 1 })) u) ∧
        (v.mode = .qualified → ¬ far → ok → exec (.refWindowEnd t n offset []) s = .next (b.setSrc n x)) ∧
        (v.mode = .qualified → ¬ far → ¬ ok → ∃ u : State, exec (.refWindowEnd t n offset []) s = .next u ∧
          Raises [Ev.refMarginal n] (b.setSrc n (into .marginal { x with marginals := v.marginals + 1 })) u) ∧
        (v.mode = .marginal → ¬ far → ¬ ok →
          exec (.refWindowEnd t n offset []) s = .next (b.setSrc n { x with runIn := 0 })) ∧
        (v.mode = .marginal → ¬ far → ok → v.runIn < 2 →
          exec (.refWindowEnd t n offset []) s = .next (b.setSrc n { x with runIn := v.runIn + 1 })) ∧
        (v.mode = .marginal → ¬ far → ok → 2 ≤ v.runIn →
          exec (.refWindowEnd t n offset []) s = .next (b.setSrc n (into .qualified x))) ∧
        (v.mode = .rejected → offset.natAbs ≤ (rlAccept (s.refLimits n)).natAbs →
          exec (.refWindowEnd t n offset []) s = .next (b.setSrc n (into .qualifying x))))) ∧
    (∀ since, (v.mode = .qualifying ∧ v.within = some since ∨ v.mode = .outvoted ∧ v.agree = some since) →
      exec (.refQualTimeExpiry t n) s =
        .next (if since + rlQual (s.refLimits n) ≤ now then z.setSrc n (into .qualified v) else z)) ∧
    (∀ gm delay,
      let w := s.src 11
      let b : State := (z.setReg Reg.refNetGm gm).setReg Reg.refNetPathDelay delay
      (w.mode = .disabled → exec (.gptpSync t gm delay) s = .next z) ∧
      (w.mode ≠ .disabled → (w.good = 0 ∨ s.reg Reg.refNetGm = gm) →
        (w.mode ≠ .absent ∨ w.good < 7 → exec (.gptpSync t gm delay) s = .next (b.setSrc 11 { w with good := w.good + 1 })) ∧
        (w.mode = .absent → 7 ≤ w.good → exec (.gptpSync t gm delay) s = .next
          (({ b with clk := { s.clk with everSync := true } } : State).setSrc 11
            (into .qualifying { w with good := w.good + 1, offsets := [] })))) ∧
      (n = 11 → ¬ out → v.good ≠ 0 → s.reg Reg.refNetGm ≠ gm → ∃ u : State, exec (.gptpSync t gm delay) s = .next u ∧
        lost (b.setSrc 11 (into .absent { v with losses := v.losses + 1, good := 1, offsets := [] })) u)) ∧
    (∀ seconds nanos, exec (.netMapLatch t seconds nanos) s = .next (if (s.src 11).mode = .qualified
      then { z with clk := { s.clk with map := (now, seconds, nanos) } } else z)) ∧
    (∀ phyref, ∃ u : State, exec (.xoLoss t phyref) s = .next u ∧ Raises [Ev.oscFault]
      (z.setReg Reg.refXoState (if phyref = true ∧ s.clk.phyrefLost = false then 1 else 2)) u) ∧
    (twf (fun _ => ({} : PhyLane)) s.phy = true → ∃ (u x : State), exec (.phyrefLoss t) s = .next u ∧
      (∀ l, x.lane l = if l < 32 then { s.lane l with pllHeld := true } else s.lane l) ∧
      x = { z with phy := x.phy, clk := { s.clk with phyrefLost := true } } ∧
      Raises [Ev.oscFault] (if s.reg Reg.refXoState = 0 then x else x.setReg Reg.refXoState 2) u)

/-- The timing domains (R438 to R447). An apply in range turns a domain off or on, and the loop runs with the smaller of BANDWIDTH
and what the type of its source allows; at an evaluation a domain without a source
takes the best one, by REF_SWITCH, and ACQUIRES it, one whose source is lost takes the best that is left or goes into HOLDOVER,
or FREE_RUN without history, and one leaves a source that is MARGINAL too long, or a higher RANK after WTR when it is REVERTIVE.
A second of history is kept of a LOCKED domain, and a frame pulse leaves one that runs. -/
def Obligations.TimingDomains : Prop :=
  ∀ (t d : Nat) (src : Src) (s : State), d < 16 → twf (fun _ => ({} : Domain)) s.clk.doms = true →
    let z := s.begin t
    let now := max s.dt t
    let v := s.dom d
    let replied (status : Nat) (a : State) : State := a.emit (.status src.who status)
    let into (mode : DomMode) (x : Domain) : Domain :=
      if x.mode = mode then x else { x with mode := mode, since := now, near := 0 }
    (∀ build, gate src (Reg.domControl d) true z = stDone →
      let new := s.reg (Reg.domSetup d)
      let applied : State := (z.apply (Reg.domSetup d)).apply (Reg.domSources d)
      let bad := domSetupOk new = false ∨ dsEnable new = false ∧ domNamed s d = true
      (bad → exec (.domApply t src d build) s = .next (replied stValue z)) ∧
      (¬ bad → dsEnable new = false → exec (.domApply t src d build) s =
        .next (replied stDone (applied.setDom d (into .off { v with selected := none, bandwidth := none })))) ∧
      (¬ bad → dsEnable new = true → v.mode = .off → v.selected = none → (∀ m, m < 12 → (s.src m).mode ≠ .qualified) →
        exec (.domApply t src d build) s =
          .next (replied stDone (applied.setDom d
            { v with mode := .freeRun, since := now, near := 0, freq := 0, bandwidth := none }))) ∧
      (¬ bad → dsEnable new = true → v.mode ≠ .off → 12 ≤ dsForce new →
        (v.selected = none → applied.bestSource d = none →
          exec (.domApply t src d build) s = .next (replied stDone (applied.setDom d { v with bandwidth := none }))) ∧
        (∀ x, v.selected = some x → applied.eligible d x = true → (s.src x).mode = .qualified → applied.bestSource d = some x →
          exec (.domApply t src d build) s = .next (replied stDone (applied.setDom d
            { v with bandwidth := some (min (dsBandwidth new) (s.srcType x).widest) }))))) ∧
    (gate src (Reg.domControl d) false z = stDone →
      exec (.domClearHistory t src d) s = .next (replied stDone (z.setDom d { v with hist := [] })) ∧
      exec (.domClearCounts t src d) s = .next (replied stDone (z.setDom d { v with switches := 0 }))) ∧
    (∀ build, v.mode ≠ .off → (∀ e, e < 16 → e ≠ d → (s.dom e).mode = .off) → 12 ≤ dsForce (s.domSetup d) →
      let phase := ((build.find? fun x => x.1 == d).map (·.2)).getD 0
      let switched (b : Nat) (u : State) : Prop := exec (.selectionEval t build) s = .next u ∧ Raises [Ev.refSwitch b]
        ((z.setDom d (into (if v.mode = .locked ∧ domNear s d b = true then .locked else .acquiring) { v with
          selected := some b, bandwidth := some (min (dsBandwidth (s.domSetup d)) (s.srcType b).widest)
          buildOut := phase, buildSince := now, switches := v.switches + 1, near := 0 })).count
            Reg.refSwitchTotal 1) u
      let stands (x : Nat) : Prop := s.eligible d x = true ∧ ((s.src x).mode = .qualified ∨ (s.src x).mode = .marginal)
      (v.selected = none → s.bestSource d = none → exec (.selectionEval t build) s = .next z) ∧
      (∀ b, v.selected = none → s.bestSource d = some b → ∃ u : State, switched b u) ∧
      (∀ x b, v.selected = some x → ¬ stands x → s.bestSource d = some b → ∃ u : State, switched b u) ∧
      (∀ x, v.selected = some x → ¬ stands x → s.bestSource d = none → bit (s.force (Reg.domSources d)) x = true →
        (z.holdSeconds d x ≠ [] → ∃ u : State, exec (.selectionEval t build) s = .next u ∧ Raises []
          (z.setDom d (into .holdover { v with
            selected := none, bandwidth := none, freq := meanOf (z.holdSeconds d x), holdFreq := meanOf (z.holdSeconds d x)
            switches := v.switches + 1 })) u) ∧
        (z.holdSeconds d x = [] → ∃ u : State, exec (.selectionEval t build) s = .next u ∧
          Raises [] (z.setDom d (into .freeRun { v with selected := none, bandwidth := none, freq := 0 })) u)) ∧
      (∀ x b, v.selected = some x → stands x → s.bestSource d = some b → b ≠ x →
        let tired := (s.src x).mode = .marginal ∧ (s.src x).since + rlMarginal (s.refLimits x) ≤ now
        let better := dsRevertive (s.domSetup d) = true ∧ rsRank (s.refSetup b) < rsRank (s.refSetup x) ∧
          (s.src b).since + dsWtr (s.domSetup d) ≤ now
        (tired ∨ better → ∃ u : State, switched b u) ∧
        (¬ tired → ¬ better → exec (.selectionEval t build) s = .next z))) ∧
    (∀ f, exec (.historyTick t [(d, f)]) s = .next (if v.mode = .locked then z.setDom d { v with
      hist := ((now, f) :: v.hist).filter fun h => decide (now < h.1 + 4096 * sec) } else z)) ∧
    exec (.domFramePulse t d) s = .next (if v.mode ≠ .off ∧ dsFrameRate (s.domSetup d) ≠ 0
      then (z.setDom d { v with frameDt := now }).emit (.pulse d) else z)

/-! The key store (R515 to R540). -/

/-- SEC_UPDATE (R530 to R533), re-masking (R521), the transport key (R519, R575) and tampering (R538 to
R540). A message that fails a check of R531 is refused with its code, its record and UPDATE_REFUSED; one that passes sets the
counter and its slot, with UPDATE_APPLIED, and with SLOT_ORPHANED where a session runs on a slot whose key goes. A re-masking
writes the key under the next mask, and one later than twice its period is reported. A tamper source that is enabled destroys the
keys and ends every session. -/
def Obligations.KeyStoreCommands : Prop :=
  ∀ (t : Nat) (src : Src) (s : State),
    let z := s.begin t
    let replied (status : Nat) (a : State) : State := a.emit (.status src.who status)
    let noted (d : List Nat) (code : Nat) : State := (z.setReg Reg.secUpdateResult code).setReg Reg.secLastUpdate
      (pack [(64, umCounter d), (64, max s.dt t), (8, umSlot d), (8, umOp d), (8, code), (40, 0)])
    (∀ d ok, gate src Reg.secUpdate false z = stDone →
      let code := updateCode z d ok
      let n := umSlot d
      let a := umAttr d
      let old := s.keySlot n
      let p := kaParent a
      let taken (b : State) (v : KeySlot) : State :=
        let b : State := { b with nvm := { b.nvm with keys := { b.nvm.keys with counter := umCounter d, torn := false } } }
        let b := b.setKeySlot n v
        let b : State := { b with sec := { b.sec with masked := tset (fun _ => 0) s.sec.masked n (max s.dt t) } }
        (b.setReg Reg.secCounter (umCounter d)).setReg Reg.secUpdatePending 0
      let applied (b : State) (v : KeySlot) : Prop := ∃ u : State, exec (.secUpdate t src d ok) s = .next (replied stDone u) ∧
        Raises [Ev.updateApplied] (taken b v) u
      (code ≠ 0 → ∃ u : State, exec (.secUpdate t src d ok) s = .next (replied (updateStatus code) u) ∧
        Raises [Ev.updateRefused] (noted d code) u) ∧
      (code = 0 → s.start.recovery ≠ 2 → kaValid old.attr = false →
        (∀ key, umOp d = 1 → (verifyKey z n).bind (fun k => unwrapped k d) = some key →
          applied (noted d 0) ⟨key, keptAttr s a true false false, 0⟩) ∧
        (umOp d = 2 →
          let k := kdf (s.slotKey p) "SLOT" (n :: beBytes 4 (umLabel d)) 256
          applied (useSlot p (noted d 0)) ⟨if kaNarrow a then k.take 16 else k, keptAttr s a true false true, umLabel d⟩) ∧
        (umOp d = 3 → applied (noted d 0) {})) ∧
      (code = 0 → s.start.recovery ≠ 2 → umOp d = 4 →
        applied (noted d 0) { old with attr := keptAttr s a (kaValid old.attr) (kaOrphaned old.attr) (bit old.attr 15) }) ∧
      (code = 0 → ∃ u : State, exec (.secUpdate t src d ok) s = .next (replied stDone u) ∧
        u.nvm.keys.counter = umCounter d ∧ bit u.evt.status Ev.updateApplied = true ∧
        (∀ key, umOp d = 1 → (verifyKey z n).bind (fun k => unwrapped k d) = some key →
          u.keySlot n = ⟨key, keptAttr s a true false false, 0⟩) ∧
        (umOp d = 3 → twf (fun _ => ({} : KeyCells)) s.nvm.keys.slots = true → u.keySlot n = {}) ∧
        (kaValid old.attr = true → umOp d ≠ 4 → slotInUse s n = true → bit u.evt.status Ev.slotOrphaned = true))) ∧
    (gate src Reg.secStatsClear false z = stDone →
      exec (.secStatsClear t src) s = .next (replied stDone { z with sec := { s.sec with uses := [] } })) ∧
    (∀ slot,
      let narrow := kaValid (s.keySlot slot).attr = true ∧ kaNarrow (s.keySlot slot).attr = true
      let late := tget (fun _ => 0) s.sec.masked slot + 2 * s.reg Reg.secRemaskPeriod * ms < max s.dt t
      let fresh : State := State.setKeySlot
        { z with sec := { s.sec with masked := tset (fun _ => 0) s.sec.masked slot (max s.dt t) } } slot (s.keySlot slot)
      (¬ narrow → exec (.remaskTick t slot) s = .next z) ∧
      (narrow → ¬ late → exec (.remaskTick t slot) s = .next fresh) ∧
      (narrow → late → ∃ u : State, exec (.remaskTick t slot) s = .next u ∧ Raises [Ev.remaskLate] fresh u) ∧
      (narrow → (fresh.keySlot slot).key = (s.keySlot slot).key)) ∧
    (∀ key,
      let open_ := s.reg Reg.secState ≠ 2 ∧ (s.start.recovery ≠ 0 ∧ (s.start.next = 4 ∨ s.start.next = 5) ∨ s.nvm.lc = 0)
      (¬ open_ → exec (.transportKeyLoad t key) s = .next z) ∧
      (open_ → exec (.transportKeyLoad t key) s = .next
        (({ z with sec := { s.sec with startKey := key.map (· % 256) } } : State).setReg Reg.secStartKeyState 2))) ∧
    (∀ source,
      let off := source = 0 ∧ bit (s.reg Reg.secTamperEnable) 0 = false
      let none_ : KeyStore :=
        { s.nvm.keys with root := none, helper := none, destroyed := true, slots := [], torn := false }
      (off → exec (.tamperTrip t source) s = .next z) ∧
      (¬ off → ∃ u : State, exec (.tamperTrip t source) s = .next u ∧ bit u.evt.status Ev.keysDestroyed = true ∧
        u.nvm.keys = none_ ∧ u.sec.puf = none ∧ u.sec.signing = {} ∧ u.sec.startKey = []) ∧
      (¬ off → (∀ n, n < 32 → (s.link n).session = none) →
        ∃ u : State, exec (.tamperTrip t source) s = .next u ∧
          let a := (z.setReg Reg.secTamperStatus (setBit (s.reg Reg.secTamperStatus) source)).setReg Reg.secStartKeyState 0
          let a : State := { a with
            sec := { s.sec with startKey := [], puf := none, signing := {}, masked := [] }
            nvm := { s.nvm with cb := { s.nvm.cb with keyEpoch := s.nvm.cb.keyEpoch + 1 }, keys := none_ }
            dap := { s.dap with sessions := [] } }
          Raises [Ev.keysDestroyed] (((a.setReg Reg.secState 2).setReg Reg.secRootState 0).setReg Reg.secDestroyDt
            (max s.dt t)) u))

/-- SEC_CHALLENGE (R527): a slot number, three reserved bytes and a 12-byte nonce are answered in SEC_RESPONSE with the leftmost
128 bits of the HMAC, and CHALLENGE_ANSWERED is raised; a slot that may not answer is refused with 0x04, and other lengths with
0x03. -/
def Obligations.ChallengeIsAnswered : Prop :=
  ∀ (t : Nat) (src : Src) (s : State),
    let z := s.begin t
    let replied (status : Nat) (a : State) : State := a.emit (.status src.who status)
    ∀ d, gate src Reg.secChallenge false z = stDone →
      let slot := nth d 0 0
      (d.length ≠ 16 → exec (.secChallenge t src d) s = .next (replied stLength z)) ∧
      (d.length = 16 → s.slotAuth slot = false → exec (.secChallenge t src d) s = .next (replied stValue z)) ∧
      (d.length = 16 → s.slotAuth slot = true → ∃ u : State, exec (.secChallenge t src d) s = .next (replied stDone u) ∧
        Raises [Ev.challengeAnswered] ((useSlot slot z).setReg Reg.secResponse
          (leNat (hmac128 (s.slotKey slot) (ascii "DEVICE-AUTH" ++ d.drop 4 ++ beBytes 8 Config.deviceId)))) u)

/-! Supplies, hold-up, reserve operation and the governor (R545 to R558, R616). -/

/-- Rails and temperature (R545 to R547, R549 to R554, R616). A rail's bit of PWR_GOOD and reading change; a keeper side that
fails hands over to the other with its event, or with none left hold-up begins; the failure of a qualified main supply and
Tj above its limit begin reserve operation, and the qualified supply below that limit ends it. Readings out of range are
counted and reported. -/
def Obligations.SuppliesFailAndReturn : Prop :=
  ∀ (t : Nat) (s : State), twf entryDefault s.regs = true →
    let now := max s.dt t
    let z := s.begin t
    let rails (rail : Nat) (good : Bool) (mv : Nat) : State :=
      (z.setReg Reg.pwrGood (putBit (s.reg Reg.pwrGood) rail good)).setReg Reg.pwrRailMv
        (putFld (s.reg Reg.pwrRailMv) (16 * rail + 15) (16 * rail) mv)
    let since (good : Bool) (old : Option Time) : Option Time := if good then some (old.getD now) else none
    let known (rail : Nat) (good : Bool) (mv : Nat) : State :=
      let g := putBit (s.reg Reg.pwrGood) rail good
      { rails rail good mv with pwr := { s.pwr with
        aSince := since (bit g 0 && bit g 2 && bit g 4) s.pwr.aSince
        bSince := since (bit g 1 && bit g 3 && bit g 5) s.pwr.bSince
        mainSince := since (bit g 6 && bit g 7 && bit g 8 && bit g 9) s.pwr.mainSince } }
    let heldUp (u : State) : Prop := u.pwr.holdup = true ∧ u.pwr.bulk = false ∧ u.nvm.heldUp = true ∧
      u.nvm.holdups = s.nvm.holdups + 1 ∧ u.fs.mem = [] ∧ u.aud.running = false ∧
      bit u.evt.status Ev.holdupEntered = true ∧ ∀ n, n < 32 → (u.lane n).mode = .off ∨ (u.lane n).mode = .unpowered
    let reserve (u : State) : Prop := u.pwr.bulk = false ∧ u.pwr.reserveSince = some now ∧ u.fs.mem = [] ∧
      bit u.evt.status Ev.mainLost = true
    let runs (u : State) : Prop := u.pwr.bulk = true ∧ u.fs.mode = .training ∧ u.pwr.reserveSince = none
    let comesBack (c : Instr) (a : State) : Prop :=
      let stays := a.pwr.bulk = true ∨ a.pwr.thermal = true ∨ a.pwr.qualified = false ∨ a.pwr.holdup = true
      let waits := s.start.next = 7 ∧ s.start.outcome = 3
      let reserved := s.reg Reg.pwrState = 2 ∧ (s.start.next = 12 ∨ s.start.outcome = 5)
      (stays → exec c s = .next a) ∧
      (¬ stays → waits → ∃ u : State, exec c s = .next u ∧ runs u ∧
        u.start = { s.start with outcome := 0, began := now }) ∧
      (¬ stays → ¬ waits → ¬ reserved → exec c s = .next a) ∧
      (¬ stays → ¬ waits → reserved → ∃ u : State, exec c s = .next u ∧ runs u ∧ u.pwr.restoring = true ∧
        u.start.kind = 3 ∧ u.start.next = 7 ∧ u.start.t0 = now ∧ u.nvm.boot = s.nvm.boot + 1)
    let qualMs := s.reg Reg.pwrMainQual * ms
    (∀ rail mv,
      (10 < rail → exec (.railGood t rail mv) s = .next z) ∧
      (rail ≤ 10 → exec (.railGood t rail mv) s = .next (known rail true mv)) ∧
      (10 < rail → exec (.railHigh t rail mv) s = .next z) ∧
      (rail ≤ 10 → ∃ u : State, exec (.railHigh t rail mv) s = .next u ∧ Raises [Ev.supplyOutOfRange]
        ((z.setReg Reg.pwrRailMv (putFld (s.reg Reg.pwrRailMv) (16 * rail + 15) (16 * rail) mv)).count Reg.pwrOorCount 1) u) ∧
      exec (.holdInFail t mv) s = .next (rails 10 false mv) ∧
      (5 < rail ∨ s.pwr.holdup = true → exec (.keeperRailFail t rail mv) s = .next z) ∧
      (rail ≤ 5 → s.pwr.holdup = false →
        let side := s.reg Reg.pwrKeeperSide
        let a := known rail false mv
        let g := putBit (s.reg Reg.pwrGood) rail false
        let other := if side = 0 then bit g 1 && bit g 3 && bit g 5 else bit g 0 && bit g 2 && bit g 4
        let wasB := bit (s.reg Reg.pwrGood) 1 && bit (s.reg Reg.pwrGood) 3 && bit (s.reg Reg.pwrGood) 5
        (rail % 2 = side → other = true → ∃ u : State, exec (.keeperRailFail t rail mv) s = .next u ∧
          Raises [if side = 0 then Ev.keeperOnB else Ev.keeperOnA]
            ((a.setReg Reg.pwrKeeperSide (1 - side)).count Reg.pwrSwitchCount 1) u) ∧
        (rail % 2 = side → other = false → ∃ u : State, exec (.keeperRailFail t rail mv) s = .next u ∧ heldUp u) ∧
        (rail % 2 ≠ side → side = 0 → wasB = true → ∃ u : State, exec (.keeperRailFail t rail mv) s = .next u ∧
          Raises [Ev.backupLost] a u) ∧
        (rail % 2 ≠ side → (side ≠ 0 ∨ wasB = false) → exec (.keeperRailFail t rail mv) s = .next a)) ∧
      (rail < 6 ∨ 9 < rail → exec (.bulkRailFail t rail mv) s = .next z) ∧
      (6 ≤ rail → rail ≤ 9 →
        let a : State := { known rail false mv with pwr := { (known rail false mv).pwr with qualified := false } }
        (s.pwr.qualified = false ∨ s.pwr.bulk = false ∨ s.pwr.holdup = true →
          exec (.bulkRailFail t rail mv) s = .next a) ∧
        (s.pwr.qualified = true → s.pwr.bulk = true → s.pwr.holdup = false → ∃ u : State,
          exec (.bulkRailFail t rail mv) s = .next u ∧ reserve u ∧ u.pwr.qualified = false))) ∧
    (let due := s.pwr.qualified = false ∧ ∃ x, s.pwr.mainSince = some x ∧ x + qualMs ≤ now;
      let a : State := { z with pwr := { s.pwr with qualified := true } };
      (¬ due → exec (.mainQualified t) s = .next z) ∧
      (due → comesBack (.mainQualified t) a)) ∧
    (let due := s.reg Reg.pwrKeeperSide = 1 ∧ s.pwr.holdup = false ∧ ∃ x, s.pwr.aSince = some x ∧ x + qualMs ≤ now;
      (¬ due → exec (.sideAQualified t) s = .next z) ∧
      (due → ∃ u : State, exec (.sideAQualified t) s = .next u ∧
        Raises [Ev.keeperOnA] ((z.setReg Reg.pwrKeeperSide 0).count Reg.pwrSwitchCount 1) u)) ∧
    (s.pwr.holdup = true → exec (.holdupEntry t) s = .next z) ∧
    (s.pwr.holdup = false → ∃ u : State, exec (.holdupEntry t) s = .next u ∧ heldUp u) ∧
    (s.pwr.holdup = false → exec (.holdupStoreExhausted t) s = .next z) ∧
    (s.pwr.holdup = true → exec (.holdupStoreExhausted t) s = .next (({ z with
      dap := { s.dap with save := none }
      cb := { s.cb with queue := [], mounted := false }
      nvm := { s.nvm with cb := { s.nvm.cb with
        lostAll := s.nvm.cb.lostAll || (s.cb.queue != []) } } } : State).setReg Reg.pwrHoldupUs 0)) ∧
    (∀ mv,
      let us_ := holdupMicros (s.reg Reg.pwrHoldupCap) mv
      let g := s.reg Reg.pwrGood
      let both := (bit g 0 && bit g 2 && bit g 4) && (bit g 1 && bit g 3 && bit g 5)
      let a := (z.setReg Reg.pwrHoldupUs us_).setReg Reg.pwrRailMv (putFld (s.reg Reg.pwrRailMv) 175 160 mv)
      let low := if s.pwr.holdupSeen then min (s.reg Reg.pwrHoldupLowest) us_ else us_
      let b : State := ({ a with pwr := { s.pwr with holdupSeen := true } } : State).setReg Reg.pwrHoldupLowest low
      (both = false → exec (.holdupIndicatorTick t mv) s = .next a) ∧
      (both = true → s.reg Reg.secHoldupReq ≤ us_ → exec (.holdupIndicatorTick t mv) s = .next b) ∧
      (both = true → us_ < s.reg Reg.secHoldupReq → ∃ u : State, exec (.holdupIndicatorTick t mv) s = .next u ∧
        (reportDue (60 * sec) Ev.holdupLow now s → Raises [Ev.holdupLow] b u) ∧
        (¬ reportDue (60 * sec) Ev.holdupLow now s → Raises [] b u))) ∧
    (∀ vddq vdd2,
      let a := z.setReg Reg.pwrRailMv (putFld (putFld (s.reg Reg.pwrRailMv) 143 128 vddq) 159 144 vdd2)
      (vddq ≤ vdd2 + 200 → exec (.vddqAboveVdd2 t vddq vdd2) s = .next a) ∧
      (vdd2 + 200 < vddq → s.fs.mode ≠ .inService → ∃ u : State, exec (.vddqAboveVdd2 t vddq vdd2) s = .next u ∧
        Raises [Ev.supplyOutOfRange]
          (({ a with pwr := { s.pwr with vddqHold := true } } : State).count Reg.pwrOorCount 1) u) ∧
      (vdd2 + 200 < vddq → s.fs.mode = .inService → ∃ u : State, exec (.vddqAboveVdd2 t vddq vdd2) s = .next u ∧
        u.pwr.vddqHold = true ∧ bit u.evt.status Ev.supplyOutOfRange = true ∧ ∀ k, k < 8 → (u.chan k).mode = .retired)) ∧
    (∀ sensors,
      let a := takeSensors sensors z
      (∃ u : State, exec (.tjRangeCrossing t sensors) s = .next u ∧
        Raises [Ev.tempOutOfRange] (a.count Reg.pwrOorCount 1) u) ∧
      (let b : State := ({ a with pwr := { s.pwr with thermal := true } } : State).setReg Reg.pwrThermalState 1;
        (s.pwr.thermal = true → exec (.thermalTrip t sensors) s = .next a) ∧
        (s.pwr.thermal = false → (s.pwr.bulk = false ∨ s.pwr.holdup = true) →
          exec (.thermalTrip t sensors) s = .next b) ∧
        (s.pwr.thermal = false → s.pwr.bulk = true → s.pwr.holdup = false → ∃ u : State,
          exec (.thermalTrip t sensors) s = .next u ∧ reserve u ∧ u.pwr.thermal = true)) ∧
      (let b : State := ({ a with pwr := { s.pwr with thermal := false } } : State).setReg Reg.pwrThermalState 0;
        (s.pwr.thermal = false → exec (.thermalReturn t sensors) s = .next a) ∧
        (s.pwr.thermal = true → comesBack (.thermalReturn t sensors) b)))

/-- GOV_CONTROL 0x01 brings the GOV_SETUP of 64 bits into force; one that breaks a range of R558 or has SLACK_LOW ≥ SLACK_HIGH is
refused with 0x04. Without ENABLE the governor is off; one that it enables in service waits or trims. -/
def Obligations.GovernorSetupApplies : Prop :=
  ∀ (t : Nat) (src : Src) (s : State),
    let now := max s.dt t
    let z := s.begin t
    let replied (status : Nat) (a : State) : State := a.emit (.status src.who status)
    let ready := s.fs.sweep.state = 2 ∨ (s.fs.sweep.state = 0 ∧ s.pwr.gov.waitEnd ≤ now)
    let begins (a : State) : State := (a.setReg Reg.govState (if ready then 2 else 1)).modGov fun g =>
      { g with run := 0, misses := 0, mismatches := 0, bySweep := false }
    gate src Reg.govControl true z = stDone →
      let v := s.reg Reg.govSetup
      let fits := (1 ≤ fld v 58 54 ∧ fld v 58 54 ≤ 20) ∧ (5 ≤ fld v 53 48 ∧ fld v 53 48 ≤ 50) ∧
        (1 ≤ fld v 47 36 ∧ fld v 47 36 ≤ 1000) ∧ fld v 35 24 ≤ 999 ∧ (1 ≤ fld v 23 16 ∧ fld v 23 16 ≤ 100) ∧
        fld v 35 24 < fld v 47 36
      let b := z.apply Reg.govSetup
      (¬ fits → exec (.govApply t src) s = .next (replied stValue z)) ∧
      (fits → govEnabled b = false → exec (.govApply t src) s = .next (replied stDone (b.setReg Reg.govState 0))) ∧
      (fits → govEnabled b = true → (govEnabled s = true ∨ s.start.next ≠ 12) →
        exec (.govApply t src) s = .next (replied stDone b)) ∧
      (fits → govEnabled b = true → govEnabled s = false → s.start.next = 12 →
        exec (.govApply t src) s = .next (replied stDone (begins b)))

/-- The slack governor (R556, R557). PAUSE goes back to 750 mV, and RESUME and the
end of a fault begin to wait or to trim. While it trims, each interval takes a slack below LOW to a step up at once, and ten in
a row of HIGH or more to a step down, within 700 to 825 mV. Three transactions without an answer or two wrong readings in a row
are a fault. -/
def Obligations.GovernorTrims : Prop :=
  ∀ (t : Nat) (src : Src) (s : State),
    let now := max s.dt t
    let z := s.begin t
    let replied (status : Nat) (a : State) : State := a.emit (.status src.who status)
    let state := s.reg Reg.govState
    let ready := s.fs.sweep.state = 2 ∨ (s.fs.sweep.state = 0 ∧ s.pwr.gov.waitEnd ≤ now)
    let begins (a : State) : State := (a.setReg Reg.govState (if ready then 2 else 1)).modGov fun g =>
      { g with run := 0, misses := 0, mismatches := 0, bySweep := false }
    (gate src Reg.govControl false z = stDone →
      (state = 0 ∨ state = 4 → exec (.govPause t src) s = .next (replied stDone z)) ∧
      (state ≠ 0 → state ≠ 4 →
        let a := if s.reg Reg.govVcoreSet = 750 then z else govWrite 750 z
        exec (.govPause t src) s = .next (replied stDone ((a.setReg Reg.govState 3).modGov fun g =>
          { g with run := 0, bySweep := false }))) ∧
      (state ≠ 3 ∨ s.pwr.gov.bySweep = true → exec (.govResume t src) s = .next (replied stDone z)) ∧
      (state = 3 → s.pwr.gov.bySweep = false →
        ((sweepNow z).isSome = true → ready → exec (.govResume t src) s =
          .next (replied stDone (z.modGov fun g => { g with bySweep := true }))) ∧
        ((sweepNow z).isSome = false ∨ ¬ ready → exec (.govResume t src) s = .next (replied stDone (begins z)))) ∧
      (state = 4 → exec (.govClearFault t src) s = .next (replied stDone (begins z))) ∧
      (state ≠ 4 → exec (.govClearFault t src) s = .next (replied stDone z))) ∧
    (state ≠ 2 → exec (.govInterval t) s = .next z) ∧
    (state = 2 →
      let g := s.force Reg.govSetup
      let slack := min (toInt 16 (s.reg Reg.fabSlack)) (arraySlack z)
      let a := z.setReg Reg.govSlack (ofInt 16 slack)
      let v := s.reg Reg.govVcoreSet
      let run (n : Nat) : State := a.modGov fun x => { x with run := n }
      let up := min (v + fld g 53 48) 825
      let down := max (v - fld g 58 54) 700
      (slack < (fld g 35 24 : Int) → exec (.govInterval t) s =
        .next (if up = v then run 0 else govWrite up ((run 0).count Reg.govStepsUp 1))) ∧
      ((fld g 35 24 : Int) ≤ slack → slack < (fld g 47 36 : Int) → exec (.govInterval t) s = .next (run 0)) ∧
      ((fld g 35 24 : Int) ≤ slack → (fld g 47 36 : Int) ≤ slack →
        (s.pwr.gov.run ≠ 9 → exec (.govInterval t) s = .next (run (s.pwr.gov.run + 1))) ∧
        (s.pwr.gov.run = 9 → exec (.govInterval t) s =
          .next (if down = v then run 0 else govWrite down ((run 0).count Reg.govStepsDown 1))))) ∧
    (let isOver := state = 1 ∧ s.fs.sweep.state = 0 ∧ s.pwr.gov.waitEnd ≤ now;
      (isOver → exec (.govWaitTimeout t) s = .next (z.setReg Reg.govState 2)) ∧
      (¬ isOver → exec (.govWaitTimeout t) s = .next z)) ∧
    (state = 0 ∨ state = 4 → ∀ read, exec (.avsTransactionDone t read) s = .next z) ∧
    (state ≠ 0 → state ≠ 4 →
      let missed := (z.count Reg.govAvsErrors 1).modGov fun g => { g with misses := g.misses + 1 }
      let seen (mv : Nat) : State := (z.setReg Reg.govVcoreRead mv).modGov fun g => { g with misses := 0 }
      let wrong (mv : Nat) : State := ((seen mv).count Reg.govAvsErrors 1).modGov fun g =>
        { g with mismatches := g.mismatches + 1 }
      let v := s.reg Reg.govVcoreSet
      (s.pwr.gov.misses < 2 → exec (.avsTransactionDone t none) s = .next missed) ∧
      (2 ≤ s.pwr.gov.misses → ∃ u : State, exec (.avsTransactionDone t none) s = .next u ∧
        Raises [Ev.governorFault] (missed.setReg Reg.govState 4) u) ∧
      ∀ mv,
        (v ≤ mv + 15 → mv ≤ v + 15 → exec (.avsTransactionDone t (some mv)) s =
          .next ((seen mv).modGov fun g => { g with mismatches := 0 })) ∧
        (mv + 15 < v ∨ v + 15 < mv →
          (s.pwr.gov.mismatches = 0 → exec (.avsTransactionDone t (some mv)) s = .next (wrong mv)) ∧
          (1 ≤ s.pwr.gov.mismatches → ∃ u : State, exec (.avsTransactionDone t (some mv)) s = .next u ∧
            Raises [Ev.governorFault] ((wrong mv).setReg Reg.govState 4) u))) ∧
    (gate src Reg.pwrStatsClear false z = stDone → exec (.pwrStatsClear t src) s = .next (replied stDone
      ((z.clear [Reg.pwrSwitchCount, Reg.pwrReserveCount, Reg.govStepsDown, Reg.govStepsUp, Reg.govAvsErrors,
        Reg.pwrOorCount]).setReg Reg.govVcoreLowest 750)))

/-! Resets and the start (R559 to R578). -/

/-- The resets (R559 to R563, R578). A power-on leaves the NVM and what shows it, everything else at its reset value, DT at 0;
a cold reset leaves DT, the supplies and the key store too, and hold-up lets none through. RESET_N low holds the start, and its
rising edge samples the straps. A warm reset waits, reported and at most RST_WARM_HOLD, while windows wait for their export; it
ends sessions and begins a warm start at S4. A processor restart loses what the processor held. A subsystem reset is refused by
the checks of R562, or drains its function. -/
def Obligations.ResetsRestart : Prop :=
  ∀ (t : Nat) (src : Src) (s : State),
    let now := max s.dt t
    let z := s.begin t
    let replied (status : Nat) (a : State) : State := a.emit (.status src.who status)
    let sideA (g : Nat) : Bool := bit g 0 && bit g 2 && bit g 4
    let sideB (g : Nat) : Bool := bit g 1 && bit g 3 && bit g 5
    let since (good : Bool) : Option Time := if good then some 0 else none
    let cold (cause : Nat) (held : Bool) (u : State) : Prop :=
      u = { State.reset with
        dt := now, free := s.free, pending := s.pending, nvm := u.nvm, regs := u.regs
        sec := { s.sec with uses := [], startKey := [] }
        cb := { queue := s.cb.queue, gap := s.cb.gap, limits := s.cb.limits }
        dap := { netLink := s.dap.netLink }
        sup := { lastHang := s.sup.lastHang }
        pwr := {
          qualified := s.pwr.qualified, mainSince := s.pwr.mainSince, aSince := s.pwr.aSince, bSince := s.pwr.bSince
          thermal := s.pwr.thermal, vddqHold := s.pwr.vddqHold, holdupSeen := s.pwr.holdupSeen
          lcChanged := s.pwr.lcChanged }
        start := { kind := 1, cause := cause, t0 := now, began := now, held := held, straps := s.start.straps } } ∧
      (s.dap.staged = [] → u.nvm = s.nvm) ∧
      (∀ k ∈ coldRegs, k ∉ [Reg.secStartKeyState, Reg.rsvTotalS, Reg.pwrReserveMs] → u.reg k = s.reg k) ∧
      ∀ k, k ∉ coldRegs → k ∉ [Reg.rstLastCause, Reg.idStraps, Reg.idNodeId] → u.reg k = entryDefault k
    let warm (cause : Nat) (u : State) : Prop := u.start.kind = 2 ∧ u.start.cause = cause ∧ u.start.next = 4 ∧
      u.start.t0 = now ∧ u.pwr.warm = true ∧ u.pwr.warmPending = none ∧ u.pwr.subsystem = none ∧ u.dap.sessions = [] ∧
      u.sup.trial = none ∧ u.nvm.boot = s.nvm.boot + 1
    let anew (a : State) : State := ((({ a with
      dap := { a.dap with kept := [], waiting := [], reasm := [], snaps := [] }
      nvm := countReset rowProcessor a.nvm } : State).count Reg.fwRestarts 1).setReg Reg.rstLastCause 6).setReg
        Reg.fwStartedDt now
    let quiet := s.dap.staged = [] ∧ s.dap.save = none
    (∀ good straps, sideA good = false → sideB good = false →
      exec (.powerOn t good straps) s = .next { s with out := [] }) ∧
    (∀ good straps, sideA good = true ∨ sideB good = true → s.dap.staged = [] → ∃ r u,
      exec (.powerOn t good straps) s = .next u ∧
      let lost := s.nvm.boot != 0 && (s.reg Reg.pwrHoldupCap == 0 || s.cb.queue != [])
      Raises (if sideA good = true ∧ sideB good = false then [Ev.backupLost] else []) { State.reset with
        free := s.free, pending := s.pending, regs := r
        nvm := { s.nvm with cb := { s.nvm.cb with lostAll := s.nvm.cb.lostAll || lost } }
        start := { kind := 0, cause := 1, straps := straps }
        pwr := {
          aSince := since (sideA good), bSince := since (sideB good)
          mainSince := since (bit good 6 && bit good 7 && bit good 8 && bit good 9) } } u ∧
      u.reg Reg.pwrKeeperSide = (if sideA good then 0 else 1) ∧
      ∀ k, k ∉ nvmRegs → k ∉ [Reg.rstLastCause, Reg.secState, Reg.idStraps, Reg.idNodeId, Reg.pwrGood,
        Reg.pwrKeeperSide] → k ∉ raiseRegs → u.reg k = entryDefault k) ∧
    (s.pwr.holdup = true → exec (.resetNAssert t) s = .next z) ∧
    (s.pwr.holdup = false → ∃ u : State, exec (.resetNAssert t) s = .next u ∧ cold 2 true u) ∧
    (∀ straps,
      (s.start.held = false → exec (.resetNRelease t straps) s = .next z) ∧
      (s.start.held = true → exec (.resetNRelease t straps) s = .next (({ z with
        start := { s.start with held := false, t0 := now, began := now, straps := straps } } : State).setReg
          Reg.idStraps (straps % 256) |>.setReg Reg.idNodeId (straps % 128)))) ∧
    (gate src Reg.rstCmd false z = stDone →
      (s.pwr.holdup = true → exec (.rstCold t src) s = .next (replied stDone z)) ∧
      (s.pwr.holdup = false → ∃ u : State, exec (.rstCold t src) s = .next (replied stDone u) ∧ cold 3 false u) ∧
      (let waits := unexported s ≠ 0 ∧ s.reg Reg.rstWarmHold ≠ 0
        let asked := z.setReg Reg.rstCmd 2;
        (waits → s.pwr.warmPending.isSome = true → exec (.rstWarm t src) s = .next (replied stDone asked)) ∧
        (waits → s.pwr.warmPending = none → ∃ u : State, exec (.rstWarm t src) s = .next (replied stDone u) ∧
          Raises [Ev.warmResetPending] (({ asked with pwr := { s.pwr with
            warmPending := some (now + s.reg Reg.rstWarmHold * ms), warmCause := 4 } } : State).setReg Reg.rstPending 1) u) ∧
        (¬ waits → s.pwr.holdup = true → exec (.rstWarm t src) s = .next (replied stDone asked)) ∧
        (¬ waits → s.pwr.holdup = false → ∃ u : State, exec (.rstWarm t src) s = .next (replied stDone u) ∧ warm 4 u)) ∧
      (quiet → s.sup.trial = none → exec (.rstProcRestart t src) s = .next (replied stDone (anew (z.setReg Reg.rstCmd 3)))) ∧
      (∀ b x, s.sup.trial = some (b, x) → ∃ u : State, exec (.rstProcRestart t src) s = .next (replied stDone u) ∧
        u.sup.trial = none ∧ bit u.evt.status Ev.fwReverted = true)) ∧
    (gate src Reg.rstProceed false z = stDone →
      (s.pwr.warmPending = none ∨ s.pwr.holdup = true → exec (.rstProceed t src) s = .next (replied stDone z)) ∧
      (s.pwr.warmPending.isSome = true → s.pwr.holdup = false → ∃ u : State,
        exec (.rstProceed t src) s = .next (replied stDone u) ∧ warm s.pwr.warmCause u)) ∧
    (let due := ∃ x, s.pwr.warmPending = some x ∧ x ≤ now;
      (¬ due ∨ s.pwr.holdup = true → exec (.warmHoldExpiry t) s = .next z) ∧
      (due → s.pwr.holdup = false → ∃ u : State, exec (.warmHoldExpiry t) s = .next u ∧ warm s.pwr.warmCause u)) ∧
    (quiet → s.sup.trial = none → ∃ u : State, Raises [Ev.procWatchdog] z u ∧
      exec (.procWatchdogExpiry t) s = .next (anew u)) ∧
    (∀ value pass, gate src Reg.rstSubsystem false z = stDone →
      let v := value % 2 ^ 16
      let kind := v / 256
      let inst := v % 256
      let unknown := kind = 0 ∨ 7 < kind ∨ qsInstances kind ≤ inst
      let dark := s.inReserve = true ∧ bulkFunction kind inst = true
      let begun : State := ({ z with
        nvm := countReset rowSubsystem s.nvm
        pwr := { s.pwr with
          subsystem := some (qsKey kind inst), subPass := pass
          subEnd := now + longestFrame s (fun _ => true) + ms } } : State)
      let c : Instr := .rstSubsystem t src value pass
      (unknown → exec c s = .next (replied stValue (z.setReg Reg.rstResult 0x10))) ∧
      (¬ unknown → carriesC0 z kind inst = true → exec c s = .next (replied stValue (z.setReg Reg.rstResult 0x12))) ∧
      (¬ unknown → carriesC0 z kind inst = false →
        (dark → exec c s = .next (replied stUnpowered z)) ∧
        (¬ dark → s.pwr.subsystem.isSome = true → exec c s = .next (replied stBusy z)) ∧
        (¬ dark → s.pwr.subsystem = none →
          (kind = qsStore ∨ kind = qsAudio ∨ kind = qsShared ∨ (kind = qsLane ∧ (s.lane inst).mode = .ready) →
            exec c s = .next (replied stDone ((begun.setReg Reg.rstSubsystem v).setReg Reg.rstResult 1))) ∧
          ∃ u : State, exec c s = .next (replied stDone u) ∧ u.nvm.resetCounts = (countReset rowSubsystem s.nvm).resetCounts ∧
            (u.pwr.subsystem = some (qsKey kind inst) ∨ bit u.evt.status Ev.resetDone = true)))) ∧
    (gate src Reg.startFailedClear false z = stDone →
      exec (.startFailedClear t src) s = .next (replied stDone { z with nvm := { s.nvm with failedStarts := 0 } }))

/-- The start steps (R201, R211, R355, R451, R512 to R514, R564 to R570, R575, R92 to R94). A command of a step that is not in
progress changes nothing. Each step ends with its result and ALT, and the next one that is not skipped is in progress; S1
without an oscillator, S2 without its NVM and S4 without a firmware image stop the start; in RETIRED it stops after S4.
FIRST_LIGHT ends the start hold on SAFE_N, and SERVICE_READY the start. -/
def Obligations.StartStepsRun : Prop :=
  ∀ (t : Nat) (s : State),
    let now := max s.dt t
    let z := s.begin t
    let due (k : Nat) : Prop := stepDue s k = true
    let following (k : Nat) : Nat :=
      ((List.range 12).find? fun j => decide (k < j) && (s.start.step j).result != 4).getD 12
    let ended (k result alt : Nat) (u : State) : Prop :=
      u.start.next = following k ∧ (u.start.step k).result = result ∧ (u.start.step k).alt = alt ∧ u.start.working = false
    let stopped (k : Nat) (u : State) : Prop := u.start.stopped = true ∧ u.start.outcome = 4 ∧ u.start.next = k ∧
      bit u.evt.status Ev.startStepFailed = true
    let failed (u : State) : Prop := bit u.evt.status Ev.startStepFailed = true
    (∀ good mv xo ph nv root puf a b fl as so res cm ok (k : Nat) (c : Instr),
      (k, c) ∈ [(0, .startS0Supply t good mv), (1, .startS1Osc t xo ph), (2, .startS2Nvm t nv), (3, .startS3Root t root puf),
        (4, .startS4Firmware t a b), (5, .startS5Keeper t fl as so), (6, .startS6Firstlight t),
        (7, .startS7DramTrain t res), (8, .startS8DramWipe t cm), (9, .startS9Lanes t), (10, .startS10Config t ok),
        (11, .startS11Routes t)] → stepDue s k = false → exec c s = .next z) ∧
    (∀ good mv, due 0 → ∃ u : State, exec (.startS0Supply t good mv) s = .next u ∧
      (((bit good 0 && bit good 2 && bit good 4) || (bit good 1 && bit good 3 && bit good 5)) = true →
        twf entryDefault s.regs = true → ended 0 1 0 u) ∧
      (((bit good 0 && bit good 2 && bit good 4) || (bit good 1 && bit good 3 && bit good 5)) = false →
        twf entryDefault s.regs = true → u.start = s.start)) ∧
    (due 1 →
      (∃ u : State, exec (.startS1Osc t true true) s = .next u ∧ ended 1 1 0 u) ∧
      (∃ u : State, exec (.startS1Osc t true false) s = .next u ∧ ended 1 2 2 u ∧ failed u ∧
        bit u.evt.status Ev.oscFault = true ∧ u.clk.phyrefLost = true) ∧
      (∃ u : State, exec (.startS1Osc t false true) s = .next u ∧ ended 1 2 1 u ∧ failed u ∧
        bit u.evt.status Ev.oscFault = true) ∧
      ∃ u : State, exec (.startS1Osc t false false) s = .next u ∧ stopped 1 u ∧ bit u.evt.status Ev.oscFault = true) ∧
    (due 2 →
      (∃ u : State, exec (.startS2Nvm t false) s = .next u ∧ stopped 2 u) ∧
      ∃ u : State, exec (.startS2Nvm t true) s = .next u ∧ ended 2 1 0 u ∧ u.cb.mounted = true ∧
        u.nvm.boot = s.nvm.boot + 1) ∧
    (due 3 →
      (∀ h, s.nvm.keys.started = true → s.nvm.keys.destroyed = false → s.nvm.keys.torn = false →
        s.nvm.keys.root.isSome = true → s.nvm.keys.helper = some h →
        ((s.nvm.lc = 2 ∨ s.nvm.lc = 3) → kaValid (s.keySlot 30).attr = true ∧ kaValid (s.keySlot 31).attr = true) →
        exec (.startS3Root t true true) s = .next (stepEnds 3 1 1 0 7
          (((pufStands (Config.pufRoot h) (cellsKeyed z)).setReg Reg.secState 0).setReg Reg.secRootState 7))) ∧
      ∀ root, ∃ u : State, exec (.startS3Root t root false) s = .next u ∧ ended 3 2 2 u ∧ failed u ∧
        bit u.evt.status Ev.rootFailed = true) ∧
    (∀ a b, due 4 →
      let holds (k : Nat) (ok : Bool) : Bool := ok && (s.bank k).state != 2 && (s.bank k).state != 3
      let good (k : Nat) : Bool := if k = 0 then holds 0 a else holds 1 b
      let first := s.nvm.startBank
      (good first = false → good (1 - first) = false → ∃ u : State, exec (.startS4Firmware t a b) s = .next u ∧ stopped 4 u) ∧
      (good first = true → s.nvm.lc ≠ 4 → ∃ u : State, exec (.startS4Firmware t a b) s = .next u ∧ ended 4 1 0 u) ∧
      (good first = false → good (1 - first) = true → s.nvm.lc ≠ 4 → ∃ u : State,
        exec (.startS4Firmware t a b) s = .next u ∧ ended 4 2 1 u ∧ failed u) ∧
      (s.nvm.lc = 4 → (good first = true ∨ good (1 - first) = true) → ∃ u : State,
        exec (.startS4Firmware t a b) s = .next u ∧ u.start.stopped = true ∧ u.start.outcome = 4)) ∧
    (∀ fl assets sounds, due 5 →
      let c : Instr := .startS5Keeper t fl assets sounds
      let isOver := s.start.t0 + 290 * ms ≤ now ∨
        ∀ n, 24 ≤ n → n < 32 → psEnable (s.phySetup n) = true → (s.link n).mode = .up
      (s.start.working = false → ∃ u : State, exec c s = .next u ∧ u.start.working = true ∧ u.start.next = 5 ∧
        u.start.keeperFailed = (fl != 0) ∧ (fl ≠ 0 → failed u) ∧
        ∀ n, 24 ≤ n → n < 32 → psEnable (s.phySetup n) = true → ((s.lane n).mode = .off ∨ (s.lane n).mode = .unpowered) →
          (u.lane n).mode = .calibrating) ∧
      (s.start.working = true → (¬ isOver ∨ s.start.recovery = 2) → exec c s = .next z) ∧
      (s.start.working = true → isOver → s.start.recovery = 1 → ∃ u : State, exec c s = .next u ∧ u.start.next = 5 ∧
        u.start.recovery = 2 ∧ u.start.recoveryEnd ≤ now + s.reg Reg.lcRecoveryWait * sec) ∧
      (s.start.working = true → isOver → s.start.recovery ≠ 1 → s.start.recovery ≠ 2 → ∃ u : State, exec c s = .next u ∧
        u.sec.startKey = [] ∧ ((s.start.step 5).detail = 0 → ended 5 1 0 u) ∧
        ((s.start.step 5).detail ≠ 0 → ended 5 3 1 u ∧ failed u))) ∧
    (let waits := s.start.recovery = 2 ∧ s.start.recoveryEnd ≤ now ∧ due 5;
      (¬ waits → exec (.recoveryWaitEnd t) s = .next z) ∧
      (waits → ∃ u : State, exec (.recoveryWaitEnd t) s = .next u ∧ u.sec.startKey = [] ∧ u.start.recovery = 3 ∧
        ((s.start.step 5).detail = 0 → ended 5 1 0 u) ∧ ((s.start.step 5).detail ≠ 0 → ended 5 3 1 u ∧ failed u))) ∧
    (due 6 →
      let c : Instr := .startS6Firstlight t
      let flipped := s.reg Reg.safeSetState ≠ 1 ∨ s.reg Reg.safeLiveMask = 2 ^ s.safeRecords.length - 1
      let isOver := flipped ∨ s.start.t0 + 400 * ms ≤ now
      (s.start.working = false → (s.start.keeperFailed = true ∨ s.reg Reg.safeSetState = 2) → ∃ u : State,
        exec c s = .next u ∧ u.start.next = following 6 ∧ (u.start.step 6).result = 3 ∧ bit u.evt.status Ev.safeSetFailed = true ∧
        u.evt.startHold = s.evt.startHold) ∧
      (s.start.working = true → isOver → ∃ u : State, exec c s = .next u ∧ u.start.next = following 6 ∧
        (u.start.step 6).result = 1 ∧ bit u.evt.status Ev.firstLight = true ∧ u.evt.startHold = false) ∧
      (s.start.working = true → ¬ isOver → exec c s = .next z) ∧
      (s.start.working = false → s.start.keeperFailed = false → s.reg Reg.safeSetState ≠ 2 → ∃ u : State,
        exec c s = .next u ∧ (u.start.working = true ∧ u.start.next = 6 ∨
          u.start.next = following 6 ∧ bit u.evt.status Ev.firstLight = true ∧ u.evt.startHold = false))) ∧
    (∀ results, due 7 →
      (s.pwr.bulk = false → exec (.startS7DramTrain t results) s = .next z) ∧
      (s.pwr.bulk = true → ∃ u : State, exec (.startS7DramTrain t results) s = .next u ∧ u.start.next = following 7 ∧
        u.fs.mode = .wiping ∧ ∀ k, k < 8 →
          let code := if s.pwr.vddqHold then 0 else (nth results k (0, 0)).1
          (code = 1 → (u.chan k).mode = .fast) ∧ (code = 2 → (u.chan k).mode = .slow) ∧
          (code ≠ 1 → code ≠ 2 → (u.chan k).mode = .retired))) ∧
    (∀ lost, due 8 →
      (s.pwr.bulk = false → exec (.startS8DramWipe t lost) s = .next z) ∧
      (s.pwr.bulk = true → ∃ u : State, exec (.startS8DramWipe t lost) s = .next u ∧ u.start.next = following 8 ∧
        u.fs.mode = .inService ∧ u.fs.mem = [] ∧ u.nvm.wipes = s.nvm.wipes + 1 ∧
        ∀ k, k < 8 → bit lost k = true → (u.chan k).mode = .retired)) ∧
    (due 9 →
      let c : Instr := .startS9Lanes t
      let isOver := s.start.began + 1500 * ms ≤ now ∨
        ∀ n, n < 24 → (s.lane n).mode ≠ .calibrating ∧ (s.lane n).mode ≠ .training
      let slow := (List.range 24).filter fun n =>
        decide ((s.lane n).mode = .ready ∧ psRateMax (s.phySetup n) < (s.lane n).rate)
      (s.pwr.bulk = false → exec c s = .next z) ∧
      (s.pwr.bulk = true → s.start.working = false → ∃ u : State, exec c s = .next u ∧ u.start.working = true ∧
        u.start.next = 9 ∧ ∀ n, n < 24 → psEnable (s.phySetup n) = true →
          ((s.lane n).mode = .off ∨ (s.lane n).mode = .unpowered) → (u.lane n).mode = .calibrating) ∧
      (s.pwr.bulk = true → s.start.working = true → ¬ isOver → exec c s = .next z) ∧
      (s.pwr.bulk = true → s.start.working = true → isOver → exec c s =
        .next (stepEnds 9 (if slow = [] then 1 else 2) 1 (if slow = [] then 0 else 1) (maskOf slow) z))) ∧
    (due 10 →
      let c (ok : Bool) : Instr := .startS10Config t ok
      let full := s.start.kind ≠ 2 ∧ s.start.kind ≠ 3
      (∀ ok, ¬ full → exec (c ok) s = .next (stepEnds 10 1 1 0 0 z)) ∧
      (∀ ok, full → s.start.loop = true → exec (c ok) s = .next (stepEnds 10 2 1 1 savedKeys.length z)) ∧
      (full → s.start.loop = false →
        (∀ ok, s.nvm.image = none → exec (c ok) s = .next (stepEnds 10 1 1 0 0 z)) ∧
        (∀ img, s.nvm.image = some img → ∃ u : State, exec (c false) s = .next u ∧ ended 10 2 1 u ∧ failed u) ∧
        (∀ img, s.nvm.image = some img → imageRead img = none → ∃ u : State, exec (c true) s = .next u ∧
          ended 10 2 1 u ∧ failed u) ∧
        (∀ img recs, s.nvm.image = some img → imageRead img = some recs → s.nvm.imageMarked = true →
          exec (c true) s = .next (stepEnds 10 1 1 0 0 z)) ∧
        (∀ img recs, s.nvm.image = some img → imageRead img = some recs → s.nvm.imageMarked = false → ∃ u : State,
          exec (c true) s = .next u ∧ u.start.next = following 10 ∧ (u.start.step 10).result = 1))) ∧
    (due 11 →
      let c : Instr := .startS11Routes t
      let isOver := s.start.began + 400 * ms ≤ now ∨ s.str.groups = []
      (s.start.working = true → isOver → ∃ u : State, exec c s = .next u ∧ ended 11 1 0 u ∧ u.start.ready = now ∧
        (u.start.outcome = 1 ∨ u.start.outcome = 2) ∧ u.nvm.failedStarts = 0 ∧ u.pwr.warm = false ∧
        bit u.evt.status Ev.serviceReady = true) ∧
      (s.start.working = true → s11Over z = false → exec c s = .next z) ∧
      (s.start.working = false → ∃ u : State, exec c s = .next u ∧ (u.start.next = 11 ∧ u.start.working = true ∨
        u.start.next = 12)))

/-! The life-cycle, the casebook and supervision (R571 to R606). -/

/-- LC_REQUEST (R571 to R573): a request that fails a check is refused with its code, status and event; one that passes changes
the state in the NVM, sets the counter, and resets the device; retirement destroys the keys as well. The casebook (R579 to R588):
the oldest record of the queue is appended under the next SEQ, an NVM that refuses is reported once and tried again, notes and
digests are queued, and a read gives whole records with their status. -/
def Obligations.CasebookAndLifeCycle : Prop :=
  ∀ (t : Nat) (src : Src) (s : State),
    let now := max s.dt t
    let z := s.begin t
    let replied (status : Nat) (a : State) : State := a.emit (.status src.who status)
    (∀ d ok, gate src Reg.lcRequest false z = stDone →
      let code := lcCode z d ok
      let refused := z.setReg Reg.lcResult code
      (code ≠ 0 → ∃ u : State, exec (.lcRequest t src d ok) s = .next (replied (lcStatus code) u) ∧
        Raises [Ev.lifeCycleRefused] refused u) ∧
      (code = 0 → ∃ u : State, exec (.lcRequest t src d ok) s = .next (replied stDone u) ∧ u.nvm.lc = lrTarget d ∧
        u.nvm.lcSince = now ∧ u.nvm.lcChanges = s.nvm.lcChanges + 1 ∧ u.nvm.keys.counter = lrCounter d ∧
        u.nvm.lcHistory = (lcEntry s.nvm.lc (lrTarget d) now :: s.nvm.lcHistory).take 8 ∧
        u.pwr.lcChanged = some (lrTarget d) ∧
        (lrTarget d = 4 → u.nvm.keys.destroyed = true ∧ u.nvm.retireDt = now ∧
          (s.pwr.holdup = false → u.start.kind = 1 ∧ u.start.cause = 5 ∧ u.start.next = 0)) ∧
        (lrTarget d ≠ 4 → s.pwr.holdup = false → (unexported s = 0 ∨ s.reg Reg.rstWarmHold = 0) →
          u.start.kind = 2 ∧ u.start.cause = 5 ∧ u.start.next = 4) ∧
        (lrTarget d ≠ 4 → unexported s ≠ 0 → s.reg Reg.rstWarmHold ≠ 0 → s.pwr.warmPending = none →
          u.pwr.warmPending = some (now + s.reg Reg.rstWarmHold * ms) ∧ bit u.evt.status Ev.warmResetPending = true))) ∧
    (let writes := s.cb.mounted = true ∧ s.pwr.holdup = false
      let stored (i : CbItem) (u : State) : Prop := u.nvm.cb.nextSeq = s.nvm.cb.nextSeq + 1 ∧
        u.nvm.cb.append = s.nvm.cb.append + cbExtent i ∧
        ∃ r ∈ u.nvm.cb.ring, r.item = i ∧ r.seq = s.nvm.cb.nextSeq % 2 ^ 32 ∧ r.pos = s.nvm.cb.append ∧
          r.lc = s.nvm.lc ∧ r.boot = s.nvm.boot ∧ r.unsigned = !s.slotValid 29;
      (∀ ok, (¬ writes ∨ s.cb.queue = [] ∨ s.cb.nvmFault = true) → exec (.cbCommit t ok) s = .next z) ∧
      (∀ i rest, writes → s.cb.queue = i :: rest → s.cb.nvmFault = false →
        (∃ u : State, exec (.cbCommit t false) s = .next u ∧
          Raises [Ev.cbNvmFault] { z with cb := { s.cb with nvmFault := true } } u) ∧
        (s.cb.gap = none → ∃ u : State, exec (.cbCommit t true) s = .next u ∧ stored i u) ∧
        (∀ g, s.cb.gap = some g → ∃ u : State, exec (.cbCommit t true) s = .next u ∧
          u.nvm.cb.nextSeq = s.nvm.cb.nextSeq + 2 ∧
          ∃ r ∈ u.nvm.cb.ring, r.item = i ∧ r.seq = (s.nvm.cb.nextSeq + 1) % 2 ^ 32)) ∧
      (∀ ok, (¬ writes ∨ s.cb.nvmFault = false ∨ ok = false) → exec (.cbNvmRetry t ok) s = .next z) ∧
      (∀ i rest, writes → s.cb.nvmFault = true → s.cb.queue = i :: rest → s.cb.gap = none → ∃ u : State,
        exec (.cbNvmRetry t true) s = .next u ∧ u.cb.nvmFault = false ∧ stored i u)) ∧
    (∀ text, gate src Reg.cbNote false z = stDone →
      let bytes := text.map (· % 256)
      (64 < text.length → exec (.cbNote t src text) s = .next (replied stTooLong z)) ∧
      (text.length ≤ 64 → utf8Ok bytes = false → exec (.cbNote t src text) s = .next (replied stValue z)) ∧
      (text.length ≤ 64 → utf8Ok bytes = true → exec (.cbNote t src text) s =
        .next (replied stDone (cbQueue ⟨0x0C, bytes, now, false, false⟩ z)))) ∧
    (gate src Reg.cbStatsClear false z = stDone →
      exec (.cbStatsClear t src) s = .next (replied stDone (z.clear [Reg.cbDamaged, Reg.cbWriteWorst]))) ∧
    (let due := s.cb.digestTick + s.reg Reg.cbDigestInterval * sec ≤ now
      let a : State := { z with cb := { s.cb with digestTick := now } };
      (¬ due → exec (.cbDigestTick t) s = .next z) ∧
      (due → s.cb.lastDigest = some s.rtDigest → exec (.cbDigestTick t) s = .next a) ∧
      (due → s.cb.lastDigest ≠ some s.rtDigest →
        let one (r : Nat) : List Nat := leBytes 2 r ++ [rClass (s.route r).image, rtCode (s.route r).mode * 16 + (s.route r).reason] ++
          leBytes 4 (rLabel (s.route r).image) ++ leBytes 2 (s.route r).gen
        exec (.cbDigestTick t) s = .next (cbQueue
          ⟨4, leBytes 4 s.rtDigest ++ leBytes 2 s.rtActive ++ s.routeKeys.flatMap one, now, false, false⟩
          { z with cb := { s.cb with digestTick := now, lastDigest := some s.rtDigest } }))) ∧
    (∀ who,
      let v := s.reg Reg.cbReadSel
      let all := cbSelected s
      let got := cbTake (if csCount v = 0 then all.length else csCount v) 262144 all
      let next := match got.2 with
        | x :: _ => x.2.2
        | [] => match got.1.getLast? with
          | some x => x.2.2 + 1
          | none => csStart v
      let one (x : CbRec × Bool × Nat) : List Nat :=
        leBytes 4 (pack [(2, cbSign s x.1 x.2.1 false), (1, 0), (1, ofBool x.2.1), (8, 0), (20, cbExtent x.1.item)]) ++
          cbBytes x.1 x.2.1
      exec (.cbRead t who []) s =
        .next ((z.setReg Reg.cbReadNext (next % 2 ^ 32)).emit (.bytes who (got.1.flatMap one)))) ∧
    (∀ who damaged, ∃ u : State, exec (.cbRead t who damaged) s = .next u ∧ u.nvm = s.nvm ∧
      ∀ x ∈ (cbTake (if csCount (s.reg Reg.cbReadSel) = 0 then (cbSelected s).length else csCount (s.reg Reg.cbReadSel))
        262144 (cbSelected s)).1, damaged.contains x.1.seq = true → bit u.evt.status Ev.cbRecordDamaged = true)

/-- Firmware, the bus matrix, assets and the service window (R269, R271, R592 to R594, R597 to R603, R605). An image is taken
into the idle bank or refused with its code; a trial restarts the processor into it, and a confirmation keeps it, while a
revert, a restart or FW_CONFIRM_TIME ends it. A hung master is counted, reported and reset. A stored asset is replaced, a
protected one is not deleted. The service window opens in SERVICE alone, and its first access is reported. -/
def Obligations.FirmwareAssetsAndBus : Prop :=
  ∀ (t : Nat) (src : Src) (s : State),
    let now := max s.dt t
    let z := s.begin t
    let replied (status : Nat) (a : State) : State := a.emit (.status src.who status)
    let idle := 1 - s.reg Reg.fwActiveBank % 2
    let reverted (u : State) : Prop := u.sup.trial = none ∧ bit u.evt.status Ev.fwReverted = true
    (∀ d ok, gate src Reg.fwImage false z = stDone →
      let code := fwCode z d ok
      let noted := z.setReg Reg.fwUpdateResult code
      (code = 0 → ∃ u : State, exec (.fwImageWrite t src d ok) s = .next (replied stDone u) ∧ Raises [Ev.fwUpdateVerified]
        ((noted.setBank idle ⟨1, fiRelease d, fiMinRelease d, fiBuild d, crc32c d⟩).setReg Reg.fwUpdateState 2) u) ∧
      (code = 5 → ∃ u : State, exec (.fwImageWrite t src d ok) s = .next (replied stBusy u) ∧
        Raises [Ev.fwUpdateRefused] noted u) ∧
      (code ≠ 0 → code ≠ 5 → ∃ u : State, exec (.fwImageWrite t src d ok) s =
          .next (replied (if code = 4 then stNvm else stValue) u) ∧ Raises [Ev.fwUpdateRefused]
        ((noted.setBank idle { s.bank idle with state := 2 }).setReg Reg.fwUpdateState 0) u)) ∧
    (gate src Reg.fwActivate false z = stDone →
      (s.sup.inservice.isSome = true → exec (.fwTrial t src) s = .next (replied stBusy z)) ∧
      (s.sup.inservice = none → (s.bank idle).state ≠ 1 → exec (.fwTrial t src) s = .next (replied stValue z)) ∧
      (s.sup.inservice = none → (s.bank idle).state = 1 → ∃ u : State,
        exec (.fwTrial t src) s = .next (replied stDone (u.setReg Reg.fwActiveBank idle)) ∧
        u.sup.trial = some (idle, now) ∧ u.sup.inservice = some firmwareChange ∧ u.dap.save = none ∧
        u.dap.kept = [] ∧ u.dap.waiting = [] ∧ bit u.evt.status Ev.fwActivated = true) ∧
      (s.sup.trial = none → exec (.fwConfirm t src) s = .next (replied stValue z) ∧
        exec (.fwRevert t src) s = .next (replied stValue z)) ∧
      (∀ b x, s.sup.trial = some (b, x) →
        (∃ u : State, exec (.fwConfirm t src) s = .next (replied stDone u) ∧ u.sup.trial = none ∧ u.nvm.startBank = b) ∧
        (s.sup.inservice = some firmwareChange → s.sup.waiting = [] → exec (.fwConfirm t src) s = .next (replied stDone
          (({ z with
            sup := { s.sup with trial := none, inservice := none }
            nvm := { s.nvm with startBank := b } } : State).setReg Reg.fwMinRelease
              (max (s.reg Reg.fwMinRelease) (s.bank b).minRelease) |>.setReg Reg.fwUpdateState 4))) ∧
        (∃ u : State, exec (.fwRevert t src) s = .next (replied stDone u) ∧ reverted u))) ∧
    (let due := ∃ b x, s.sup.trial = some (b, x) ∧ x + s.reg Reg.fwConfirmTime * sec ≤ now;
      (¬ due → exec (.fwConfirmTimeout t) s = .next z) ∧
      (due → ∃ u : State, exec (.fwConfirmTimeout t) s = .next u ∧ reverted u)) ∧
    (∀ h : Hang,
      let m := s.busMaster h.master
      let hung : State :=
        let a := z.setBusMaster h.master { m with hangs := min 0xFFFF (m.hangs + 1) };
        ({ a with sup := { a.sup with lastHang := h } } : State).count Reg.busHangCount 1
      (6 ≤ h.master → exec (.busWatchdogExpiry t h) s = .next z) ∧
      (h.master < 6 → ∃ u : State, Raises [Ev.busWatchdog h.master] hung u ∧
        (h.master = 0 → exec (.busWatchdogExpiry t h) s = .next (procRestart u)) ∧
        (h.master = 1 → exec (.busWatchdogExpiry t h) s = .next u) ∧
        (h.master = 2 → exec (.busWatchdogExpiry t h) s = .next (u.setReg Reg.assetResult 5)) ∧
        (h.master = 3 → ∃ v : State, exec (.busWatchdogExpiry t h) s = .next v ∧ v.cb.queue = u.cb.queue ∧
          v.nvm.cb.nextSeq = s.nvm.cb.nextSeq) ∧
        (h.master = 4 → exec (.busWatchdogExpiry t h) s = .next (u.setReg Reg.svcWindowState 2)) ∧
        (h.master = 5 →
          let n := Config.descriptorOutput h.address % 64;
          exec (.busWatchdogExpiry t h) s =
            .next { u with sup := { u.sup with keepRecords := n :: s.sup.keepRecords.erase n } }))) ∧
    (gate src Reg.busStatsClear false z = stDone → exec (.busStatsClear t src) s = .next (replied stDone
      { z.clear [Reg.busHangCount, Reg.qsForcedCount] with sup := { s.sup with bus := [] } })) ∧
    (∀ d ok, gate src Reg.assetWrite false z = stDone →
      let code := assetCode z d ok
      let noted := z.setReg Reg.assetResult code
      let id := leNat (d.take 2)
      let a : Asset := ⟨leNat ((d.drop 2).take 2), leNat ((d.drop 4).take 2), nth d 6 0, d.drop 16, leNat ((d.drop 12).take 4)⟩
      (code = 0 → ∃ u : State, exec (.assetWrite t src d ok) s = .next (replied stDone (recheck u)) ∧ Raises [Ev.assetStored]
        { noted with
          nvm := { s.nvm with assets := oset s.nvm.assets id (some a) }
          comp := { s.comp with missing := s.comp.missing.erase id } } u) ∧
      (code = 5 → exec (.assetWrite t src d ok) s = .next (replied stNvm noted)) ∧
      (code ≠ 0 → code ≠ 5 → ∃ u : State, exec (.assetWrite t src d ok) s = .next (replied stValue u) ∧
        Raises [Ev.assetRefused] noted u)) ∧
    (∀ id, gate src Reg.assetDelete false z = stDone →
      let n := id % 2 ^ 16
      let kept := fld (s.reg Reg.unvAsset) 15 0 = n ∨ ∃ r ∈ s.safeRecords, recordNames n r = true
      (kept → ∃ u : State, exec (.assetDelete t src id) s = .next (replied stValue u) ∧
        Raises [Ev.assetRefused] (z.setReg Reg.assetResult 4) u) ∧
      (¬ kept → oget s.nvm.assets n = none → exec (.assetDelete t src id) s = .next (replied stValue z)) ∧
      (¬ kept → (oget s.nvm.assets n).isSome = true → exec (.assetDelete t src id) s =
        .next (replied stDone (recheck { z with nvm := { s.nvm with assets := oset s.nvm.assets n none } })))) ∧
    (∀ data : Option (List Nat),
      let v := s.reg Reg.svcWindowSel
      let length := fld v 63 32
      let closed := s.nvm.lc ≠ 3 ∨ src.auth = false
      let forbidden := length = 0 ∨ Config.windowForbids (fld v 127 64) length data.isSome = true
      let shown := z.setReg Reg.svcWindowState 1
      let opened (u : State) : Prop := (s.sup.windowOpened = true → u = shown) ∧
        (s.sup.windowOpened = false → Raises [Ev.serviceWindowOpen]
          { shown with sup := { s.sup with windowOpened := true } } u)
      (closed → exec (.svcWindowAccess t src data) s = .next (replied stNotNow z)) ∧
      (¬ closed → forbidden → exec (.svcWindowAccess t src data) s = .next (replied stValue z)) ∧
      (¬ closed → ¬ forbidden →
        (∀ d, data = some d → gate src Reg.svcWindowData false z = stDone →
          (d.length ≠ length → exec (.svcWindowAccess t src data) s = .next (replied stLength z)) ∧
          (d.length = length → ∃ u : State, exec (.svcWindowAccess t src data) s = .next (replied stDone u) ∧ opened u)) ∧
        (data = none → ∃ u bytes, opened u ∧ bytes.length = length ∧ exec (.svcWindowAccess t src data) s =
          .next (({ u with free := s.free + length } : State).emit (.bytes src.who bytes)))))
end

