-- ==== Sys2Proof/Laws/Tables.lean ====
section
/-! SUPPORT. Laws of the tables of the state: a read after a write, and the canonical form. -/

namespace Sys2Proof.Machine

theorem tsorted_mono {α : Type} {lo lo' : Nat} (m : Tbl α) (h : tsorted lo m = true) (hl : lo' ≤ lo) :
    tsorted lo' m = true := by
  cases m with
  | nil => rfl
  | cons p r =>
    simp only [tsorted, Bool.and_eq_true, decide_eq_true_eq] at *
    exact ⟨Nat.le_trans hl h.1, h.2⟩

/-- A key below every listed key has its default. -/
theorem tget_below {α : Type} (d : Nat → α) {lo : Nat} (m : Tbl α) (k : Nat) (h : tsorted lo m = true) (hk : k < lo) :
    tget d m k = d k := by
  induction m generalizing lo with
  | nil => rfl
  | cons p r ih =>
    simp only [tsorted, Bool.and_eq_true, decide_eq_true_eq] at h
    rw [tget, if_neg (by omega)]
    exact ih h.2 (by omega)

/-- A read after a write to the same key gives the value written. -/
theorem tget_tset_same {α : Type} [DecidableEq α] (d : Nat → α) {lo : Nat} (m : Tbl α) (k : Nat) (v : α)
    (h : tsorted lo m = true) : tget d (tset d m k v) k = v := by
  induction m generalizing lo with
  | nil =>
    rw [tset]
    split
    · simp_all [tget]
    · simp [tget]
  | cons p r ih =>
    obtain ⟨j, w⟩ := p
    simp only [tsorted, Bool.and_eq_true, decide_eq_true_eq] at h
    rw [tset]
    split
    · split
      · rw [tget, if_neg (by omega), tget_below d r k h.2 (by omega)]; simp_all
      · simp [tget]
    · split
      · split
        · subst_vars; rw [tget_below d r j h.2 (by omega)]
        · simp [tget]
      · rw [tget, if_neg (by omega)]; exact ih h.2

/-- A write to one key leaves every other alone. -/
theorem tget_tset_ne {α : Type} [DecidableEq α] (d : Nat → α) {lo : Nat} (m : Tbl α) (k j : Nat) (v : α)
    (h : tsorted lo m = true) (hj : j ≠ k) : tget d (tset d m k v) j = tget d m j := by
  induction m generalizing lo with
  | nil =>
    rw [tset]
    split
    · rfl
    · simp [tget, Ne.symm hj]
  | cons p r ih =>
    obtain ⟨i, w⟩ := p
    simp only [tsorted, Bool.and_eq_true, decide_eq_true_eq] at h
    rw [tset]
    split
    · split
      · rfl
      · rw [tget, if_neg (fun e => hj e.symm)]
    · split
      · rename_i he
        subst he
        split
        · rw [tget, if_neg (fun e => hj e.symm)]
        · rw [tget, if_neg (fun e => hj e.symm), tget, if_neg (fun e => hj e.symm)]
      · simp only [tget]
        rw [ih h.2]

/-- A write keeps the order of the keys. -/
theorem tsorted_tset {α : Type} [DecidableEq α] (d : Nat → α) {lo : Nat} (m : Tbl α) (k : Nat) (v : α)
    (h : tsorted lo m = true) (hk : lo ≤ k) : tsorted lo (tset d m k v) = true := by
  induction m generalizing lo with
  | nil =>
    rw [tset]
    split <;> simp [tsorted, hk]
  | cons p r ih =>
    obtain ⟨i, w⟩ := p
    have h' := h
    simp only [tsorted, Bool.and_eq_true, decide_eq_true_eq] at h
    rw [tset]
    split
    · split
      · exact h'
      · simp only [tsorted, Bool.and_eq_true, decide_eq_true_eq]
        exact ⟨hk, by omega, h.2⟩
    · split
      · split
        · exact tsorted_mono r h.2 (by omega)
        · simp only [tsorted, Bool.and_eq_true, decide_eq_true_eq]
          subst_vars
          exact ⟨h.1, h.2⟩
      · simp only [tsorted, Bool.and_eq_true, decide_eq_true_eq]
        exact ⟨h.1, ih h.2 (by omega)⟩

/-- A write lists no value at its default. -/
theorem undefaulted_tset {α : Type} [DecidableEq α] (d : Nat → α) (m : Tbl α) (k : Nat) (v : α)
    (h : m.all (fun p => decide (p.2 ≠ d p.1)) = true) :
    (tset d m k v).all (fun p => decide (p.2 ≠ d p.1)) = true := by
  induction m with
  | nil =>
    rw [tset]
    split <;> simp_all
  | cons p r ih =>
    obtain ⟨i, w⟩ := p
    simp only [List.all_cons, Bool.and_eq_true] at h
    rw [tset]
    split
    · split <;> simp_all
    · split
      · split <;> simp_all
      · simp only [List.all_cons, Bool.and_eq_true]
        exact ⟨h.1, ih h.2⟩

/-- A write keeps the canonical form. -/
theorem twf_tset {α : Type} [DecidableEq α] (d : Nat → α) (m : Tbl α) (k : Nat) (v : α) (h : twf d m = true) :
    twf d (tset d m k v) = true := by
  simp only [twf, Bool.and_eq_true] at *
  exact ⟨tsorted_tset d m k v h.1 (Nat.zero_le _), undefaulted_tset d m k v h.2⟩

theorem tsorted_filter {α : Type} {lo : Nat} (m : Tbl α) (p : Nat × α → Bool) (h : tsorted lo m = true) :
    tsorted lo (m.filter p) = true := by
  induction m generalizing lo with
  | nil => rfl
  | cons x r ih =>
    simp only [tsorted, Bool.and_eq_true, decide_eq_true_eq] at h
    rw [List.filter_cons]
    split
    · simp only [tsorted, Bool.and_eq_true, decide_eq_true_eq]
      exact ⟨h.1, ih h.2⟩
    · exact tsorted_mono _ (ih h.2) (by omega)

/-- Entries taken away keep the canonical form. -/
theorem twf_filter {α : Type} [DecidableEq α] (d : Nat → α) (m : Tbl α) (p : Nat × α → Bool) (h : twf d m = true) :
    twf d (m.filter p) = true := by
  simp only [twf, Bool.and_eq_true] at *
  refine ⟨tsorted_filter m p h.1, ?_⟩
  simp only [List.all_eq_true] at *
  exact fun x hx => h.2 x (List.mem_filter.mp hx).1

/-- Canonical tables that read the same at every key are the same data. -/
theorem twf_ext {α : Type} [DecidableEq α] (d : Nat → α) (m n : Tbl α) (hm : twf d m = true) (hn : twf d n = true)
    (h : ∀ k, tget d m k = tget d n k) : m = n := by
  simp only [twf, Bool.and_eq_true] at hm hn
  obtain ⟨hm, am⟩ := hm
  obtain ⟨hn, an⟩ := hn
  generalize 0 = lo at hm hn
  induction m generalizing n lo with
  | nil =>
    cases n with
    | nil => rfl
    | cons q n =>
      obtain ⟨j, w⟩ := q
      simp only [List.all_cons, Bool.and_eq_true, decide_eq_true_eq] at an
      exact absurd (by simpa [tget] using (h j).symm) an.1
  | cons p m ih =>
    obtain ⟨i, v⟩ := p
    simp only [List.all_cons, Bool.and_eq_true, decide_eq_true_eq] at am
    simp only [tsorted, Bool.and_eq_true, decide_eq_true_eq] at hm
    cases n with
    | nil => exact absurd (by simpa [tget] using h i) am.1
    | cons q n =>
      obtain ⟨j, w⟩ := q
      simp only [List.all_cons, Bool.and_eq_true, decide_eq_true_eq] at an
      simp only [tsorted, Bool.and_eq_true, decide_eq_true_eq] at hn
      have hij : i = j := by
        rcases Nat.lt_trichotomy i j with hl | he | hl
        · have := h i
          rw [tget, if_pos rfl, tget, if_neg (by omega), tget_below d n i hn.2 (by omega)] at this
          exact absurd this am.1
        · exact he
        · have := h j
          rw [tget, if_neg (by omega), tget_below d m j hm.2 (by omega), tget, if_pos rfl] at this
          exact absurd this.symm an.1
      subst hij
      have hv : v = w := by simpa [tget] using h i
      subst hv
      congr 1
      refine ih n ?_ am.2 an.2 (i + 1) hm.2 hn.2
      intro k
      by_cases hk : i = k
      · subst hk
        rw [tget_below d m i hm.2 (by omega), tget_below d n i hn.2 (by omega)]
      · have := h k
        rwa [tget, if_neg hk, tget, if_neg hk] at this

end Sys2Proof.Machine
end

