-- ==== Sys2Proof/Laws/Keep.lean ====
section
/-! SUPPORT. What every operation of the machine keeps, whatever else it does: one relation between the state before and the
state after, and how it goes through the shapes that the operations are built of. Each file Laws/Keep*.lean has one lemma
for each operation of the files of the machine that it names. -/

namespace Sys2Proof.Laws

open Machine

/-- What of the event block the pins depend on (R488). -/
abbrev pinsOf (e : EvtState) : Nat × Nat × Nat × Bool × Bool × Bool :=
  (e.status, e.enable, e.safeBits, e.evtN, e.safeN, e.startHold)

/-- The fields that Keep speaks of. -/
abbrev kept (s : State) : List Instr × List Host.Cell × (Nat × Nat × Nat × Nat × Nat) × (Nat × Nat × Nat × Bool × Bool × Bool) × Nat × Nat :=
  (s.pending, s.fs.mem, (s.nvm.lc, s.nvm.boot, s.nvm.keys.counter, s.nvm.cb.nextSeq, s.nvm.cb.keyEpoch), pinsOf s.evt, s.dt, s.free)

/-- b comes after a: the queue is as it was; the memory keeps its canonical form; the life-cycle state goes forward and stays
one of the five; the boot count, the key-update counter, the casebook's next sequence number and key epoch, and the number
of free values drawn do not fall; the pins stay as R488 derives them; device time does not fall, unless p (power-on). -/
structure Keep (p : Prop) (a b : State) : Prop where
  pending : b.pending = a.pending
  mem : Memory.wf a.fs.mem = true → Memory.wf b.fs.mem = true
  rank : lcRank a.nvm.lc ≤ lcRank b.nvm.lc
  life : a.nvm.lc ≤ 4 → b.nvm.lc ≤ 4
  boot : a.nvm.boot ≤ b.nvm.boot
  counter : a.nvm.keys.counter ≤ b.nvm.keys.counter
  seq : a.nvm.cb.nextSeq ≤ b.nvm.cb.nextSeq
  epoch : a.nvm.cb.keyEpoch ≤ b.nvm.cb.keyEpoch
  pins : PinsOk a.evt → PinsOk b.evt
  dt : p ∨ a.dt ≤ b.dt
  free : a.free ≤ b.free

variable {p : Prop} {a b c : State}

theorem Keep.refl (p : Prop) (a : State) : Keep p a a :=
  ⟨rfl, id, Nat.le_refl _, id, Nat.le_refl _, Nat.le_refl _, Nat.le_refl _, Nat.le_refl _, id, .inr (Nat.le_refl _), Nat.le_refl _⟩

theorem PinsOk.of_eq {e f : EvtState} (h : pinsOf f = pinsOf e) (k : PinsOk e) : PinsOk f := by
  simp only [pinsOf, Prod.mk.injEq] at h
  obtain ⟨h1, h2, h3, h4, h5, h6⟩ := h
  obtain ⟨k1, k2, k3, k4⟩ := k
  exact ⟨by rw [h4, h1, h2]; exact k1, by rw [h6, h5]; exact k2, by rw [h3, h5]; exact k3, by rw [h3, h1]; exact k4⟩

/-- A state with the same kept fields. -/
theorem Keep.same (e : kept c = kept b) (h : Keep p a b) : Keep p a c := by
  simp only [kept, Prod.mk.injEq] at e
  obtain ⟨e1, e2, ⟨e3, e4, e5, e6, e7⟩, e8, e9, e10⟩ := e
  exact ⟨e1.trans h.pending, by rw [e2]; exact h.mem, by rw [e3]; exact h.rank, by rw [e3]; exact h.life,
    by rw [e4]; exact h.boot, by rw [e5]; exact h.counter, by rw [e6]; exact h.seq, by rw [e7]; exact h.epoch,
    fun k => PinsOk.of_eq (by simp only [pinsOf, Prod.mk.injEq]; exact e8) (h.pins k), by rw [e9]; exact h.dt, by rw [e10]; exact h.free⟩

theorem Keep.like (h : Keep p a b) (e : kept c = kept b) : Keep p a c := .same e h

theorem Keep.trans (h : Keep p a b) (k : Keep p b c) : Keep p a c :=
  ⟨k.pending.trans h.pending, k.mem ∘ h.mem, Nat.le_trans h.rank k.rank, k.life ∘ h.life, Nat.le_trans h.boot k.boot,
    Nat.le_trans h.counter k.counter, Nat.le_trans h.seq k.seq, Nat.le_trans h.epoch k.epoch, k.pins ∘ h.pins,
    h.dt.elim .inl fun x => k.dt.imp id (Nat.le_trans x), Nat.le_trans h.free k.free⟩

theorem Keep.ite {q : Prop} [Decidable q] (h : Keep p a b) (k : Keep p a c) : Keep p a (if q then b else c) := by
  split <;> assumption

theorem Keep.iteFst {α : Type} {q : Prop} [Decidable q] {x y : State × α} (h : Keep p a x.1) (k : Keep p a y.1) :
    Keep p a (if q then x else y).1 := by
  split <;> assumption

theorem Keep.iteSnd {α : Type} {q : Prop} [Decidable q] {x y : α × State} (h : Keep p a x.2) (k : Keep p a y.2) :
    Keep p a (if q then x else y).2 := by
  split <;> assumption

theorem Keep.iteThird {α β : Type} {q : Prop} [Decidable q] {x y : α × β × State} (h : Keep p a x.2.2) (k : Keep p a y.2.2) :
    Keep p a (if q then x else y).2.2 := by
  split <;> assumption

/-- A thing done for each number of a list. -/
theorem Keep.each {α : Type} {l : List α} {f : State → α → State} (k : ∀ (s : State) (x : α), Keep p a s → Keep p a (f s x))
    (h : Keep p a b) : Keep p a (b.each l f) := by
  unfold State.each
  induction l generalizing b with
  | nil => exact h
  | cons x r ih => exact ih (k b x h)

theorem Keep.foldl {α : Type} {l : List α} {f : State → α → State} (k : ∀ (s : State) (x : α), Keep p a s → Keep p a (f s x))
    (h : Keep p a b) : Keep p a (l.foldl f b) := Keep.each k h

/-- A fold that carries a state first. -/
theorem Keep.foldlFst {α β : Type} {l : List α} {f : State × β → α → State × β} {x : State × β}
    (k : ∀ (s : State × β) (y : α), Keep p a s.1 → Keep p a (f s y).1) (h : Keep p a x.1) : Keep p a (l.foldl f x).1 := by
  induction l generalizing x with
  | nil => exact h
  | cons y r ih => exact ih (k x y h)

/-- A fold that carries a state second. -/
theorem Keep.foldlSnd {α β : Type} {l : List α} {f : β × State → α → β × State} {x : β × State}
    (k : ∀ (s : β × State) (y : α), Keep p a s.2 → Keep p a (f s y).2) (h : Keep p a x.2) : Keep p a (l.foldl f x).2 := by
  induction l generalizing x with
  | nil => exact h
  | cons y r ih => exact ih (k x y h)

theorem Keep.whenever {q : Bool} {f : State → State} (k : ∀ s : State, Keep p a s → Keep p a (f s)) (h : Keep p a b) :
    Keep p a (b.whenever q f) := by
  unfold State.whenever
  split
  · exact k b h
  · exact h

/-- A command comes about at t. -/
theorem Keep.begin (t : Nat) (h : Keep p a b) : Keep p a (b.begin t) :=
  h.trans ⟨rfl, id, Nat.le_refl _, id, Nat.le_refl _, Nat.le_refl _, Nat.le_refl _, Nat.le_refl _, id,
    .inr (Nat.le_max_left _ _), Nat.le_refl _⟩

theorem Keep.draw (h : Keep p a b) : Keep p a b.draw.2 :=
  h.trans ⟨rfl, id, Nat.le_refl _, id, Nat.le_refl _, Nat.le_refl _, Nat.le_refl _, Nat.le_refl _, id,
    .inr (Nat.le_refl _), Nat.le_succ _⟩

theorem Keep.drawBytes (n : Nat) (h : Keep p a b) : Keep p a (b.drawBytes n).2 :=
  h.trans ⟨rfl, id, Nat.le_refl _, id, Nat.le_refl _, Nat.le_refl _, Nat.le_refl _, Nat.le_refl _, id,
    .inr (Nat.le_refl _), Nat.le_add_right _ _⟩

/-- The memory of the store alone changes, and keeps its form. -/
theorem Keep.withMem {m : List Host.Cell} (w : Memory.wf b.fs.mem = true → Memory.wf m = true) (h : Keep p a b) :
    Keep p a { b with fs := { b.fs with mem := m } } :=
  h.trans ⟨rfl, w, Nat.le_refl _, id, Nat.le_refl _, Nat.le_refl _, Nat.le_refl _, Nat.le_refl _, id,
    .inr (Nat.le_refl _), Nat.le_refl _⟩

/-- The memory of the store loses everything. -/
theorem Keep.emptied (e : kept c = kept { b with fs := { b.fs with mem := [] } }) (h : Keep p a b) : Keep p a c :=
  .same e (h.withMem fun _ => rfl)

/-- The casebook's store alone changes: its next sequence number and key epoch do not fall. -/
theorem Keep.withCb {x : CbStore} (q : b.nvm.cb.nextSeq ≤ x.nextSeq) (e : b.nvm.cb.keyEpoch ≤ x.keyEpoch) (h : Keep p a b) :
    Keep p a { b with nvm := { b.nvm with cb := x } } :=
  h.trans ⟨rfl, id, Nat.le_refl _, id, Nat.le_refl _, Nat.le_refl _, q, e, id, .inr (Nat.le_refl _), Nat.le_refl _⟩

/-- The NVM alone changes. -/
theorem Keep.withNvm {n : Nvm} (r : lcRank b.nvm.lc ≤ lcRank n.lc) (l : b.nvm.lc ≤ 4 → n.lc ≤ 4) (o : b.nvm.boot ≤ n.boot)
    (k : b.nvm.keys.counter ≤ n.keys.counter) (q : b.nvm.cb.nextSeq ≤ n.cb.nextSeq) (e : b.nvm.cb.keyEpoch ≤ n.cb.keyEpoch)
    (h : Keep p a b) : Keep p a { b with nvm := n } :=
  h.trans ⟨rfl, id, r, l, o, k, q, e, id, .inr (Nat.le_refl _), Nat.le_refl _⟩

/-- A later device time is taken. -/
theorem Keep.withDt {t : Time} (l : a.dt ≤ t) (h : Keep True a b) : Keep p a { b with dt := t } :=
  ⟨h.pending, h.mem, h.rank, h.life, h.boot, h.counter, h.seq, h.epoch, h.pins, .inr l, h.free⟩

theorem Keep.weaken (h : Keep p a b) : Keep True a b :=
  ⟨h.pending, h.mem, h.rank, h.life, h.boot, h.counter, h.seq, h.epoch, h.pins, .inl trivial, h.free⟩

theorem Keep.free_of (hp : p) (h : Keep True a b) : Keep p a b :=
  ⟨h.pending, h.mem, h.rank, h.life, h.boot, h.counter, h.seq, h.epoch, h.pins, .inl hp, h.free⟩

/-- What Keep says of the kept fields alone. -/
def KeptAs (p : Prop) (a : State)
    (k : List Instr × List Host.Cell × (Nat × Nat × Nat × Nat × Nat) × (Nat × Nat × Nat × Bool × Bool × Bool) × Nat × Nat) : Prop :=
  ∀ c, kept c = k → Keep p a c

/-- A state written out field by field: its kept fields are asked. -/
theorem Keep.lit {dt : Time} {out : List Output} {free : Nat} {regs : Tbl Nat} {inForce : Tbl Nat} {evt : EvtState}
    {cb : CbState} {sup : SupState} {dap : DapState} {aud : AudState} {phy : Tbl PhyLane} {lnk : Tbl LinkLane}
    {eps : EpState} {str : StrState} {fab : FabState} {conv : ConvState} {cmp : Tbl CmpEngine} {comp : CompState}
    {fs : FsState} {clk : ClkState} {sec : SecState} {start : StartState} {pwr : PwrState} {nvm : Nvm}
    {pending : List Instr} :
    Keep p a (State.mk dt out free regs inForce evt cb sup dap aud phy lnk eps str fab conv cmp comp fs clk sec start pwr nvm pending) ↔
      KeptAs p a (pending, fs.mem, (nvm.lc, nvm.boot, nvm.keys.counter, nvm.cb.nextSeq, nvm.cb.keyEpoch), pinsOf evt, dt, free) :=
  ⟨fun h _ e => .same e h, fun h => h _ rfl⟩

/-- The kept fields of a state that comes after a. -/
theorem Keep.asked {k : List Instr × List Host.Cell × (Nat × Nat × Nat × Nat × Nat) × (Nat × Nat × Nat × Bool × Bool × Bool) × Nat × Nat}
    (e : k = kept b) (h : Keep p a b) : KeptAs p a k :=
  fun _ x => .same (x.trans e) h

end Sys2Proof.Laws
end

