-- ==== Sys2Proof/Laws/KeepCore.lean ====
section
/-! SUPPORT. What Keep says of the operations of the registers, events, chimes, paths and buffers: one lemma for each. -/

namespace Sys2Proof.Laws

open Machine

variable {p : Prop} {a b : State}

/-! Ops.lean. -/

theorem keep_setReg (x1 : Nat) (x2 : Nat) (h : Keep p a b) : Keep p a (State.setReg b x1 x2) := by
  unfold State.setReg
  repeat' first
    | (with_reducible first
        | assumption)
    | (simp only [Keep.lit]; with_reducible refine Keep.asked rfl ?_)

theorem keep_setForce (x1 : Nat) (x2 : Nat) (h : Keep p a b) : Keep p a (State.setForce b x1 x2) := by
  unfold State.setForce
  repeat' first
    | (with_reducible first
        | assumption)
    | (simp only [Keep.lit]; with_reducible refine Keep.asked rfl ?_)

theorem keep_apply (x1 : Nat) (h : Keep p a b) : Keep p a (State.apply b x1) := by
  unfold State.apply
  with_reducible repeat' first
    | assumption | apply keep_setForce

theorem keep_count (x1 : Nat) (x2 : Nat) (h : Keep p a b) : Keep p a (State.count b x1 x2) := by
  unfold State.count
  with_reducible repeat' first
    | assumption | apply keep_setReg

theorem keep_clear (x1 : List Nat) (h : Keep p a b) : Keep p a (State.clear b x1) := by
  unfold State.clear
  with_reducible repeat' first
    | assumption | apply keep_setReg | apply Keep.foldl | intro _ _ _

theorem keep_emit (x1 : Output) (h : Keep p a b) : Keep p a (State.emit b x1) := by
  unfold State.emit
  repeat' first
    | (with_reducible first
        | assumption)
    | (simp only [Keep.lit]; with_reducible refine Keep.asked rfl ?_)

theorem keep_setLane (x1 : Nat) (x2 : PhyLane) (h : Keep p a b) : Keep p a (State.setLane b x1 x2) := by
  unfold State.setLane
  repeat' first
    | (with_reducible first
        | assumption)
    | (simp only [Keep.lit]; with_reducible refine Keep.asked rfl ?_)

theorem keep_modLane (x1 : Nat) (x2 : PhyLane → PhyLane) (h : Keep p a b) : Keep p a (State.modLane b x1 x2) := by
  unfold State.modLane
  with_reducible repeat' first
    | assumption | apply keep_setLane

theorem keep_setLink (x1 : Nat) (x2 : LinkLane) (h : Keep p a b) : Keep p a (State.setLink b x1 x2) := by
  unfold State.setLink
  repeat' first
    | (with_reducible first
        | assumption)
    | (simp only [Keep.lit]; with_reducible refine Keep.asked rfl ?_)

theorem keep_modLink (x1 : Nat) (x2 : LinkLane → LinkLane) (h : Keep p a b) : Keep p a (State.modLink b x1 x2) := by
  unfold State.modLink
  with_reducible repeat' first
    | assumption | apply keep_setLink

theorem keep_modCounts (x1 : Nat) (x2 : LinkCounts → LinkCounts) (h : Keep p a b) : Keep p a (State.modCounts b x1 x2) := by
  unfold State.modCounts
  with_reducible repeat' first
    | assumption | apply keep_modLink

theorem keep_setEndpoint (x1 : Nat) (x2 : Option Endpoint) (h : Keep p a b) : Keep p a (State.setEndpoint b x1 x2) := by
  unfold State.setEndpoint
  extract_lets l1
  repeat' first
    | (with_reducible first
        | assumption)
    | (simp only [Keep.lit]; with_reducible refine Keep.asked rfl ?_)

theorem keep_setBuf (x1 : Nat) (x2 : Buffer) (h : Keep p a b) : Keep p a (State.setBuf b x1 x2) := by
  unfold State.setBuf
  extract_lets l1
  repeat' first
    | (with_reducible first
        | assumption)
    | (simp only [Keep.lit]; with_reducible refine Keep.asked rfl ?_)

theorem keep_modBuf (x1 : Nat) (x2 : Buffer → Buffer) (h : Keep p a b) : Keep p a (State.modBuf b x1 x2) := by
  unfold State.modBuf
  with_reducible repeat' first
    | assumption | apply keep_setBuf

theorem keep_setChan (x1 : Nat) (x2 : Chan) (h : Keep p a b) : Keep p a (State.setChan b x1 x2) := by
  unfold State.setChan
  extract_lets l1
  repeat' first
    | (with_reducible first
        | assumption)
    | (simp only [Keep.lit]; with_reducible refine Keep.asked rfl ?_)

theorem keep_modChan (x1 : Nat) (x2 : Chan → Chan) (h : Keep p a b) : Keep p a (State.modChan b x1 x2) := by
  unfold State.modChan
  with_reducible repeat' first
    | assumption | apply keep_setChan

theorem keep_setWin (x1 : Nat) (x2 : Window) (h : Keep p a b) : Keep p a (State.setWin b x1 x2) := by
  unfold State.setWin
  extract_lets l1
  repeat' first
    | (with_reducible first
        | assumption)
    | (simp only [Keep.lit]; with_reducible refine Keep.asked rfl ?_)

theorem keep_modWin (x1 : Nat) (x2 : Window → Window) (h : Keep p a b) : Keep p a (State.modWin b x1 x2) := by
  unfold State.modWin
  with_reducible repeat' first
    | assumption | apply keep_setWin

theorem keep_setChime (x1 : Nat) (x2 : Chime) (h : Keep p a b) : Keep p a (State.setChime b x1 x2) := by
  unfold State.setChime
  extract_lets l1
  repeat' first
    | (with_reducible first
        | assumption)
    | (simp only [Keep.lit]; with_reducible refine Keep.asked rfl ?_)

theorem keep_setAudOut (x1 : Nat) (x2 : AudOut) (h : Keep p a b) : Keep p a (State.setAudOut b x1 x2) := by
  unfold State.setAudOut
  extract_lets l1
  repeat' first
    | (with_reducible first
        | assumption)
    | (simp only [Keep.lit]; with_reducible refine Keep.asked rfl ?_)

theorem keep_modAudOut (x1 : Nat) (x2 : AudOut → AudOut) (h : Keep p a b) : Keep p a (State.modAudOut b x1 x2) := by
  unfold State.modAudOut
  with_reducible repeat' first
    | assumption | apply keep_setAudOut

theorem keep_setAudIn (x1 : Nat) (x2 : AudIn) (h : Keep p a b) : Keep p a (State.setAudIn b x1 x2) := by
  unfold State.setAudIn
  extract_lets l1
  repeat' first
    | (with_reducible first
        | assumption)
    | (simp only [Keep.lit]; with_reducible refine Keep.asked rfl ?_)

theorem keep_setTdm (x1 : Nat) (x2 : TdmPort) (h : Keep p a b) : Keep p a (State.setTdm b x1 x2) := by
  unfold State.setTdm
  extract_lets l1
  repeat' first
    | (with_reducible first
        | assumption)
    | (simp only [Keep.lit]; with_reducible refine Keep.asked rfl ?_)

theorem keep_setPath (x1 : Nat) (x2 : PathState) (h : Keep p a b) : Keep p a (State.setPath b x1 x2) := by
  unfold State.setPath
  extract_lets l1
  repeat' first
    | (with_reducible first
        | assumption)
    | (simp only [Keep.lit]; with_reducible refine Keep.asked rfl ?_)

theorem keep_modPath (x1 : Nat) (x2 : PathState → PathState) (h : Keep p a b) : Keep p a (State.modPath b x1 x2) := by
  unfold State.modPath
  with_reducible repeat' first
    | assumption | apply keep_setPath

theorem keep_setQueue (x1 : Nat) (x2 : NotifyQ) (h : Keep p a b) : Keep p a (State.setQueue b x1 x2) := by
  unfold State.setQueue
  extract_lets l1
  repeat' first
    | (with_reducible first
        | assumption)
    | (simp only [Keep.lit]; with_reducible refine Keep.asked rfl ?_)

theorem keep_setCan (x1 : Nat) (x2 : CanPort) (h : Keep p a b) : Keep p a (State.setCan b x1 x2) := by
  unfold State.setCan
  extract_lets l1
  repeat' first
    | (with_reducible first
        | assumption)
    | (simp only [Keep.lit]; with_reducible refine Keep.asked rfl ?_)

theorem keep_setBusMaster (x1 : Nat) (x2 : BusMaster) (h : Keep p a b) : Keep p a (State.setBusMaster b x1 x2) := by
  unfold State.setBusMaster
  extract_lets l1
  repeat' first
    | (with_reducible first
        | assumption)
    | (simp only [Keep.lit]; with_reducible refine Keep.asked rfl ?_)

theorem keep_setIns (x1 : Nat) (x2 : InStream) (h : Keep p a b) : Keep p a (State.setIns b x1 x2) := by
  unfold State.setIns
  extract_lets l1
  repeat' first
    | (with_reducible first
        | assumption)
    | (simp only [Keep.lit]; with_reducible refine Keep.asked rfl ?_)

theorem keep_modIns (x1 : Nat) (x2 : InStream → InStream) (h : Keep p a b) : Keep p a (State.modIns b x1 x2) := by
  unfold State.modIns
  with_reducible repeat' first
    | assumption | apply keep_setIns

theorem keep_setRoute (x1 : Nat) (x2 : Route) (h : Keep p a b) : Keep p a (State.setRoute b x1 x2) := by
  unfold State.setRoute
  extract_lets l1
  repeat' first
    | (with_reducible first
        | assumption)
    | (simp only [Keep.lit]; with_reducible refine Keep.asked rfl ?_)

theorem keep_modRoute (x1 : Nat) (x2 : Route → Route) (h : Keep p a b) : Keep p a (State.modRoute b x1 x2) := by
  unfold State.modRoute
  with_reducible repeat' first
    | assumption | apply keep_setRoute

theorem keep_setPort (x1 : Nat) (x2 : Port) (h : Keep p a b) : Keep p a (State.setPort b x1 x2) := by
  unfold State.setPort
  extract_lets l1
  repeat' first
    | (with_reducible first
        | assumption)
    | (simp only [Keep.lit]; with_reducible refine Keep.asked rfl ?_)

theorem keep_modPort (x1 : Nat) (x2 : Port → Port) (h : Keep p a b) : Keep p a (State.modPort b x1 x2) := by
  unfold State.modPort
  with_reducible repeat' first
    | assumption | apply keep_setPort

theorem keep_setPhase (x1 : Nat) (x2 : Phase) (h : Keep p a b) : Keep p a (State.setPhase b x1 x2) := by
  unfold State.setPhase
  extract_lets l1
  repeat' first
    | (with_reducible first
        | assumption)
    | (simp only [Keep.lit]; with_reducible refine Keep.asked rfl ?_)

theorem keep_setUnit (x1 : Nat) (x2 : ConvUnit) (h : Keep p a b) : Keep p a (State.setUnit b x1 x2) := by
  unfold State.setUnit
  extract_lets l1
  repeat' first
    | (with_reducible first
        | assumption)
    | (simp only [Keep.lit]; with_reducible refine Keep.asked rfl ?_)

theorem keep_modUnit (x1 : Nat) (x2 : ConvUnit → ConvUnit) (h : Keep p a b) : Keep p a (State.modUnit b x1 x2) := by
  unfold State.modUnit
  with_reducible repeat' first
    | assumption | apply keep_setUnit

theorem keep_setConvCluster (x1 : Nat) (x2 : ConvCluster) (h : Keep p a b) : Keep p a (State.setConvCluster b x1 x2) := by
  unfold State.setConvCluster
  extract_lets l1
  repeat' first
    | (with_reducible first
        | assumption)
    | (simp only [Keep.lit]; with_reducible refine Keep.asked rfl ?_)

theorem keep_setSend (x1 : Nat) (x2 : OutSend) (h : Keep p a b) : Keep p a (State.setSend b x1 x2) := h.like rfl

theorem keep_setEngine (x1 : Nat) (x2 : CmpEngine) (h : Keep p a b) : Keep p a (State.setEngine b x1 x2) := by
  unfold State.setEngine
  repeat' first
    | (with_reducible first
        | assumption)
    | (simp only [Keep.lit]; with_reducible refine Keep.asked rfl ?_)

theorem keep_modEngine (x1 : Nat) (x2 : CmpEngine → CmpEngine) (h : Keep p a b) : Keep p a (State.modEngine b x1 x2) := by
  unfold State.modEngine
  with_reducible repeat' first
    | assumption | apply keep_setEngine

theorem keep_setOutp (x1 : Nat) (x2 : OutState) (h : Keep p a b) : Keep p a (State.setOutp b x1 x2) := by
  unfold State.setOutp
  extract_lets l1
  repeat' first
    | (with_reducible first
        | assumption)
    | (simp only [Keep.lit]; with_reducible refine Keep.asked rfl ?_)

theorem keep_modOutp (x1 : Nat) (x2 : OutState → OutState) (h : Keep p a b) : Keep p a (State.modOutp b x1 x2) := by
  unfold State.modOutp
  with_reducible repeat' first
    | assumption | apply keep_setOutp

theorem keep_setLayer (x1 : Nat) (x2 : Nat) (x3 : Layer) (h : Keep p a b) : Keep p a (State.setLayer b x1 x2 x3) := by
  unfold State.setLayer
  with_reducible repeat' first
    | assumption | apply keep_modOutp

theorem keep_setRegion (x1 : Nat) (x2 : Nat) (x3 : Region) (h : Keep p a b) : Keep p a (State.setRegion b x1 x2 x3) := by
  unfold State.setRegion
  with_reducible repeat' first
    | assumption | apply keep_modOutp

/-! Chimes.lean. -/

theorem keep_duckChannel (x1 : Nat) (h : Keep p a b) : Keep p a (duckChannel b x1) := by
  unfold duckChannel
  extract_lets l1 l2 l3 l4
  clear_value l1 l2 l3 l4
  with_reducible repeat' first
    | assumption | apply keep_setAudOut | apply Keep.ite

theorem keep_duckAll (x1 : Nat) (h : Keep p a b) : Keep p a (duckAll x1 b) := by
  unfold duckAll
  with_reducible repeat' first
    | assumption | apply Keep.each | apply keep_duckChannel

theorem keep_chimeBegin (x1 : Nat) (h : Keep p a b) : Keep p a (chimeBegin x1 b) := by
  unfold chimeBegin
  extract_lets l1
  clear_value l1
  with_reducible repeat' first
    | assumption | apply keep_setReg | apply keep_duckAll | apply keep_setChime | apply keep_count

theorem keep_chimeEnd (x1 : Nat) (h : Keep p a b) : Keep p a (chimeEnd x1 b) := by
  unfold chimeEnd
  extract_lets l1
  clear_value l1
  with_reducible repeat' first
    | assumption | apply keep_duckAll | apply keep_setChime

theorem keep_chimeStep (x1 : Nat) (h : Keep p a b) : Keep p a (chimeStep x1 b) := by
  unfold chimeStep
  extract_lets l1 l2
  clear_value l1 l2
  with_reducible repeat' first
    | assumption | apply keep_chimeEnd | apply keep_setChime | apply Keep.ite

/-! Events.lean. -/

/-- The pins are derived anew from events of which every bit latched under SAFE is a status bit. -/
theorem keep_pins {e : EvtState} (w : PinsOk b.evt → e.safeBits &&& e.status = e.safeBits) (h : Keep p a b) :
    Keep p a (updatePins { b with evt := e }) := by
  refine h.trans ⟨rfl, id, Nat.le_refl _, id, Nat.le_refl _, Nat.le_refl _, Nat.le_refl _, Nat.le_refl _, fun k => ?_,
    .inr (Nat.le_refl _), Nat.le_refl _⟩
  refine ⟨rfl, ?_, ?_, w k⟩
  · intro hs
    simp only [updatePins] at hs ⊢
    simp [hs]
  · intro hs
    simp only [updatePins] at hs ⊢
    simp [hs]

theorem keep_updatePins (h : Keep p a b) : Keep p a (updatePins b) :=
  keep_pins (e := b.evt) (fun k => k.latched) h

theorem setBit_both {e f : Nat} (k : e &&& f = e) (i : Nat) : setBit e i &&& setBit f i = setBit e i := by
  unfold setBit
  rw [← Nat.or_and_distrib_right, k]

theorem setBit_status {e f : Nat} (k : e &&& f = e) (i : Nat) : e &&& setBit f i = e := by
  unfold setBit
  rw [Nat.and_or_distrib_left, k]
  apply Nat.eq_of_testBit_eq
  intro j
  simp only [Nat.testBit_or, Nat.testBit_and, Bool.or_eq_left_iff_imp, Bool.and_eq_true]
  exact fun x => x.1

theorem clearMask_both {e f : Nat} (k : e &&& f = e) (m : Nat) : clearMask e m &&& clearMask f m = clearMask e m := by
  unfold clearMask
  apply Nat.eq_of_testBit_eq
  intro j
  have := congrArg (fun x => x.testBit j) k
  simp only [Nat.testBit_and] at this
  simp only [Nat.testBit_and, Nat.testBit_xor]
  revert this
  cases e.testBit j <;> cases f.testBit j <;> cases m.testBit j <;> simp

theorem keep_latchEvent (x1 : Nat) (x2 : Bool) (h : Keep p a b) : Keep p a (latchEvent x1 x2 b) := by
  unfold latchEvent
  refine keep_pins (fun k => ?_) h
  dsimp only
  split
  · exact setBit_both k.latched x1
  · exact setBit_status k.latched x1

theorem keep_notifyOne (x1 : NotifyRec) (x2 : Nat) (h : Keep p a b) : Keep p a (notifyOne x1 b x2) := by
  unfold notifyOne
  extract_lets l1 l2 l3
  clear_value l1 l2
  have h3 : Keep p a l3 := by
    unfold l3
    with_reducible repeat' first
      | assumption | apply keep_setQueue
  clear_value l3
  with_reducible repeat' first
    | assumption | apply keep_count | apply Keep.ite

theorem keep_notifyAll (x1 : Nat) (x2 : Nat) (x3 : Nat) (h : Keep p a b) : Keep p a (notifyAll x1 x2 x3 b) := by
  unfold notifyAll
  with_reducible repeat' first
    | assumption | apply keep_notifyOne | apply Keep.each | apply Keep.ite | intro _ _ _

theorem keep_raiseCore (x1 : Nat) (x2 : List Nat) (x3 : Bool) (h : Keep p a b) : Keep p a (raiseCore x1 x2 x3 b) := by
  unfold raiseCore
  extract_lets l1 l2
  clear_value l1 l2
  with_reducible repeat' first
    | assumption | apply keep_latchEvent | apply keep_notifyAll

theorem keep_cbLose (x1 : List CbItem) (h : Keep p a b) : Keep p a (cbLose x1 b) := by
  unfold cbLose
  extract_lets l1
  repeat' first
    | (with_reducible first
        | assumption | apply keep_raiseCore | apply keep_count)
    | (simp only [Keep.lit]; with_reducible refine Keep.asked rfl ?_) | split

theorem keep_cbQueue (x1 : CbItem) (h : Keep p a b) : Keep p a (cbQueue x1 b) := by
  unfold cbQueue
  extract_lets l1 l2
  clear_value l1
  repeat' first
    | (with_reducible first
        | assumption | apply keep_cbLose)
    | (simp only [Keep.lit]; with_reducible refine Keep.asked rfl ?_)

theorem keep_cbWrite (x1 : Nat) (x2 : List Nat) (h : Keep p a b) : Keep p a (cbWrite x1 x2 b) := by
  unfold cbWrite
  with_reducible repeat' first
    | assumption | apply keep_cbQueue

theorem keep_eventRecord (x1 : Nat) (x2 : Nat) (x3 : List Nat) (h : Keep p a b) : Keep p a (eventRecord x1 x2 x3 b) := by
  unfold eventRecord
  extract_lets l1 l2 l3
  clear_value l1 l2
  have h3 : ∀ (y0 : Limit) (s : State), Keep p a s → Keep p a (l3 y0 s) := by
    intro y0 s h
    unfold l3
    repeat' first
      | (with_reducible first
          | assumption)
      | (simp only [Keep.lit]; with_reducible refine Keep.asked rfl ?_)
  clear_value l3
  with_reducible repeat' first
    | assumption | apply h3 | apply keep_cbQueue | apply Keep.ite

theorem keep_recordRaise (x1 : Nat) (x2 : Nat) (x3 : List Nat) (x4 : Bool) (x5 : RecMode) (h : Keep p a b) : Keep p a (recordRaise x1 x2 x3 x4 x5 b) := by
  unfold recordRaise
  extract_lets l1
  clear_value l1
  repeat' first
    | (with_reducible first
        | assumption | apply keep_eventRecord | apply keep_cbQueue)
    | split

theorem keep_winTrigger (x1 : Nat) (h : Keep p a b) : Keep p a (winTrigger x1 b) := by
  unfold winTrigger
  extract_lets l1
  clear_value l1
  with_reducible repeat' first
    | assumption | apply keep_setWin | apply Keep.ite

theorem keep_winOnSafe (h : Keep p a b) : Keep p a (winOnSafe b) := by
  unfold winOnSafe
  with_reducible repeat' first
    | assumption | apply keep_winTrigger | apply Keep.each

theorem keep_raiseN (x1 : Nat) (x2 : Nat) (x3 : List Nat) (x4 : Bool) (x5 : RecMode) (h : Keep p a b) :
    Keep p a (raiseN x1 x2 x3 x4 x5 b) := by
  induction x1 generalizing b x2 x3 x4 x5 with
  | zero => exact h
  | succ n ih =>
    unfold raiseN
    exact .each (fun s g k => ih _ _ _ _ (keep_chimeBegin g k))
      (.ite (keep_winOnSafe (keep_recordRaise _ _ _ _ _ (keep_raiseCore _ _ _ h)))
        (keep_recordRaise _ _ _ _ _ (keep_raiseCore _ _ _ h)))

theorem keep_raise (x1 : Nat) (x2 : List Nat) (h : Keep p a b) : Keep p a (State.raise b x1 x2) := by
  unfold State.raise
  with_reducible repeat' first
    | assumption | apply keep_raiseN

theorem keep_raiseAs (x1 : Nat) (x2 : List Nat) (x3 : RecMode) (h : Keep p a b) : Keep p a (State.raiseAs b x1 x2 x3) := by
  unfold State.raiseAs
  with_reducible repeat' first
    | assumption | apply keep_raiseN

theorem keep_raiseLimited (x1 : Nat) (x2 : Nat) (x3 : List Nat) (h : Keep p a b) : Keep p a (State.raiseLimited b x1 x2 x3) := by
  unfold State.raiseLimited
  extract_lets l1 l2 l3
  clear_value l1 l2
  have h3 : ∀ (y0 : Limit) (s : State), Keep p a s → Keep p a (l3 y0 s) := by
    intro y0 s h
    unfold l3
    repeat' first
      | (with_reducible first
          | assumption)
      | (simp only [Keep.lit]; with_reducible refine Keep.asked rfl ?_)
  clear_value l3
  with_reducible repeat' first
    | assumption | apply h3 | apply keep_raise | apply Keep.ite

theorem keep_clearStatus (x1 : Nat) (h : Keep p a b) : Keep p a (clearStatus x1 b) := by
  unfold clearStatus
  exact keep_pins (fun k => clearMask_both k.latched x1) h

theorem keep_writeEnable (x1 x2 : Nat) (h : Keep p a b) : Keep p a (writeEnable x1 x2 b) := by
  unfold writeEnable
  exact keep_pins (fun k => k.latched) h

theorem keep_writeSeverity (x1 : Nat) (x2 : Nat) (h : Keep p a b) : Keep p a (writeSeverity x1 x2 b) := by
  unfold writeSeverity
  extract_lets l1
  repeat' first
    | (with_reducible first
        | assumption)
    | (simp only [Keep.lit]; with_reducible refine Keep.asked rfl ?_)

theorem keep_eventDefaults (h : Keep p a b) : Keep p a (eventDefaults b) := by
  unfold eventDefaults
  exact keep_pins (fun k => k.latched) h

/-! Paths.lean. -/

theorem keep_setBank (x1 : Nat) (x2 : FwBank) (h : Keep p a b) : Keep p a (State.setBank b x1 x2) := by
  unfold State.setBank
  extract_lets l1
  repeat' first
    | (with_reducible first
        | assumption)
    | (simp only [Keep.lit]; with_reducible refine Keep.asked rfl ?_)

theorem keep_endSession (x1 : Nat) (h : Keep p a b) : Keep p a (endSession x1 b) := by
  unfold endSession
  extract_lets l1
  repeat' first
    | (with_reducible first
        | assumption)
    | (simp only [Keep.lit]; with_reducible refine Keep.asked rfl ?_)

theorem keep_endSessions (x1 : Session → Bool) (h : Keep p a b) : Keep p a (endSessions x1 b) := by
  unfold endSessions
  extract_lets l1
  repeat' first
    | (with_reducible first
        | assumption)
    | (simp only [Keep.lit]; with_reducible refine Keep.asked rfl ?_)

theorem keep_endStaged (x1 : Nat) (h : Keep p a b) : Keep p a (endStaged x1 b) := by
  unfold endStaged
  extract_lets l1 l2 l3
  have h2 : Keep p a l2 := by
    unfold l2
    repeat' first
      | (with_reducible first
          | assumption)
      | (simp only [Keep.lit]; with_reducible refine Keep.asked rfl ?_)
  clear_value l3
  repeat' first
    | (with_reducible first
        | assumption | apply keep_setReg | apply keep_setBank)
    | split

theorem keep_releaseLock (h : Keep p a b) : Keep p a (releaseLock b) := by
  unfold releaseLock
  with_reducible repeat' first
    | assumption | apply keep_setReg

theorem keep_pathDown (x1 : Nat) (h : Keep p a b) : Keep p a (pathDown x1 b) := by
  unfold pathDown
  extract_lets l1 l2 l3 l4
  have h1 : Keep p a l1 := by
    unfold l1
    with_reducible repeat' first
      | assumption | apply keep_endSessions
  clear_value l1
  have h2 : Keep p a l2 := by
    unfold l2
    with_reducible repeat' first
      | assumption | apply Keep.each | apply keep_endStaged
  clear_value l2
  have h4 : Keep p a l4 := by
    unfold l4
    repeat' first
      | (with_reducible first
          | assumption)
      | (simp only [Keep.lit]; with_reducible refine Keep.asked rfl ?_)
  clear_value l4
  with_reducible repeat' first
    | assumption | apply keep_releaseLock | apply Keep.ite

theorem keep_pathUp (x1 : Nat) (h : Keep p a b) : Keep p a (pathUp x1 b) := by
  unfold pathUp
  extract_lets l1
  repeat' first
    | (with_reducible first
        | assumption)
    | (simp only [Keep.lit]; with_reducible refine Keep.asked rfl ?_)

/-! Buffers.lean. -/

theorem wf_memWriteBytes (m : List Host.Cell) (x : Nat) (bs : List Nat) (h : Memory.wf m = true) :
    Memory.wf (memWriteBytes m x bs) = true := by
  induction bs generalizing m x with
  | nil => exact h
  | cons b bs ih => exact ih _ _ (twf_tset _ m x _ h)

theorem keep_dramTraffic (x1 : Nat) (h : Keep p a b) : Keep p a (dramTraffic x1 b) := by
  unfold dramTraffic
  extract_lets l1
  repeat' first
    | (with_reducible first
        | assumption)
    | (simp only [Keep.lit]; with_reducible refine Keep.asked rfl ?_)

theorem keep_writeBytes (x1 : Nat) (x2 : List Nat) (h : Keep p a b) : Keep p a (State.writeBytes b x1 x2) :=
  h.withMem (wf_memWriteBytes _ _ _)

theorem keep_applyWrite (x1 : QWrite) (h : Keep p a b) : Keep p a (applyWrite x1 b) := by
  unfold applyWrite
  extract_lets l1 l2
  clear_value l1
  have h2 : Keep p a l2 := by
    unfold l2
    with_reducible repeat' first
      | assumption | apply keep_dramTraffic | apply keep_writeBytes
  clear_value l2
  with_reducible repeat' first
    | assumption | apply keep_modBuf

theorem keep_runWrites (x1 : Nat) (h : Keep p a b) : Keep p a (runWrites x1 b) := by
  unfold runWrites
  extract_lets l1 l2
  clear_value l1 l2
  repeat' first
    | (with_reducible first
        | assumption | apply keep_applyWrite | apply Keep.each | apply Keep.ite)
    | (simp only [Keep.lit]; with_reducible refine Keep.asked rfl ?_)

theorem keep_bufTake (x1 : Nat) (x2 : BufMode) (h : Keep p a b) : Keep p a (bufTake x1 x2 b) := by
  unfold bufTake
  with_reducible repeat' first
    | assumption | apply keep_modBuf

theorem keep_bufFree (x1 : Nat) (h : Keep p a b) : Keep p a (bufFree x1 b) := by
  unfold bufFree
  extract_lets l1 l2
  have h1 : Keep p a l1 := by
    unfold l1
    with_reducible repeat' first
      | assumption | apply keep_modBuf
  clear_value l1
  repeat' first
    | (with_reducible first
        | assumption)
    | (simp only [Keep.lit]; with_reducible refine Keep.asked rfl ?_)

theorem keep_bufReleased (x1 : Nat) (h : Keep p a b) : Keep p a (bufReleased x1 b) := by
  unfold bufReleased
  extract_lets l1
  clear_value l1
  with_reducible repeat' first
    | assumption | apply keep_bufFree | apply Keep.whenever | apply keep_raise | intro _ _

theorem keep_rotate (x1 : Nat) (h : Keep p a b) : Keep p a (rotate x1 b) := by
  unfold rotate
  with_reducible repeat' first
    | assumption | apply keep_bufFree | apply Keep.each

theorem keep_takeToken (x1 : Nat) (x2 : Reader) (h : Keep p a b) : Keep p a (takeToken x1 x2 b) := by
  unfold takeToken
  extract_lets l1
  clear_value l1
  with_reducible repeat' first
    | assumption | apply keep_setBuf | apply Keep.ite

theorem keep_returnToken (x1 : Nat) (x2 : Reader) (h : Keep p a b) : Keep p a (returnToken x1 x2 b) := by
  unfold returnToken
  extract_lets l1 l2
  clear_value l1
  have h2 : Keep p a l2 := by
    unfold l2
    with_reducible repeat' first
      | assumption | apply keep_setBuf
  clear_value l2
  repeat' first
    | (with_reducible first
        | assumption | apply keep_runWrites | apply keep_bufReleased | apply keep_rotate)
    | split

theorem keep_returnAll (x1 : Reader) (h : Keep p a b) : Keep p a (returnAll x1 b) := by
  unfold returnAll
  with_reducible repeat' first
    | assumption | apply Keep.each | apply keep_returnToken | intro _ _ _

theorem keep_abandonWrite (x1 : Nat) (h : Keep p a b) : Keep p a (abandonWrite x1 b) := by
  unfold abandonWrite
  extract_lets l1
  clear_value l1
  with_reducible repeat' first
    | assumption | apply keep_bufFree | apply keep_setBuf | apply Keep.ite

theorem keep_forgetBufs (x1 : List Nat) (h : Keep p a b) : Keep p a (forgetBufs x1 b) := by
  unfold forgetBufs
  with_reducible repeat' first
    | assumption | apply keep_modIns | apply Keep.each | intro _ _ _ | intro _ _

end Sys2Proof.Laws
end

