-- ==== Sys2Proof/Laws/KeepLinks.lean ====
section
/-! SUPPORT. What Keep says of the operations of links, routes, the gate, takes and keys: one lemma for each. -/

namespace Sys2Proof.Laws

open Machine

variable {p : Prop} {a b : State}

/-! LinkCore.lean. -/

theorem keep_pushCtl (x1 : Nat) (x2 : Nat) (x3 : Nat) (h : Keep p a b) : Keep p a (pushCtl x1 x2 x3 b) := by
  unfold pushCtl
  with_reducible repeat' first
    | assumption | apply keep_modLink | apply Keep.ite

theorem keep_setLinkShown (x1 : Nat) (x2 : LinkLane) (h : Keep p a b) : Keep p a (setLinkShown x1 x2 b) := by
  unfold setLinkShown
  extract_lets l1 l2
  clear_value l1 l2
  with_reducible repeat' first
    | assumption | apply keep_setLink | apply keep_count | apply Keep.ite

theorem keep_announce (x1 : Nat) (x2 : Nat) (x3 : Bool) (h : Keep p a b) : Keep p a (announce x1 x2 x3 b) := by
  unfold announce
  extract_lets l1 l2 l3 l4 l5 l6
  clear_value l1 l2 l3 l4
  have h5 : Keep p a l5 := by
    unfold l5
    with_reducible repeat' first
      | assumption | apply keep_setLink
  clear_value l5
  have h6 : Keep p a l6 := by
    unfold l6
    with_reducible repeat' first
      | assumption | apply keep_pushCtl | apply Keep.each | intro _ _ _
  clear_value l6
  with_reducible repeat' first
    | assumption | apply keep_pushCtl

theorem keep_sendBond (x1 : Nat) (x2 : Nat) (h : Keep p a b) : Keep p a (sendBond x1 x2 b) := by
  unfold sendBond
  repeat' first
    | (with_reducible first
        | assumption | apply keep_pushCtl)
    | split

theorem keep_excludeMember (x1 : Nat) (h : Keep p a b) : Keep p a (excludeMember x1 b) := by
  unfold excludeMember
  repeat' first
    | (with_reducible first
        | assumption | apply keep_modLink | apply keep_sendBond)
    | split

theorem keep_memberBack (x1 : Nat) (h : Keep p a b) : Keep p a (memberBack x1 b) := by
  unfold memberBack
  repeat' first
    | (with_reducible first
        | assumption | apply keep_modLink | apply keep_sendBond)
    | split

theorem keep_leaveUp (x1 : Nat) (h : Keep p a b) : Keep p a (leaveUp x1 b) := by
  unfold leaveUp
  extract_lets l1 l2 l3 l4 l5
  clear_value l1 l2
  have h3 : Keep p a l3 := by
    unfold l3
    with_reducible repeat' first
      | assumption | apply keep_setLink
  clear_value l3
  have h5 : Keep p a l5 := by
    unfold l5
    repeat' first
      | (with_reducible first
          | assumption)
      | (simp only [Keep.lit]; with_reducible refine Keep.asked rfl ?_)
  clear_value l5
  with_reducible repeat' first
    | assumption | apply keep_pathDown

theorem keep_freshWindows (x1 : Nat) (h : Keep p a b) : Keep p a (freshWindows x1 b) := by
  unfold freshWindows
  repeat' first
    | (with_reducible first
        | assumption | apply keep_setEndpoint | apply Keep.each | intro _ _ _)
    | split

theorem keep_enterUp (x1 : Nat) (x2 : Bool) (h : Keep p a b) : Keep p a (enterUp x1 x2 b) := by
  unfold enterUp
  extract_lets l1 l2 l3 l4
  clear_value l1
  have h2 : Keep p a l2 := by
    unfold l2
    with_reducible repeat' first
      | assumption | apply keep_modLink
  clear_value l2
  have h3 : Keep p a l3 := by
    unfold l3
    with_reducible repeat' first
      | assumption | apply keep_pathUp | apply keep_freshWindows | apply Keep.ite
  clear_value l3 l4
  repeat' first
    | (with_reducible first
        | assumption | apply keep_announce | apply keep_setLink)
    | split

theorem keep_linkPhyDown (x1 : Nat) (h : Keep p a b) : Keep p a (linkPhyDown x1 b) := by
  unfold linkPhyDown
  extract_lets l1 l2
  clear_value l1
  have h2 : Keep p a l2 := by
    unfold l2
    with_reducible repeat' first
      | assumption | apply keep_modLink | apply keep_leaveUp | apply Keep.ite
  clear_value l2
  with_reducible repeat' first
    | assumption | apply keep_modLink | apply keep_excludeMember | apply Keep.ite

theorem keep_linkPhyReady (x1 : Nat) (x2 : Bool) (h : Keep p a b) : Keep p a (linkPhyReady x1 x2 b) := by
  unfold linkPhyReady
  extract_lets l1
  clear_value l1
  repeat' first
    | (with_reducible first
        | assumption | apply keep_setLink)
    | split

theorem keep_loseLines (x1 : Nat) (h : Keep p a b) : Keep p a (loseLines x1 b) := by
  unfold loseLines
  with_reducible repeat' first
    | assumption | apply keep_modIns | apply Keep.each | intro _ _ _

theorem keep_goodHeader (x1 : Nat) (h : Keep p a b) : Keep p a (goodHeader x1 b) := by
  unfold goodHeader
  extract_lets l1
  clear_value l1
  repeat' first
    | (with_reducible first
        | assumption | apply keep_setLink)
    | split

theorem keep_received (x1 : Nat) (x2 : State → State) (k2 : ∀ (s : State), Keep p a s → Keep p a (x2 s)) (h : Keep p a b) : Keep p a (received x1 x2 b) := by
  unfold received
  extract_lets l1 l2
  clear_value l1
  have h2 : Keep p a l2 := by
    unfold l2
    with_reducible repeat' first
      | assumption | apply keep_goodHeader
  clear_value l2
  with_reducible repeat' first
    | assumption | apply k2 | apply Keep.ite

theorem keep_alignLost (x1 : Nat) (h : Keep p a b) : Keep p a (alignLost x1 b) := by
  unfold alignLost
  extract_lets l1 l2 l3 l4
  have h1 : Keep p a l1 := by
    unfold l1
    with_reducible repeat' first
      | assumption | apply keep_raise | apply keep_modCounts
  clear_value l1
  have h2 : Keep p a l2 := by
    unfold l2
    with_reducible repeat' first
      | assumption | apply keep_loseLines
  clear_value l2 l3
  have h4 : Keep p a l4 := by
    unfold l4
    with_reducible repeat' first
      | assumption | apply keep_modLink | apply keep_leaveUp | apply Keep.ite
  clear_value l4
  with_reducible repeat' first
    | assumption | apply keep_modLink | apply keep_excludeMember

theorem keep_turnLost (x1 : Nat) (h : Keep p a b) : Keep p a (turnLost x1 b) := by
  unfold turnLost
  extract_lets l1 l2
  clear_value l1
  have h2 : Keep p a l2 := by
    unfold l2
    with_reducible repeat' first
      | assumption | apply keep_modLink | apply keep_leaveUp | apply Keep.ite
  clear_value l2
  with_reducible repeat' first
    | assumption | apply keep_modLink | apply keep_excludeMember

theorem keep_turnMiss (x1 : Nat) (h : Keep p a b) : Keep p a (turnMiss x1 b) := by
  unfold turnMiss
  extract_lets l1 l2 l3
  clear_value l1 l2
  have h3 : Keep p a l3 := by
    unfold l3
    with_reducible repeat' first
      | assumption | apply keep_setLink
  clear_value l3
  with_reducible repeat' first
    | assumption | apply keep_turnLost | apply Keep.ite

/-! Wire.lean. -/

theorem keep_sendSkip (x1 : Nat) (h : Keep p a b) : Keep p a (sendSkip x1 b) := by
  unfold sendSkip
  extract_lets l1 l2
  clear_value l1 l2
  with_reducible repeat' first
    | assumption | apply keep_emit | apply keep_setLink | apply keep_txTurn

theorem keep_sendIdle (x1 : Nat) (h : Keep p a b) : Keep p a (sendIdle x1 b) := by
  unfold sendIdle
  extract_lets l1 l2 l3
  clear_value l1 l2 l3
  with_reducible repeat' first
    | assumption | apply keep_emit | apply keep_setLink | apply keep_txTurn

theorem keep_sendFolio (x1 : Nat) (x2 : Nat) (h : Keep p a b) : Keep p a (sendFolio x1 x2 b) := by
  unfold sendFolio
  extract_lets l1 l2
  clear_value l1 l2
  with_reducible repeat' first
    | assumption | apply keep_setSend | apply Keep.ite

theorem keep_sendFlow (x1 : Nat) (x2 : Nat) (x3 : Nat) (h : Keep p a b) : Keep p a (sendFlow x1 x2 x3 b) := by
  unfold sendFlow
  with_reducible repeat' first
    | assumption | apply keep_sendFolio

theorem keep_lineReady (x1 : Nat) (h : Keep p a b) : Keep p a (lineReady x1 b) := by
  unfold lineReady
  extract_lets l1
  clear_value l1
  with_reducible repeat' first
    | assumption | apply keep_setSend

/-! RouteCore.lean. -/

theorem keep_seen (x1 : Nat) (h : Keep p a b) : Keep p a (State.seen b x1) := by
  unfold State.seen
  extract_lets l1 l2
  clear_value l1 l2
  with_reducible repeat' first
    | assumption | apply keep_setForce | apply Keep.ite

theorem keep_rtMove (x1 : Nat) (x2 : RtMode) (x3 : Nat) (h : Keep p a b) : Keep p a (rtMove x1 x2 x3 b) := by
  unfold rtMove
  with_reducible repeat' first
    | assumption | apply keep_modRoute

theorem keep_rtReadDone (x1 : Nat) (h : Keep p a b) : Keep p a (rtReadDone x1 b) := by
  unfold rtReadDone
  extract_lets l1 l2 l3
  clear_value l1 l2
  have h3 : Keep p a l3 := by
    unfold l3
    repeat' first
      | (with_reducible first
          | assumption | apply keep_returnToken | apply Keep.foldl | intro _ _ _ | intro _ _)
      | split
  clear_value l3
  with_reducible repeat' first
    | assumption | apply keep_returnAll | apply Keep.each | intro _ _ _ | intro _ _

theorem keep_rtDropShown (x1 : Nat) (h : Keep p a b) : Keep p a (rtDropShown x1 b) := by
  unfold rtDropShown
  with_reducible repeat' first
    | assumption | apply keep_modRoute | apply keep_rtReadDone

theorem keep_rtEndHold (x1 : Nat) (h : Keep p a b) : Keep p a (rtEndHold x1 b) := by
  unfold rtEndHold
  with_reducible repeat' first
    | assumption | apply keep_modRoute | apply keep_returnAll | apply Keep.ite

theorem keep_rtFall (x1 : Nat) (x2 : Nat) (h : Keep p a b) : Keep p a (rtFall x1 x2 b) := by
  unfold rtFall
  extract_lets l1 l2 l3
  clear_value l1
  have h2 : Keep p a l2 := by
    unfold l2
    with_reducible repeat' first
      | assumption | apply keep_rtEndHold
  clear_value l2
  have h3 : Keep p a l3 := by
    unfold l3
    with_reducible repeat' first
      | assumption | apply keep_rtMove | apply keep_raise
  clear_value l3
  with_reducible repeat' first
    | assumption | apply keep_rtMove | apply keep_raise | apply keep_count | apply Keep.ite

theorem keep_rtDropFirst (x1 : Nat) (h : Keep p a b) : Keep p a (rtDropFirst x1 b) := by
  unfold rtDropFirst
  repeat' first
    | (with_reducible first
        | assumption | apply keep_modRoute | apply keep_returnToken)
    | split

theorem keep_rtHoldVerified (x1 : Nat) (h : Keep p a b) : Keep p a (rtHoldVerified x1 b) := by
  unfold rtHoldVerified
  extract_lets l1 l2 l3
  clear_value l1 l2
  have h3 : Keep p a l3 := by
    unfold l3
    with_reducible repeat' first
      | assumption | apply keep_rtDropShown
  clear_value l3
  repeat' first
    | (with_reducible first
        | assumption | apply keep_modRoute | apply keep_takeToken | apply Keep.ite)
    | split

theorem keep_rtLose (x1 : Nat) (x2 : Nat) (h : Keep p a b) : Keep p a (rtLose x1 x2 b) := by
  unfold rtLose
  extract_lets l1 l2 l3 l4 l5 l6
  have h1 : Keep p a l1 := by
    unfold l1
    with_reducible repeat' first
      | assumption | apply keep_raise | apply keep_count
  clear_value l1
  have h2 : Keep p a l2 := by
    unfold l2
    with_reducible repeat' first
      | assumption | apply keep_modRoute | apply keep_rtDropFirst
  clear_value l2
  have h3 : Keep p a l3 := by
    unfold l3
    with_reducible repeat' first
      | assumption | apply keep_rtHoldVerified | apply Keep.ite
  clear_value l3 l4
  have h5 : Keep p a l5 := by
    unfold l5
    with_reducible repeat' first
      | assumption | apply keep_rtMove
  clear_value l5
  have h6 : Keep p a l6 := by
    unfold l6
    repeat' first
      | (with_reducible first
          | assumption | apply keep_takeToken)
      | split
  clear_value l6
  with_reducible repeat' first
    | assumption | apply keep_modRoute | apply keep_rtFall | apply Keep.ite

theorem keep_rtCheck (x1 : Bool) (x2 : Nat) (h : Keep p a b) : Keep p a (rtCheck x1 x2 b) := by
  unfold rtCheck
  extract_lets l1 l2 l3 l4 l5 l6 l7
  clear_value l1 l2 l3 l4
  have h5 : Keep p a l5 := by
    unfold l5
    with_reducible repeat' first
      | assumption | apply keep_raise | apply Keep.ite
  clear_value l5
  have h6 : Keep p a l6 := by
    unfold l6
    with_reducible repeat' first
      | assumption | apply keep_rtMove | apply keep_raise
  clear_value l6
  have h7 : Keep p a l7 := by
    unfold l7
    with_reducible repeat' first
      | assumption | apply keep_raise | apply Keep.ite
  clear_value l7
  repeat' first
    | (with_reducible first
        | assumption | apply keep_modRoute | apply keep_rtMove | apply keep_raise | apply keep_rtLose)
    | split

theorem keep_recheck (h : Keep p a b) : Keep p a (recheck b) := by
  unfold recheck
  with_reducible repeat' first
    | assumption | apply Keep.each | apply keep_rtCheck | intro _ _ _

theorem keep_rtReturn (x1 : Nat) (h : Keep p a b) : Keep p a (rtReturn x1 b) := by
  unfold rtReturn
  extract_lets l1 l2 l3
  clear_value l1
  have h2 : Keep p a l2 := by
    unfold l2
    with_reducible repeat' first
      | assumption | apply keep_rtEndHold
  clear_value l2
  have h3 : Keep p a l3 := by
    unfold l3
    with_reducible repeat' first
      | assumption | apply keep_rtMove | apply keep_raise
  clear_value l3
  with_reducible repeat' first
    | assumption | apply keep_modRoute | apply Keep.ite

theorem keep_unitApply (x1 : Nat) (h : Keep p a b) : Keep p a (unitApply x1 b) := by
  unfold unitApply
  repeat' first
    | (with_reducible first
        | assumption | apply keep_modUnit | apply keep_setForce)
    | split

theorem keep_unitRelease (x1 : Nat) (x2 : Nat) (h : Keep p a b) : Keep p a (unitRelease x1 x2 b) := by
  unfold unitRelease
  with_reducible repeat' first
    | assumption | apply keep_modUnit | apply keep_unitApply | apply Keep.ite

theorem keep_rtClear (x1 : Nat) (h : Keep p a b) : Keep p a (rtClear x1 b) := by
  unfold rtClear
  extract_lets l1 l2
  have h1 : Keep p a l1 := by
    unfold l1
    with_reducible repeat' first
      | assumption | apply keep_rtEndHold | apply keep_rtDropShown | apply keep_rtDropFirst
  clear_value l1
  have h2 : Keep p a l2 := by
    unfold l2
    with_reducible repeat' first
      | assumption | apply keep_unitRelease | apply Keep.each | intro _ _ _ | intro _ _
  clear_value l2
  with_reducible repeat' first
    | assumption | apply keep_setRoute

theorem keep_routeDigest (h : Keep p a b) : Keep p a (routeDigest b) := by
  unfold routeDigest
  extract_lets l1 l2 l3
  clear_value l1
  repeat' first
    | (with_reducible first
        | assumption | apply keep_cbWrite)
    | (simp only [Keep.lit]; with_reducible refine Keep.asked rfl ?_)

/-! Gate.lean. -/

theorem keep_answer (x1 : Src) (x2 : Nat) (x3 : Bool) (x4 : State → State × Nat) (k4 : ∀ (s : State), Keep p a s → Keep p a (x4 s).1) (h : Keep p a b) : Keep p a (answer x1 x2 x3 x4 b) := by
  unfold answer
  extract_lets l1 l2
  clear_value l1
  have h2 : Keep p a l2.1 := by
    unfold l2
    with_reducible repeat' first
      | assumption | apply k4
  clear_value l2
  with_reducible repeat' first
    | assumption | apply keep_emit | apply Keep.ite

/-! Takes.lean. -/

theorem keep_refuseTake (x1 : Nat) (x2 : Nat) (x3 : Nat) (h : Keep p a b) : Keep p a (refuseTake x1 x2 x3 b) := by
  unfold refuseTake
  with_reducible repeat' first
    | assumption | apply keep_setReg | apply keep_raise

theorem keep_markPending (x1 : List Take) (h : Keep p a b) : Keep p a (markPending x1 b) := by
  unfold markPending
  with_reducible repeat' first
    | assumption | apply keep_rtMove | apply Keep.each | intro _ _ _

theorem keep_takeGroupOp (x1 : List Nat) (h : Keep p a b) : Keep p a (takeGroupOp x1 b).1 := by
  unfold takeGroupOp
  extract_lets l1 l2 l3 l4 l5 l6 l7 l8 l9 l10 l11 l12 l13
  clear_value l1 l2 l3
  have h4 : Keep p a l4 := by
    unfold l4
    with_reducible repeat' first
      | assumption | apply keep_setReg
  clear_value l4 l5 l6 l7 l8 l9 l10
  have h12 : Keep p a l12 := by
    unfold l12
    repeat' first
      | (with_reducible first
          | assumption | apply keep_markPending)
      | (simp only [Keep.lit]; with_reducible refine Keep.asked rfl ?_)
  clear_value l12
  have h13 : Keep p a l13 := by
    unfold l13
    with_reducible repeat' first
      | assumption | apply keep_setReg
  clear_value l13
  with_reducible repeat' first
    | assumption | apply keep_refuseTake | apply Keep.whenever | apply keep_raise | apply Keep.iteFst | intro _ _

theorem keep_dropGroup (x1 : Group) (h : Keep p a b) : Keep p a (dropGroup x1 b) := by
  unfold dropGroup
  extract_lets l1 l2
  have h2 : Keep p a l2 := by
    unfold l2
    repeat' first
      | (with_reducible first
          | assumption)
      | (simp only [Keep.lit]; with_reducible refine Keep.asked rfl ?_)
  clear_value l2
  with_reducible repeat' first
    | assumption | apply keep_rtMove | apply Keep.each | intro _ _ _

theorem keep_takeCancelOp (x1 : Nat) (h : Keep p a b) : Keep p a (takeCancelOp x1 b).1 := by
  unfold takeCancelOp
  repeat' first
    | (with_reducible first
        | assumption | apply keep_setReg | apply keep_refuseTake | apply keep_dropGroup)
    | split

theorem keep_holdFirst (x1 : List Group) (h : Keep p a b) : Keep p a (holdFirst x1 b) := by
  unfold holdFirst
  repeat' first
    | (with_reducible first
        | assumption | apply keep_takeToken | apply Keep.each | intro _ _ _ | intro _ _)
    | split

theorem keep_latchThose (x1 : Group → Bool) (h : Keep p a b) : Keep p a (latchThose x1 b) := by
  unfold latchThose
  extract_lets l1 l2
  clear_value l1 l2
  repeat' first
    | (with_reducible first
        | assumption | apply keep_holdFirst)
    | (simp only [Keep.lit]; with_reducible refine Keep.asked rfl ?_)

theorem keep_latchDue (h : Keep p a b) : Keep p a (latchDue b) := by
  unfold latchDue
  with_reducible repeat' first
    | assumption | apply keep_latchThose

theorem keep_holdUnits (x1 : Nat) (x2 : List Nat) (h : Keep p a b) : Keep p a (holdUnits x1 x2 b) := by
  unfold holdUnits
  extract_lets l1
  have h1 : Keep p a l1 := by
    unfold l1
    with_reducible repeat' first
      | assumption | apply keep_unitRelease | apply Keep.each | intro _ _ _
  clear_value l1
  with_reducible repeat' first
    | assumption | apply keep_modRoute | apply keep_modUnit | apply Keep.each | intro _ _ _

theorem keep_installTake (x1 : Take) (x2 : Nat) (h : Keep p a b) : Keep p a (installTake x1 x2 b) := by
  unfold installTake
  extract_lets l1 l2 l3
  clear_value l1
  have h2 : Keep p a l2 := by
    unfold l2
    with_reducible repeat' first
      | assumption | apply keep_holdUnits | apply keep_rtEndHold | apply keep_rtDropShown | apply keep_rtDropFirst
  clear_value l2 l3
  with_reducible repeat' first
    | assumption | apply keep_setRoute

theorem keep_orphanTake (x1 : Take) (x2 : Nat) (h : Keep p a b) : Keep p a (orphanTake x1 x2 b) := by
  unfold orphanTake
  extract_lets l1 l2 l3
  clear_value l1
  have h2 : Keep p a l2 := by
    unfold l2
    with_reducible repeat' first
      | assumption | apply keep_raise | apply keep_count | apply keep_rtDropFirst
  clear_value l2
  have h3 : Keep p a l3 := by
    unfold l3
    with_reducible repeat' first
      | assumption | apply keep_raise | apply keep_rtMove
  clear_value l3
  with_reducible repeat' first
    | assumption | apply keep_raise | apply keep_count | apply keep_rtMove | apply Keep.whenever | apply Keep.ite
    | intro _ _ _ | intro _ _

theorem keep_applyTake (x1 : Take) (h : Keep p a b) : Keep p a (applyTake x1 b) := by
  unfold applyTake
  extract_lets l1 l2 l3
  clear_value l1 l2
  have h3 : Keep p a l3 := by
    unfold l3
    with_reducible repeat' first
      | assumption | apply keep_installTake
  clear_value l3
  with_reducible repeat' first
    | assumption | apply keep_rtClear | apply keep_rtCheck | apply keep_rtMove | apply keep_orphanTake
    | apply Keep.ite

theorem keep_releaseGiven (x1 : Bnd) (x2 : List Group) (x3 : Group) (h : Keep p a b) : Keep p a (releaseGiven x1 x2 x3 b) := by
  unfold releaseGiven
  with_reducible repeat' first
    | assumption | apply keep_modRoute | apply keep_unitRelease | apply Keep.each | apply Keep.ite
    | intro _ _ _ | intro _ _

theorem keep_applyGroup (x1 : Bnd) (x2 : List Group) (x3 : Group) (h : Keep p a b) : Keep p a (applyGroup x1 x2 x3 b).2 := by
  unfold applyGroup
  extract_lets l1
  have h1 : Keep p a l1 := by
    unfold l1
    with_reducible repeat' first
      | assumption | apply keep_releaseGiven
  clear_value l1
  with_reducible repeat' first
    | assumption | apply keep_applyTake | apply Keep.foldlSnd | apply Keep.iteSnd | intro _ _ _ | intro _ _

theorem keep_safeFlip (x1 : Nat) (h : Keep p a b) : Keep p a (safeFlip x1 b) := by
  unfold safeFlip
  with_reducible repeat' first
    | assumption | apply keep_setReg | apply Keep.ite

theorem keep_flipTake (x1 : Time) (x2 : Group) (x3 : Take) (h : Keep p a b) : Keep p a (flipTake x1 x2 x3 b) := by
  unfold flipTake
  extract_lets l1 l2
  have h1 : Keep p a l1 := by
    unfold l1
    with_reducible repeat' first
      | assumption | apply keep_modRoute
  clear_value l1
  have h2 : Keep p a l2 := by
    unfold l2
    with_reducible repeat' first
      | assumption | apply keep_setReg | apply Keep.ite
  clear_value l2
  with_reducible repeat' first
    | assumption | apply keep_safeFlip | apply Keep.ite

theorem keep_finishGroups (h : Keep p a b) : Keep p a (finishGroups b) := by
  unfold finishGroups
  repeat' first
    | (with_reducible first
        | assumption | apply keep_setReg | apply Keep.whenever | apply Keep.each | apply keep_routeDigest
        | apply keep_raise | apply keep_count | apply Keep.ite | intro _ _ _ | intro _ _)
    | (simp only [Keep.lit]; with_reducible refine Keep.asked rfl ?_)

theorem keep_applyTakes (x1 : Bnd) (h : Keep p a b) : Keep p a (applyTakes x1 b) := by
  unfold applyTakes
  extract_lets l1 l2 l3 l4
  have h1 : Keep p a l1 := by
    unfold l1
    with_reducible repeat' first
      | assumption | apply keep_latchDue
  clear_value l1
  have h2 : Keep p a l2.2 := by
    unfold l2
    with_reducible repeat' first
      | assumption | apply keep_applyGroup | apply Keep.foldlSnd | intro _ _ _ | intro _ _
  clear_value l2
  have h3 : Keep p a l3 := by
    unfold l3
    with_reducible repeat' first
      | assumption
  clear_value l3 l4
  repeat' first
    | (with_reducible first
        | assumption | apply keep_finishGroups)
    | (simp only [Keep.lit]; with_reducible refine Keep.asked rfl ?_)

theorem keep_flipTakes (x1 : Time) (x2 : Bnd) (h : Keep p a b) : Keep p a (flipTakes x1 x2 b) := by
  unfold flipTakes
  extract_lets l1 l2 l3 l4
  clear_value l1
  have h2 : Keep p a l2 := by
    unfold l2
    with_reducible repeat' first
      | assumption | apply keep_flipTake | apply Keep.each | intro _ _ _
  clear_value l2 l3
  repeat' first
    | (with_reducible first
        | assumption | apply keep_finishGroups)
    | (simp only [Keep.lit]; with_reducible refine Keep.asked rfl ?_)

theorem keep_execTakeGroup (x1 : Nat) (x2 : Src) (x3 : List Nat) {b c : State} (e : execTakeGroup x1 x2 x3 b = .next c) (h : Keep p a b) : Keep p a c := by
  unfold execTakeGroup at e
  replace e := Host.Outcome.next.inj e
  subst e
  with_reducible repeat' first
    | assumption | apply keep_takeGroupOp | apply keep_answer | apply Keep.begin | intro _ _

theorem keep_execTakeEffectiveDt (x1 : Nat) (x2 : Nat) {b c : State} (e : execTakeEffectiveDt x1 x2 b = .next c) (h : Keep p a b) : Keep p a c := by
  unfold execTakeEffectiveDt at e
  extract_lets l1 at e
  have h1 : Keep p a l1 := by
    unfold l1
    with_reducible repeat' first
      | assumption | apply Keep.begin
  clear_value l1
  replace e := Host.Outcome.next.inj e
  subst e
  with_reducible repeat' first
    | assumption | apply keep_finishGroups | apply keep_latchThose

theorem keep_execC0TakeOverdue (x1 : Nat) (x2 : Nat) (x3 : Nat) {b c : State} (e : execC0TakeOverdue x1 x2 x3 b = .next c) (h : Keep p a b) : Keep p a c := by
  unfold execC0TakeOverdue at e
  extract_lets l1 l2 l3 at e
  have h1 : Keep p a l1 := by
    unfold l1
    with_reducible repeat' first
      | assumption | apply Keep.begin
  clear_value l1
  have h3 : Keep p a l3 := by
    unfold l3
    repeat' first
      | (with_reducible first
          | assumption)
      | (simp only [Keep.lit]; with_reducible refine Keep.asked rfl ?_)
  clear_value l3
  replace e := Host.Outcome.next.inj e
  subst e
  with_reducible repeat' first
    | assumption | apply keep_raiseAs | apply keep_count | apply Keep.ite

theorem keep_takeStatsClearOp (h : Keep p a b) : Keep p a (takeStatsClearOp b).1 := by
  unfold takeStatsClearOp
  with_reducible repeat' first
    | assumption | apply keep_clear

theorem keep_execTakeStatsClear (x1 : Nat) (x2 : Src) {b c : State} (e : execTakeStatsClear x1 x2 b = .next c) (h : Keep p a b) : Keep p a c := by
  unfold execTakeStatsClear at e
  replace e := Host.Outcome.next.inj e
  subst e
  with_reducible repeat' first
    | assumption | apply keep_takeStatsClearOp | apply keep_answer | apply Keep.begin

theorem keep_execHoldExpired (x1 : Nat) (x2 : Nat) {b c : State} (e : execHoldExpired x1 x2 b = .next c) (h : Keep p a b) : Keep p a c := by
  unfold execHoldExpired at e
  extract_lets l1 l2 l3 at e
  have h1 : Keep p a l1 := by
    unfold l1
    with_reducible repeat' first
      | assumption | apply Keep.begin
  clear_value l1 l2 l3
  replace e := Host.Outcome.next.inj e
  subst e
  with_reducible repeat' first
    | assumption | apply keep_rtFall | apply Keep.ite

theorem keep_execRestoreDelayExpired (x1 : Nat) (x2 : Nat) {b c : State} (e : execRestoreDelayExpired x1 x2 b = .next c) (h : Keep p a b) : Keep p a c := by
  unfold execRestoreDelayExpired at e
  extract_lets l1 l2 l3 at e
  have h1 : Keep p a l1 := by
    unfold l1
    with_reducible repeat' first
      | assumption | apply Keep.begin
  clear_value l1 l2 l3
  replace e := Host.Outcome.next.inj e
  subst e
  with_reducible repeat' first
    | assumption | apply keep_modRoute | apply Keep.ite

/-! Keys.lean. -/

theorem keep_setKeySlot (x1 : Nat) (x2 : KeySlot) (h : Keep p a b) : Keep p a (State.setKeySlot b x1 x2) := by
  unfold State.setKeySlot
  extract_lets l1 l2
  repeat' first
    | (with_reducible first
        | assumption)
    | (simp only [Keep.lit]; with_reducible refine Keep.asked rfl ?_)

theorem keep_setSigning (x1 : List Nat) (h : Keep p a b) : Keep p a (State.setSigning b x1) :=
  h.like rfl

theorem keep_maskSlot (x1 : Nat) (h : Keep p a b) : Keep p a (maskSlot x1 b) := by
  unfold maskSlot
  with_reducible repeat' first
    | assumption | apply keep_setSigning | apply keep_setKeySlot | apply Keep.ite

theorem keep_useSlot (x1 : Nat) (h : Keep p a b) : Keep p a (useSlot x1 b) := by
  unfold useSlot
  extract_lets l1 l2
  have h1 : Keep p a l1 := by
    unfold l1
    with_reducible repeat' first
      | assumption | apply keep_maskSlot
  clear_value l1 l2
  repeat' first
    | (with_reducible first
        | assumption)
    | (simp only [Keep.lit]; with_reducible refine Keep.asked rfl ?_)

theorem keep_orphanSessions (x1 : Nat) (h : Keep p a b) : Keep p a (orphanSessions x1 b) := by
  unfold orphanSessions
  repeat' first
    | (with_reducible first
        | assumption | apply keep_modLink | apply Keep.each | intro _ _ _)
    | (simp only [Keep.lit]; with_reducible refine Keep.asked rfl ?_)

theorem keep_orphanBelow (x1 : Nat) (h : Keep p a b) : Keep p a (orphanBelow x1 b) := by
  unfold orphanBelow
  extract_lets l1 l2
  clear_value l1
  have h2 : Keep p a l2 := by
    unfold l2
    with_reducible repeat' first
      | assumption | apply keep_orphanSessions
  clear_value l2
  with_reducible repeat' first
    | assumption | apply Keep.each | apply keep_raise | apply keep_orphanSessions | apply keep_setKeySlot
    | intro _ _ _

end Sys2Proof.Laws
end

