-- ==== Sys2Proof/Laws/KeepStreams.lean ====
section
/-! SUPPORT. What Keep says of the operations of streams, quiesce, engines, references and lanes: one lemma for each. -/

namespace Sys2Proof.Laws

open Machine

variable {p : Prop} {a b : State}

/-! Streams.lean. -/

theorem keep_strChanged (h : Keep p a b) : Keep p a (strChanged b) := by
  unfold strChanged
  with_reducible repeat' first
    | assumption | apply keep_count

theorem keep_abandonFrame (x1 : Nat) (h : Keep p a b) : Keep p a (abandonFrame x1 b) := by
  unfold abandonFrame
  repeat' first
    | (with_reducible first
        | assumption | apply keep_modIns | apply Keep.each | apply keep_abandonWrite | intro _ _ _)
    | split

theorem keep_releaseId (x1 : Nat) (h : Keep p a b) : Keep p a (releaseId x1 b) := by
  unfold releaseId
  extract_lets l1
  repeat' first
    | (with_reducible first
        | assumption | apply keep_setIns | apply keep_strChanged)
    | (simp only [Keep.lit]; with_reducible refine Keep.asked rfl ?_)

theorem keep_releaseUnnamed (h : Keep p a b) : Keep p a (releaseUnnamed b) := by
  unfold releaseUnnamed
  with_reducible repeat' first
    | assumption | apply keep_releaseId | apply Keep.each | apply Keep.ite | intro _ _ _

theorem keep_streamLeft (x1 : Nat) (h : Keep p a b) : Keep p a (streamLeft x1 b) := by
  unfold streamLeft
  extract_lets l1 l2
  clear_value l1
  have h2 : Keep p a l2 := by
    unfold l2
    with_reducible repeat' first
      | assumption | apply keep_abandonFrame | apply keep_modIns
  clear_value l2
  with_reducible repeat' first
    | assumption | apply keep_recheck | apply keep_releaseUnnamed | apply keep_strChanged | apply keep_raise
    | apply Keep.ite

theorem keep_newId {k : Nat} {c : State} (e : newId b = some (k, c)) (h : Keep p a b) : Keep p a c := by
  unfold newId at e
  split at e
  · cases e
    exact h
  · obtain ⟨k, _, e⟩ := Option.map_eq_some_iff.mp e
    cases e
    exact keep_releaseId k h

theorem keep_bindAudio (x1 : Nat) (h : Keep p a b) : Keep p a (bindAudio x1 b) := by
  unfold bindAudio
  extract_lets l1 l2 l3 l4
  clear_value l1
  have h2 : ∀ (y0 : Option (Nat × Nat)) (s : State), Keep p a s → Keep p a (l2 y0 s) := by
    intro y0 s h
    unfold l2
    repeat' first
      | (with_reducible first
          | assumption)
      | (simp only [Keep.lit]; with_reducible refine Keep.asked rfl ?_)
  clear_value l2 l3
  have h4 : Keep p a l4 := by
    unfold l4
    with_reducible repeat' first
      | assumption | apply h2
  clear_value l4
  repeat' first
    | (with_reducible first
        | assumption | apply h2 | apply keep_raise)
    | split

theorem keep_ownGroup (x1 : Bool) (x2 : List Take) (h : Keep p a b) : Keep p a (ownGroup x1 x2 b) := by
  unfold ownGroup
  extract_lets l1 l2 l3
  clear_value l1 l2
  have h3 : Keep p a l3 := by
    unfold l3
    repeat' first
      | (with_reducible first
          | assumption | apply keep_latchDue)
      | (simp only [Keep.lit]; with_reducible refine Keep.asked rfl ?_)
  clear_value l3
  with_reducible repeat' first
    | assumption | apply keep_markPending

theorem keep_restoreGroup (x1 : Bool) (x2 : List (Nat × Nat)) (h : Keep p a b) : Keep p a (restoreGroup x1 x2 b) := by
  unfold restoreGroup
  with_reducible repeat' first
    | assumption | apply keep_ownGroup

theorem keep_bindSafe (x1 : Nat) (h : Keep p a b) : Keep p a (bindSafe x1 b) := by
  unfold bindSafe
  extract_lets l1
  clear_value l1
  repeat' first
    | (with_reducible first
        | assumption | apply keep_restoreGroup | apply Keep.each | apply Keep.ite | intro _ _ _ | intro _ _)
    | (simp only [Keep.lit]; with_reducible refine Keep.asked rfl ?_)
    | split

theorem keep_enterFormat (x1 : Nat) (x2 : Nat) (x3 : Nat) (x4 : Nat) (x5 : Bool) (h : Keep p a b) : Keep p a (enterFormat x1 x2 x3 x4 x5 b) := by
  unfold enterFormat
  extract_lets l1 l2 l3 l4 l5 l6 l7
  clear_value l1
  have h2 : Keep p a l2 := by
    unfold l2
    with_reducible repeat' first
      | assumption | apply keep_modIns | apply keep_abandonFrame
  clear_value l2 l3 l4
  have h5 : Keep p a l5 := by
    unfold l5
    with_reducible repeat' first
      | assumption | apply keep_modIns | apply Keep.ite
  clear_value l5
  have h6 : Keep p a l6 := by
    unfold l6
    with_reducible repeat' first
      | assumption | apply keep_strChanged
  clear_value l6
  have h7 : Keep p a l7 := by
    unfold l7
    with_reducible repeat' first
      | assumption | apply keep_raise | apply Keep.ite
  clear_value l7
  with_reducible repeat' first
    | assumption | apply keep_recheck | apply keep_bindSafe | apply keep_bindAudio

theorem keep_streamRecordOp (x1 : Nat) (x2 : Nat) (h : Keep p a b) : Keep p a (streamRecordOp x1 x2 b) := by
  unfold streamRecordOp
  extract_lets l1 l2 l3 l4
  clear_value l1 l2 l3 l4
  repeat' first
    | (with_reducible first
        | assumption | apply keep_setIns | apply keep_enterFormat | apply keep_strChanged | apply keep_raise
        | refine keep_newId ‹newId _ = _› ?_)
    | split | dsimp only

theorem keep_epChanged (h : Keep p a b) : Keep p a (epChanged b) := by
  unfold epChanged
  with_reducible repeat' first
    | assumption | apply keep_count

theorem keep_endpointLeave (x1 : Nat) (h : Keep p a b) : Keep p a (endpointLeave x1 b) := by
  unfold endpointLeave
  extract_lets l1
  have h1 : Keep p a l1 := by
    unfold l1
    with_reducible repeat' first
      | assumption | apply Keep.each | apply keep_streamLeft
  clear_value l1
  with_reducible repeat' first
    | assumption | apply keep_setEndpoint | apply keep_epChanged

theorem keep_forgetDeparted (x1 : Nat) (x2 : Nat) (h : Keep p a b) : Keep p a (forgetDeparted x1 x2 b) := by
  unfold forgetDeparted
  extract_lets l1
  repeat' first
    | (with_reducible first
        | assumption)
    | (simp only [Keep.lit]; with_reducible refine Keep.asked rfl ?_)

theorem keep_createEndpoint (x1 : Nat) (x2 : Nat) (h : Keep p a b) : Keep p a (createEndpoint x1 x2 b) := by
  unfold createEndpoint
  extract_lets l1
  have h1 : Keep p a l1 := by
    unfold l1
    with_reducible repeat' first
      | assumption | apply keep_forgetDeparted
  clear_value l1
  repeat' first
    | (with_reducible first
        | assumption | apply keep_setEndpoint | apply keep_epChanged | apply keep_count)
    | split

theorem keep_endpointRecordOp (x1 : Nat) (x2 : Nat) (h : Keep p a b) : Keep p a (endpointRecordOp x1 x2 b) := by
  unfold endpointRecordOp
  extract_lets l1 l2 l3 l4
  clear_value l1 l2 l3 l4
  repeat' first
    | (with_reducible first
        | assumption | apply keep_setEndpoint | apply keep_createEndpoint | apply keep_forgetDeparted
        | apply keep_epChanged | apply keep_endpointLeave | apply keep_count | apply Keep.ite)
    | split

theorem keep_heartbeatOp (x1 : Nat) (x2 : Nat) (h : Keep p a b) : Keep p a (heartbeatOp x1 x2 b) := by
  unfold heartbeatOp
  extract_lets l1 l2 l3 l4 l5
  clear_value l1
  have h3 : Keep p a l3 := by
    unfold l3
    repeat' first
      | (with_reducible first
          | assumption | apply keep_setEndpoint | apply Keep.each | intro _ _ _)
      | split
  clear_value l3
  repeat' first
    | (with_reducible first
        | assumption)
    | (simp only [Keep.lit]; with_reducible refine Keep.asked rfl ?_)

theorem keep_announceOut (x1 : Nat) (h : Keep p a b) : Keep p a (announceOut x1 b) := by
  unfold announceOut
  extract_lets l1
  clear_value l1
  with_reducible repeat' first
    | assumption | apply keep_pushCtl | apply Keep.ite

theorem keep_announceLane (x1 : Nat) (h : Keep p a b) : Keep p a (announceLane x1 b) := by
  unfold announceLane
  with_reducible repeat' first
    | assumption | apply Keep.each | apply keep_announceOut

theorem keep_linkUp (x1 : Nat) (x2 : Bool) (h : Keep p a b) : Keep p a (linkUp x1 x2 b) := by
  unfold linkUp
  with_reducible repeat' first
    | assumption | apply keep_announceLane | apply keep_enterUp

theorem keep_putOutDesc (x1 : Nat) (x2 : Nat) (h : Keep p a b) : Keep p a (putOutDesc x1 x2 b) := by
  unfold putOutDesc
  with_reducible repeat' first
    | assumption | apply keep_setForce | apply keep_announceOut

theorem keep_strCommitOp (h : Keep p a b) : Keep p a (strCommitOp b).1 := by
  unfold strCommitOp
  extract_lets l1 l2 l3 l4 l5 l6 l7 l8 l9 l10 l11
  clear_value l1 l2 l3 l4
  have h5 : Keep p a l5 := by
    unfold l5
    repeat' first
      | (with_reducible first
          | assumption)
      | (simp only [Keep.lit]; with_reducible refine Keep.asked rfl ?_)
  clear_value l5
  have h6 : Keep p a l6 := by
    unfold l6
    repeat' first
      | (with_reducible first
          | assumption | apply keep_putOutDesc | apply Keep.each | apply Keep.ite | intro _ _ _ | intro _ _)
      | (simp only [Keep.lit]; with_reducible refine Keep.asked rfl ?_)
  clear_value l6
  have h7 : Keep p a l7 := by
    unfold l7
    with_reducible repeat' first
      | assumption | apply keep_apply
  clear_value l7 l8
  have h9 : Keep p a l9 := by
    unfold l9
    with_reducible repeat' first
      | assumption | apply keep_setRoute | apply Keep.each | apply Keep.ite | intro _ _ _ | intro _ _
  clear_value l9 l10
  have h11 : Keep p a l11 := by
    unfold l11
    with_reducible repeat' first
      | assumption | apply keep_ownGroup | apply Keep.ite
  clear_value l11
  repeat' first
    | (with_reducible first
        | assumption | apply keep_recheck | apply keep_releaseUnnamed | apply Keep.iteFst)
    | (simp only [Keep.lit]; with_reducible refine Keep.asked rfl ?_)
    | split

theorem keep_heldApply (h : Keep p a b) : Keep p a (heldApply b) := by
  unfold heldApply
  repeat' first
    | (with_reducible first
        | assumption | apply Keep.each | apply keep_putOutDesc | intro _ _ _)
    | (simp only [Keep.lit]; with_reducible refine Keep.asked rfl ?_) | split

theorem keep_strBoundary (x1 : Bnd) (h : Keep p a b) : Keep p a (strBoundary x1 b) := by
  unfold strBoundary
  extract_lets l1
  have h1 : Keep p a l1 := by
    unfold l1
    repeat' first
      | (with_reducible first
          | assumption | apply keep_putOutDesc | apply Keep.each | apply Keep.ite | intro _ _ _ | intro _ _)
      | (simp only [Keep.lit]; with_reducible refine Keep.asked rfl ?_)
      | split
  clear_value l1
  with_reducible repeat' first
    | assumption | apply keep_heldApply

theorem keep_safeSetCommitOp (x1 : Bool) (h : Keep p a b) : Keep p a (safeSetCommitOp x1 b).1 := by
  unfold safeSetCommitOp
  extract_lets l1 l2 l3 l4
  clear_value l1 l2
  have h4 : Keep p a l4 := by
    unfold l4
    repeat' first
      | (with_reducible first
          | assumption)
      | (simp only [Keep.lit]; with_reducible refine Keep.asked rfl ?_)
  clear_value l4
  with_reducible repeat' first
    | assumption | apply keep_setReg | apply keep_releaseUnnamed | apply Keep.iteFst

theorem keep_takeCancelled (x1 : Nat) (h : Keep p a b) : Keep p a (takeCancelled x1 b).1 := by
  unfold takeCancelled
  extract_lets l1
  have h1 : Keep p a l1.1 := by
    unfold l1
    with_reducible repeat' first
      | assumption | apply keep_takeCancelOp
  clear_value l1
  with_reducible repeat' first
    | assumption | apply keep_releaseUnnamed

theorem keep_execTakeCancel (x1 : Nat) (x2 : Src) (x3 : Nat) {b c : State} (e : execTakeCancel x1 x2 x3 b = .next c) (h : Keep p a b) : Keep p a c := by
  unfold execTakeCancel at e
  replace e := Host.Outcome.next.inj e
  subst e
  with_reducible repeat' first
    | assumption | apply keep_takeCancelled | apply keep_answer | apply Keep.begin | intro _ _

theorem keep_execEndpointRecord (x1 : Nat) (x2 : Nat) (x3 : Nat) {b c : State} (e : execEndpointRecord x1 x2 x3 b = .next c) (h : Keep p a b) : Keep p a c := by
  unfold execEndpointRecord at e
  replace e := Host.Outcome.next.inj e
  subst e
  with_reducible repeat' first
    | assumption | apply keep_endpointRecordOp | apply Keep.begin | apply keep_received | intro _ _

theorem keep_execStreamRecord (x1 : Nat) (x2 : Nat) (x3 : Nat) {b c : State} (e : execStreamRecord x1 x2 x3 b = .next c) (h : Keep p a b) : Keep p a c := by
  unfold execStreamRecord at e
  replace e := Host.Outcome.next.inj e
  subst e
  with_reducible repeat' first
    | assumption | apply keep_streamRecordOp | apply Keep.begin | apply keep_received | intro _ _

theorem keep_withdrawOp (x1 : Nat) (x2 : Nat) (h : Keep p a b) : Keep p a (withdrawOp x1 x2 b) := by
  unfold withdrawOp
  extract_lets l1 l2
  clear_value l1 l2
  repeat' first
    | (with_reducible first
        | assumption | apply Keep.each | apply keep_forgetDeparted | apply keep_endpointLeave
        | apply keep_streamLeft)
    | split

theorem keep_execWithdrawFolio (x1 : Nat) (x2 : Nat) (x3 : Nat) {b c : State} (e : execWithdrawFolio x1 x2 x3 b = .next c) (h : Keep p a b) : Keep p a c := by
  unfold execWithdrawFolio at e
  replace e := Host.Outcome.next.inj e
  subst e
  with_reducible repeat' first
    | assumption | apply keep_withdrawOp | apply Keep.begin | apply keep_received | intro _ _

theorem keep_execHeartbeatFolio (x1 : Nat) (x2 : Nat) (x3 : Nat) {b c : State} (e : execHeartbeatFolio x1 x2 x3 b = .next c) (h : Keep p a b) : Keep p a c := by
  unfold execHeartbeatFolio at e
  replace e := Host.Outcome.next.inj e
  subst e
  with_reducible repeat' first
    | assumption | apply Keep.begin | apply keep_received | apply keep_heartbeatOp | intro _ _

theorem keep_execHeartbeatWindowEnd (x1 : Nat) (x2 : Nat) {b c : State} (e : execHeartbeatWindowEnd x1 x2 b = .next c) (h : Keep p a b) : Keep p a c := by
  unfold execHeartbeatWindowEnd at e
  extract_lets l1 l2 l3 at e
  have h1 : Keep p a l1 := by
    unfold l1
    with_reducible repeat' first
      | assumption | apply Keep.begin
  clear_value l1
  have h2 : Keep p a l2 := by
    unfold l2
    with_reducible repeat' first
      | assumption | apply keep_endpointLeave
  clear_value l2
  replace e := Host.Outcome.next.inj e
  subst e
  repeat' first
    | (with_reducible first
        | assumption | apply keep_setEndpoint)
    | (simp only [Keep.lit]; with_reducible refine Keep.asked rfl ?_) | split

theorem keep_execDeviceHeartbeatSend (x1 : Nat) {b c : State} (e : execDeviceHeartbeatSend x1 b = .next c) (h : Keep p a b) : Keep p a c := by
  unfold execDeviceHeartbeatSend at e
  extract_lets l1 l2 l3 at e
  have h1 : Keep p a l1 := by
    unfold l1
    with_reducible repeat' first
      | assumption | apply Keep.begin
  clear_value l1
  have h3 : Keep p a l3 := by
    unfold l3
    repeat' first
      | (with_reducible first
          | assumption)
      | (simp only [Keep.lit]; with_reducible refine Keep.asked rfl ?_)
  clear_value l3
  replace e := Host.Outcome.next.inj e
  subst e
  with_reducible repeat' first
    | assumption | apply keep_pushCtl | apply Keep.each | apply Keep.ite | intro _ _ _

theorem keep_execStreamRecordRepeat (x1 : Nat) {b c : State} (e : execStreamRecordRepeat x1 b = .next c) (h : Keep p a b) : Keep p a c := by
  unfold execStreamRecordRepeat at e
  extract_lets l1 l2 l3 at e
  have h1 : Keep p a l1 := by
    unfold l1
    with_reducible repeat' first
      | assumption | apply Keep.begin
  clear_value l1
  have h3 : Keep p a l3 := by
    unfold l3
    repeat' first
      | (with_reducible first
          | assumption)
      | (simp only [Keep.lit]; with_reducible refine Keep.asked rfl ?_)
  clear_value l3
  replace e := Host.Outcome.next.inj e
  subst e
  with_reducible repeat' first
    | assumption | apply Keep.each | apply keep_announceOut | apply Keep.ite

theorem keep_execStallTimeout (x1 : Nat) (x2 : Nat) {b c : State} (e : execStallTimeout x1 x2 b = .next c) (h : Keep p a b) : Keep p a c := by
  unfold execStallTimeout at e
  extract_lets l1 l2 l3 at e
  have h1 : Keep p a l1 := by
    unfold l1
    with_reducible repeat' first
      | assumption | apply Keep.begin
  clear_value l1 l2
  have h3 : Keep p a l3 := by
    unfold l3
    with_reducible repeat' first
      | assumption | apply keep_abandonFrame | apply keep_modIns
  clear_value l3
  replace e := Host.Outcome.next.inj e
  subst e
  with_reducible repeat' first
    | assumption | apply keep_recheck | apply keep_strChanged | apply keep_raise | apply Keep.ite

theorem keep_execStrCommit (x1 : Nat) (x2 : Src) {b c : State} (e : execStrCommit x1 x2 b = .next c) (h : Keep p a b) : Keep p a c := by
  unfold execStrCommit at e
  replace e := Host.Outcome.next.inj e
  subst e
  with_reducible repeat' first
    | assumption | apply keep_answer | apply keep_strCommitOp | apply Keep.begin

theorem keep_stvClearOp (h : Keep p a b) : Keep p a (stvClearOp b).1 := by
  unfold stvClearOp
  with_reducible repeat' first
    | assumption | apply keep_modIns

theorem keep_execStvClear (x1 : Nat) (x2 : Src) {b c : State} (e : execStvClear x1 x2 b = .next c) (h : Keep p a b) : Keep p a c := by
  unfold execStvClear at e
  replace e := Host.Outcome.next.inj e
  subst e
  with_reducible repeat' first
    | assumption | apply keep_answer | apply keep_stvClearOp | apply Keep.begin

theorem keep_execSafeSetCommit (x1 : Nat) (x2 : Src) (x3 : Bool) {b c : State} (e : execSafeSetCommit x1 x2 x3 b = .next c) (h : Keep p a b) : Keep p a c := by
  unfold execSafeSetCommit at e
  replace e := Host.Outcome.next.inj e
  subst e
  with_reducible repeat' first
    | assumption | apply keep_safeSetCommitOp | apply keep_answer | apply Keep.begin | intro _ _

/-! Quiesce.lean. -/

theorem keep_qsChanged (x1 : Nat) (x2 : Nat) (h : Keep p a b) : Keep p a (qsChanged x1 x2 b) := by
  unfold qsChanged
  extract_lets l1
  repeat' first
    | (with_reducible first
        | assumption)
    | (simp only [Keep.lit]; with_reducible refine Keep.asked rfl ?_)

theorem keep_qsForced (x1 : Nat) (x2 : Nat) (x3 : Nat) (h : Keep p a b) : Keep p a (qsForced x1 x2 x3 b) := by
  unfold qsForced
  extract_lets l1 l2 l3
  clear_value l1
  have h3 : Keep p a l3 := by
    unfold l3
    repeat' first
      | (with_reducible first
          | assumption)
      | (simp only [Keep.lit]; with_reducible refine Keep.asked rfl ?_)
  clear_value l3
  with_reducible repeat' first
    | assumption | apply keep_raise | apply keep_count

theorem keep_portReturned (x1 : Nat) (h : Keep p a b) : Keep p a (portReturned x1 b) := by
  unfold portReturned
  extract_lets l1 l2 l3 l4
  clear_value l1
  have h2 : Keep p a l2 := by
    unfold l2
    with_reducible repeat' first
      | assumption | apply keep_modPort
  clear_value l2
  have h4 : Keep p a l4 := by
    unfold l4
    repeat' first
      | (with_reducible first
          | assumption)
      | (simp only [Keep.lit]; with_reducible refine Keep.asked rfl ?_)
  clear_value l4
  with_reducible repeat' first
    | assumption | apply keep_raise | apply Keep.ite

theorem keep_subsystemDone (x1 : Nat) (x2 : Nat) (h : Keep p a b) : Keep p a (subsystemDone x1 x2 b) := by
  unfold subsystemDone
  extract_lets l1 l2 l3
  clear_value l1
  have h2 : Keep p a l2 := by
    unfold l2
    with_reducible repeat' first
      | assumption | apply Keep.each | apply keep_portReturned | apply Keep.ite
  clear_value l2
  repeat' first
    | (with_reducible first
        | assumption | apply keep_setReg | apply keep_raise | apply Keep.ite)
    | (simp only [Keep.lit]; with_reducible refine Keep.asked rfl ?_)

theorem keep_unitDrained (x1 : Nat) (h : Keep p a b) : Keep p a (unitDrained x1 b) := by
  unfold unitDrained
  extract_lets l1 l2 l3
  clear_value l1 l2
  have h3 : Keep p a l3 := by
    unfold l3
    with_reducible repeat' first
      | assumption | apply keep_qsChanged | apply keep_setUnit
  clear_value l3
  with_reducible repeat' first
    | assumption | apply keep_subsystemDone | apply keep_recheck | apply Keep.ite

theorem keep_userBoundary (x1 : Nat) (h : Keep p a b) : Keep p a (userBoundary x1 b) := by
  unfold userBoundary
  with_reducible repeat' first
    | assumption | apply keep_modEngine | apply Keep.each | intro _ _ _

theorem keep_retryStreams (h : Keep p a b) : Keep p a (retryStreams b) := by
  unfold retryStreams
  with_reducible repeat' first
    | assumption | apply Keep.each | apply keep_enterFormat | apply Keep.ite | intro _ _ _

theorem keep_engineStops (x1 : Nat) (h : Keep p a b) : Keep p a (engineStops x1 b) := by
  unfold engineStops
  extract_lets l1 l2 l3
  clear_value l1
  have h2 : Keep p a l2 := by
    unfold l2
    with_reducible repeat' first
      | assumption | apply keep_forgetBufs | apply keep_abandonWrite | apply Keep.each | intro _ _ _ | intro _ _
  clear_value l2
  have h3 : Keep p a l3 := by
    unfold l3
    with_reducible repeat' first
      | assumption | apply keep_raise | apply keep_strChanged | apply keep_modIns | apply keep_abandonFrame
      | apply Keep.each | intro _ _ _ | intro _ _
  clear_value l3
  with_reducible repeat' first
    | assumption | apply keep_recheck

theorem keep_engineDrained (x1 : Nat) (h : Keep p a b) : Keep p a (engineDrained x1 b) := by
  unfold engineDrained
  extract_lets l1 l2 l3 l4
  clear_value l1 l2
  have h3 : Keep p a l3 := by
    unfold l3
    with_reducible repeat' first
      | assumption | apply keep_qsChanged | apply keep_setEngine
  clear_value l3
  have h4 : Keep p a l4 := by
    unfold l4
    with_reducible repeat' first
      | assumption | apply keep_engineStops | apply keep_subsystemDone | apply Keep.ite
  clear_value l4
  with_reducible repeat' first
    | assumption | apply keep_recheck | apply keep_retryStreams | apply Keep.ite

theorem keep_engineIsolate (x1 : Nat) (h : Keep p a b) : Keep p a (engineIsolate x1 b) := by
  unfold engineIsolate
  with_reducible repeat' first
    | assumption | apply keep_engineStops | apply keep_modEngine | apply keep_qsChanged

theorem keep_unitIsolate (x1 : Nat) (h : Keep p a b) : Keep p a (unitIsolate x1 b) := by
  unfold unitIsolate
  with_reducible repeat' first
    | assumption | apply keep_recheck | apply keep_modUnit | apply keep_qsChanged

/-! Compression.lean. -/

theorem keep_noteCoded (x1 : Nat) (x2 : Nat) (x3 : List Coded) (h : Keep p a b) : Keep p a (noteCoded x1 x2 x3 b) := by
  unfold noteCoded
  extract_lets l1 l2 l3 l4
  clear_value l1 l2
  have h3 : Keep p a l3 := by
    unfold l3
    with_reducible repeat' first
      | assumption | apply keep_modEngine
  clear_value l3
  have h4 : Keep p a l4 := by
    unfold l4
    with_reducible repeat' first
      | assumption | apply keep_count
  clear_value l4
  with_reducible repeat' first
    | assumption | apply keep_raiseLimited | apply Keep.each | apply Keep.ite | intro _ _ _ | intro _ _

theorem keep_noteInvalid (x1 : Nat) (x2 : Nat) (h : Keep p a b) : Keep p a (noteInvalid x1 x2 b) := by
  unfold noteInvalid
  extract_lets l1
  have h1 : Keep p a l1 := by
    unfold l1
    with_reducible repeat' first
      | assumption | apply keep_modEngine | apply keep_count
  clear_value l1
  with_reducible repeat' first
    | assumption | apply Keep.each | apply keep_raiseLimited | intro _ _ _

theorem keep_cmpApplyOp (x1 : Nat) (h : Keep p a b) : Keep p a (cmpApplyOp x1 b).1 := by
  unfold cmpApplyOp
  extract_lets l1 l2 l3
  clear_value l1 l2
  have h3 : Keep p a l3 := by
    unfold l3
    with_reducible repeat' first
      | assumption | apply keep_apply | apply keep_modEngine
  clear_value l3
  with_reducible repeat' first
    | assumption | apply keep_recheck | apply keep_retryStreams | apply Keep.iteFst

theorem keep_cmpDisableOp (x1 : Nat) (h : Keep p a b) : Keep p a (cmpDisableOp x1 b).1 := by
  unfold cmpDisableOp
  extract_lets l1 l2 l3
  clear_value l1 l2
  have h3 : Keep p a l3 := by
    unfold l3
    with_reducible repeat' first
      | assumption | apply keep_setEngine
  clear_value l3
  repeat' first
    | (with_reducible first
        | assumption | apply keep_engineStops | apply keep_qsChanged | apply keep_setEngine)
    | split

theorem keep_cmpEnableOp (x1 : Nat) (h : Keep p a b) : Keep p a (cmpEnableOp x1 b).1 := by
  unfold cmpEnableOp
  extract_lets l1
  clear_value l1
  repeat' first
    | (with_reducible first
        | assumption | apply keep_recheck | apply keep_retryStreams | apply keep_qsChanged | apply keep_setEngine)
    | split

theorem keep_cmpRetestOp (x1 : Nat) (x2 : Bool) (h : Keep p a b) : Keep p a (cmpRetestOp x1 x2 b).1 := by
  unfold cmpRetestOp
  extract_lets l1 l2
  clear_value l1
  have h2 : Keep p a l2 := by
    unfold l2
    with_reducible repeat' first
      | assumption | apply keep_qsChanged | apply keep_setEngine
  clear_value l2
  with_reducible repeat' first
    | assumption | apply keep_recheck | apply keep_retryStreams | apply keep_portReturned | apply Keep.iteFst

theorem keep_execCmpApply (x1 : Nat) (x2 : Src) (x3 : Nat) {b c : State} (e : execCmpApply x1 x2 x3 b = .next c) (h : Keep p a b) : Keep p a c := by
  unfold execCmpApply at e
  replace e := Host.Outcome.next.inj e
  subst e
  with_reducible repeat' first
    | assumption | apply keep_answer | apply keep_cmpApplyOp | apply Keep.begin | intro _ _

theorem keep_execCmpDisable (x1 : Nat) (x2 : Src) (x3 : Nat) {b c : State} (e : execCmpDisable x1 x2 x3 b = .next c) (h : Keep p a b) : Keep p a c := by
  unfold execCmpDisable at e
  replace e := Host.Outcome.next.inj e
  subst e
  with_reducible repeat' first
    | assumption | apply keep_answer | apply keep_cmpDisableOp | apply Keep.begin | intro _ _

theorem keep_execCmpEnable (x1 : Nat) (x2 : Src) (x3 : Nat) {b c : State} (e : execCmpEnable x1 x2 x3 b = .next c) (h : Keep p a b) : Keep p a c := by
  unfold execCmpEnable at e
  replace e := Host.Outcome.next.inj e
  subst e
  with_reducible repeat' first
    | assumption | apply keep_answer | apply keep_cmpEnableOp | apply Keep.begin | intro _ _

theorem keep_execCmpRetest (x1 : Nat) (x2 : Src) (x3 : Nat) (x4 : Bool) {b c : State} (e : execCmpRetest x1 x2 x3 x4 b = .next c) (h : Keep p a b) : Keep p a c := by
  unfold execCmpRetest at e
  replace e := Host.Outcome.next.inj e
  subst e
  with_reducible repeat' first
    | assumption | apply keep_answer | apply keep_cmpRetestOp | apply Keep.begin | intro _ _

theorem keep_cmpClearOp (x1 : Nat) (h : Keep p a b) : Keep p a (cmpClearOp x1 b).1 := by
  unfold cmpClearOp
  with_reducible repeat' first
    | assumption | apply keep_modEngine

theorem keep_execCmpClearCounters (x1 : Nat) (x2 : Src) (x3 : Nat) {b c : State} (e : execCmpClearCounters x1 x2 x3 b = .next c) (h : Keep p a b) : Keep p a c := by
  unfold execCmpClearCounters at e
  replace e := Host.Outcome.next.inj e
  subst e
  with_reducible repeat' first
    | assumption | apply keep_answer | apply keep_cmpClearOp | apply Keep.begin | intro _ _

theorem keep_cmpStatsClearOp (h : Keep p a b) : Keep p a (cmpStatsClearOp b).1 := by
  unfold cmpStatsClearOp
  extract_lets l1
  have h1 : Keep p a l1 := by
    unfold l1
    with_reducible repeat' first
      | assumption | apply keep_clear
  clear_value l1
  with_reducible repeat' first
    | assumption | apply keep_modEngine | apply Keep.each | intro _ _ _

theorem keep_execCmpStatsClear (x1 : Nat) (x2 : Src) {b c : State} (e : execCmpStatsClear x1 x2 b = .next c) (h : Keep p a b) : Keep p a c := by
  unfold execCmpStatsClear at e
  replace e := Host.Outcome.next.inj e
  subst e
  with_reducible repeat' first
    | assumption | apply keep_answer | apply Keep.begin | apply keep_cmpStatsClearOp

/-! RefCore.lean. -/

theorem keep_setSrc (x1 : Nat) (x2 : RefSource) (h : Keep p a b) : Keep p a (State.setSrc b x1 x2) := by
  unfold State.setSrc
  extract_lets l1
  repeat' first
    | (with_reducible first
        | assumption)
    | (simp only [Keep.lit]; with_reducible refine Keep.asked rfl ?_)

theorem keep_modSrc (x1 : Nat) (x2 : RefSource → RefSource) (h : Keep p a b) : Keep p a (State.modSrc b x1 x2) := by
  unfold State.modSrc
  with_reducible repeat' first
    | assumption | apply keep_setSrc

theorem keep_setDom (x1 : Nat) (x2 : Domain) (h : Keep p a b) : Keep p a (State.setDom b x1 x2) := by
  unfold State.setDom
  extract_lets l1
  repeat' first
    | (with_reducible first
        | assumption)
    | (simp only [Keep.lit]; with_reducible refine Keep.asked rfl ?_)

theorem keep_modDom (x1 : Nat) (x2 : Domain → Domain) (h : Keep p a b) : Keep p a (State.modDom b x1 x2) := by
  unfold State.modDom
  with_reducible repeat' first
    | assumption | apply keep_setDom

theorem keep_refRecord (x1 : Nat) (x2 : Option Nat) (x3 : Option Nat) (x4 : Nat) (h : Keep p a b) : Keep p a (refRecord x1 x2 x3 x4 b) := by
  unfold refRecord
  extract_lets l1
  clear_value l1
  with_reducible repeat' first
    | assumption | apply keep_cbWrite

theorem keep_refTo (x1 : Nat) (x2 : RefMode) (h : Keep p a b) : Keep p a (refTo x1 x2 b) := by
  unfold refTo
  with_reducible repeat' first
    | assumption | apply keep_modSrc

theorem keep_refLostEvent (x1 : Nat) (x2 : Nat) (h : Keep p a b) : Keep p a (refLostEvent x1 x2 b) := by
  unfold refLostEvent
  extract_lets l1
  clear_value l1
  with_reducible repeat' first
    | assumption | apply keep_raise | apply Keep.ite

theorem keep_refInactive (x1 : Nat) (h : Keep p a b) : Keep p a (refInactive x1 b) := by
  unfold refInactive
  extract_lets l1 l2
  clear_value l1
  have h2 : Keep p a l2 := by
    unfold l2
    with_reducible repeat' first
      | assumption | apply keep_modSrc
  clear_value l2
  with_reducible repeat' first
    | assumption | apply keep_refLostEvent | apply keep_refTo | apply Keep.ite

theorem keep_refActive (x1 : Nat) (h : Keep p a b) : Keep p a (refActive x1 b) := by
  unfold refActive
  with_reducible repeat' first
    | assumption | apply keep_refTo | apply keep_modSrc | apply Keep.ite

theorem keep_refRequalify (x1 : Nat) (h : Keep p a b) : Keep p a (refRequalify x1 b) := by
  unfold refRequalify
  extract_lets l1
  clear_value l1
  with_reducible repeat' first
    | assumption | apply keep_refLostEvent | apply keep_refTo | apply keep_modSrc | apply Keep.ite

theorem keep_laneClock (x1 : Nat) (x2 : Bool) (h : Keep p a b) : Keep p a (laneClock x1 x2 b) := by
  unfold laneClock
  with_reducible repeat' first
    | assumption | apply Keep.each | apply keep_refInactive | apply keep_refActive | apply Keep.ite | intro _ _ _

theorem keep_refWindow (x1 : Nat) (x2 : Int) (h : Keep p a b) : Keep p a (refWindow x1 x2 b) := by
  unfold refWindow
  extract_lets l1 l2 l3 l4 l5 l6 l7 l8 l9
  clear_value l1 l2 l3
  have h4 : Keep p a l4 := by
    unfold l4
    with_reducible repeat' first
      | assumption | apply keep_modSrc
  clear_value l4
  have h5 : Keep p a l5 := by
    unfold l5
    with_reducible repeat' first
      | assumption | apply keep_setReg
  clear_value l5 l6 l7 l8
  have h9 : ∀ (s : State), Keep p a s → Keep p a (l9 s) := by
    intro s h
    unfold l9
    with_reducible repeat' first
      | assumption | apply keep_refLostEvent | apply keep_refTo | apply keep_modSrc
  clear_value l9
  repeat' first
    | (with_reducible first
        | assumption | apply h9 | apply keep_refTo | apply keep_raise | apply keep_modSrc)
    | split

theorem keep_refOutvote (x1 : Nat) (x2 : List Nat) (h : Keep p a b) : Keep p a (refOutvote x1 x2 b) := by
  unfold refOutvote
  extract_lets l1 l2 l3 l4
  have h1 : Keep p a l1 := by
    unfold l1
    with_reducible repeat' first
      | assumption | apply keep_modSrc
  clear_value l1
  have h2 : Keep p a l2 := by
    unfold l2
    with_reducible repeat' first
      | assumption | apply keep_raise
  clear_value l2
  have h3 : Keep p a l3 := by
    unfold l3
    with_reducible repeat' first
      | assumption | apply keep_refLostEvent | apply keep_refTo
  clear_value l3
  have h4 : Keep p a l4.2 := by
    unfold l4
    with_reducible repeat' first
      | assumption | apply Keep.drawBytes
  clear_value l4
  with_reducible repeat' first
    | assumption | apply keep_cbWrite

theorem keep_refCompare (x1 : Nat) (x2 : Nat) (h : Keep p a b) : Keep p a (refCompare x1 x2 b) := by
  unfold refCompare
  extract_lets l1 l2 l3 l4 l5 l6
  clear_value l1
  have h2 : Keep p a l2 := by
    unfold l2
    with_reducible repeat' first
      | assumption | apply keep_modSrc
  clear_value l2
  have h3 : ∀ (s : State) (y1 : Nat), Keep p a s → Keep p a (l3 s y1) := by
    intro s y1 h
    unfold l3
    with_reducible repeat' first
      | assumption | apply keep_modSrc
  clear_value l3
  have h4 : Keep p a l4 := by
    unfold l4
    with_reducible repeat' first
      | assumption | apply h3 | apply Keep.ite
  clear_value l4 l5 l6
  with_reducible repeat' first
    | assumption | apply keep_raise | apply keep_modSrc | apply keep_refOutvote | apply Keep.ite

theorem keep_refDisagreements (x1 : Nat) (h : Keep p a b) : Keep p a (refDisagreements x1 b) := by
  unfold refDisagreements
  with_reducible repeat' first
    | assumption | apply keep_refCompare | apply Keep.each | intro _ _ _

theorem keep_refAgreement (x1 : Nat) (h : Keep p a b) : Keep p a (refAgreement x1 b) := by
  unfold refAgreement
  extract_lets l1 l2 l3
  clear_value l1 l2 l3
  with_reducible repeat' first
    | assumption | apply keep_setSrc | apply Keep.ite

theorem keep_domTo (x1 : Nat) (x2 : DomMode) (h : Keep p a b) : Keep p a (domTo x1 x2 b) := by
  unfold domTo
  with_reducible repeat' first
    | assumption | apply keep_modDom

theorem keep_domLoop (x1 : Nat) (h : Keep p a b) : Keep p a (domLoop x1 b) := by
  unfold domLoop
  with_reducible repeat' first
    | assumption | apply keep_modDom

theorem keep_domSwitch (x1 : Nat) (x2 : Nat) (x3 : Nat) (x4 : List (Nat × Int)) (h : Keep p a b) : Keep p a (domSwitch x1 x2 x3 x4 b) := by
  unfold domSwitch
  extract_lets l1 l2 l3 l4 l5 l6 l7
  clear_value l1 l2 l3 l4
  have h5 : Keep p a l5 := by
    unfold l5
    with_reducible repeat' first
      | assumption | apply keep_setDom
  clear_value l5
  have h6 : Keep p a l6 := by
    unfold l6
    with_reducible repeat' first
      | assumption | apply keep_domTo
  clear_value l6
  have h7 : Keep p a l7 := by
    unfold l7
    with_reducible repeat' first
      | assumption | apply keep_refRecord | apply keep_count
  clear_value l7
  with_reducible repeat' first
    | assumption | apply keep_raise

theorem keep_domLost (x1 : Nat) (x2 : Nat) (x3 : Nat) (h : Keep p a b) : Keep p a (domLost x1 x2 x3 b) := by
  unfold domLost
  extract_lets l1 l2 l3 l4 l5
  clear_value l1 l2
  have h3 : Keep p a l3 := by
    unfold l3
    with_reducible repeat' first
      | assumption | apply keep_domTo | apply keep_setDom
  clear_value l3 l4
  have h5 : Keep p a l5 := by
    unfold l5
    with_reducible repeat' first
      | assumption | apply keep_domTo | apply keep_setDom
  clear_value l5
  with_reducible repeat' first
    | assumption | apply keep_refRecord | apply Keep.ite

theorem keep_domEval (x1 : List (Nat × Int)) (x2 : Nat) (h : Keep p a b) : Keep p a (domEval x1 x2 b) := by
  unfold domEval
  extract_lets l1 l2 l3 l4 l5
  clear_value l1 l2 l3 l4
  have h5 : ∀ (s : State), Keep p a s → Keep p a (l5 s) := by
    intro s h
    unfold l5
    repeat' first
      | (with_reducible first
          | assumption | apply keep_domLost | apply keep_domSwitch | apply keep_raise | apply Keep.ite)
      | split
  clear_value l5
  with_reducible repeat' first
    | assumption | apply h5 | apply keep_domSwitch | apply Keep.ite

/-! LaneCore.lean. -/

theorem keep_breakFrames (x1 : Nat) (h : Keep p a b) : Keep p a (breakFrames x1 b) := by
  unfold breakFrames
  with_reducible repeat' first
    | assumption | apply keep_modIns | apply Keep.each | apply Keep.ite | intro _ _ _

theorem keep_phaseLost (x1 : Nat) (h : Keep p a b) : Keep p a (phaseLost x1 b) := by
  unfold phaseLost
  with_reducible repeat' first
    | assumption | apply Keep.each | apply keep_raise | apply keep_setPhase | intro _ _ _

theorem keep_leaveReady (x1 : Nat) (h : Keep p a b) : Keep p a (leaveReady x1 b) := by
  unfold leaveReady
  with_reducible repeat' first
    | assumption | apply keep_laneClock | apply keep_phaseLost | apply keep_breakFrames | apply Keep.ite

theorem keep_startTraining (x1 : Nat) (h : Keep p a b) : Keep p a (startTraining x1 b) := by
  unfold startTraining
  extract_lets l1 l2 l3
  have h1 : Keep p a l1 := by
    unfold l1
    with_reducible repeat' first
      | assumption | apply keep_leaveReady
  clear_value l1 l2
  have h3 : Keep p a l3 := by
    unfold l3
    repeat' first
      | (with_reducible first
          | assumption | apply keep_setForce)
      | split
  clear_value l3
  with_reducible repeat' first
    | assumption | apply keep_setLane

theorem keep_lockLost (x1 : Nat) (h : Keep p a b) : Keep p a (lockLost x1 b) := by
  unfold lockLost
  extract_lets l1
  have h1 : Keep p a l1 := by
    unfold l1
    with_reducible repeat' first
      | assumption | apply keep_modLane | apply keep_leaveReady
  clear_value l1
  with_reducible repeat' first
    | assumption | apply keep_raise | apply keep_linkPhyDown

theorem keep_laneOff (x1 : Nat) (h : Keep p a b) : Keep p a (laneOff x1 b) := by
  unfold laneOff
  with_reducible repeat' first
    | assumption | apply keep_modLane | apply keep_leaveReady | apply keep_linkPhyDown

theorem keep_holdAdaptation (x1 : Nat) (x2 : Nat) (h : Keep p a b) : Keep p a (holdAdaptation x1 x2 b) := by
  unfold holdAdaptation
  extract_lets l1
  clear_value l1
  with_reducible repeat' first
    | assumption | apply keep_setLane | apply keep_raiseLimited | apply Keep.whenever | apply Keep.ite
    | intro _ _ _ | intro _ _

theorem keep_endHold (x1 : Nat) (h : Keep p a b) : Keep p a (endHold x1 b) := by
  unfold endHold
  extract_lets l1
  clear_value l1
  with_reducible repeat' first
    | assumption | apply keep_setLane | apply Keep.ite

theorem keep_countHeldData (x1 : Nat) (h : Keep p a b) : Keep p a (countHeldData x1 b) := by
  unfold countHeldData
  with_reducible repeat' first
    | assumption | apply keep_modLane | apply keep_endHold | apply Keep.ite

theorem keep_laneRetrain (x1 : Nat) (h : Keep p a b) : Keep p a (laneRetrain x1 b) := by
  unfold laneRetrain
  extract_lets l1 l2 l3
  have h1 : Keep p a l1 := by
    unfold l1
    with_reducible repeat' first
      | assumption | apply keep_modLane
  clear_value l1
  have h2 : Keep p a l2 := by
    unfold l2
    with_reducible repeat' first
      | assumption | apply keep_modLink
  clear_value l2
  have h3 : Keep p a l3 := by
    unfold l3
    with_reducible repeat' first
      | assumption | apply keep_sendBond
  clear_value l3
  repeat' first
    | (with_reducible first
        | assumption | apply keep_modLink | apply keep_modLane | apply keep_startTraining | apply keep_linkPhyDown)
    | split

/-! Governor.lean. -/

theorem keep_modGov (x1 : GovState → GovState) (h : Keep p a b) : Keep p a (State.modGov b x1) := by
  unfold State.modGov
  extract_lets l1
  repeat' first
    | (with_reducible first
        | assumption)
    | (simp only [Keep.lit]; with_reducible refine Keep.asked rfl ?_)

theorem keep_govWrite (x1 : Nat) (h : Keep p a b) : Keep p a (govWrite x1 b) := by
  unfold govWrite
  extract_lets l1
  have h1 : Keep p a l1 := by
    unfold l1
    with_reducible repeat' first
      | assumption | apply keep_setReg
  clear_value l1
  with_reducible repeat' first
    | assumption | apply keep_setReg | apply keep_emit

theorem keep_govNominal (h : Keep p a b) : Keep p a (govNominal b) := by
  unfold govNominal
  with_reducible repeat' first
    | assumption | apply keep_govWrite | apply Keep.ite

theorem keep_govSweepStarts (h : Keep p a b) : Keep p a (govSweepStarts b) := by
  unfold govSweepStarts
  with_reducible repeat' first
    | assumption | apply keep_setReg | apply keep_modGov | apply keep_govNominal | apply Keep.ite

theorem keep_govSweepEnds (x1 : Bool) (h : Keep p a b) : Keep p a (govSweepEnds x1 b) := by
  unfold govSweepEnds
  with_reducible repeat' first
    | assumption | apply keep_setReg | apply keep_modGov | apply Keep.ite

end Sys2Proof.Laws
end

