-- ==== Sys2Proof/Laws/KeepLanes.lean ====
section
/-! SUPPORT. What Keep says of the operations of DRAM channels and the PHY: one lemma for each. -/

namespace Sys2Proof.Laws

open Machine

variable {p : Prop} {a b : State}

/-! DramCore.lean. -/

theorem keep_setPlace (x1 : Nat) (x2 : List (List Nat)) (h : Keep p a b) : Keep p a (State.setPlace b x1 x2) := by
  unfold State.setPlace
  extract_lets l1
  repeat' first
    | (with_reducible first
        | assumption)
    | (simp only [Keep.lit]; with_reducible refine Keep.asked rfl ?_)

theorem keep_evacMove (x1 : Nat) (x2 : Nat) (h : Keep p a b) : Keep p a (evacMove x1 x2 b) := by
  unfold evacMove
  extract_lets l1
  have h1 : Keep p a l1.1 := by
    unfold l1
    with_reducible repeat' first
      | assumption | apply keep_setPlace | apply Keep.foldlFst | intro _ _ _
  clear_value l1
  with_reducible repeat' first
    | assumption

theorem keep_wipeBuf (x1 : Nat) (h : Keep p a b) : Keep p a (wipeBuf x1 b) :=
  h.withMem (twf_filter _ _ _)

theorem keep_loseBuffers (x1 : List Nat) (h : Keep p a b) : Keep p a (loseBuffers x1 b) := by
  unfold loseBuffers
  extract_lets l1 l2 l3 l4 l5 l6 l7
  have h3 : Keep p a l3 := by
    unfold l3
    with_reducible repeat' first
      | assumption | apply keep_modBuf | apply Keep.each | apply Keep.ite | intro _ _ _ | intro _ _
  clear_value l3
  have h4 : Keep p a l4 := by
    unfold l4
    with_reducible repeat' first
      | assumption | apply keep_forgetBufs
  clear_value l4
  have h6 : Keep p a l6 := by
    unfold l6
    repeat' first
      | (with_reducible first
          | assumption)
      | (simp only [Keep.lit]; with_reducible refine Keep.asked rfl ?_)
  clear_value l6
  have h7 : Keep p a l7 := by
    unfold l7
    with_reducible repeat' first
      | assumption | apply keep_rtLose | apply keep_rtDropShown | apply Keep.each | intro _ _ _ | intro _ _
  clear_value l7
  with_reducible repeat' first
    | assumption | apply keep_raise | apply Keep.each | intro _ _ _ | intro _ _

theorem keep_checkC0Pools (h : Keep p a b) : Keep p a (checkC0Pools b) := by
  unfold checkC0Pools
  extract_lets l1 l2 l3 l4 l5
  clear_value l1 l2 l3 l4
  repeat' first
    | (with_reducible first
        | assumption | apply keep_recheck | apply Keep.ite)
    | (simp only [Keep.lit]; with_reducible refine Keep.asked rfl ?_)

theorem keep_chCmdRuns (x1 : Nat) (x2 : Nat) (h : Keep p a b) : Keep p a (chCmdRuns x1 x2 b) := by
  unfold chCmdRuns
  extract_lets l1
  repeat' first
    | (with_reducible first
        | assumption | apply keep_setReg)
    | (simp only [Keep.lit]; with_reducible refine Keep.asked rfl ?_)

theorem keep_chCmdEnds (x1 : Nat) (x2 : Nat) (x3 : Nat) (h : Keep p a b) : Keep p a (chCmdEnds x1 x2 x3 b) := by
  unfold chCmdEnds
  extract_lets l1
  repeat' first
    | (with_reducible first
        | assumption | apply keep_setReg | apply Keep.ite)
    | (simp only [Keep.lit]; with_reducible refine Keep.asked rfl ?_)

theorem keep_finishRetire (x1 : Nat) (h : Keep p a b) : Keep p a (finishRetire x1 b) := by
  unfold finishRetire
  extract_lets l1 l2
  clear_value l1
  have h2 : Keep p a l2 := by
    unfold l2
    with_reducible repeat' first
      | assumption | apply keep_loseBuffers | apply keep_modChan
  clear_value l2
  with_reducible repeat' first
    | assumption | apply keep_checkC0Pools | apply keep_recheck | apply keep_raiseAs | apply keep_chCmdEnds

theorem keep_startEvac (x1 : Nat) (h : Keep p a b) : Keep p a (startEvac x1 b) := by
  unfold startEvac
  extract_lets l1
  clear_value l1
  with_reducible repeat' first
    | assumption | apply keep_setChan | apply Keep.whenever | apply keep_raise | apply Keep.ite | intro _ _

theorem keep_runChange (x1 : Nat) (h : Keep p a b) : Keep p a (runChange x1 b) := by
  unfold runChange
  extract_lets l1
  clear_value l1
  with_reducible repeat' first
    | assumption | apply keep_startEvac | apply keep_modChan | apply keep_laneRetrain | apply Keep.ite

theorem keep_nextChange (x1 : Nat) (h : Keep p a b) : Keep p a (nextChange x1 b) := by
  induction x1 generalizing b with
  | zero => exact h
  | succ n ih =>
    unfold nextChange
    split
    · rename_i k ks _ _
      have h1 : Keep p a { b with sup := { b.sup with inservice := some k, waiting := ks } } := h.like rfl
      have h2 := keep_runChange k h1
      exact .ite (ih (h2.like rfl)) h2
    · exact h

theorem keep_askChange (x1 : Nat) (h : Keep p a b) : Keep p a (askChange x1 b) := by
  unfold askChange
  extract_lets l1
  repeat' first
    | (with_reducible first
        | assumption | apply keep_nextChange | apply Keep.ite)
    | (simp only [Keep.lit]; with_reducible refine Keep.asked rfl ?_)

theorem keep_beginPart (x1 : Nat) (h : Keep p a b) : Keep p a (beginPart x1 b) := by
  unfold beginPart
  with_reducible repeat' first
    | assumption | apply keep_modChan | apply Keep.ite

theorem keep_nextSingle (h : Keep p a b) : Keep p a (nextSingle b) := by
  unfold nextSingle
  extract_lets l1 l2 l3 l4
  clear_value l1 l3
  have h4 : Keep p a l4 := by
    unfold l4
    repeat' first
      | (with_reducible first
          | assumption)
      | (simp only [Keep.lit]; with_reducible refine Keep.asked rfl ?_)
  clear_value l4
  repeat' first
    | (with_reducible first
        | assumption | apply keep_beginPart | apply keep_govSweepStarts)
    | split

theorem keep_sweepFrom (x1 : Nat) (h : Keep p a b) : Keep p a (sweepFrom x1 b) := by
  unfold sweepFrom
  extract_lets l1 l2 l3
  clear_value l2
  have h3 : Keep p a l3 := by
    unfold l3
    repeat' first
      | (with_reducible first
          | assumption)
      | (simp only [Keep.lit]; with_reducible refine Keep.asked rfl ?_)
  clear_value l3
  repeat' first
    | (with_reducible first
        | assumption | apply keep_beginPart | apply keep_nextSingle | apply keep_govSweepEnds)
    | (simp only [Keep.lit]; with_reducible refine Keep.asked rfl ?_) | split

theorem keep_sweepSingle (x1 : Nat) (h : Keep p a b) : Keep p a (sweepSingle x1 b) := by
  unfold sweepSingle
  extract_lets l1 l2 l3 l4
  clear_value l1 l3
  have h4 : Keep p a l4 := by
    unfold l4
    repeat' first
      | (with_reducible first
          | assumption)
      | (simp only [Keep.lit]; with_reducible refine Keep.asked rfl ?_)
  clear_value l4
  with_reducible repeat' first
    | assumption | apply keep_nextSingle | apply Keep.ite

theorem keep_endChange (x1 : Nat) (h : Keep p a b) : Keep p a (endChange x1 b) := by
  unfold endChange
  extract_lets l1 l2
  have h2 : Keep p a l2 := by
    unfold l2
    repeat' first
      | (with_reducible first
          | assumption | apply keep_nextChange | apply Keep.ite)
      | (simp only [Keep.lit]; with_reducible refine Keep.asked rfl ?_)
  clear_value l2
  with_reducible repeat' first
    | assumption | apply keep_sweepFrom | apply Keep.ite

theorem keep_retireNow (x1 : Nat) (h : Keep p a b) : Keep p a (retireNow x1 b) := by
  unfold retireNow
  extract_lets l1 l2 l3
  have h1 : Keep p a l1 := by
    unfold l1
    with_reducible repeat' first
      | assumption | apply keep_modChan
  clear_value l1
  have h3 : Keep p a l3 := by
    unfold l3
    repeat' first
      | (with_reducible first
          | assumption)
      | (simp only [Keep.lit]; with_reducible refine Keep.asked rfl ?_)
  clear_value l3
  with_reducible repeat' first
    | assumption | apply keep_startEvac

theorem keep_askRetrain (x1 : Nat) (h : Keep p a b) : Keep p a (askRetrain x1 b) := by
  unfold askRetrain
  with_reducible repeat' first
    | assumption | apply keep_askChange | apply keep_modLane | apply Keep.ite

theorem keep_calendarEmptied (x1 : Nat) (h : Keep p a b) : Keep p a (calendarEmptied x1 b) := by
  unfold calendarEmptied
  with_reducible repeat' first
    | assumption | apply keep_askChange | apply Keep.ite

theorem keep_laneChangeEnds (x1 : Nat) (h : Keep p a b) : Keep p a (laneChangeEnds x1 b) := by
  unfold laneChangeEnds
  with_reducible repeat' first
    | assumption | apply keep_endChange | apply Keep.ite

/-! Phy.lean. -/

theorem keep_retryRates (x1 : Nat) (x2 : Nat) (x3 : Nat) (h : Keep p a b) : Keep p a (retryRates x1 x2 x3 b) := by
  unfold retryRates
  with_reducible repeat' first
    | assumption | apply keep_startTraining | apply Keep.ite

theorem keep_phyApplyOp (x1 : Nat) (h : Keep p a b) : Keep p a (phyApplyOp x1 b).1 := by
  unfold phyApplyOp
  extract_lets l1 l2 l3 l4 l5
  clear_value l1 l2 l3
  have h4 : Keep p a l4 := by
    unfold l4
    with_reducible repeat' first
      | assumption | apply keep_setForce
  clear_value l4
  have h5 : Keep p a l5 := by
    unfold l5
    with_reducible repeat' first
      | assumption | apply keep_modLane
  clear_value l5
  with_reducible repeat' first
    | assumption | apply keep_retryRates | apply keep_laneChangeEnds | apply keep_laneOff | apply Keep.ite | apply Keep.iteFst

theorem keep_phyRetrainOp (x1 : Nat) (h : Keep p a b) : Keep p a (phyRetrainOp x1 b).1 := by
  unfold phyRetrainOp
  with_reducible repeat' first
    | assumption | apply keep_askChange | apply Keep.iteFst

theorem keep_phyLowPowerOp (x1 : Nat) (x2 : Nat) (h : Keep p a b) : Keep p a (phyLowPowerOp x1 x2 b).1 := by
  unfold phyLowPowerOp
  extract_lets l1
  clear_value l1
  with_reducible repeat' first
    | assumption | apply keep_pushCtl | apply keep_setLane | apply Keep.iteFst

theorem keep_wakeLane (x1 : Nat) (h : Keep p a b) : Keep p a (wakeLane x1 b) := by
  unfold wakeLane
  extract_lets l1
  clear_value l1
  with_reducible repeat' first
    | assumption | apply keep_setLane | apply keep_emit | apply Keep.ite

theorem keep_phyWakeOp (x1 : Nat) (h : Keep p a b) : Keep p a (phyWakeOp x1 b).1 := by
  unfold phyWakeOp
  with_reducible repeat' first
    | assumption | apply keep_wakeLane

theorem keep_beginLoop (x1 : Nat) (x2 : Nat) (x3 : Nat) (x4 : Nat) (h : Keep p a b) : Keep p a (beginLoop x1 x2 x3 x4 b) := by
  unfold beginLoop
  extract_lets l1 l2
  have h1 : Keep p a l1 := by
    unfold l1
    with_reducible repeat' first
      | assumption | apply keep_modLane | apply keep_leaveReady
  clear_value l1
  have h2 : Keep p a l2 := by
    unfold l2
    with_reducible repeat' first
      | assumption | apply keep_leaveUp | apply Keep.ite
  clear_value l2
  with_reducible repeat' first
    | assumption | apply keep_modLink

theorem keep_phyLoopStartOp (x1 : Nat) (h : Keep p a b) : Keep p a (phyLoopStartOp x1 b).1 := by
  unfold phyLoopStartOp
  extract_lets l1 l2 l3
  clear_value l1 l2 l3
  with_reducible repeat' first
    | assumption | apply keep_pushCtl | apply keep_modLink | apply keep_beginLoop | apply Keep.iteFst

theorem keep_endLoop (x1 : Nat) (x2 : Nat) (x3 : Nat) (x4 : Nat) (h : Keep p a b) : Keep p a (endLoop x1 x2 x3 x4 b) := by
  unfold endLoop
  extract_lets l1 l2 l3
  clear_value l1
  have h2 : Keep p a l2 := by
    unfold l2
    with_reducible repeat' first
      | assumption | apply keep_emit | apply Keep.ite
  clear_value l2 l3
  with_reducible repeat' first
    | assumption | apply keep_setLane | apply keep_startTraining

theorem keep_phyLoopStopOp (x1 : Nat) (h : Keep p a b) : Keep p a (phyLoopStopOp x1 b).1 := by
  unfold phyLoopStopOp
  extract_lets l1
  clear_value l1
  with_reducible repeat' first
    | assumption | apply keep_endLoop | apply Keep.iteFst

theorem keep_phySweepOp (x1 : Nat) (h : Keep p a b) : Keep p a (phySweepOp x1 b).1 := by
  unfold phySweepOp
  with_reducible repeat' first
    | assumption | apply keep_sweepSingle | apply Keep.iteFst

theorem keep_phyClearCountsOp (x1 : Nat) (h : Keep p a b) : Keep p a (phyClearCountsOp x1 b).1 := by
  unfold phyClearCountsOp
  with_reducible repeat' first
    | assumption | apply keep_modLane

theorem keep_execPhyApply (x1 : Nat) (x2 : Src) (x3 : Nat) {b c : State} (e : execPhyApply x1 x2 x3 b = .next c) (h : Keep p a b) : Keep p a c := by
  unfold execPhyApply at e
  replace e := Host.Outcome.next.inj e
  subst e
  with_reducible repeat' first
    | assumption | apply keep_phyApplyOp | apply keep_answer | apply Keep.begin | intro _ _

theorem keep_execPhyRetrain (x1 : Nat) (x2 : Src) (x3 : Nat) {b c : State} (e : execPhyRetrain x1 x2 x3 b = .next c) (h : Keep p a b) : Keep p a c := by
  unfold execPhyRetrain at e
  replace e := Host.Outcome.next.inj e
  subst e
  with_reducible repeat' first
    | assumption | apply keep_answer | apply keep_phyRetrainOp | apply Keep.begin | intro _ _

theorem keep_execPhyQuiet (x1 : Nat) (x2 : Src) (x3 : Nat) {b c : State} (e : execPhyQuiet x1 x2 x3 b = .next c) (h : Keep p a b) : Keep p a c := by
  unfold execPhyQuiet at e
  replace e := Host.Outcome.next.inj e
  subst e
  with_reducible repeat' first
    | assumption | apply keep_answer | apply keep_phyLowPowerOp | apply Keep.begin | intro _ _

theorem keep_execPhyDormant (x1 : Nat) (x2 : Src) (x3 : Nat) {b c : State} (e : execPhyDormant x1 x2 x3 b = .next c) (h : Keep p a b) : Keep p a c := by
  unfold execPhyDormant at e
  replace e := Host.Outcome.next.inj e
  subst e
  with_reducible repeat' first
    | assumption | apply keep_answer | apply keep_phyLowPowerOp | apply Keep.begin | intro _ _

theorem keep_execPhyWake (x1 : Nat) (x2 : Src) (x3 : Nat) {b c : State} (e : execPhyWake x1 x2 x3 b = .next c) (h : Keep p a b) : Keep p a c := by
  unfold execPhyWake at e
  replace e := Host.Outcome.next.inj e
  subst e
  with_reducible repeat' first
    | assumption | apply keep_phyWakeOp | apply keep_answer | apply Keep.begin | intro _ _

theorem keep_execPhyLoopStart (x1 : Nat) (x2 : Src) (x3 : Nat) {b c : State} (e : execPhyLoopStart x1 x2 x3 b = .next c) (h : Keep p a b) : Keep p a c := by
  unfold execPhyLoopStart at e
  replace e := Host.Outcome.next.inj e
  subst e
  with_reducible repeat' first
    | assumption | apply keep_answer | apply keep_phyLoopStartOp | apply Keep.begin | intro _ _

theorem keep_execPhyLoopStop (x1 : Nat) (x2 : Src) (x3 : Nat) {b c : State} (e : execPhyLoopStop x1 x2 x3 b = .next c) (h : Keep p a b) : Keep p a c := by
  unfold execPhyLoopStop at e
  replace e := Host.Outcome.next.inj e
  subst e
  with_reducible repeat' first
    | assumption | apply keep_phyLoopStopOp | apply keep_answer | apply Keep.begin | intro _ _

theorem keep_execPhySweep (x1 : Nat) (x2 : Src) (x3 : Nat) {b c : State} (e : execPhySweep x1 x2 x3 b = .next c) (h : Keep p a b) : Keep p a c := by
  unfold execPhySweep at e
  replace e := Host.Outcome.next.inj e
  subst e
  with_reducible repeat' first
    | assumption | apply keep_answer | apply keep_phySweepOp | apply Keep.begin | intro _ _

theorem keep_execPhyClearCounts (x1 : Nat) (x2 : Src) (x3 : Nat) {b c : State} (e : execPhyClearCounts x1 x2 x3 b = .next c) (h : Keep p a b) : Keep p a c := by
  unfold execPhyClearCounts at e
  replace e := Host.Outcome.next.inj e
  subst e
  with_reducible repeat' first
    | assumption | apply keep_answer | apply Keep.begin | apply keep_phyClearCountsOp | intro _ _

theorem keep_execCalibrationDone (x1 : Nat) (x2 : Nat) {b c : State} (e : execCalibrationDone x1 x2 b = .next c) (h : Keep p a b) : Keep p a c := by
  unfold execCalibrationDone at e
  extract_lets l1 at e
  have h1 : Keep p a l1 := by
    unfold l1
    with_reducible repeat' first
      | assumption | apply Keep.begin
  clear_value l1
  replace e := Host.Outcome.next.inj e
  subst e
  with_reducible repeat' first
    | assumption | apply keep_modLane | apply keep_startTraining | apply Keep.ite

theorem keep_laneReady (x1 : Nat) (x2 : Bool) (h : Keep p a b) : Keep p a (laneReady x1 x2 b) := by
  unfold laneReady
  extract_lets l1 l2
  clear_value l1
  have h2 : Keep p a l2 := by
    unfold l2
    with_reducible repeat' first
      | assumption | apply keep_setLane
  clear_value l2
  with_reducible repeat' first
    | assumption | apply keep_linkPhyReady | apply keep_laneClock | apply keep_laneChangeEnds

theorem keep_trainingOutcome (x1 : Nat) (x2 : Bool) (x3 : List Nat) (h : Keep p a b) : Keep p a (trainingOutcome x1 x2 x3 b) := by
  unfold trainingOutcome
  extract_lets l1 l2
  clear_value l1 l2
  with_reducible repeat' first
    | assumption | apply keep_setLane | apply keep_laneReady | apply keep_laneChangeEnds | apply keep_linkPhyDown
    | apply Keep.ite

theorem keep_execTrainingDone (x1 : Nat) (x2 : Nat) (x3 : Bool) (x4 : List Nat) {b c : State} (e : execTrainingDone x1 x2 x3 x4 b = .next c) (h : Keep p a b) : Keep p a c := by
  unfold execTrainingDone at e
  extract_lets l1 at e
  have h1 : Keep p a l1 := by
    unfold l1
    with_reducible repeat' first
      | assumption | apply Keep.begin
  clear_value l1
  replace e := Host.Outcome.next.inj e
  subst e
  with_reducible repeat' first
    | assumption | apply keep_trainingOutcome | apply Keep.ite

theorem keep_execNoSignalTimeout (x1 : Nat) (x2 : Nat) {b c : State} (e : execNoSignalTimeout x1 x2 b = .next c) (h : Keep p a b) : Keep p a c := by
  unfold execNoSignalTimeout at e
  extract_lets l1 at e
  have h1 : Keep p a l1 := by
    unfold l1
    with_reducible repeat' first
      | assumption | apply Keep.begin
  clear_value l1
  replace e := Host.Outcome.next.inj e
  subst e
  with_reducible repeat' first
    | assumption | apply keep_modLane | apply Keep.ite

theorem keep_execRelockDone (x1 : Nat) (x2 : Nat) (x3 : Bool) (x4 : Bool) (x5 : Bool) {b c : State} (e : execRelockDone x1 x2 x3 x4 x5 b = .next c) (h : Keep p a b) : Keep p a c := by
  unfold execRelockDone at e
  extract_lets l1 l2 l3 at e
  have h1 : Keep p a l1 := by
    unfold l1
    with_reducible repeat' first
      | assumption | apply Keep.begin
  clear_value l1 l2 l3
  replace e := Host.Outcome.next.inj e
  subst e
  with_reducible repeat' first
    | assumption | apply keep_setLane | apply keep_laneReady | apply keep_laneChangeEnds | apply Keep.ite

theorem keep_execFailedRetry (x1 : Nat) (x2 : Nat) {b c : State} (e : execFailedRetry x1 x2 b = .next c) (h : Keep p a b) : Keep p a c := by
  unfold execFailedRetry at e
  extract_lets l1 at e
  have h1 : Keep p a l1 := by
    unfold l1
    with_reducible repeat' first
      | assumption | apply Keep.begin
  clear_value l1
  replace e := Host.Outcome.next.inj e
  subst e
  with_reducible repeat' first
    | assumption | apply keep_startTraining | apply Keep.ite

theorem keep_execQuietDelayExpiry (x1 : Nat) (x2 : Nat) {b c : State} (e : execQuietDelayExpiry x1 x2 b = .next c) (h : Keep p a b) : Keep p a c := by
  unfold execQuietDelayExpiry at e
  extract_lets l1 l2 l3 l4 at e
  have h1 : Keep p a l1 := by
    unfold l1
    with_reducible repeat' first
      | assumption | apply Keep.begin
  clear_value l1 l2 l3 l4
  replace e := Host.Outcome.next.inj e
  subst e
  with_reducible repeat' first
    | assumption | apply keep_pushCtl | apply keep_setLane | apply Keep.ite

theorem keep_execDormantDelayExpiry (x1 : Nat) (x2 : Nat) {b c : State} (e : execDormantDelayExpiry x1 x2 b = .next c) (h : Keep p a b) : Keep p a c := by
  unfold execDormantDelayExpiry at e
  extract_lets l1 l2 l3 at e
  have h1 : Keep p a l1 := by
    unfold l1
    with_reducible repeat' first
      | assumption | apply Keep.begin
  clear_value l1 l2 l3
  replace e := Host.Outcome.next.inj e
  subst e
  with_reducible repeat' first
    | assumption | apply keep_setLane | apply Keep.ite

theorem keep_execWakeBurst (x1 : Nat) (x2 : Nat) {b c : State} (e : execWakeBurst x1 x2 b = .next c) (h : Keep p a b) : Keep p a c := by
  unfold execWakeBurst at e
  extract_lets l1 l2 at e
  have h1 : Keep p a l1 := by
    unfold l1
    with_reducible repeat' first
      | assumption | apply Keep.begin
  clear_value l1 l2
  replace e := Host.Outcome.next.inj e
  subst e
  with_reducible repeat' first
    | assumption | apply keep_modLink | apply keep_wakeLane | apply keep_setLane | apply Keep.ite

theorem keep_execWakeDone (x1 : Nat) (x2 : Nat) (x3 : Nat) {b c : State} (e : execWakeDone x1 x2 x3 b = .next c) (h : Keep p a b) : Keep p a c := by
  unfold execWakeDone at e
  extract_lets l1 l2 l3 l4 l5 at e
  have h1 : Keep p a l1 := by
    unfold l1
    with_reducible repeat' first
      | assumption | apply Keep.begin
  clear_value l1 l2 l3
  have h4 : Keep p a l4 := by
    unfold l4
    with_reducible repeat' first
      | assumption | apply keep_setLane
  clear_value l4
  have h5 : Keep p a l5 := by
    unfold l5
    with_reducible repeat' first
      | assumption | apply keep_laneReady
  clear_value l5
  replace e := Host.Outcome.next.inj e
  subst e
  with_reducible repeat' first
    | assumption | apply keep_raiseAs | apply Keep.ite

theorem keep_execLoopDurationExpiry (x1 : Nat) (x2 : Nat) (x3 : Nat) (x4 : Nat) {b c : State} (e : execLoopDurationExpiry x1 x2 x3 x4 b = .next c) (h : Keep p a b) : Keep p a c := by
  unfold execLoopDurationExpiry at e
  extract_lets l1 l2 l3 at e
  have h1 : Keep p a l1 := by
    unfold l1
    with_reducible repeat' first
      | assumption | apply Keep.begin
  clear_value l1 l2 l3
  replace e := Host.Outcome.next.inj e
  subst e
  with_reducible repeat' first
    | assumption | apply keep_endLoop | apply Keep.ite

theorem keep_execLoopSyncTimeout (x1 : Nat) (x2 : Nat) {b c : State} (e : execLoopSyncTimeout x1 x2 b = .next c) (h : Keep p a b) : Keep p a c := by
  unfold execLoopSyncTimeout at e
  extract_lets l1 l2 l3 at e
  have h1 : Keep p a l1 := by
    unfold l1
    with_reducible repeat' first
      | assumption | apply Keep.begin
  clear_value l1 l2 l3
  replace e := Host.Outcome.next.inj e
  subst e
  with_reducible repeat' first
    | assumption | apply keep_setLane | apply Keep.ite

theorem keep_execHistogramWindow (x1 : Nat) (x2 : Nat) (x3 : List Nat) {b c : State} (e : execHistogramWindow x1 x2 x3 b = .next c) (h : Keep p a b) : Keep p a c := by
  unfold execHistogramWindow at e
  extract_lets l1 l2 l3 l4 at e
  have h1 : Keep p a l1 := by
    unfold l1
    with_reducible repeat' first
      | assumption | apply Keep.begin
  clear_value l1 l2 l3
  have h4 : Keep p a l4 := by
    unfold l4
    with_reducible repeat' first
      | assumption | apply keep_setLane
  clear_value l4
  replace e := Host.Outcome.next.inj e
  subst e
  with_reducible repeat' first
    | assumption | apply keep_holdAdaptation | apply keep_endHold | apply Keep.ite

theorem keep_execIdleRun (x1 : Nat) (x2 : Nat) {b c : State} (e : execIdleRun x1 x2 b = .next c) (h : Keep p a b) : Keep p a c := by
  unfold execIdleRun at e
  extract_lets l1 at e
  have h1 : Keep p a l1 := by
    unfold l1
    with_reducible repeat' first
      | assumption | apply Keep.begin
  clear_value l1
  replace e := Host.Outcome.next.inj e
  subst e
  with_reducible repeat' first
    | assumption | apply keep_holdAdaptation | apply Keep.ite

end Sys2Proof.Laws
end

