-- ==== Sys2Proof/Laws/KeepIntake.lean ====
section
/-! SUPPORT. What Keep says of the operations of intake and audio: one lemma for each. -/

namespace Sys2Proof.Laws

open Machine

variable {p : Prop} {a b : State}

/-! Intake.lean. -/

theorem keep_modFrame (x1 : Nat) (x2 : Arrival → Arrival) (h : Keep p a b) : Keep p a (State.modFrame b x1 x2) := by
  unfold State.modFrame
  with_reducible repeat' first
    | assumption | apply keep_modIns

theorem keep_storeRows (x1 : Nat) (x2 : Nat) (x3 : Nat) (x4 : List (List Nat)) (h : Keep p a b) : Keep p a (storeRows x1 x2 x3 x4 b) := by
  unfold storeRows
  extract_lets l1 l2 l3 l4 l5
  clear_value l1 l2 l3 l4 l5
  with_reducible repeat' first
    | assumption | apply keep_noteCoded | apply keep_dramTraffic | apply keep_writeBytes | apply keep_modBuf
    | apply Keep.each | intro _ _ _ | intro _ _

theorem keep_storeLines (x1 : Nat) (x2 : Nat) (x3 : Nat) (x4 : List (List Nat)) (h : Keep p a b) : Keep p a (storeLines x1 x2 x3 x4 b) := by
  unfold storeLines
  extract_lets l1
  clear_value l1
  with_reducible repeat' first
    | assumption | apply keep_storeRows | apply keep_dramTraffic | apply keep_writeBytes | apply keep_modBuf
    | apply Keep.each | apply Keep.ite | intro _ _ _ | intro _ _

theorem keep_beginWrite (x1 : Nat) (x2 : Nat) (h : Keep p a b) : Keep p a (beginWrite x1 x2 b) := by
  unfold beginWrite
  extract_lets l1
  have h1 : Keep p a l1 := by
    unfold l1
    with_reducible repeat' first
      | assumption | apply keep_bufTake | apply keep_userBoundary
  clear_value l1
  with_reducible repeat' first
    | assumption | apply keep_modBuf

theorem keep_winDrop (x1 : Nat) (x2 : Nat) (h : Keep p a b) : Keep p a (winDrop x1 x2 b) := by
  unfold winDrop
  extract_lets l1 l2
  have h1 : Keep p a l1 := by
    unfold l1
    with_reducible repeat' first
      | assumption | apply keep_modWin
  clear_value l1 l2
  with_reducible repeat' first
    | assumption | apply keep_bufFree | apply Keep.ite

theorem keep_winAge (x1 : Nat) (h : Keep p a b) : Keep p a (winAge x1 b) := by
  unfold winAge
  extract_lets l1
  clear_value l1
  with_reducible repeat' first
    | assumption | apply keep_winDrop | apply Keep.each | apply Keep.ite | intro _ _ _

theorem keep_winRoom (x1 : Nat) (h : Keep p a b) : Keep p a (winRoom x1 b).2 := by
  unfold winRoom
  extract_lets l1
  clear_value l1
  repeat' first
    | (with_reducible first
        | assumption | apply keep_winDrop | apply keep_modWin | apply keep_raise)
    | split

theorem keep_winFrameStart (x1 : Nat) (x2 : Nat) (h : Keep p a b) : Keep p a (winFrameStart x1 x2 b) := by
  unfold winFrameStart
  extract_lets l1 l2
  have h1 : Keep p a l1 := by
    unfold l1
    with_reducible repeat' first
      | assumption | apply keep_modWin | apply Keep.ite
  clear_value l1
  have h2 : Keep p a l2.2 := by
    unfold l2
    with_reducible repeat' first
      | assumption | apply keep_winRoom | apply keep_winAge
  clear_value l2
  repeat' first
    | (with_reducible first
        | assumption | apply keep_modBuf | apply keep_beginWrite | apply keep_modFrame | apply Keep.ite)
    | split

theorem keep_tagAbsent (x1 : Nat) (x2 : List Nat) (h : Keep p a b) : Keep p a (tagAbsent x1 x2 b) := by
  unfold tagAbsent
  extract_lets l1
  have h1 : Keep p a l1 := by
    unfold l1
    with_reducible repeat' first
      | assumption | apply keep_modBuf | apply Keep.each | intro _ _ _ | intro _ _
  clear_value l1
  with_reducible repeat' first
    | assumption | apply keep_recheck | apply keep_modIns

theorem keep_tagFailed (x1 : Nat) (x2 : List Nat) (h : Keep p a b) : Keep p a (tagFailed x1 x2 b) := by
  unfold tagFailed
  extract_lets l1
  have h1 : Keep p a l1 := by
    unfold l1
    with_reducible repeat' first
      | assumption | apply Keep.each | apply keep_modBuf | intro _ _ _
  clear_value l1
  with_reducible repeat' first
    | assumption | apply keep_recheck | apply keep_modIns

theorem keep_tagPassed (x1 : Nat) (x2 : Bool) (x3 : List Nat) (h : Keep p a b) : Keep p a (tagPassed x1 x2 x3 b) := by
  unfold tagPassed
  extract_lets l1
  have h1 : Keep p a l1 := by
    unfold l1
    with_reducible repeat' first
      | assumption | apply Keep.each | apply keep_modBuf | intro _ _ _
  clear_value l1
  with_reducible repeat' first
    | assumption | apply keep_recheck | apply keep_modIns

theorem keep_storeArrived (x1 : Nat) (x2 : Nat) (h : Keep p a b) : Keep p a (storeArrived x1 x2 b) := by
  unfold storeArrived
  extract_lets l1
  clear_value l1
  repeat' first
    | (with_reducible first
        | assumption | apply keep_storeLines | apply Keep.each | intro _ _ _)
    | split | dsimp only

theorem keep_lineDone (x1 : Nat) (x2 : Option (List Nat)) (x3 : List Nat) (h : Keep p a b) : Keep p a (lineDone x1 x2 x3 b) := by
  unfold lineDone
  extract_lets l1 l2
  clear_value l1 l2
  repeat' first
    | (with_reducible first
        | assumption | apply keep_storeArrived | apply keep_noteInvalid | apply keep_setIns | apply Keep.ite)
    | split

theorem keep_concealTo (x1 : Nat) (x2 : Nat) (h : Keep p a b) : Keep p a (concealTo x1 x2 b) := by
  unfold concealTo
  repeat' first
    | (with_reducible first
        | assumption | apply keep_lineDone | apply keep_modIns | apply Keep.each | intro _ _ _)
    | split

theorem keep_lineFailed (x1 : Nat) (x2 : Nat) (x3 : Nat) (h : Keep p a b) : Keep p a (lineFailed x1 x2 x3 b) := by
  unfold lineFailed
  extract_lets l1
  have h1 : Keep p a l1 := by
    unfold l1
    with_reducible repeat' first
      | assumption | apply keep_modIns
  clear_value l1
  with_reducible repeat' first
    | assumption | apply keep_raiseLimited | apply keep_modCounts

theorem keep_linesMissed (x1 : Nat) (x2 : Nat) (x3 : Nat) (x4 : Nat) (h : Keep p a b) : Keep p a (linesMissed x1 x2 x3 x4 b) := by
  unfold linesMissed
  extract_lets l1
  clear_value l1
  repeat' first
    | (with_reducible first
        | assumption | apply keep_lineFailed | apply keep_modFrame | apply keep_concealTo | apply Keep.each
        | apply Keep.ite | intro _ _ _ | intro _ _)
    | split

theorem keep_frameComplete (x1 : Nat) (h : Keep p a b) : Keep p a (frameComplete x1 b) := by
  unfold frameComplete
  extract_lets l1 l2
  clear_value l1 l2
  repeat' first
    | (with_reducible first
        | assumption | apply keep_setIns | apply keep_modBuf | apply keep_modWin | apply keep_rotate
        | apply keep_recheck | apply keep_strChanged | apply Keep.each | apply Keep.ite | intro _ _ _ | intro _ _)
    | split

theorem keep_fieldDone (x1 : Nat) (h : Keep p a b) : Keep p a (fieldDone x1 b) := by
  unfold fieldDone
  extract_lets l1
  clear_value l1
  repeat' first
    | (with_reducible first
        | assumption | apply keep_abandonFrame | apply keep_setIns | apply keep_modBuf | apply keep_frameComplete
        | apply Keep.each | apply Keep.ite | intro _ _ _ | intro _ _)
    | split

theorem keep_closeFrame (x1 : Nat) (h : Keep p a b) : Keep p a (closeFrame x1 b) := by
  unfold closeFrame
  extract_lets l1 l2
  clear_value l1
  have h2 : Keep p a l2 := by
    unfold l2
    with_reducible repeat' first
      | assumption | apply keep_linesMissed
  clear_value l2
  repeat' first
    | (with_reducible first
        | assumption | apply keep_abandonFrame | apply keep_fieldDone | apply Keep.ite)
    | split

theorem keep_openFrame (x1 : Nat) (h : Keep p a b) : Keep p a (openFrame x1 b) := by
  unfold openFrame
  extract_lets l1 l2 l3 l4
  have h1 : Keep p a l1 := by
    unfold l1
    repeat' first
      | (with_reducible first
          | assumption | apply keep_tagFailed | apply keep_tagAbsent | apply Keep.ite)
      | split
  clear_value l1 l2
  have h3 : Keep p a l3 := by
    unfold l3
    with_reducible repeat' first
      | assumption | apply keep_setIns | apply Keep.ite
  clear_value l3
  have h4 : Keep p a l4 := by
    unfold l4
    repeat' first
      | (with_reducible first
          | assumption | apply keep_modFrame | apply keep_beginWrite | apply keep_raise | apply keep_count
          | apply Keep.ite)
      | split
  clear_value l4
  with_reducible repeat' first
    | assumption | apply keep_winFrameStart | apply Keep.each | intro _ _ _ | intro _ _

theorem keep_nextFrame (x1 : Nat) (h : Keep p a b) : Keep p a (nextFrame x1 b) := by
  unfold nextFrame
  with_reducible repeat' first
    | assumption | apply keep_openFrame | apply Keep.whenever | intro _ _ _ | intro _ _

theorem keep_frameStart (x1 : Nat) (h : Keep p a b) : Keep p a (frameStart x1 b) := by
  unfold frameStart
  extract_lets l1
  clear_value l1
  repeat' first
    | (with_reducible first
        | assumption | apply keep_setIns | apply keep_modBuf | apply keep_nextFrame | apply keep_closeFrame
        | apply Keep.each | apply Keep.ite | intro _ _ _ | intro _ _)
    | split

theorem keep_sendTag (x1 : Nat) (x2 : Nat) (x3 : List Nat) (h : Keep p a b) : Keep p a (sendTag x1 x2 x3 b) := by
  unfold sendTag
  extract_lets l1
  clear_value l1
  repeat' first
    | (with_reducible first
        | assumption | apply keep_sendFlow | apply Keep.ite)
    | split

theorem keep_routeHurt (x1 : Nat) (h : Keep p a b) : Keep p a (routeHurt x1 b) := by
  unfold routeHurt
  split
  · split
    · extract_lets l1
      split
      · exact Keep.ite h (keep_modRoute _ _ h)
      · exact h
    · exact h
  · exact h

theorem keep_storeHurt (x1 : Nat) (h : Keep p a b) : Keep p a (storeHurt x1 b) := by
  unfold storeHurt
  repeat' first
    | (with_reducible first
        | assumption | apply keep_modFrame | apply Keep.ite)
    | split

theorem keep_audioGap (x1 : Nat) (h : Keep p a b) : Keep p a (audioGap x1 b) := by
  unfold audioGap
  repeat' first
    | (with_reducible first
        | assumption | apply keep_setAudIn | apply Keep.each | intro _ _ _ | intro _ _)
    | split

theorem keep_forwardCheck (x1 : Nat) (x2 : Nat) (x3 : Nat) (x4 : List Nat) (x5 : List Nat) (h : Keep p a b) : Keep p a (forwardCheck x1 x2 x3 x4 x5 b) := by
  unfold forwardCheck
  with_reducible repeat' first
    | assumption | apply keep_lineReady | apply keep_sendFlow | apply keep_sendTag | apply Keep.each | apply Keep.ite
    | intro _ _ _ | intro _ _

theorem keep_lineField (x1 : Nat) (x2 : Nat) (h : Keep p a b) : Keep p a (lineField x1 x2 b) := by
  unfold lineField
  extract_lets l1 l2
  have h1 : Keep p a l1 := by
    unfold l1
    with_reducible repeat' first
      | assumption | apply keep_frameStart | apply Keep.ite
  clear_value l1 l2
  with_reducible repeat' first
    | assumption | apply keep_frameStart | apply keep_modIns | apply Keep.ite

theorem keep_lineChecked (x1 : Nat) (x2 : Nat) (x3 : Nat) (x4 : Option Nat) (x5 : Arrival) (h : Keep p a b) : Keep p a (lineChecked x1 x2 x3 x4 x5 b) := by
  unfold lineChecked
  extract_lets l1 l2 l3 l4 l5 l6 l7 l8 l9 l10 l11
  clear_value l1
  have h2 : Keep p a l2 := by
    unfold l2
    with_reducible repeat' first
      | assumption | apply keep_modFrame
  clear_value l2 l3 l4 l5 l6 l7 l8
  have h9 : Keep p a l9 := by
    unfold l9
    with_reducible repeat' first
      | assumption | apply keep_linesMissed
  clear_value l9
  have h10 : Keep p a l10 := by
    unfold l10
    with_reducible repeat' first
      | assumption | apply keep_forwardCheck | apply Keep.ite
  clear_value l10
  have h11 : Keep p a l11 := by
    unfold l11
    with_reducible repeat' first
      | assumption | apply keep_lineFailed | apply Keep.ite
  clear_value l11
  with_reducible repeat' first
    | assumption | apply keep_lineDone | apply Keep.whenever | apply Keep.ite | intro _ _ _ | intro _ _

theorem keep_endLine (x1 : Nat) (x2 : Nat) (x3 : Option Nat) (h : Keep p a b) : Keep p a (endLine x1 x2 x3 b) := by
  unfold endLine
  split
  · exact h
  · refine Keep.ite h ?_
    extract_lets l1
    have h1 : Keep p a l1 := keep_lineField _ _ h
    split
    · exact h1
    · exact Keep.whenever (fun _ k => keep_fieldDone _ k) (keep_lineChecked _ _ _ _ _ h1)

theorem keep_moveEpoch (x1 : Nat) (x2 : Nat) (h : Keep p a b) : Keep p a (moveEpoch x1 x2 b) := by
  unfold moveEpoch
  extract_lets l1
  with_reducible repeat' first
    | assumption | apply keep_modLink

theorem keep_execInputFrameStart (x1 : Nat) (x2 : Nat) {b c : State} (e : execInputFrameStart x1 x2 b = .next c) (h : Keep p a b) : Keep p a c := by
  unfold execInputFrameStart at e
  replace e := Host.Outcome.next.inj e
  subst e
  with_reducible repeat' first
    | assumption | apply keep_frameStart | apply Keep.begin

theorem keep_dataFolioOp (x1 : Nat) (x2 : Nat) (x3 : Nat) (h : Keep p a b) : Keep p a (dataFolioOp x1 x2 x3 b) := by
  unfold dataFolioOp
  repeat' first
    | (with_reducible first
        | assumption | apply keep_turnMiss | apply keep_modFrame | apply Keep.each | apply keep_frameStart
        | apply keep_emit | intro _ _ _)
    | split

theorem keep_execDataFolio (x1 : Nat) (x2 : Nat) (x3 : Nat) (x4 : Nat) {b c : State} (e : execDataFolio x1 x2 x3 x4 b = .next c) (h : Keep p a b) : Keep p a c := by
  unfold execDataFolio at e
  replace e := Host.Outcome.next.inj e
  subst e
  with_reducible repeat' first
    | assumption | apply keep_countHeldData | apply keep_dataFolioOp | apply Keep.begin | apply keep_received
    | intro _ _

theorem keep_tagFolioOp (x1 : Nat) (x2 : Nat) (h : Keep p a b) : Keep p a (tagFolioOp x1 x2 b) := by
  unfold tagFolioOp
  repeat' first
    | (with_reducible first
        | assumption | apply keep_moveEpoch | apply keep_tagFailed | apply keep_tagPassed)
    | split

theorem keep_execTagFolio (x1 : Nat) (x2 : Nat) (x3 : Nat) {b c : State} (e : execTagFolio x1 x2 x3 b = .next c) (h : Keep p a b) : Keep p a c := by
  unfold execTagFolio at e
  replace e := Host.Outcome.next.inj e
  subst e
  with_reducible repeat' first
    | assumption | apply keep_tagFolioOp | apply Keep.begin | apply keep_received | intro _ _

theorem keep_audioFolioOp (x1 : Nat) (x2 : Nat) (h : Keep p a b) : Keep p a (audioFolioOp x1 x2 b) := by
  unfold audioFolioOp
  extract_lets l1
  clear_value l1
  repeat' first
    | (with_reducible first
        | assumption | apply keep_modIns | apply keep_audioGap | apply keep_sendFlow | apply Keep.each
        | apply Keep.ite | intro _ _ _ | intro _ _)
    | split

theorem keep_execAudioFolio (x1 : Nat) (x2 : Nat) (x3 : Nat) {b c : State} (e : execAudioFolio x1 x2 x3 b = .next c) (h : Keep p a b) : Keep p a c := by
  unfold execAudioFolio at e
  replace e := Host.Outcome.next.inj e
  subst e
  with_reducible repeat' first
    | assumption | apply keep_audioFolioOp | apply Keep.begin | apply keep_received | intro _ _

/-! Audio.lean. -/

theorem keep_crossfade (x1 : Nat) (h : Keep p a b) : Keep p a (crossfade x1 b) := by
  unfold crossfade
  with_reducible repeat' first
    | assumption | apply keep_modAudOut | apply keep_count

theorem keep_audioFollow (x1 : List Nat) (h : Keep p a b) : Keep p a (audioFollow x1 b) := by
  unfold audioFollow
  extract_lets l1
  clear_value l1
  with_reducible repeat' first
    | assumption | apply keep_modAudOut | apply Keep.each | apply keep_crossfade | apply Keep.ite | intro _ _ _

theorem keep_audCommitOp (h : Keep p a b) : Keep p a (audCommitOp b).1 := by
  unfold audCommitOp
  extract_lets l1 l2 l3 l4 l5 l6
  clear_value l1 l2 l3 l4
  have h6 : Keep p a l6 := by
    unfold l6
    repeat' first
      | (with_reducible first
          | assumption)
      | (simp only [Keep.lit]; with_reducible refine Keep.asked rfl ?_)
  clear_value l6
  with_reducible repeat' first
    | assumption | apply keep_setReg | apply keep_raise | apply Keep.iteFst

theorem keep_execAudCommit (x1 : Nat) (x2 : Src) {b c : State} (e : execAudCommit x1 x2 b = .next c) (h : Keep p a b) : Keep p a c := by
  unfold execAudCommit at e
  replace e := Host.Outcome.next.inj e
  subst e
  with_reducible repeat' first
    | assumption | apply keep_audCommitOp | apply keep_answer | apply Keep.begin

theorem keep_tdmApply (x1 : Nat) (x2 : Nat) (h : Keep p a b) : Keep p a (tdmApply x1 x2 b) := by
  unfold tdmApply
  extract_lets l1 l2
  clear_value l1
  have h2 : Keep p a l2 := by
    unfold l2
    with_reducible repeat' first
      | assumption | apply keep_setForce
  clear_value l2
  with_reducible repeat' first
    | assumption | apply keep_setTdm | apply Keep.ite

theorem keep_audApply (x1 : AudCommit) (h : Keep p a b) : Keep p a (audApply x1 b) := by
  unfold audApply
  extract_lets l1 l2 l3 l4 l5
  clear_value l1
  have h2 : Keep p a l2 := by
    unfold l2
    with_reducible repeat' first
      | assumption | apply keep_setForce
  clear_value l2
  have h3 : Keep p a l3 := by
    unfold l3
    with_reducible repeat' first
      | assumption | apply keep_tdmApply | apply Keep.each | intro _ _ _ | intro _ _
  clear_value l3
  have h4 : Keep p a l4 := by
    unfold l4
    with_reducible repeat' first
      | assumption | apply keep_setReg
  clear_value l4 l5
  repeat' first
    | (with_reducible first
        | assumption | apply keep_audioFollow | apply keep_duckChannel | apply Keep.each | intro _ _ _ | intro _ _)
    | (simp only [Keep.lit]; with_reducible refine Keep.asked rfl ?_)

theorem keep_takeReading (x1 : Nat × Nat) (h : Keep p a b) : Keep p a (takeReading b x1) := by
  unfold takeReading
  extract_lets l1 l2
  clear_value l1 l2
  repeat' first
    | (with_reducible first
        | assumption | apply keep_setReg | apply keep_setAudIn | apply keep_modAudOut)
    | split

theorem keep_execAudioBlockBoundary (x1 : Nat) (x2 : List (Nat × Nat)) (x3 : List (Nat × Nat)) {b c : State} (e : execAudioBlockBoundary x1 x2 x3 b = .next c) (h : Keep p a b) : Keep p a c := by
  unfold execAudioBlockBoundary at e
  extract_lets l1 l2 l3 at e
  have h1 : Keep p a l1 := by
    unfold l1
    with_reducible repeat' first
      | assumption | apply Keep.begin
  clear_value l1
  have h2 : Keep p a l2 := by
    unfold l2
    repeat' first
      | (with_reducible first
          | assumption | apply keep_audioFollow | apply keep_audApply)
      | split
  clear_value l2
  have h3 : Keep p a l3 := by
    unfold l3
    with_reducible repeat' first
      | assumption | apply keep_modAudOut | apply Keep.each | apply keep_raiseLimited | apply keep_count
      | apply Keep.ite | intro _ _ _
  clear_value l3
  replace e := Host.Outcome.next.inj e
  subst e
  with_reducible repeat' first
    | assumption | apply Keep.each | apply keep_takeReading | apply Keep.ite

theorem keep_audMuteOp (x1 : Nat) (h : Keep p a b) : Keep p a (audMuteOp x1 b).1 := by
  unfold audMuteOp
  extract_lets l1 l2 l3 l4
  clear_value l1
  have h2 : Keep p a l2 := by
    unfold l2
    with_reducible repeat' first
      | assumption | apply keep_setReg
  clear_value l2
  have h4 : Keep p a l4 := by
    unfold l4
    repeat' first
      | (with_reducible first
          | assumption)
      | (simp only [Keep.lit]; with_reducible refine Keep.asked rfl ?_)
  clear_value l4
  with_reducible repeat' first
    | assumption | apply keep_audioFollow | apply Keep.iteFst

theorem keep_execAudMuteAll (x1 : Nat) (x2 : Src) (x3 : Nat) {b c : State} (e : execAudMuteAll x1 x2 x3 b = .next c) (h : Keep p a b) : Keep p a c := by
  unfold execAudMuteAll at e
  replace e := Host.Outcome.next.inj e
  subst e
  with_reducible repeat' first
    | assumption | apply keep_answer | apply keep_audMuteOp | apply Keep.begin | intro _ _

theorem keep_execAsrcUnlock (x1 : Nat) (x2 : Nat) (x3 : Nat) (x4 : Nat) {b c : State} (e : execAsrcUnlock x1 x2 x3 x4 b = .next c) (h : Keep p a b) : Keep p a c := by
  unfold execAsrcUnlock at e
  extract_lets l1 l2 l3 at e
  have h1 : Keep p a l1 := by
    unfold l1
    with_reducible repeat' first
      | assumption | apply Keep.begin
  clear_value l1 l2
  have h3 : Keep p a l3 := by
    unfold l3
    with_reducible repeat' first
      | assumption | apply keep_setAudIn
  clear_value l3
  replace e := Host.Outcome.next.inj e
  subst e
  with_reducible repeat' first
    | assumption | apply keep_audioFollow | apply keep_setAudIn | apply keep_raise | apply Keep.ite

theorem keep_audStatsClearOp (h : Keep p a b) : Keep p a (audStatsClearOp b).1 := by
  unfold audStatsClearOp
  extract_lets l1 l2 l3
  have h1 : Keep p a l1 := by
    unfold l1
    with_reducible repeat' first
      | assumption | apply keep_clear
  clear_value l1
  have h2 : Keep p a l2 := by
    unfold l2
    with_reducible repeat' first
      | assumption | apply keep_modAudOut | apply Keep.each | intro _ _ _
  clear_value l2
  have h3 : Keep p a l3 := by
    unfold l3
    with_reducible repeat' first
      | assumption | apply keep_setAudIn | apply Keep.each | intro _ _ _
  clear_value l3
  with_reducible repeat' first
    | assumption | apply keep_setTdm | apply Keep.each | intro _ _ _

theorem keep_execAudStatsClear (x1 : Nat) (x2 : Src) {b c : State} (e : execAudStatsClear x1 x2 b = .next c) (h : Keep p a b) : Keep p a c := by
  unfold execAudStatsClear at e
  replace e := Host.Outcome.next.inj e
  subst e
  with_reducible repeat' first
    | assumption | apply keep_audStatsClearOp | apply keep_answer | apply Keep.begin

theorem keep_tdmFault (x1 : Nat) (x2 : TdmMode) (x3 : Nat) (h : Keep p a b) : Keep p a (tdmFault x1 x2 x3 b) := by
  unfold tdmFault
  extract_lets l1
  clear_value l1
  with_reducible repeat' first
    | assumption | apply keep_audioFollow | apply keep_setTdm | apply keep_raise | apply Keep.ite

theorem keep_execTdmFrame (x1 : Nat) (x2 : Nat) (x3 : Nat) {b c : State} (e : execTdmFrame x1 x2 x3 b = .next c) (h : Keep p a b) : Keep p a c := by
  unfold execTdmFrame at e
  extract_lets l1 l2 l3 l4 l5 l6 at e
  have h1 : Keep p a l1 := by
    unfold l1
    with_reducible repeat' first
      | assumption | apply Keep.begin
  clear_value l1 l2 l3 l4
  have h5 : Keep p a l5 := by
    unfold l5
    with_reducible repeat' first
      | assumption | apply keep_setTdm
  clear_value l5 l6
  replace e := Host.Outcome.next.inj e
  subst e
  with_reducible repeat' first
    | assumption | apply keep_audioFollow | apply keep_setTdm | apply keep_tdmFault | apply Keep.ite

theorem keep_execTdmClockTimeout (x1 : Nat) (x2 : Nat) {b c : State} (e : execTdmClockTimeout x1 x2 b = .next c) (h : Keep p a b) : Keep p a c := by
  unfold execTdmClockTimeout at e
  extract_lets l1 at e
  have h1 : Keep p a l1 := by
    unfold l1
    with_reducible repeat' first
      | assumption | apply Keep.begin
  clear_value l1
  replace e := Host.Outcome.next.inj e
  subst e
  with_reducible repeat' first
    | assumption | apply keep_tdmFault | apply Keep.ite

theorem keep_tdmClearOp (x1 : Nat) (h : Keep p a b) : Keep p a (tdmClearOp x1 b).1 := by
  unfold tdmClearOp
  extract_lets l1
  clear_value l1
  with_reducible repeat' first
    | assumption | apply keep_setTdm

theorem keep_execTdmClearCounts (x1 : Nat) (x2 : Src) (x3 : Nat) {b c : State} (e : execTdmClearCounts x1 x2 x3 b = .next c) (h : Keep p a b) : Keep p a c := by
  unfold execTdmClearCounts at e
  replace e := Host.Outcome.next.inj e
  subst e
  with_reducible repeat' first
    | assumption | apply keep_tdmClearOp | apply keep_answer | apply Keep.begin | intro _ _

theorem keep_tdmResyncOp (x1 : Nat) (h : Keep p a b) : Keep p a (tdmResyncOp x1 b).1 := by
  unfold tdmResyncOp
  extract_lets l1
  clear_value l1
  with_reducible repeat' first
    | assumption | apply keep_setTdm

theorem keep_execTdmResync (x1 : Nat) (x2 : Src) (x3 : Nat) {b c : State} (e : execTdmResync x1 x2 x3 b = .next c) (h : Keep p a b) : Keep p a c := by
  unfold execTdmResync at e
  replace e := Host.Outcome.next.inj e
  subst e
  with_reducible repeat' first
    | assumption | apply keep_tdmResyncOp | apply keep_answer | apply Keep.begin | intro _ _

theorem keep_chimeStartOp (x1 : Nat) (x2 : Nat) (h : Keep p a b) : Keep p a (chimeStartOp x1 x2 b).1 := by
  unfold chimeStartOp
  extract_lets l1 l2
  have h1 : Keep p a l1 := by
    unfold l1
    with_reducible repeat' first
      | assumption | apply keep_chimeBegin | apply keep_setReg
  clear_value l1
  have h2 : Keep p a l2 := by
    unfold l2
    with_reducible repeat' first
      | assumption | apply keep_raise
  clear_value l2
  with_reducible repeat' first
    | assumption | apply keep_raiseAs | apply Keep.ite | apply Keep.iteFst

theorem keep_chimeStop (x1 : Nat) (h : Keep p a b) : Keep p a (chimeStop x1 b) := by
  unfold chimeStop
  with_reducible repeat' first
    | assumption | apply keep_chimeEnd | apply Keep.ite

theorem keep_execChimeStart (x1 : Nat) (x2 : Src) (x3 : Nat) (x4 : Nat) {b c : State} (e : execChimeStart x1 x2 x3 x4 b = .next c) (h : Keep p a b) : Keep p a c := by
  unfold execChimeStart at e
  replace e := Host.Outcome.next.inj e
  subst e
  with_reducible repeat' first
    | assumption | apply keep_chimeStartOp | apply keep_answer | apply Keep.begin | intro _ _

theorem keep_chimeStopOp (x1 : Nat) (h : Keep p a b) : Keep p a (chimeStopOp x1 b).1 := by
  unfold chimeStopOp
  with_reducible repeat' first
    | assumption | apply keep_chimeStop

theorem keep_execChimeStop (x1 : Nat) (x2 : Src) (x3 : Nat) {b c : State} (e : execChimeStop x1 x2 x3 b = .next c) (h : Keep p a b) : Keep p a c := by
  unfold execChimeStop at e
  replace e := Host.Outcome.next.inj e
  subst e
  with_reducible repeat' first
    | assumption | apply keep_answer | apply Keep.begin | apply keep_chimeStopOp | intro _ _

theorem keep_chimeStopAllOp (h : Keep p a b) : Keep p a (chimeStopAllOp b).1 := by
  unfold chimeStopAllOp
  with_reducible repeat' first
    | assumption | apply Keep.each | apply keep_chimeStop

theorem keep_execChimeStopAll (x1 : Nat) (x2 : Src) {b c : State} (e : execChimeStopAll x1 x2 b = .next c) (h : Keep p a b) : Keep p a c := by
  unfold execChimeStopAll at e
  replace e := Host.Outcome.next.inj e
  subst e
  with_reducible repeat' first
    | assumption | apply keep_answer | apply keep_chimeStopAllOp | apply Keep.begin

theorem keep_execChimePatternStep (x1 : Nat) (x2 : Nat) {b c : State} (e : execChimePatternStep x1 x2 b = .next c) (h : Keep p a b) : Keep p a c := by
  unfold execChimePatternStep at e
  replace e := Host.Outcome.next.inj e
  subst e
  with_reducible repeat' first
    | assumption | apply keep_chimeStep | apply Keep.begin

theorem keep_loadSounds (x1 : List Nat) (h : Keep p a b) : Keep p a (loadSounds x1 b) := by
  unfold loadSounds
  extract_lets l1 l2 l3 l4 l5 l6
  clear_value l1 l2 l3 l4 l5
  have h6 : Keep p a l6 := by
    unfold l6
    repeat' first
      | (with_reducible first
          | assumption)
      | (simp only [Keep.lit]; with_reducible refine Keep.asked rfl ?_)
  clear_value l6
  with_reducible repeat' first
    | assumption | apply keep_raise | apply Keep.each | intro _ _ _ | intro _ _

theorem keep_chimesFollow (h : Keep p a b) : Keep p a (chimesFollow b) := by
  unfold chimesFollow
  extract_lets l1
  have h1 : Keep p a l1 := by
    unfold l1
    with_reducible repeat' first
      | assumption | apply keep_chimeEnd | apply Keep.each | intro _ _ _ | intro _ _
  clear_value l1
  with_reducible repeat' first
    | assumption | apply keep_duckChannel | apply Keep.each | intro _ _ _ | intro _ _

theorem keep_chimeTableOp (x1 : Nat) (h : Keep p a b) : Keep p a (chimeTableOp x1 b).1 := by
  unfold chimeTableOp
  with_reducible repeat' first
    | assumption | apply keep_chimesFollow | apply keep_loadSounds | apply keep_setReg | apply Keep.iteFst

theorem keep_soundWriteOp (x1 : List Nat) (x2 : Bool) (h : Keep p a b) : Keep p a (soundWriteOp x1 x2 b).1 := by
  unfold soundWriteOp
  extract_lets l1 l2 l3 l4 l5
  clear_value l1 l2 l3 l4
  repeat' first
    | (with_reducible first
        | assumption | apply Keep.iteFst)
    | (simp only [Keep.lit]; with_reducible refine Keep.asked rfl ?_)

theorem keep_soundDeleteOp (x1 : Nat) (h : Keep p a b) : Keep p a (soundDeleteOp x1 b).1 := by
  unfold soundDeleteOp
  extract_lets l1
  repeat' first
    | (with_reducible first
        | assumption | apply Keep.iteFst)
    | (simp only [Keep.lit]; with_reducible refine Keep.asked rfl ?_)

theorem keep_execSoundWrite (x1 : Nat) (x2 : Src) (x3 : List Nat) (x4 : Bool) {b c : State} (e : execSoundWrite x1 x2 x3 x4 b = .next c) (h : Keep p a b) : Keep p a c := by
  unfold execSoundWrite at e
  replace e := Host.Outcome.next.inj e
  subst e
  with_reducible repeat' first
    | assumption | apply keep_answer | apply keep_soundWriteOp | apply Keep.begin | intro _ _

theorem keep_execSoundDelete (x1 : Nat) (x2 : Src) (x3 : Nat) {b c : State} (e : execSoundDelete x1 x2 x3 b = .next c) (h : Keep p a b) : Keep p a c := by
  unfold execSoundDelete at e
  replace e := Host.Outcome.next.inj e
  subst e
  with_reducible repeat' first
    | assumption | apply keep_answer | apply keep_soundDeleteOp | apply Keep.begin | intro _ _

theorem keep_audioStops (h : Keep p a b) : Keep p a (audioStops b) := by
  unfold audioStops
  extract_lets l1 l2 l3
  have h2 : Keep p a l2 := by
    unfold l2
    repeat' first
      | (with_reducible first
          | assumption)
      | (simp only [Keep.lit]; with_reducible refine Keep.asked rfl ?_)
  clear_value l2
  have h3 : Keep p a l3 := by
    unfold l3
    with_reducible repeat' first
      | assumption | apply keep_setTdm | apply Keep.each | intro _ _ _
  clear_value l3
  with_reducible repeat' first
    | assumption | apply keep_modAudOut | apply Keep.each | intro _ _ _

theorem keep_audioStarts (h : Keep p a b) : Keep p a (audioStarts b) := by
  unfold audioStarts
  extract_lets l1 l2 l3
  have h2 : Keep p a l2 := by
    unfold l2
    repeat' first
      | (with_reducible first
          | assumption)
      | (simp only [Keep.lit]; with_reducible refine Keep.asked rfl ?_)
  clear_value l2
  have h3 : Keep p a l3 := by
    unfold l3
    with_reducible repeat' first
      | assumption | apply keep_tdmApply | apply Keep.each | intro _ _ _
  clear_value l3
  with_reducible repeat' first
    | assumption | apply keep_audioFollow

end Sys2Proof.Laws
end

