-- ==== Sys2Proof/Laws/KeepStore.lean ====
section
/-! SUPPORT. What Keep says of the operations of the frame store, converters, selection and composition: one lemma for each. -/

namespace Sys2Proof.Laws

open Machine

variable {p : Prop} {a b : State}

/-! FrameStore.lean. -/

theorem keep_placePool (x1 x2 : Nat) {c : State} (e : placePool x1 x2 b = some c) (h : Keep p a b) : Keep p a c := by
  unfold placePool at e
  extract_lets k s0 at e
  have h0 : Keep p a s0 := keep_setPlace _ _ h
  clear_value k s0
  split at e
  · exact Option.some.inj e ▸ h0
  · split at e
    · dsimp only at e
      split at e
      · exact Option.some.inj e ▸ .each (fun s i k => keep_wipeBuf _ (keep_modBuf _ _ k)) (keep_setPlace _ _ h0)
      · exact Option.some.inj e ▸ keep_setPlace _ _ h0
    · cases e

theorem keep_placePools (f : Nat → Nat) (l : List Nat) {c : State} (e : placePools f l b = .inl c) (h : Keep p a b) :
    Keep p a c := by
  induction l generalizing b with
  | nil =>
    cases e
    exact h
  | cons x l ih =>
    rw [placePools] at e
    split at e
    · exact ih e (keep_placePool _ _ ‹_› h)
    · cases e

theorem keep_applyPools (h : Keep p a b) : Keep p a (applyPools b).1 := by
  unfold applyPools
  extract_lets l1 l2 l3 l4 l5
  clear_value l1 l3
  have h4 : Keep p a l4 := by
    unfold l4
    with_reducible repeat' first
      | assumption | apply Keep.each | apply keep_setPlace | intro _ _ _
  clear_value l4 l5
  repeat' first
    | (with_reducible first
        | assumption | apply keep_apply | apply keep_recheck | refine keep_placePools _ _ ‹_› ?_ | apply Keep.iteFst)
    | split

theorem keep_fsPoolCommitOp (h : Keep p a b) : Keep p a (fsPoolCommitOp b).1 := by
  unfold fsPoolCommitOp
  extract_lets l1
  have h1 : Keep p a l1.1 := by
    unfold l1
    with_reducible repeat' first
      | assumption | apply keep_applyPools
  clear_value l1
  with_reducible repeat' first
    | assumption | apply keep_setReg

theorem keep_bufResult (x1 : Nat) (h : Keep p a b) : Keep p a (bufResult x1 b).1 := by
  unfold bufResult
  with_reducible repeat' first
    | assumption | apply keep_setReg

theorem keep_fsAllocOp (x1 : Nat) (h : Keep p a b) : Keep p a (fsAllocOp x1 b).1 := by
  unfold fsAllocOp
  extract_lets l1 l2 l3 l4 l5
  clear_value l1 l2 l3 l4
  repeat' first
    | (with_reducible first
        | assumption | apply keep_setReg | apply keep_bufTake | apply keep_bufResult)
    | split

theorem keep_fsFreeOp (x1 : Nat) (h : Keep p a b) : Keep p a (fsFreeOp x1 b).1 := by
  unfold fsFreeOp
  extract_lets l1 l2 l3 l4
  clear_value l1 l2 l3
  have h4 : Keep p a l4 := by
    unfold l4
    with_reducible repeat' first
      | assumption | apply keep_setBuf
  clear_value l4
  with_reducible repeat' first
    | assumption | apply keep_bufFree | apply keep_recheck | apply keep_bufReleased | apply keep_bufResult
    | apply Keep.ite | apply Keep.iteFst

theorem keep_fsCancelQueuedOp (x1 : Nat) (h : Keep p a b) : Keep p a (fsCancelQueuedOp x1 b).1 := by
  unfold fsCancelQueuedOp
  extract_lets l1 l2 l3
  clear_value l1 l2
  repeat' first
    | (with_reducible first
        | assumption | apply keep_bufResult)
    | (simp only [Keep.lit]; with_reducible refine Keep.asked rfl ?_) | split

theorem keep_fsBufWriteOp (x1 : Nat) (x2 : List Nat) (h : Keep p a b) : Keep p a (fsBufWriteOp x1 x2 b).1 := by
  unfold fsBufWriteOp
  extract_lets l1 l2 l3 l4 l5 l6 l7 l8 l9 l10 l11
  clear_value l1 l2 l3 l4 l5 l6 l7 l8 l9
  have h11 : Keep p a l11 := by
    unfold l11
    repeat' first
      | (with_reducible first
          | assumption)
      | (simp only [Keep.lit]; with_reducible refine Keep.asked rfl ?_)
  clear_value l11
  with_reducible repeat' first
    | assumption | apply keep_runWrites | apply keep_bufResult | apply Keep.iteFst

theorem keep_dropQueued (x1 : Nat) (h : Keep p a b) : Keep p a (dropQueued x1 b) := by
  unfold dropQueued
  extract_lets l1 l2
  repeat' first
    | (with_reducible first
        | assumption | apply keep_setReg | apply keep_raise)
    | (simp only [Keep.lit]; with_reducible refine Keep.asked rfl ?_) | split

theorem keep_execFsPoolCommit (x1 : Nat) (x2 : Src) {b c : State} (e : execFsPoolCommit x1 x2 b = .next c) (h : Keep p a b) : Keep p a c := by
  unfold execFsPoolCommit at e
  replace e := Host.Outcome.next.inj e
  subst e
  with_reducible repeat' first
    | assumption | apply keep_answer | apply keep_fsPoolCommitOp | apply Keep.begin

theorem keep_execFsAlloc (x1 : Nat) (x2 : Src) (x3 : Nat) {b c : State} (e : execFsAlloc x1 x2 x3 b = .next c) (h : Keep p a b) : Keep p a c := by
  unfold execFsAlloc at e
  replace e := Host.Outcome.next.inj e
  subst e
  with_reducible repeat' first
    | assumption | apply keep_answer | apply keep_fsAllocOp | apply Keep.begin | intro _ _

theorem keep_execFsFree (x1 : Nat) (x2 : Src) (x3 : Nat) {b c : State} (e : execFsFree x1 x2 x3 b = .next c) (h : Keep p a b) : Keep p a c := by
  unfold execFsFree at e
  replace e := Host.Outcome.next.inj e
  subst e
  with_reducible repeat' first
    | assumption | apply keep_answer | apply keep_fsFreeOp | apply Keep.begin | intro _ _

theorem keep_execFsCancelQueued (x1 : Nat) (x2 : Src) (x3 : Nat) {b c : State} (e : execFsCancelQueued x1 x2 x3 b = .next c) (h : Keep p a b) : Keep p a c := by
  unfold execFsCancelQueued at e
  replace e := Host.Outcome.next.inj e
  subst e
  with_reducible repeat' first
    | assumption | apply keep_fsCancelQueuedOp | apply keep_answer | apply Keep.begin | intro _ _

theorem keep_execFsBufWrite (x1 : Nat) (x2 : Src) (x3 : Nat) (x4 : List Nat) {b c : State} (e : execFsBufWrite x1 x2 x3 x4 b = .next c) (h : Keep p a b) : Keep p a c := by
  unfold execFsBufWrite at e
  replace e := Host.Outcome.next.inj e
  subst e
  with_reducible repeat' first
    | assumption | apply keep_answer | apply keep_fsBufWriteOp | apply Keep.begin | intro _ _

theorem keep_execQueuedWriteTimeout (x1 : Nat) (x2 : Nat) {b c : State} (e : execQueuedWriteTimeout x1 x2 b = .next c) (h : Keep p a b) : Keep p a c := by
  unfold execQueuedWriteTimeout at e
  replace e := Host.Outcome.next.inj e
  subst e
  with_reducible repeat' first
    | assumption | apply keep_dropQueued | apply Keep.begin

theorem keep_channelRefused (h : Keep p a b) : Keep p a (channelRefused b).1 := by
  unfold channelRefused
  with_reducible repeat' first
    | assumption | apply keep_setReg

theorem keep_fsChRetireOp (x1 : Nat) (h : Keep p a b) : Keep p a (fsChRetireOp x1 b).1 := by
  unfold fsChRetireOp
  with_reducible repeat' first
    | assumption | apply keep_channelRefused | apply keep_askChange | apply keep_modChan | apply keep_chCmdRuns
    | apply Keep.iteFst

theorem keep_fsChRestoreOp (x1 : Nat) (h : Keep p a b) : Keep p a (fsChRestoreOp x1 b).1 := by
  unfold fsChRestoreOp
  with_reducible repeat' first
    | assumption | apply keep_channelRefused | apply keep_askChange | apply keep_modChan | apply keep_chCmdRuns
    | apply Keep.iteFst

theorem keep_fsChSweepOp (x1 : Nat) (h : Keep p a b) : Keep p a (fsChSweepOp x1 b).1 := by
  unfold fsChSweepOp
  with_reducible repeat' first
    | assumption | apply keep_channelRefused | apply keep_sweepSingle | apply keep_chCmdRuns | apply Keep.iteFst

theorem keep_execFsChRetire (x1 : Nat) (x2 : Src) (x3 : Nat) {b c : State} (e : execFsChRetire x1 x2 x3 b = .next c) (h : Keep p a b) : Keep p a c := by
  unfold execFsChRetire at e
  replace e := Host.Outcome.next.inj e
  subst e
  with_reducible repeat' first
    | assumption | apply keep_answer | apply keep_fsChRetireOp | apply Keep.begin | intro _ _

theorem keep_execFsChRestore (x1 : Nat) (x2 : Src) (x3 : Nat) {b c : State} (e : execFsChRestore x1 x2 x3 b = .next c) (h : Keep p a b) : Keep p a c := by
  unfold execFsChRestore at e
  replace e := Host.Outcome.next.inj e
  subst e
  with_reducible repeat' first
    | assumption | apply keep_fsChRestoreOp | apply keep_answer | apply Keep.begin | intro _ _

theorem keep_execFsChSweep (x1 : Nat) (x2 : Src) (x3 : Nat) {b c : State} (e : execFsChSweep x1 x2 x3 b = .next c) (h : Keep p a b) : Keep p a c := by
  unfold execFsChSweep at e
  replace e := Host.Outcome.next.inj e
  subst e
  with_reducible repeat' first
    | assumption | apply keep_answer | apply Keep.begin | apply keep_fsChSweepOp | intro _ _

theorem keep_sweepBegins (h : Keep p a b) : Keep p a (sweepBegins b) := by
  unfold sweepBegins
  extract_lets l1 l2 l3
  have h1 : Keep p a l1 := by
    unfold l1
    with_reducible repeat' first
      | assumption | apply keep_govSweepStarts
  clear_value l1
  repeat' first
    | (with_reducible first
        | assumption | apply keep_sweepFrom)
    | (simp only [Keep.lit]; with_reducible refine Keep.asked rfl ?_)

theorem keep_execMarginSweepStart (x1 : Nat) (x2 : Nat) {b c : State} (e : execMarginSweepStart x1 x2 b = .next c) (h : Keep p a b) : Keep p a c := by
  unfold execMarginSweepStart at e
  extract_lets l1 l2 l3 l4 l5 at e
  have h1 : Keep p a l1 := by
    unfold l1
    with_reducible repeat' first
      | assumption | apply Keep.begin
  clear_value l1
  have h3 : Keep p a l3 := by
    unfold l3
    repeat' first
      | (with_reducible first
          | assumption)
      | (simp only [Keep.lit]; with_reducible refine Keep.asked rfl ?_)
  clear_value l3
  replace e := Host.Outcome.next.inj e
  subst e
  repeat' first
    | (with_reducible first
        | assumption | apply keep_sweepBegins | apply Keep.ite)
    | (simp only [Keep.lit]; with_reducible refine Keep.asked rfl ?_)

theorem keep_channelSwept (x1 : Nat) (x2 : Nat) (h : Keep p a b) : Keep p a (channelSwept x1 x2 b) := by
  unfold channelSwept
  extract_lets l1 l2
  clear_value l1
  have h2 : Keep p a l2 := by
    unfold l2
    with_reducible repeat' first
      | assumption | apply keep_setReg | apply keep_setChan
  clear_value l2
  with_reducible repeat' first
    | assumption | apply keep_modChan | apply keep_askChange | apply keep_raise | apply Keep.ite

theorem keep_askLowerRate (x1 : Nat) (h : Keep p a b) : Keep p a (askLowerRate x1 b) := by
  unfold askLowerRate
  extract_lets l1
  clear_value l1
  with_reducible repeat' first
    | assumption | apply keep_pushCtl | apply keep_modLink | apply Keep.ite

theorem keep_laneSwept (x1 : Nat) (x2 : Nat) (h : Keep p a b) : Keep p a (laneSwept x1 x2 b) := by
  unfold laneSwept
  extract_lets l1 l2 l3
  have h1 : Keep p a l1 := by
    unfold l1
    with_reducible repeat' first
      | assumption | apply keep_modLane
  clear_value l1 l2
  have h3 : Keep p a l3 := by
    unfold l3
    with_reducible repeat' first
      | assumption | apply keep_modLane
  clear_value l3
  with_reducible repeat' first
    | assumption | apply keep_modLane | apply keep_holdAdaptation | apply keep_askLowerRate | apply keep_askRetrain
    | apply Keep.ite

theorem keep_execSweepPartDone (x1 : Nat) (x2 : Nat) {b c : State} (e : execSweepPartDone x1 x2 b = .next c) (h : Keep p a b) : Keep p a c := by
  unfold execSweepPartDone at e
  extract_lets l1 at e
  have h1 : Keep p a l1 := by
    unfold l1
    with_reducible repeat' first
      | assumption | apply Keep.begin
  clear_value l1
  replace e := Host.Outcome.next.inj e
  subst e
  repeat' first
    | (with_reducible first
        | assumption | apply keep_channelSwept | apply keep_laneSwept | apply keep_sweepFrom | apply keep_chCmdEnds
        | apply keep_sweepBegins | apply keep_govSweepEnds | apply keep_nextSingle | apply Keep.whenever
        | apply Keep.ite | intro _ _ _ | intro _ _)
    | (simp only [Keep.lit]; with_reducible refine Keep.asked rfl ?_)
    | split

theorem keep_execEvacuationDone (x1 : Nat) (x2 : Nat) {b c : State} (e : execEvacuationDone x1 x2 b = .next c) (h : Keep p a b) : Keep p a c := by
  unfold execEvacuationDone at e
  extract_lets l1 l2 l3 at e
  have h1 : Keep p a l1 := by
    unfold l1
    with_reducible repeat' first
      | assumption | apply Keep.begin
  clear_value l1 l2
  have h3 : Keep p a l3 := by
    unfold l3
    with_reducible repeat' first
      | assumption | apply keep_evacMove
  clear_value l3
  replace e := Host.Outcome.next.inj e
  subst e
  with_reducible repeat' first
    | assumption | apply keep_modChan | apply keep_setChan | apply keep_finishRetire | apply keep_raise
    | apply keep_endChange | apply Keep.ite

theorem keep_execEvacuationRetry (x1 : Nat) (x2 : Nat) {b c : State} (e : execEvacuationRetry x1 x2 b = .next c) (h : Keep p a b) : Keep p a c := by
  unfold execEvacuationRetry at e
  extract_lets l1 l2 at e
  have h1 : Keep p a l1 := by
    unfold l1
    with_reducible repeat' first
      | assumption | apply Keep.begin
  clear_value l1 l2
  replace e := Host.Outcome.next.inj e
  subst e
  with_reducible repeat' first
    | assumption | apply keep_askChange | apply Keep.ite

theorem keep_recoverLost (h : Keep p a b) : Keep p a (recoverLost b) := by
  unfold recoverLost
  with_reducible repeat' first
    | assumption | apply keep_bufFree | apply Keep.each | apply keep_wipeBuf | intro _ _ _

theorem keep_execChannelRetrainDone (x1 : Nat) (x2 : Nat) (x3 : Bool) (x4 : Bool) (x5 : Nat) {b c : State} (e : execChannelRetrainDone x1 x2 x3 x4 x5 b = .next c) (h : Keep p a b) : Keep p a c := by
  unfold execChannelRetrainDone at e
  extract_lets l1 l2 l3 l4 l5 l6 at e
  have h1 : Keep p a l1 := by
    unfold l1
    with_reducible repeat' first
      | assumption | apply Keep.begin
  clear_value l1 l2 l3
  have h4 : Keep p a l4 := by
    unfold l4
    with_reducible repeat' first
      | assumption | apply keep_setChan | apply Keep.ite
  clear_value l4
  have h5 : Keep p a l5 := by
    unfold l5
    with_reducible repeat' first
      | assumption | apply keep_checkC0Pools | apply keep_recoverLost | apply keep_chCmdEnds | apply Keep.ite
  clear_value l5
  have h6 : Keep p a l6 := by
    unfold l6
    with_reducible repeat' first
      | assumption | apply keep_raise | apply Keep.whenever | intro _ _ _ | intro _ _
  clear_value l6
  replace e := Host.Outcome.next.inj e
  subst e
  with_reducible repeat' first
    | assumption | apply keep_endChange | apply keep_recheck | apply keep_raise | apply keep_chCmdEnds
    | apply keep_setChan | apply keep_checkC0Pools | apply Keep.ite

theorem keep_concealBytes (x1 : Nat) (x2 : Nat) (x3 : Nat) (h : Keep p a b) : Keep p a (concealBytes x1 x2 x3 b) := by
  unfold concealBytes
  repeat' first
    | (with_reducible first
        | assumption | apply keep_writeBytes)
    | split

theorem keep_markBad (x1 : Nat) (x2 : List Nat) (h : Keep p a b) : Keep p a (markBad x1 x2 b) := by
  unfold markBad
  with_reducible repeat' first
    | assumption | apply keep_modBuf

theorem keep_concealStored (x1 : Nat) (x2 : Nat) (x3 : Nat) (h : Keep p a b) : Keep p a (concealStored x1 x2 x3 b) := by
  unfold concealStored
  extract_lets l1 l2 l3 l4 l5 l6 l7
  clear_value l1 l2 l3 l4 l5 l6
  have h7 : Keep p a l7 := by
    unfold l7
    with_reducible repeat' first
      | assumption | apply keep_concealBytes | apply Keep.each | intro _ _ _ | intro _ _
  clear_value l7
  with_reducible repeat' first
    | assumption | apply keep_markBad | apply keep_concealBytes | apply Keep.ite

theorem keep_burstLost (x1 : Nat) (x2 : Nat) (h : Keep p a b) : Keep p a (burstLost x1 x2 b) := by
  unfold burstLost
  extract_lets l1
  clear_value l1
  with_reducible repeat' first
    | assumption | apply keep_concealStored | apply keep_modBuf | apply Keep.ite

theorem keep_lineDamaged (x1 : Nat) (x2 : Nat) (h : Keep p a b) : Keep p a (lineDamaged x1 x2 b) := by
  unfold lineDamaged
  extract_lets l1 l2
  clear_value l1 l2
  with_reducible repeat' first
    | assumption | apply keep_concealStored | apply Keep.ite

theorem keep_burstFailed (x1 : BurstUse) (h : Keep p a b) : Keep p a (burstFailed x1 b) := by
  unfold burstFailed
  repeat' first
    | (with_reducible first
        | assumption | apply keep_raise | apply keep_burstLost | apply keep_count)
    | split

theorem keep_sharedFetch (x1 : Nat) (h : Keep p a b) : Keep p a (sharedFetch x1 b) := by
  unfold sharedFetch
  extract_lets l1
  repeat' first
    | (with_reducible first
        | assumption)
    | (simp only [Keep.lit]; with_reducible refine Keep.asked rfl ?_)

theorem keep_c0Fetch (x1 : Nat) (x2 : Nat) (h : Keep p a b) : Keep p a (c0Fetch x1 x2 b) := by
  unfold c0Fetch
  extract_lets l1 l2 l3
  have h2 : Keep p a l2 := by
    unfold l2
    repeat' first
      | (with_reducible first
          | assumption)
      | (simp only [Keep.lit]; with_reducible refine Keep.asked rfl ?_)
  clear_value l2
  have h3 : Keep p a l3 := by
    unfold l3
    with_reducible repeat' first
      | assumption | apply keep_setReg
  clear_value l3
  with_reducible repeat' first
    | assumption | apply keep_raiseAs | apply Keep.ite

theorem keep_execDramBurstRead (x1 : Nat) (x2 : Nat) (x3 : BurstUse) (x4 : Bool) (x5 : List BurstRead) {b c : State} (e : execDramBurstRead x1 x2 x3 x4 x5 b = .next c) (h : Keep p a b) : Keep p a c := by
  unfold execDramBurstRead at e
  extract_lets l1 l2 l3 l4 l5 l6 l7 l8 l9 at e
  have h1 : Keep p a l1 := by
    unfold l1
    with_reducible repeat' first
      | assumption | apply Keep.begin
  clear_value l1 l2 l3
  have h4 : Keep p a l4 := by
    unfold l4
    with_reducible repeat' first
      | assumption | apply keep_dramTraffic
  clear_value l4
  have h5 : Keep p a l5 := by
    unfold l5
    with_reducible repeat' first
      | assumption | apply keep_c0Fetch | apply keep_sharedFetch | apply Keep.each | apply Keep.ite
      | intro _ _ _ | intro _ _
  clear_value l5
  have h6 : Keep p a l6 := by
    unfold l6
    with_reducible repeat' first
      | assumption | apply keep_raise | apply keep_burstFailed
  clear_value l6 l7
  have h8 : Keep p a l8 := by
    unfold l8
    with_reducible repeat' first
      | assumption | apply keep_modChan
  clear_value l8 l9
  replace e := Host.Outcome.next.inj e
  subst e
  with_reducible repeat' first
    | assumption | apply keep_raise | apply keep_modChan | apply keep_retireNow | apply Keep.ite

theorem keep_winTokens (x1 : Nat) (h : Keep p a b) : Keep p a (winTokens x1 b) := by
  unfold winTokens
  with_reducible repeat' first
    | assumption | apply keep_returnAll | apply keep_modWin

theorem keep_winAbandon (x1 : Nat) (h : Keep p a b) : Keep p a (winAbandon x1 b) := by
  unfold winAbandon
  with_reducible repeat' first
    | assumption | apply keep_modFrame | apply Keep.each | apply keep_abandonWrite | intro _ _ _

theorem keep_winEmpty (x1 : Nat) (h : Keep p a b) : Keep p a (winEmpty x1 b) := by
  unfold winEmpty
  extract_lets l1 l2
  clear_value l1
  have h2 : Keep p a l2 := by
    unfold l2
    with_reducible repeat' first
      | assumption | apply keep_modWin | apply keep_winTokens | apply keep_winAbandon
  clear_value l2
  with_reducible repeat' first
    | assumption | apply keep_bufFree | apply Keep.each

theorem keep_fsWinCommitOp (h : Keep p a b) : Keep p a (fsWinCommitOp b).1 := by
  unfold fsWinCommitOp
  extract_lets l1 l2
  clear_value l1 l2
  with_reducible repeat' first
    | assumption | apply keep_winEmpty | apply keep_apply | apply Keep.each | apply Keep.iteFst

theorem keep_fsWinTriggerOp (x1 : Nat) (h : Keep p a b) : Keep p a (fsWinTriggerOp x1 b).1 := by
  unfold fsWinTriggerOp
  with_reducible repeat' first
    | assumption | apply keep_winTrigger | apply Keep.iteFst

theorem keep_fsWinReleaseOp (x1 : Nat) (h : Keep p a b) : Keep p a (fsWinReleaseOp x1 b).1 := by
  unfold fsWinReleaseOp
  with_reducible repeat' first
    | assumption | apply keep_winTokens | apply Keep.iteFst

theorem keep_fsWinRestartOp (x1 : Nat) (h : Keep p a b) : Keep p a (fsWinRestartOp x1 b).1 := by
  unfold fsWinRestartOp
  with_reducible repeat' first
    | assumption | apply keep_modWin | apply Keep.iteFst

theorem keep_execFsWinTrigger (x1 : Nat) (x2 : Src) (x3 : Nat) {b c : State} (e : execFsWinTrigger x1 x2 x3 b = .next c) (h : Keep p a b) : Keep p a c := by
  unfold execFsWinTrigger at e
  replace e := Host.Outcome.next.inj e
  subst e
  with_reducible repeat' first
    | assumption | apply keep_fsWinTriggerOp | apply keep_answer | apply Keep.begin | intro _ _

theorem keep_execFsWinRestart (x1 : Nat) (x2 : Src) (x3 : Nat) {b c : State} (e : execFsWinRestart x1 x2 x3 b = .next c) (h : Keep p a b) : Keep p a c := by
  unfold execFsWinRestart at e
  replace e := Host.Outcome.next.inj e
  subst e
  with_reducible repeat' first
    | assumption | apply keep_fsWinRestartOp | apply keep_answer | apply Keep.begin | intro _ _

theorem keep_execWindowPostExpiry (x1 : Nat) (x2 : Nat) {b c : State} (e : execWindowPostExpiry x1 x2 b = .next c) (h : Keep p a b) : Keep p a c := by
  unfold execWindowPostExpiry at e
  extract_lets l1 l2 l3 at e
  have h1 : Keep p a l1 := by
    unfold l1
    with_reducible repeat' first
      | assumption | apply Keep.begin
  clear_value l1 l2
  have h3 : Keep p a l3 := by
    unfold l3
    with_reducible repeat' first
      | assumption | apply keep_setWin | apply keep_winAbandon
  clear_value l3
  replace e := Host.Outcome.next.inj e
  subst e
  with_reducible repeat' first
    | assumption | apply keep_takeToken | apply Keep.each | apply keep_raise | apply Keep.ite | intro _ _ _

theorem keep_fsStatsClearOp (h : Keep p a b) : Keep p a (fsStatsClearOp b).1 := by
  unfold fsStatsClearOp
  extract_lets l1 l2 l3
  have h1 : Keep p a l1 := by
    unfold l1
    with_reducible repeat' first
      | assumption | apply keep_clear
  clear_value l1
  have h3 : Keep p a l3 := by
    unfold l3
    repeat' first
      | (with_reducible first
          | assumption)
      | (simp only [Keep.lit]; with_reducible refine Keep.asked rfl ?_)
  clear_value l3
  with_reducible repeat' first
    | assumption | apply keep_modWin | apply Keep.each | intro _ _ _

theorem keep_execFsStatsClear (x1 : Nat) (x2 : Src) {b c : State} (e : execFsStatsClear x1 x2 b = .next c) (h : Keep p a b) : Keep p a c := by
  unfold execFsStatsClear at e
  replace e := Host.Outcome.next.inj e
  subst e
  with_reducible repeat' first
    | assumption | apply keep_fsStatsClearOp | apply keep_answer | apply Keep.begin

theorem keep_storeEmpty (x1 : Option Nat) (h : Keep p a b) : Keep p a (storeEmpty x1 b) := by
  unfold storeEmpty
  extract_lets l1 l2 l3
  have h3 : Keep p a l3 := by
    unfold l3
    with_reducible repeat' first
      | (refine Keep.emptied rfl ?_; assumption)
  clear_value l3
  with_reducible repeat' first
    | assumption | apply keep_modIns | apply Keep.each | intro _ _ _

theorem keep_forgetShown (h : Keep p a b) : Keep p a (forgetShown b) := by
  unfold forgetShown
  with_reducible repeat' first
    | assumption | apply keep_modRoute | apply Keep.each | intro _ _ _

/-! Convert.lean. -/

theorem keep_convApplyOp (x1 : Nat) (h : Keep p a b) : Keep p a (convApplyOp x1 b).1 := by
  unfold convApplyOp
  extract_lets l1 l2 l3 l4
  clear_value l1 l2 l3
  have h4 : Keep p a l4 := by
    unfold l4
    with_reducible repeat' first
      | assumption | apply keep_modUnit
  clear_value l4
  with_reducible repeat' first
    | assumption | apply keep_unitApply | apply Keep.ite | apply Keep.iteFst

theorem keep_convBoundary (x1 : Bnd) (h : Keep p a b) : Keep p a (convBoundary x1 b) := by
  unfold convBoundary
  repeat' first
    | (with_reducible first
        | assumption | apply Keep.each | apply keep_unitApply | intro _ _ _)
    | split

theorem keep_unitDrains (x1 : Time) (x2 : Nat) (h : Keep p a b) : Keep p a (unitDrains x1 x2 b) := by
  unfold unitDrains
  with_reducible repeat' first
    | assumption | apply keep_modUnit | apply keep_qsChanged | apply Keep.ite

theorem keep_convDisableOp (x1 : Nat) (h : Keep p a b) : Keep p a (convDisableOp x1 b).1 := by
  unfold convDisableOp
  repeat' first
    | (with_reducible first
        | assumption | apply keep_unitDrains | apply keep_recheck | apply keep_modUnit | apply Keep.each
        | apply keep_qsChanged | intro _ _ _)
    | split

theorem keep_convEnableOp (x1 : Nat) (h : Keep p a b) : Keep p a (convEnableOp x1 b).1 := by
  unfold convEnableOp
  repeat' first
    | (with_reducible first
        | assumption | apply keep_recheck | apply keep_modUnit | apply keep_qsChanged)
    | split

theorem keep_convRetestOp (x1 : Nat) (x2 : Bool) (h : Keep p a b) : Keep p a (convRetestOp x1 x2 b).1 := by
  unfold convRetestOp
  with_reducible repeat' first
    | assumption | apply keep_recheck | apply keep_modUnit | apply keep_qsChanged | apply keep_portReturned
    | apply Keep.iteFst

theorem keep_execConvApply (x1 : Nat) (x2 : Src) (x3 : Nat) {b c : State} (e : execConvApply x1 x2 x3 b = .next c) (h : Keep p a b) : Keep p a c := by
  unfold execConvApply at e
  replace e := Host.Outcome.next.inj e
  subst e
  with_reducible repeat' first
    | assumption | apply keep_answer | apply keep_convApplyOp | apply Keep.begin | intro _ _

theorem keep_execConvDisable (x1 : Nat) (x2 : Src) (x3 : Nat) {b c : State} (e : execConvDisable x1 x2 x3 b = .next c) (h : Keep p a b) : Keep p a c := by
  unfold execConvDisable at e
  replace e := Host.Outcome.next.inj e
  subst e
  with_reducible repeat' first
    | assumption | apply keep_convDisableOp | apply keep_answer | apply Keep.begin | intro _ _

theorem keep_execConvEnable (x1 : Nat) (x2 : Src) (x3 : Nat) {b c : State} (e : execConvEnable x1 x2 x3 b = .next c) (h : Keep p a b) : Keep p a c := by
  unfold execConvEnable at e
  replace e := Host.Outcome.next.inj e
  subst e
  with_reducible repeat' first
    | assumption | apply keep_convEnableOp | apply keep_answer | apply Keep.begin | intro _ _

theorem keep_execConvRetest (x1 : Nat) (x2 : Src) (x3 : Nat) (x4 : Bool) {b c : State} (e : execConvRetest x1 x2 x3 x4 b = .next c) (h : Keep p a b) : Keep p a c := by
  unfold execConvRetest at e
  replace e := Host.Outcome.next.inj e
  subst e
  with_reducible repeat' first
    | assumption | apply keep_answer | apply keep_convRetestOp | apply Keep.begin | intro _ _

theorem keep_convClearOp (x1 : Nat) (h : Keep p a b) : Keep p a (convClearOp x1 b).1 := by
  unfold convClearOp
  with_reducible repeat' first
    | assumption | apply keep_modUnit

theorem keep_execConvClearCounts (x1 : Nat) (x2 : Src) (x3 : Nat) {b c : State} (e : execConvClearCounts x1 x2 x3 b = .next c) (h : Keep p a b) : Keep p a c := by
  unfold execConvClearCounts at e
  replace e := Host.Outcome.next.inj e
  subst e
  with_reducible repeat' first
    | assumption | apply keep_answer | apply keep_convClearOp | apply Keep.begin | intro _ _

theorem keep_clusterSlow (x1 : Nat) (h : Keep p a b) : Keep p a (clusterSlow x1 b) := by
  unfold clusterSlow
  with_reducible repeat' first
    | assumption | apply Keep.each | apply keep_raise | intro _ _ _

theorem keep_clusterUpdate (x1 : Nat) (x2 : Nat) (h : Keep p a b) : Keep p a (clusterUpdate x1 x2 b) := by
  unfold clusterUpdate
  extract_lets l1 l2 l3 l4
  clear_value l1 l2 l3
  have h4 : Keep p a l4 := by
    unfold l4
    with_reducible repeat' first
      | assumption | apply keep_setConvCluster
  clear_value l4
  with_reducible repeat' first
    | assumption | apply keep_clusterSlow | apply Keep.ite

theorem keep_execConvSpeedUpdate (x1 : Nat) (x2 : List Nat) {b c : State} (e : execConvSpeedUpdate x1 x2 b = .next c) (h : Keep p a b) : Keep p a c := by
  unfold execConvSpeedUpdate at e
  extract_lets l1 at e
  have h1 : Keep p a l1 := by
    unfold l1
    with_reducible repeat' first
      | assumption | apply Keep.begin
  clear_value l1
  replace e := Host.Outcome.next.inj e
  subst e
  with_reducible repeat' first
    | assumption | apply keep_clusterUpdate | apply Keep.each | apply Keep.ite | intro _ _ _

theorem keep_lineLate (x1 : Nat) (h : Keep p a b) : Keep p a (lineLate x1 b) := by
  unfold lineLate
  extract_lets l1
  clear_value l1
  with_reducible repeat' first
    | assumption | apply keep_modUnit | apply Keep.each | apply keep_raise | intro _ _ _

/-! Select.lean. -/

theorem keep_bufDecoded (x1 : Nat) (h : Keep p a b) : Keep p a (bufDecoded x1 b) := by
  unfold bufDecoded
  extract_lets l1 l2
  clear_value l1 l2
  with_reducible repeat' first
    | assumption | apply keep_noteInvalid | apply Keep.whenever | apply Keep.ite | intro _ _ _ | intro _ _

theorem keep_hurtView (x1 : Nat) (x2 : Nat) (h : Keep p a b) : Keep p a (hurtView b x1 x2) := by
  unfold hurtView
  extract_lets l1 l2 l3 l4 l5
  clear_value l1 l2 l5
  with_reducible repeat' first
    | assumption | apply keep_setIns | apply Keep.ite

theorem keep_storedHurt (x1 : Nat) (h : Keep p a b) : Keep p a (storedHurt x1 b) := by
  unfold storedHurt
  repeat' first
    | (with_reducible first
        | assumption | apply keep_modRoute)
    | split

theorem keep_shownRead (x1 : Nat) (h : Keep p a b) : Keep p a (shownRead x1 b) := by
  unfold shownRead
  repeat' first
    | (with_reducible first
        | assumption | apply keep_rtReadDone | apply keep_bufDecoded | apply Keep.each | intro _ _ _ | intro _ _)
    | split

theorem keep_rtShow (x1 : Nat) (x2 : Option Shown) (h : Keep p a b) : Keep p a (rtShow x1 x2 b) := by
  unfold rtShow
  extract_lets l1 l2 l3
  clear_value l1
  have h2 : Keep p a l2 := by
    unfold l2
    with_reducible repeat' first
      | assumption | apply keep_rtDropShown
  clear_value l2
  have h3 : Keep p a l3 := by
    unfold l3
    repeat' first
      | (with_reducible first
          | assumption | apply keep_takeToken | apply Keep.each | intro _ _ _ | intro _ _)
      | split
  clear_value l3
  with_reducible repeat' first
    | assumption | apply keep_modRoute

theorem keep_unitReads (x1 : Nat) (h : Keep p a b) : Keep p a (unitReads x1 b) := by
  unfold unitReads
  extract_lets l1 l2
  clear_value l1 l2
  repeat' first
    | (with_reducible first
        | assumption | apply keep_takeToken | apply Keep.each | apply Keep.ite | intro _ _ _ | intro _ _)
    | split

theorem keep_showFrame (x1 : Nat) (x2 : Nat) (x3 : Nat) (x4 : Shown) (h : Keep p a b) : Keep p a (showFrame x1 x2 x3 x4 b) := by
  unfold showFrame
  with_reducible repeat' first
    | assumption | apply keep_rtDropFirst | apply keep_rtShow | apply keep_modRoute | apply Keep.ite

theorem keep_findsNone (x1 : Nat) (x2 : Nat) (h : Keep p a b) : Keep p a (findsNone x1 x2 b) := by
  unfold findsNone
  extract_lets l1 l2
  clear_value l1 l2
  repeat' first
    | (with_reducible first
        | assumption | apply keep_rtFall | apply keep_rtShow | apply keep_raise | apply keep_count
        | apply keep_modRoute | apply keep_rtDropFirst | apply Keep.ite)
    | split

theorem keep_selectRoute (x1 : Nat) (x2 : Nat) (x3 : Nat) (x4 : Nat) (h : Keep p a b) : Keep p a (selectRoute x1 x2 x3 x4 b) := by
  unfold selectRoute
  extract_lets l1 l2
  clear_value l1 l2
  repeat' first
    | (with_reducible first
        | assumption | apply keep_showFrame | apply keep_findsNone | apply keep_modRoute | apply keep_rtShow
        | apply Keep.ite)
    | split

theorem keep_chaseSlip (x1 : Nat) (h : Keep p a b) : Keep p a (chaseSlip x1 b) := by
  unfold chaseSlip
  extract_lets l1 l2 l3 l4
  clear_value l1 l2
  have h3 : Keep p a l3 := by
    unfold l3
    with_reducible repeat' first
      | assumption | apply keep_modRoute
  clear_value l3
  have h4 : Keep p a l4 := by
    unfold l4
    repeat' first
      | (with_reducible first
          | assumption | apply keep_rtShow)
      | split
  clear_value l4
  with_reducible repeat' first
    | assumption | apply keep_raiseAs | apply keep_chaseSlip | apply keep_raise | apply Keep.ite

theorem keep_chaseLine (x1 : Nat) (x2 : Nat) (x3 : Nat) (x4 : Time) (h : Keep p a b) : Keep p a (chaseLine x1 x2 x3 x4 b) := by
  unfold chaseLine
  extract_lets l1
  clear_value l1
  repeat' first
    | (with_reducible first
        | assumption | apply keep_chaseSlip | apply Keep.ite)
    | split

/-! Compose.lean. -/

theorem keep_coverage (x1 : Nat) (x2 : Option Nat) (h : Keep p a b) : Keep p a (coverage x1 x2 b) := by
  unfold coverage
  extract_lets l1 l2
  have h1 : Keep p a l1 := by
    unfold l1
    with_reducible repeat' first
      | assumption | apply keep_setLayer | apply keep_underruns | apply Keep.each | apply Keep.ite
      | intro _ _ _ | intro _ _
  clear_value l1
  repeat' first
    | (with_reducible first
        | assumption | apply keep_setLayer | apply keep_underruns | apply Keep.each | apply Keep.ite
        | intro _ _ _ | intro _ _)
    | split
    | (dsimp only)

theorem keep_layerStart (x1 : Nat) (x2 : Nat) (h : Keep p a b) : Keep p a (layerStart x1 x2 b) := by
  unfold layerStart
  extract_lets l1 l2 l3 l4
  clear_value l1 l2 l4
  repeat' first
    | (with_reducible first
        | assumption | apply keep_setLayer | apply Keep.ite)
    | split

theorem keep_sendLine (x1 : Nat) (x2 : Nat) (x3 : Bool) (x4 : List Nat) (x5 : List Nat) (h : Keep p a b) : Keep p a (sendLine x1 x2 x3 x4 x5 b) := by
  unfold sendLine
  extract_lets l1 l2 l3 l4 l5 l6 l7 l8 l9 l10
  clear_value l1 l2 l3
  have h4 : Keep p a l4 := by
    unfold l4
    with_reducible repeat' first
      | assumption | apply keep_lineReady | apply keep_emit
  clear_value l4
  have h5 : Keep p a l5 := by
    unfold l5
    with_reducible repeat' first
      | assumption | apply keep_sendFolio | apply Keep.each | intro _ _ _ | intro _ _
  clear_value l5
  have h6 : Keep p a l6 := by
    unfold l6
    with_reducible repeat' first
      | assumption | apply keep_sendFlow
  clear_value l6 l7
  have h8 : Keep p a l8 := by
    unfold l8
    with_reducible repeat' first
      | assumption | apply keep_sendTag
  clear_value l8 l9 l10
  with_reducible repeat' first
    | assumption | apply keep_setSend | apply Keep.ite

theorem keep_sendSamples (x1 : Nat) (x2 : Nat) (x3 : Bool) (x4 : List Nat) (h : Keep p a b) : Keep p a (sendSamples x1 x2 x3 x4 b) := by
  unfold sendSamples
  with_reducible repeat' first
    | assumption | apply keep_sendLine

theorem keep_layerOff (x1 : Nat) (x2 : Nat) (x3 : Nat) (x4 : LayerMode) (h : Keep p a b) : Keep p a (layerOff x1 x2 x3 x4 b) := by
  unfold layerOff
  extract_lets l1 l2
  clear_value l1
  have h2 : Keep p a l2 := by
    unfold l2
    with_reducible repeat' first
      | assumption | apply keep_setLayer
  clear_value l2
  repeat' first
    | (with_reducible first
        | assumption | apply keep_rtShow)
    | split

theorem keep_underruns (x1 : Nat) (x2 : Nat) (x3 : List Nat) (h : Keep p a b) : Keep p a (underruns x1 x2 x3 b) := by
  unfold underruns
  extract_lets l1 l2 l3 l4 l5 l6
  have h2 : Keep p a l2 := by
    unfold l2
    with_reducible repeat' first
      | assumption | apply keep_layerOff | apply Keep.each | intro _ _ _ | intro _ _
  clear_value l2
  have h5 : Keep p a l5 := by
    unfold l5
    with_reducible repeat' first
      | assumption | apply keep_modOutp | apply keep_underruns | apply keep_commitLate | apply keep_outOfRange
      | apply Keep.ite
  clear_value l5
  have h6 : Keep p a l6 := by
    unfold l6
    with_reducible repeat' first
      | assumption | apply keep_coverage
  clear_value l6
  with_reducible repeat' first
    | assumption | apply keep_raise | apply Keep.ite

end Sys2Proof.Laws
end

