-- ==== Sys2Proof/Laws/KeepRaster.lean ====
section
/-! SUPPORT. What Keep says of the operations of rasters and the fabric: one lemma for each. -/

namespace Sys2Proof.Laws

open Machine

variable {p : Prop} {a b : State}

/-! Raster.lean. -/

theorem keep_rtRestored (x1 : Nat) (h : Keep p a b) : Keep p a (rtRestored x1 b) := by
  unfold rtRestored
  with_reducible repeat' first
    | assumption | apply keep_rtMove | apply keep_rtCheck | apply Keep.ite

theorem keep_streamedAge (x1 : Nat) (x2 : Nat) (h : Keep p a b) : Keep p a (streamedAge x1 x2 b) := by
  unfold streamedAge
  repeat' first
    | (with_reducible first
        | assumption | apply keep_modRoute)
    | split

theorem keep_routesAt (x1 : Bnd) (x2 : Nat) (h : Keep p a b) : Keep p a (routesAt x1 x2 b) := by
  unfold routesAt
  with_reducible repeat' first
    | assumption | apply keep_rtCheck | apply keep_rtRestored | apply keep_rtReturn | apply keep_modUnit
    | apply keep_linesLate | apply keep_streamedAge | apply keep_rtShow | apply keep_selectRoute | apply Keep.each
    | apply Keep.ite | intro _ _ _ | intro _ _

theorem keep_engineRaster (x1 : Nat) (x2 : Bool) (h : Keep p a b) : Keep p a (engineRaster x1 x2 b) := by
  unfold engineRaster
  extract_lets l1
  repeat' first
    | (with_reducible first
        | assumption | apply keep_setOutp | apply keep_qsChanged)
    | split

theorem keep_outDrained (x1 : Nat) (h : Keep p a b) : Keep p a (outDrained x1 b) := by
  unfold outDrained
  extract_lets l1 l2 l3 l4
  clear_value l2 l3
  have h4 : Keep p a l4 := by
    unfold l4
    with_reducible repeat' first
      | assumption | apply keep_setOutp | apply keep_qsChanged
  clear_value l4
  with_reducible repeat' first
    | assumption | apply keep_subsystemDone | apply keep_recheck | apply Keep.ite

theorem keep_outIsolate (x1 : Nat) (h : Keep p a b) : Keep p a (outIsolate x1 b) := by
  unfold outIsolate
  repeat' first
    | (with_reducible first
        | assumption | apply keep_modOutp | apply keep_recheck | apply keep_qsChanged)
    | split

theorem keep_gangChange (x1 : Nat) (x2 : Nat) (x3 : Nat) (h : Keep p a b) : Keep p a (gangChange x1 x2 x3 b) := by
  unfold gangChange
  extract_lets l1
  have h1 : Keep p a l1 := by
    unfold l1
    with_reducible repeat' first
      | assumption | apply keep_modOutp | apply Keep.each | apply keep_qsChanged | apply Keep.ite | intro _ _ _
  clear_value l1
  repeat' first
    | (with_reducible first
        | assumption | apply keep_modOutp | apply Keep.each | apply keep_qsChanged | intro _ _ _)
    | split

theorem keep_freezeEvent (x1 : Nat) (x2 : Nat) (x3 : Nat) (h : Keep p a b) : Keep p a (freezeEvent x1 x2 x3 b) := by
  unfold freezeEvent
  extract_lets l1 l2 l3
  clear_value l1 l2 l3
  with_reducible repeat' first
    | assumption | apply keep_raiseAs

theorem keep_endAlarm (x1 : Nat) (x2 : Nat) (h : Keep p a b) : Keep p a (endAlarm x1 x2 b) := by
  unfold endAlarm
  extract_lets l1
  clear_value l1
  with_reducible repeat' first
    | assumption | apply keep_freezeEvent | apply keep_setRegion | apply Keep.ite

theorem keep_startAlarm (x1 : Nat) (x2 : Nat) (x3 : Nat) (h : Keep p a b) : Keep p a (startAlarm x1 x2 x3 b) := by
  unfold startAlarm
  extract_lets l1
  clear_value l1
  with_reducible repeat' first
    | assumption | apply keep_freezeEvent | apply keep_setRegion | apply Keep.ite

theorem keep_changeRegion (x1 : Nat) (x2 : Nat) (x3 : Nat) (x4 : Nat) (x5 : Nat) (x6 : Nat) (h : Keep p a b) : Keep p a (changeRegion x1 x2 x3 x4 x5 x6 b) := by
  unfold changeRegion
  extract_lets l1 l2 l3 l4 l5
  clear_value l1 l2
  have h4 : Keep p a l4 := by
    unfold l4
    with_reducible repeat' first
      | assumption | apply keep_setRegion
  clear_value l4
  have h5 : Keep p a l5 := by
    unfold l5
    with_reducible repeat' first
      | assumption | apply keep_setRegion
  clear_value l5
  with_reducible repeat' first
    | assumption | apply keep_endAlarm | apply keep_startAlarm | apply keep_setRegion | apply Keep.ite

theorem keep_evalRegion (x1 : Nat) (x2 : Nat) (h : Keep p a b) : Keep p a (evalRegion x1 x2 b) := by
  unfold evalRegion
  extract_lets l1 l2 l3 l4 l5 l6 l7
  clear_value l1 l2 l3 l4
  have h5 : Keep p a l5 := by
    unfold l5
    with_reducible repeat' first
      | assumption | apply keep_setRegion
  clear_value l5 l6
  have h7 : Keep p a l7 := by
    unfold l7
    with_reducible repeat' first
      | assumption | apply keep_setRegion
  clear_value l7
  repeat' first
    | (with_reducible first
        | assumption | apply keep_changeRegion | apply keep_endAlarm | apply keep_startAlarm | apply keep_setRegion)
    | split

theorem keep_regionsAfresh (x1 : Nat) (h : Keep p a b) : Keep p a (regionsAfresh x1 b) := by
  unfold regionsAfresh
  with_reducible repeat' first
    | assumption | apply Keep.each | apply keep_setRegion | intro _ _ _

theorem keep_regionLine (x1 : Nat) (x2 : Nat) (x3 : List Px) (x4 : List Nat) (h : Keep p a b) : Keep p a (regionLine x1 x2 x3 x4 b) := by
  unfold regionLine
  with_reducible repeat' first
    | assumption | apply Keep.each | apply keep_setRegion | apply Keep.ite | intro _ _ _

theorem keep_outFlip (x1 : Nat) (x2 : Time) (h : Keep p a b) : Keep p a (outFlip x1 x2 b) := by
  unfold outFlip
  extract_lets l1 l2 l3 l4
  clear_value l1 l2
  have h3 : Keep p a l3 := by
    unfold l3
    repeat' first
      | (with_reducible first
          | assumption | apply Keep.each | apply keep_setRegion | intro _ _ _)
      | split | dsimp only
  clear_value l3
  have h4 : Keep p a l4 := by
    unfold l4
    with_reducible repeat' first
      | assumption | apply keep_modOutp
  clear_value l4
  with_reducible repeat' first
    | assumption | apply keep_flipTakes | apply keep_raise | apply Keep.ite

theorem keep_tileLine (x1 : Nat) (x2 : Nat) (x3 : List Px) (h : Keep p a b) : Keep p a (tileLine x1 x2 x3 b) := by
  unfold tileLine
  extract_lets l1
  with_reducible repeat' first
    | assumption | apply keep_modOutp

theorem keep_pushBegins (x1 : Nat) (x2 : Bool) (x3 : List (Nat × Nat × Nat)) (h : Keep p a b) : Keep p a (pushBegins x1 x2 x3 b) := by
  unfold pushBegins
  extract_lets l1 l2 l3
  have h2 : Keep p a l2 := by
    unfold l2
    with_reducible repeat' first
      | assumption | apply keep_setOutp
  clear_value l2 l3
  with_reducible repeat' first
    | assumption | apply keep_takeToken | apply Keep.each | intro _ _ _

theorem keep_pushRegion (x1 : Nat) (x2 : Bool) (x3 : Bool) (x4 : Nat) (x5 : Nat × Nat × Nat) (h : Keep p a b) : Keep p a (pushRegion x1 x2 x3 x4 x5 b) := by
  unfold pushRegion
  extract_lets l1 l2 l3 l4 l5
  clear_value l1 l2 l3 l4 l5
  repeat' first
    | (with_reducible first
        | assumption | apply keep_sendFlow | apply keep_sendSamples | apply Keep.each | intro _ _ _ | intro _ _)
    | split

theorem keep_pushEvaluate (x1 : Nat) (h : Keep p a b) : Keep p a (pushEvaluate x1 b) := by
  unfold pushEvaluate
  extract_lets l1 l2 l3 l4 l5 l6 l7 l8 l9 l10
  clear_value l2
  have h3 : Keep p a l3 := by
    unfold l3
    with_reducible repeat' first
      | assumption | apply keep_setOutp
  clear_value l3 l4 l5 l6 l7 l8
  have h9 : Keep p a l9 := by
    unfold l9
    with_reducible repeat' first
      | assumption | apply keep_pushBegins | apply keep_outFlip
  clear_value l9 l10
  with_reducible repeat' first
    | assumption | apply keep_setOutp | apply Keep.each | apply keep_pushRegion | apply keep_outFlip
    | apply Keep.ite | intro _ _ _

theorem keep_syncChange (x1 : Nat) (h : Keep p a b) : Keep p a (syncChange x1 b) := by
  unfold syncChange
  extract_lets l1
  clear_value l1
  with_reducible repeat' first
    | assumption | apply keep_modOutp

theorem keep_offsetUpdate (x1 : Nat) (h : Keep p a b) : Keep p a (offsetUpdate x1 b) := by
  unfold offsetUpdate
  extract_lets l1 l2 l3
  clear_value l1 l2
  have h3 : Keep p a l3 := by
    unfold l3
    with_reducible repeat' first
      | assumption | apply keep_modOutp
  clear_value l3
  with_reducible repeat' first
    | assumption | apply keep_syncChange | apply Keep.ite

theorem keep_rasterFormat (x1 : Nat) (h : Keep p a b) : Keep p a (rasterFormat x1 b) := by
  unfold rasterFormat
  repeat' first
    | (with_reducible first
        | assumption | apply keep_putOutDesc)
    | split

theorem keep_rasterStart (x1 : Nat) (h : Keep p a b) : Keep p a (rasterStart x1 b) := by
  unfold rasterStart
  repeat' first
    | (with_reducible first
        | assumption | apply keep_pushCtl | apply keep_setSend)
    | split

theorem keep_rasterStop (x1 : Nat) (h : Keep p a b) : Keep p a (rasterStop x1 b) := by
  unfold rasterStop
  extract_lets l1
  have h1 : Keep p a l1 := by
    unfold l1
    with_reducible repeat' first
      | assumption | apply keep_modOutp
  clear_value l1
  with_reducible repeat' first
    | assumption | apply keep_raise | apply keep_engineRaster

theorem keep_rasterMode (x1 : Nat) (h : Keep p a b) : Keep p a (rasterMode x1 b) := by
  unfold rasterMode
  extract_lets l1 l2 l3
  have h3 : Keep p a l3 := by
    unfold l3
    with_reducible repeat' first
      | assumption | apply keep_setOutp
  clear_value l3
  repeat' first
    | (with_reducible first
        | assumption | apply keep_modOutp | apply keep_setOutp | apply keep_rasterStart | apply keep_rasterStop
        | apply keep_engineRaster)
    | split

theorem keep_commitApply (x1 : Nat) (x2 : OutQueued) (h : Keep p a b) : Keep p a (commitApply x1 x2 b) := by
  unfold commitApply
  extract_lets l1 l2 l3 l4 l5 l6 l7 l8 l9
  clear_value l1
  have h2 : Keep p a l2 := by
    unfold l2
    with_reducible repeat' first
      | assumption | apply keep_setForce | apply Keep.each | intro _ _ _
  clear_value l2
  have h3 : Keep p a l3 := by
    unfold l3
    with_reducible repeat' first
      | assumption | apply keep_modOutp
  clear_value l3
  have h4 : Keep p a l4 := by
    unfold l4
    with_reducible repeat' first
      | assumption | apply keep_gangChange
  clear_value l4
  have h6 : Keep p a l6 := by
    unfold l6
    with_reducible repeat' first
      | assumption | apply keep_rasterFormat | apply Keep.ite
  clear_value l6
  have h8 : Keep p a l8 := by
    unfold l8
    with_reducible repeat' first
      | assumption | apply keep_rasterMode
  clear_value l8
  have h9 : Keep p a l9 := by
    unfold l9
    with_reducible repeat' first
      | assumption | apply keep_modOutp | apply keep_syncChange | apply Keep.ite
  clear_value l9
  with_reducible repeat' first
    | assumption | apply keep_offsetUpdate

theorem keep_commitBoundary (x1 : Nat) (h : Keep p a b) : Keep p a (commitBoundary x1 b) := by
  unfold commitBoundary
  repeat' first
    | (with_reducible first
        | assumption | apply keep_modOutp | apply keep_commitApply)
    | split

theorem keep_commitRefused (x1 : Nat) (x2 : Nat) (h : Keep p a b) : Keep p a (commitRefused x1 x2 b).1 := by
  unfold commitRefused
  with_reducible repeat' first
    | assumption | apply Keep.draw | apply keep_modOutp | apply Keep.iteSnd

theorem keep_commitLate (x1 : Nat) (x2 : Time) (h : Keep p a b) : Keep p a (commitLate x1 x2 b) := by
  unfold commitLate
  extract_lets l1
  have h1 : Keep p a l1 := by
    unfold l1
    with_reducible repeat' first
      | assumption | apply keep_modOutp
  clear_value l1
  with_reducible repeat' first
    | assumption | apply keep_raiseAs

theorem keep_outCommitOp (x1 : Nat) (h : Keep p a b) : Keep p a (outCommitOp x1 b).1 := by
  unfold outCommitOp
  extract_lets l1 l2 l3 l4 l5 l6 l7 l8 l9 l10 l11 l12 l13 l14
  clear_value l2 l3 l4 l6 l7 l8 l9
  have h10 : Keep p a l10 := by
    unfold l10
    with_reducible repeat' first
      | assumption | apply keep_modOutp
  clear_value l10 l11 l12 l13
  have h14 : Keep p a l14 := by
    unfold l14
    with_reducible repeat' first
      | assumption | apply keep_modOutp
  clear_value l14
  with_reducible repeat' first
    | assumption | apply keep_commitLate | apply Keep.whenever | apply keep_commitApply | apply keep_commitRefused
    | apply Keep.iteFst | intro _ _

theorem keep_cacheLoad (x1 : Nat) (h : Keep p a b) : Keep p a (cacheLoad x1 b) := by
  unfold cacheLoad
  extract_lets l1 l2 l3
  clear_value l1 l2
  repeat' first
    | (with_reducible first
        | assumption)
    | (simp only [Keep.lit]; with_reducible refine Keep.asked rfl ?_)

theorem keep_frameEnded (x1 : Nat) (h : Keep p a b) : Keep p a (frameEnded x1 b) := by
  unfold frameEnded
  extract_lets l1 l2
  have h1 : Keep p a l1 := by
    unfold l1
    with_reducible repeat' first
      | assumption | apply keep_evalRegion | apply Keep.each | intro _ _ _
  clear_value l1
  have h2 : Keep p a l2 := by
    unfold l2
    with_reducible repeat' first
      | assumption | apply keep_pushEvaluate | apply Keep.ite
  clear_value l2
  with_reducible repeat' first
    | assumption | apply keep_modOutp | apply Keep.ite

theorem keep_takeRecords (x1 : Nat) (h : Keep p a b) : Keep p a (takeRecords x1 b) := by
  unfold takeRecords
  extract_lets l1 l2 l3 l4
  clear_value l1 l2
  have h4 : Keep p a l4 := by
    unfold l4
    repeat' first
      | (with_reducible first
          | assumption)
      | (simp only [Keep.lit]; with_reducible refine Keep.asked rfl ?_)
  clear_value l4
  with_reducible repeat' first
    | assumption | apply keep_modOutp

theorem keep_frameBegins (x1 : Nat) (h : Keep p a b) : Keep p a (frameBegins x1 b) := by
  unfold frameBegins
  extract_lets l1 l2 l3 l4 l5
  have h1 : Keep p a l1 := by
    unfold l1
    with_reducible repeat' first
      | assumption | apply keep_takeRecords
  clear_value l1
  have h2 : Keep p a l2 := by
    unfold l2
    with_reducible repeat' first
      | assumption | apply Keep.each | apply keep_layerStart | intro _ _ _
  clear_value l2
  have h3 : Keep p a l3 := by
    unfold l3
    with_reducible repeat' first
      | assumption | apply keep_coverage
  clear_value l3 l5
  with_reducible repeat' first
    | assumption | apply keep_setOutp | apply keep_regionsAfresh

theorem keep_outputBoundary (x1 : Nat) (h : Keep p a b) : Keep p a (outputBoundary x1 b) := by
  unfold outputBoundary
  extract_lets l1 l2 l3 l4 l5 l6 l7 l8
  clear_value l1
  have h3 : Keep p a l3 := by
    unfold l3
    with_reducible repeat' first
      | assumption | apply keep_frameEnded | apply keep_outDrained
  clear_value l3
  have h4 : Keep p a l4 := by
    unfold l4
    with_reducible repeat' first
      | assumption | apply keep_rasterMode | apply keep_commitBoundary
  clear_value l4
  have h5 : Keep p a l5 := by
    unfold l5
    with_reducible repeat' first
      | assumption | apply keep_convBoundary | apply keep_applyTakes
  clear_value l5
  have h6 : Keep p a l6 := by
    unfold l6
    repeat' first
      | (with_reducible first
          | assumption | apply keep_userBoundary)
      | split
  clear_value l6
  have h7 : Keep p a l7 := by
    unfold l7
    with_reducible repeat' first
      | assumption | apply keep_strBoundary
  clear_value l7
  have h8 : Keep p a l8 := by
    unfold l8
    with_reducible repeat' first
      | assumption | apply keep_routesAt | apply keep_cacheLoad
  clear_value l8
  with_reducible repeat' first
    | assumption | apply keep_releaseUnnamed | apply keep_offsetUpdate | apply keep_frameBegins | apply Keep.ite

theorem keep_sendCoded (x1 : Nat) (x2 : Nat) (x3 : Nat) (x4 : Nat) (h : Keep p a b) : Keep p a (sendCoded x1 x2 x3 x4 b) := by
  unfold sendCoded
  extract_lets l1 l2 l3 l4 l5
  clear_value l1 l2 l3 l4
  have h5 : Keep p a l5 := by
    unfold l5
    with_reducible repeat' first
      | assumption | apply keep_noteCoded | apply Keep.each | intro _ _ _ | intro _ _
  clear_value l5
  with_reducible repeat' first
    | assumption | apply keep_sendLine | apply Keep.each | apply Keep.ite | intro _ _ _ | intro _ _

theorem keep_sendUpTo (x1 : Nat) (x2 : Nat) (x3 : Nat) (h : Keep p a b) : Keep p a (sendUpTo x1 x2 x3 b) := by
  unfold sendUpTo
  extract_lets l1 l2 l3 l4 l5 l6 l7 l8 l9
  clear_value l1 l2 l3 l4 l5
  have h6 : Keep p a l6 := by
    unfold l6
    with_reducible repeat' first
      | assumption | apply keep_unitReads | apply Keep.whenever | intro _ _ _ | intro _ _
  clear_value l6
  have h7 : Keep p a l7 := by
    unfold l7
    with_reducible repeat' first
      | assumption | apply keep_sendCoded | apply keep_sendSamples | apply Keep.each | apply Keep.ite
      | intro _ _ _ | intro _ _
  clear_value l7 l8
  have h9 : Keep p a l9 := by
    unfold l9
    with_reducible repeat' first
      | assumption | apply keep_setSend
  clear_value l9
  with_reducible repeat' first
    | assumption | apply keep_shownRead | apply Keep.whenever | intro _ _ _ | intro _ _

theorem keep_linesConcealed (x1 : Nat) (x2 : Nat) (x3 : List Nat) (h : Keep p a b) : Keep p a (linesConcealed x1 x2 x3 b) := by
  unfold linesConcealed
  extract_lets l1 l2 l3 l4
  clear_value l1
  have h2 : Keep p a l2 := by
    unfold l2
    with_reducible repeat' first
      | assumption | apply keep_lineLate | apply Keep.each | intro _ _ _ | intro _ _
  clear_value l2 l3
  have h4 : Keep p a l4 := by
    unfold l4
    with_reducible repeat' first
      | assumption | apply keep_setSend
  clear_value l4
  with_reducible repeat' first
    | assumption | apply keep_sendUpTo

theorem keep_streamOverdue (x1 : Nat) (x2 : Nat) (h : Keep p a b) : Keep p a (streamOverdue x1 x2 b) := by
  unfold streamOverdue
  extract_lets l1 l2 l3
  clear_value l1 l2 l3
  repeat' first
    | (with_reducible first
        | assumption | apply keep_chaseLine | apply keep_linesConcealed | apply Keep.ite)
    | split

theorem keep_streamFeed (x1 : Nat) (h : Keep p a b) : Keep p a (streamFeed x1 b) := by
  unfold streamFeed
  repeat' first
    | (with_reducible first
        | assumption | apply keep_streamOverdue | apply keep_sendUpTo | apply Keep.ite)
    | split

theorem keep_convCutOff (x1 : Nat) (h : Keep p a b) : Keep p a (convCutOff x1 b) := by
  unfold convCutOff
  repeat' first
    | (with_reducible first
        | assumption | apply keep_linesConcealed | apply Keep.ite)
    | split
    | (dsimp only)

theorem keep_streamsFed (x1 : Nat) (h : Keep p a b) : Keep p a (streamsFed x1 b) := by
  unfold streamsFed
  with_reducible repeat' first
    | assumption | apply Keep.each | apply keep_streamFeed | intro _ _ _

theorem keep_lineEnds (x1 : Nat) (x2 : Nat) (x3 : Option Nat) (h : Keep p a b) : Keep p a (lineEnds x1 x2 x3 b) := by
  unfold lineEnds
  extract_lets l1 l2
  clear_value l1
  have h2 : Keep p a l2 := by
    unfold l2
    with_reducible repeat' first
      | assumption | apply keep_endLine
  clear_value l2
  repeat' first
    | (with_reducible first
        | assumption | apply keep_streamsFed)
    | split

theorem keep_streamBoundary (x1 : Nat) (h : Keep p a b) : Keep p a (streamBoundary x1 b) := by
  unfold streamBoundary
  extract_lets l1 l2
  clear_value l1
  have h2 : Keep p a l2 := by
    unfold l2
    with_reducible repeat' first
      | assumption | apply keep_userBoundary | apply keep_convBoundary | apply keep_applyTakes | apply keep_streamFeed
  clear_value l2
  with_reducible repeat' first
    | assumption | apply keep_routesAt | apply keep_releaseUnnamed | apply keep_strBoundary

theorem keep_execOutputFrameBoundary (x1 : Nat) (x2 : Bnd) {b c : State} (e : execOutputFrameBoundary x1 x2 b = .next c) (h : Keep p a b) : Keep p a c := by
  unfold execOutputFrameBoundary at e
  extract_lets l1 at e
  have h1 : Keep p a l1 := by
    unfold l1
    with_reducible repeat' first
      | assumption | apply Keep.begin
  clear_value l1
  replace e := Host.Outcome.next.inj e
  subst e
  repeat' first
    | (with_reducible first
        | assumption | apply keep_outputBoundary | apply keep_streamBoundary | apply keep_routesAt
        | apply keep_releaseUnnamed | apply keep_applyTakes)
    | split

theorem keep_execLineCheckFolio (x1 : Nat) (x2 : Nat) (x3 : Nat) {b c : State} (e : execLineCheckFolio x1 x2 x3 b = .next c) (h : Keep p a b) : Keep p a c := by
  unfold execLineCheckFolio at e
  replace e := Host.Outcome.next.inj e
  subst e
  with_reducible repeat' first
    | assumption | apply keep_lineEnds | apply Keep.begin | apply keep_received | intro _ _

theorem keep_execPoisonFolio (x1 : Nat) (x2 : Nat) (x3 : Nat) {b c : State} (e : execPoisonFolio x1 x2 x3 b = .next c) (h : Keep p a b) : Keep p a c := by
  unfold execPoisonFolio at e
  replace e := Host.Outcome.next.inj e
  subst e
  with_reducible repeat' first
    | assumption | apply keep_lineEnds | apply Keep.begin | apply keep_received | apply keep_modCounts | intro _ _

theorem keep_leaveLine (x1 : Nat) (x2 : Nat) (x3 : List Nat) (x4 : List Px) (h : Keep p a b) : Keep p a (leaveLine x1 x2 x3 x4 b) := by
  unfold leaveLine
  repeat' first
    | (with_reducible first
        | assumption | apply keep_sendSamples)
    | split

theorem keep_leaveFirst (x1 : Nat) (x2 : RasterMode) (h : Keep p a b) : Keep p a (leaveFirst x1 x2 b) := by
  unfold leaveFirst
  with_reducible repeat' first
    | assumption | apply keep_composes | apply keep_leaveLine | apply Keep.each | apply Keep.ite
    | intro _ _ _ | intro _ _

theorem keep_firstLine (x1 : Nat) (h : Keep p a b) : Keep p a (firstLine x1 b) := by
  unfold firstLine
  extract_lets l1 l2 l3 l4 l5 l6 l7 l8 l9 l10
  have h5 : Keep p a l5 := by
    unfold l5
    with_reducible repeat' first
      | assumption | apply keep_setOutp | apply keep_underruns | apply keep_commitLate | apply keep_outOfRange
      | apply Keep.ite
  clear_value l5
  have h7 : Keep p a l7 := by
    unfold l7
    with_reducible repeat' first
      | assumption | apply keep_modOutp | apply keep_pushBegins | apply keep_underruns | apply keep_commitLate
      | apply keep_outOfRange | apply Keep.ite
  clear_value l7
  have h8 : Keep p a l8 := by
    unfold l8
    repeat' first
      | (with_reducible first
          | assumption | apply keep_sendFlow | apply Keep.each | apply Keep.ite | intro _ _ _ | intro _ _)
      | split
  clear_value l8
  have h9 : Keep p a l9 := by
    unfold l9
    with_reducible repeat' first
      | assumption | apply keep_raise | apply keep_modOutp | apply keep_underruns | apply keep_commitLate
      | apply keep_outOfRange | apply Keep.ite
  clear_value l9
  have h10 : Keep p a l10 := by
    unfold l10
    with_reducible repeat' first
      | assumption | apply keep_leaveFirst
  clear_value l10
  with_reducible repeat' first
    | assumption | apply keep_outFlip | apply Keep.ite

theorem keep_execFirstActiveLine (x1 : Nat) (x2 : Bnd) {b c : State} (e : execFirstActiveLine x1 x2 b = .next c) (h : Keep p a b) : Keep p a c := by
  unfold execFirstActiveLine at e
  extract_lets l1 at e
  have h1 : Keep p a l1 := by
    unfold l1
    with_reducible repeat' first
      | assumption | apply Keep.begin
  clear_value l1
  replace e := Host.Outcome.next.inj e
  subst e
  repeat' first
    | (with_reducible first
        | assumption | apply keep_setSend | apply keep_flipTakes | apply keep_firstLine | apply keep_streamFeed)
    | split

theorem keep_noteLayers (x1 : Nat) (x2 : Nat) (x3 : List Nat) (h : Keep p a b) : Keep p a (noteLayers x1 x2 x3 b) := by
  unfold noteLayers
  with_reducible repeat' first
    | assumption | apply keep_modOutp | apply Keep.each | apply keep_setLayer | apply Keep.ite | intro _ _ _

theorem keep_blendLine (x1 : Nat) (x2 : Nat) (x3 : List Nat) (h : Keep p a b) : Keep p a (blendLine x1 x2 x3 b) := by
  unfold blendLine
  extract_lets l1 l2 l3 l4 l5
  clear_value l1 l2 l3
  have h4 : Keep p a l4 := by
    unfold l4
    with_reducible repeat' first
      | assumption | apply keep_leaveLine | apply Keep.whenever | intro _ _ _ | intro _ _
  clear_value l4
  have h5 : Keep p a l5 := by
    unfold l5
    with_reducible repeat' first
      | assumption | apply keep_noteLayers | apply keep_regionLine
  clear_value l5
  with_reducible repeat' first
    | assumption | apply keep_tileLine | apply Keep.ite

theorem keep_damageOff (x1 : Nat) (x2 : Nat) (h : Keep p a b) : Keep p a (damageOff x1 x2 b) := by
  unfold damageOff
  repeat' first
    | (with_reducible first
        | assumption | apply Keep.each | apply keep_layerOff | apply Keep.ite | intro _ _ _)
    | split

theorem keep_chaseLines (x1 : Nat) (x2 : Nat) (x3 : Time) (h : Keep p a b) : Keep p a (chaseLines x1 x2 x3 b) := by
  unfold chaseLines
  repeat' first
    | (with_reducible first
        | assumption | apply keep_chaseLine | apply Keep.each | apply Keep.ite | intro _ _ _ | intro _ _)
    | split

theorem keep_unitsRead (x1 : Nat) (x2 : Nat) (h : Keep p a b) : Keep p a (unitsRead x1 x2 b) := by
  unfold unitsRead
  repeat' first
    | (with_reducible first
        | assumption | apply keep_unitReads | apply Keep.each | apply Keep.ite | intro _ _ _ | intro _ _)
    | split

theorem keep_fetchesDone (x1 : Nat) (x2 : Nat) (h : Keep p a b) : Keep p a (fetchesDone x1 x2 b) := by
  unfold fetchesDone
  extract_lets l1
  clear_value l1
  repeat' first
    | (with_reducible first
        | assumption | apply keep_shownRead | apply Keep.each | apply Keep.ite | intro _ _ _ | intro _ _)
    | split

theorem keep_linesLate (x1 : Nat) (x2 : Nat) (x3 : List Nat) (h : Keep p a b) : Keep p a (linesLate x1 x2 x3 b) := by
  unfold linesLate
  repeat' first
    | (with_reducible first
        | assumption | apply keep_lineLate | apply Keep.each | apply Keep.ite | intro _ _ _)
    | split

theorem keep_execOutputLineStart (x1 : Nat) (x2 : Nat) (x3 : Nat) (x4 : List Nat) {b c : State} (e : execOutputLineStart x1 x2 x3 x4 b = .next c) (h : Keep p a b) : Keep p a c := by
  unfold execOutputLineStart at e
  extract_lets l1 l2 l3 l4 l5 l6 l7 at e
  have h1 : Keep p a l1 := by
    unfold l1
    with_reducible repeat' first
      | assumption | apply Keep.begin
  clear_value l1 l2
  have h3 : Keep p a l3 := by
    unfold l3
    with_reducible repeat' first
      | assumption | apply keep_chaseLines | apply Keep.ite
  clear_value l3
  have h4 : Keep p a l4 := by
    unfold l4
    with_reducible repeat' first
      | assumption | apply keep_unitsRead
  clear_value l4
  have h5 : Keep p a l5 := by
    unfold l5
    with_reducible repeat' first
      | assumption | apply keep_damageOff | apply keep_underruns | apply keep_linesLate
  clear_value l5
  have h6 : Keep p a l6 := by
    unfold l6
    with_reducible repeat' first
      | assumption | apply keep_blendLine
  clear_value l6
  have h7 : Keep p a l7 := by
    unfold l7
    with_reducible repeat' first
      | assumption | apply keep_modOutp | apply keep_underruns | apply keep_commitLate | apply keep_outOfRange
  clear_value l7
  replace e := Host.Outcome.next.inj e
  subst e
  with_reducible repeat' first
    | assumption | apply keep_fetchesDone | apply keep_chaseLines | apply Keep.ite

theorem keep_execPushDone (x1 : Nat) (x2 : Nat) {b c : State} (e : execPushDone x1 x2 b = .next c) (h : Keep p a b) : Keep p a c := by
  unfold execPushDone at e
  extract_lets l1 l2 at e
  have h1 : Keep p a l1 := by
    unfold l1
    with_reducible repeat' first
      | assumption | apply Keep.begin
  clear_value l1
  have h2 : Keep p a l2 := by
    unfold l2
    with_reducible repeat' first
      | assumption | apply keep_modOutp | apply keep_returnAll
  clear_value l2
  replace e := Host.Outcome.next.inj e
  subst e
  repeat' first
    | (with_reducible first
        | assumption | apply keep_rasterMode | apply keep_rasterStart)
    | split

theorem keep_execSyncEvent (x1 : Nat) (x2 : Nat) {b c : State} (e : execSyncEvent x1 x2 b = .next c) (h : Keep p a b) : Keep p a c := by
  unfold execSyncEvent at e
  extract_lets l1 l2 l3 l4 l5 l6 l7 l8 l9 at e
  have h1 : Keep p a l1 := by
    unfold l1
    with_reducible repeat' first
      | assumption | apply Keep.begin
  clear_value l1 l3 l4 l5 l6 l7
  replace e := Host.Outcome.next.inj e
  subst e
  with_reducible repeat' first
    | assumption | apply keep_setOutp | apply Keep.ite

theorem keep_execSyncTimeout (x1 : Nat) (x2 : Nat) {b c : State} (e : execSyncTimeout x1 x2 b = .next c) (h : Keep p a b) : Keep p a c := by
  unfold execSyncTimeout at e
  extract_lets l1 l2 l3 l4 l5 at e
  have h1 : Keep p a l1 := by
    unfold l1
    with_reducible repeat' first
      | assumption | apply Keep.begin
  clear_value l1 l3 l4 l5
  replace e := Host.Outcome.next.inj e
  subst e
  with_reducible repeat' first
    | assumption | apply keep_setOutp | apply Keep.ite

theorem keep_execOutCommit (x1 : Nat) (x2 : Src) (x3 : Nat) {b c : State} (e : execOutCommit x1 x2 x3 b = .next c) (h : Keep p a b) : Keep p a c := by
  unfold execOutCommit at e
  replace e := Host.Outcome.next.inj e
  subst e
  with_reducible repeat' first
    | assumption | apply keep_answer | apply Keep.begin | apply keep_outCommitOp | intro _ _

theorem keep_rasterClearLateOp (x1 : Nat) (h : Keep p a b) : Keep p a (rasterClearLateOp x1 b).1 := by
  unfold rasterClearLateOp
  with_reducible repeat' first
    | assumption | apply keep_modOutp

theorem keep_execRasterClearLate (x1 : Nat) (x2 : Src) (x3 : Nat) {b c : State} (e : execRasterClearLate x1 x2 x3 b = .next c) (h : Keep p a b) : Keep p a c := by
  unfold execRasterClearLate at e
  replace e := Host.Outcome.next.inj e
  subst e
  with_reducible repeat' first
    | assumption | apply keep_answer | apply Keep.begin | apply keep_rasterClearLateOp | intro _ _

theorem keep_rasterClearCountsOp (x1 : Nat) (h : Keep p a b) : Keep p a (rasterClearCountsOp x1 b).1 := by
  unfold rasterClearCountsOp
  with_reducible repeat' first
    | assumption | apply keep_modOutp

theorem keep_execRasterClearCounts (x1 : Nat) (x2 : Src) (x3 : Nat) {b c : State} (e : execRasterClearCounts x1 x2 x3 b = .next c) (h : Keep p a b) : Keep p a c := by
  unfold execRasterClearCounts at e
  replace e := Host.Outcome.next.inj e
  subst e
  with_reducible repeat' first
    | assumption | apply keep_answer | apply keep_rasterClearCountsOp | apply Keep.begin | intro _ _

theorem keep_resetRegionsOp (x1 : Nat) (h : Keep p a b) : Keep p a (resetRegionsOp x1 b).1 := by
  unfold resetRegionsOp
  with_reducible repeat' first
    | assumption | apply Keep.each | apply keep_endAlarm | apply keep_setRegion | intro _ _ _

theorem keep_execRasterResetRegions (x1 : Nat) (x2 : Src) (x3 : Nat) {b c : State} (e : execRasterResetRegions x1 x2 x3 b = .next c) (h : Keep p a b) : Keep p a c := by
  unfold execRasterResetRegions at e
  replace e := Host.Outcome.next.inj e
  subst e
  with_reducible repeat' first
    | assumption | apply keep_answer | apply keep_resetRegionsOp | apply Keep.begin | intro _ _

theorem keep_outDisableOp (x1 : Nat) (h : Keep p a b) : Keep p a (outDisableOp x1 b).1 := by
  unfold outDisableOp
  extract_lets l1 l2
  clear_value l2
  repeat' first
    | (with_reducible first
        | assumption | apply keep_setOutp | apply keep_qsChanged)
    | split

theorem keep_outEnableOp (x1 : Nat) (h : Keep p a b) : Keep p a (outEnableOp x1 b).1 := by
  unfold outEnableOp
  extract_lets l1
  repeat' first
    | (with_reducible first
        | assumption | apply keep_setOutp | apply keep_recheck | apply keep_qsChanged)
    | split

theorem keep_outRetestOp (x1 : Nat) (x2 : Bool) (h : Keep p a b) : Keep p a (outRetestOp x1 x2 b).1 := by
  unfold outRetestOp
  extract_lets l1
  with_reducible repeat' first
    | assumption | apply keep_setOutp | apply keep_recheck | apply keep_qsChanged | apply keep_portReturned
    | apply Keep.iteFst

theorem keep_execOutCompDisable (x1 : Nat) (x2 : Src) (x3 : Nat) {b c : State} (e : execOutCompDisable x1 x2 x3 b = .next c) (h : Keep p a b) : Keep p a c := by
  unfold execOutCompDisable at e
  replace e := Host.Outcome.next.inj e
  subst e
  with_reducible repeat' first
    | assumption | apply keep_outDisableOp | apply keep_answer | apply Keep.begin | intro _ _

theorem keep_execOutCompEnable (x1 : Nat) (x2 : Src) (x3 : Nat) {b c : State} (e : execOutCompEnable x1 x2 x3 b = .next c) (h : Keep p a b) : Keep p a c := by
  unfold execOutCompEnable at e
  replace e := Host.Outcome.next.inj e
  subst e
  with_reducible repeat' first
    | assumption | apply keep_outEnableOp | apply keep_answer | apply Keep.begin | intro _ _

theorem keep_execOutCompRetest (x1 : Nat) (x2 : Src) (x3 : Nat) (x4 : Bool) {b c : State} (e : execOutCompRetest x1 x2 x3 x4 b = .next c) (h : Keep p a b) : Keep p a c := by
  unfold execOutCompRetest at e
  replace e := Host.Outcome.next.inj e
  subst e
  with_reducible repeat' first
    | assumption | apply keep_outRetestOp | apply keep_answer | apply Keep.begin | intro _ _

theorem keep_outClearOp (x1 : Nat) (h : Keep p a b) : Keep p a (outClearOp x1 b).1 := by
  unfold outClearOp
  extract_lets l1
  have h1 : Keep p a l1 := by
    unfold l1
    with_reducible repeat' first
      | assumption | apply keep_modOutp
  clear_value l1
  with_reducible repeat' first
    | assumption | apply Keep.each | apply keep_setLayer | intro _ _ _

theorem keep_execOutCompClearCounters (x1 : Nat) (x2 : Src) (x3 : Nat) {b c : State} (e : execOutCompClearCounters x1 x2 x3 b = .next c) (h : Keep p a b) : Keep p a c := by
  unfold execOutCompClearCounters at e
  replace e := Host.Outcome.next.inj e
  subst e
  with_reducible repeat' first
    | assumption | apply keep_answer | apply keep_outClearOp | apply Keep.begin | intro _ _

/-! Flits.lean. -/

theorem keep_discardFlits (x1 : Nat) (x2 : Nat) (h : Keep p a b) : Keep p a (discardFlits x1 x2 b) := by
  unfold discardFlits
  with_reducible repeat' first
    | assumption | apply keep_modPort

theorem keep_setFlitQueue (x1 : Nat) (x2 : Nat) (x3 : List Queued) (h : Keep p a b) : Keep p a (State.setFlitQueue b x1 x2 x3) := by
  unfold State.setFlitQueue
  extract_lets l1
  clear_value l1
  repeat' first
    | (with_reducible first
        | assumption)
    | (simp only [Keep.lit]; with_reducible refine Keep.asked rfl ?_)

theorem keep_setRound (x1 : Nat) (x2 : Round) (h : Keep p a b) : Keep p a (State.setRound b x1 x2) := by
  unfold State.setRound
  extract_lets l1
  clear_value l1
  repeat' first
    | (with_reducible first
        | assumption)
    | (simp only [Keep.lit]; with_reducible refine Keep.asked rfl ?_)

theorem keep_offerFlit (x1 : Flit) (h : Keep p a b) : Keep p a (offerFlit x1 b) := by
  unfold offerFlit
  extract_lets l1 l2 l3 l4 l5 l6 l7 l8 l9 l10 l11
  clear_value l1 l2 l3 l4 l5 l6 l7
  have h8 : Keep p a l8 := by
    unfold l8
    repeat' first
      | (with_reducible first
          | assumption)
      | (simp only [Keep.lit]; with_reducible refine Keep.asked rfl ?_)
  clear_value l8 l9 l10 l11
  with_reducible repeat' first
    | assumption | apply keep_discardFlits | apply keep_setRound | apply keep_setFlitQueue | apply Keep.ite

theorem keep_serveFlit (x1 : Nat) (h : Keep p a b) : Keep p a (serveFlit x1 b).2 := by
  unfold serveFlit
  extract_lets l1 l2 l3
  clear_value l1 l2 l3
  repeat' first
    | (with_reducible first
        | assumption | apply keep_setFlitQueue | apply keep_setRound | apply Keep.iteSnd)
    | split

theorem keep_flushEgress (x1 : Nat) (h : Keep p a b) : Keep p a (flushEgress x1 b).2 := by
  unfold flushEgress
  extract_lets l1 l2
  clear_value l1 l2
  with_reducible repeat' first
    | assumption | apply keep_setRound | apply keep_setFlitQueue | apply Keep.each | intro _ _ _ | intro _ _

theorem keep_countFlit (x1 : Nat) (h : Keep p a b) : Keep p a (countFlit x1 b) := by
  unfold countFlit
  with_reducible repeat' first
    | assumption | apply keep_modPort

/-! Fabric.lean. -/

theorem keep_ownerStops (x1 : Nat) (h : Keep p a b) : Keep p a (ownerStops x1 b) := by
  unfold ownerStops
  with_reducible repeat' first
    | assumption | apply keep_unitIsolate | apply keep_recheck | apply keep_outIsolate | apply Keep.each
    | apply keep_retireNow | apply keep_engineIsolate | apply Keep.ite

theorem keep_dataLost (x1 : Nat) (x2 : Nat) (h : Keep p a b) : Keep p a (dataLost x1 x2 b) := by
  unfold dataLost
  extract_lets l1
  clear_value l1
  repeat' first
    | (with_reducible first
        | assumption | apply keep_audioGap | apply keep_storedHurt | apply keep_routeHurt | apply Keep.ite)
    | split

theorem keep_flitLost (x1 : Nat) (x2 : FlitUse) (h : Keep p a b) : Keep p a (flitLost x1 x2 b) := by
  unfold flitLost
  repeat' first
    | (with_reducible first
        | assumption | apply keep_dataLost | apply keep_lineDamaged)
    | split

theorem keep_flitFails (x1 : Nat) (x2 : FlitUse) (h : Keep p a b) : Keep p a (flitFails x1 x2 b) := by
  unfold flitFails
  extract_lets l1 l2 l3 l4 l5
  clear_value l1 l2 l3
  have h4 : Keep p a l4 := by
    unfold l4
    with_reducible repeat' first
      | assumption | apply keep_setPort
  clear_value l4
  have h5 : Keep p a l5 := by
    unfold l5
    with_reducible repeat' first
      | assumption | apply keep_raise | apply keep_flitLost
  clear_value l5
  with_reducible repeat' first
    | assumption | apply keep_raise | apply Keep.ite

theorem keep_flitFolios (x1 : Nat) (x2 : Queued) (h : Keep p a b) : Keep p a (flitFolios x1 x2 b) := by
  unfold flitFolios
  repeat' first
    | (with_reducible first
        | assumption | apply keep_sendFolio | apply keep_emit | apply Keep.ite)
    | split

theorem keep_flitArrives (x1 : Nat) (x2 : Queued) (h : Keep p a b) : Keep p a (flitArrives x1 x2 b) := by
  unfold flitArrives
  extract_lets l1
  have h1 : Keep p a l1 := by
    unfold l1
    with_reducible repeat' first
      | assumption | apply keep_countFlit
  clear_value l1
  with_reducible repeat' first
    | assumption | apply keep_discardFlits | apply keep_flitFolios | apply keep_flitFails | apply Keep.ite

theorem keep_execSharedFlitArrival (x1 : Nat) (x2 : Nat) (x3 : List Flit) {b c : State} (e : execSharedFlitArrival x1 x2 x3 b = .next c) (h : Keep p a b) : Keep p a c := by
  unfold execSharedFlitArrival at e
  extract_lets l1 l2 at e
  have h1 : Keep p a l1 := by
    unfold l1
    with_reducible repeat' first
      | assumption | apply Keep.begin
  clear_value l1
  have h2 : Keep p a l2.2 := by
    unfold l2
    with_reducible repeat' first
      | assumption | apply keep_serveFlit | apply keep_offerFlit | apply Keep.each | intro _ _ _ | intro _ _
  clear_value l2
  replace e := Host.Outcome.next.inj e
  subst e
  repeat' first
    | (with_reducible first
        | assumption | apply keep_flitArrives | apply Keep.ite)
    | split

theorem keep_flushFlits (x1 : Nat) (h : Keep p a b) : Keep p a (flushFlits x1 b) := by
  unfold flushFlits
  extract_lets l1
  have h1 : Keep p a l1.2 := by
    unfold l1
    with_reducible repeat' first
      | assumption | apply keep_flushEgress
  clear_value l1
  with_reducible repeat' first
    | assumption | apply keep_discardFlits | apply keep_flitLost | apply Keep.each | intro _ _ _ | intro _ _

theorem keep_execEgressStall (x1 : Nat) (x2 : Nat) {b c : State} (e : execEgressStall x1 x2 b = .next c) (h : Keep p a b) : Keep p a c := by
  unfold execEgressStall at e
  extract_lets l1 l2 at e
  have h1 : Keep p a l1 := by
    unfold l1
    with_reducible repeat' first
      | assumption | apply Keep.begin
  clear_value l1 l2
  replace e := Host.Outcome.next.inj e
  subst e
  with_reducible repeat' first
    | assumption | apply keep_raise | apply keep_flushFlits | apply keep_flushEgress | apply Keep.ite

theorem keep_spineFails (x1 : Nat) (x2 : Nat) (h : Keep p a b) : Keep p a (spineFails x1 x2 b) := by
  unfold spineFails
  extract_lets l1 l2 l3 l4 l5 l6 l7 l8 l9
  clear_value l1 l2 l3 l4
  have h5 : Keep p a l5 := by
    unfold l5
    repeat' first
      | (with_reducible first
          | assumption | apply Keep.ite)
      | (simp only [Keep.lit]; with_reducible refine Keep.asked rfl ?_)
  clear_value l5
  have h6 : Keep p a l6 := by
    unfold l6
    with_reducible repeat' first
      | assumption | apply keep_count
  clear_value l6
  have h7 : Keep p a l7 := by
    unfold l7
    with_reducible repeat' first
      | assumption | apply keep_sendIdle | apply Keep.ite
  clear_value l7
  have h8 : Keep p a l8 := by
    unfold l8
    repeat' first
      | (with_reducible first
          | assumption | apply keep_dataLost | apply keep_storeHurt | apply Keep.ite)
      | split
  clear_value l8
  have h9 : Keep p a l9 := by
    unfold l9
    with_reducible repeat' first
      | assumption | apply keep_raise
  clear_value l9
  with_reducible repeat' first
    | assumption | apply keep_raise | apply Keep.ite

theorem keep_probe (x1 : Nat) (x2 : Nat) (h : Keep p a b) : Keep p a (probe x1 x2 b) := by
  unfold probe
  extract_lets l1 l2 l3 l4 l5 l6 l7 l8
  clear_value l1 l2 l3 l4
  have h6 : Keep p a l6 := by
    unfold l6
    repeat' first
      | (with_reducible first
          | assumption)
      | (simp only [Keep.lit]; with_reducible refine Keep.asked rfl ?_)
  clear_value l6
  have h7 : Keep p a l7 := by
    unfold l7
    with_reducible repeat' first
      | assumption | apply keep_setReg
  clear_value l7
  have h8 : Keep p a l8 := by
    unfold l8
    with_reducible repeat' first
      | assumption | apply keep_setReg
  clear_value l8
  with_reducible repeat' first
    | assumption | apply keep_setReg | apply Keep.ite

theorem keep_fillSlot (x1 : Nat) (x2 : Transfer) (h : Keep p a b) : Keep p a (fillSlot x1 x2 b) := by
  unfold fillSlot
  extract_lets l1 l2 l3 l4 l5 l6 l7 l8
  clear_value l1 l2 l3 l4 l5 l6 l7
  have h8 : Keep p a l8 := by
    unfold l8
    repeat' first
      | (with_reducible first
          | assumption | apply Keep.ite)
      | (simp only [Keep.lit]; with_reducible refine Keep.asked rfl ?_)
  clear_value l8
  with_reducible repeat' first
    | assumption | apply keep_sendFolio | apply keep_emit | apply Keep.ite

theorem keep_transferArrives (x1 : Nat) (x2 : Transfer) (h : Keep p a b) : Keep p a (transferArrives x1 x2 b) := by
  unfold transferArrives
  extract_lets l1 l2
  have h1 : Keep p a l1 := by
    unfold l1
    with_reducible repeat' first
      | assumption | apply keep_fillSlot | apply Keep.ite
  clear_value l1
  have h2 : Keep p a l2 := by
    unfold l2
    with_reducible repeat' first
      | assumption | apply keep_probe
  clear_value l2
  with_reducible repeat' first
    | assumption | apply keep_spineFails | apply keep_raiseAs | apply Keep.ite

theorem keep_serveTransfer (x1 : Nat) (h : Keep p a b) : Keep p a (serveTransfer x1 b).2 := by
  unfold serveTransfer
  extract_lets l1 l2
  clear_value l1 l2
  repeat' first
    | (with_reducible first
        | assumption)
    | (simp only [Keep.lit]; with_reducible refine Keep.asked rfl ?_)
    | split

theorem keep_execSpineTransfer (x1 : Nat) (x2 : Nat) (x3 : List Transfer) {b c : State} (e : execSpineTransfer x1 x2 x3 b = .next c) (h : Keep p a b) : Keep p a c := by
  unfold execSpineTransfer at e
  extract_lets l1 l2 l3 l4 l5 at e
  have h1 : Keep p a l1 := by
    unfold l1
    with_reducible repeat' first
      | assumption | apply Keep.begin
  clear_value l1 l2 l3
  have h4 : Keep p a l4 := by
    unfold l4
    repeat' first
      | (with_reducible first
          | assumption)
      | (simp only [Keep.lit]; with_reducible refine Keep.asked rfl ?_)
  clear_value l4
  have h5 : Keep p a l5.2 := by
    unfold l5
    with_reducible repeat' first
      | assumption | apply keep_serveTransfer
  clear_value l5
  replace e := Host.Outcome.next.inj e
  subst e
  repeat' first
    | (with_reducible first
        | assumption | apply keep_transferArrives | apply Keep.ite)
    | split

theorem keep_spineOwnerStops (x1 : Nat) (h : Keep p a b) : Keep p a (spineOwnerStops x1 b) := by
  unfold spineOwnerStops
  with_reducible repeat' first
    | assumption | apply keep_unitIsolate | apply keep_recheck | apply keep_retireNow | apply keep_outIsolate
    | apply keep_chimeEnd | apply Keep.each | apply Keep.ite | intro _ _ _ | intro _ _

theorem keep_execHandshakeTimeout (x1 : Nat) (x2 : Bool) (x3 : Nat) {b c : State} (e : execHandshakeTimeout x1 x2 x3 b = .next c) (h : Keep p a b) : Keep p a c := by
  unfold execHandshakeTimeout at e
  extract_lets l1 l2 l3 l4 at e
  have h1 : Keep p a l1 := by
    unfold l1
    with_reducible repeat' first
      | assumption | apply Keep.begin
  clear_value l1 l2
  have h3 : Keep p a l3 := by
    unfold l3
    repeat' first
      | (with_reducible first
          | assumption | apply Keep.ite)
      | (simp only [Keep.lit]; with_reducible refine Keep.asked rfl ?_)
  clear_value l3
  have h4 : Keep p a l4 := by
    unfold l4
    with_reducible repeat' first
      | assumption | apply keep_flushFlits | apply keep_modPort
  clear_value l4
  replace e := Host.Outcome.next.inj e
  subst e
  with_reducible repeat' first
    | assumption | apply keep_spineOwnerStops | apply keep_raiseAs | apply keep_ownerStops | apply Keep.ite

theorem keep_fabRestoreOp (x1 : Bool) (h : Keep p a b) : Keep p a (fabRestoreOp x1 b).1 := by
  unfold fabRestoreOp
  extract_lets l1
  clear_value l1
  with_reducible repeat' first
    | assumption | apply keep_recheck | apply keep_portReturned | apply Keep.iteFst

theorem keep_execFabPortRestore (x1 : Nat) (x2 : Src) (x3 : Bool) {b c : State} (e : execFabPortRestore x1 x2 x3 b = .next c) (h : Keep p a b) : Keep p a c := by
  unfold execFabPortRestore at e
  replace e := Host.Outcome.next.inj e
  subst e
  with_reducible repeat' first
    | assumption | apply keep_answer | apply keep_fabRestoreOp | apply Keep.begin | intro _ _

theorem keep_fabStatsClearOp (h : Keep p a b) : Keep p a (fabStatsClearOp b).1 := by
  unfold fabStatsClearOp
  extract_lets l1 l2 l3
  have h1 : Keep p a l1 := by
    unfold l1
    with_reducible repeat' first
      | assumption | apply keep_modPort | apply Keep.each | intro _ _ _
  clear_value l1
  have h3 : Keep p a l3 := by
    unfold l3
    repeat' first
      | (with_reducible first
          | assumption)
      | (simp only [Keep.lit]; with_reducible refine Keep.asked rfl ?_)
  clear_value l3
  with_reducible repeat' first
    | assumption | apply keep_clear

theorem keep_execFabStatsClear (x1 : Nat) (x2 : Src) {b c : State} (e : execFabStatsClear x1 x2 b = .next c) (h : Keep p a b) : Keep p a c := by
  unfold execFabStatsClear at e
  replace e := Host.Outcome.next.inj e
  subst e
  with_reducible repeat' first
    | assumption | apply keep_fabStatsClearOp | apply keep_answer | apply Keep.begin

theorem keep_speedUpdate (x1 : List Nat) (x2 : List (Nat × Nat)) (h : Keep p a b) : Keep p a (speedUpdate x1 x2 b) := by
  unfold speedUpdate
  extract_lets l1 l2 l3 l4 l5 l6 l7 l8 l9 l10 l11 l12
  clear_value l1
  have h2 : Keep p a l2 := by
    unfold l2
    with_reducible repeat' first
      | assumption | apply keep_setReg | apply Keep.each | intro _ _ _ | intro _ _
  clear_value l2
  have h3 : Keep p a l3 := by
    unfold l3
    with_reducible repeat' first
      | assumption | apply keep_setReg | apply Keep.foldl | intro _ _ _ | intro _ _
  clear_value l3 l4 l5
  have h6 : Keep p a l6 := by
    unfold l6
    with_reducible repeat' first
      | assumption | apply keep_setReg
  clear_value l6
  have h7 : Keep p a l7 := by
    unfold l7
    with_reducible repeat' first
      | assumption | apply keep_setReg
  clear_value l7
  have h8 : Keep p a l8 := by
    unfold l8
    repeat' first
      | (with_reducible first
          | assumption | apply keep_setReg)
      | split
  clear_value l8 l9 l10
  have h11 : Keep p a l11 := by
    unfold l11
    repeat' first
      | (with_reducible first
          | assumption)
      | (simp only [Keep.lit]; with_reducible refine Keep.asked rfl ?_)
  clear_value l11
  have h12 : Keep p a l12 := by
    unfold l12
    with_reducible repeat' first
      | assumption | apply keep_raise | apply Keep.each | intro _ _ _ | intro _ _
  clear_value l12
  with_reducible repeat' first
    | assumption | apply keep_raise | apply Keep.ite

theorem keep_execFabSpeedUpdate (x1 : Nat) (x2 : List Nat) {b c : State} (e : execFabSpeedUpdate x1 x2 b = .next c) (h : Keep p a b) : Keep p a c := by
  unfold execFabSpeedUpdate at e
  extract_lets l1 at e
  have h1 : Keep p a l1 := by
    unfold l1
    with_reducible repeat' first
      | assumption | apply Keep.begin
  clear_value l1
  replace e := Host.Outcome.next.inj e
  subst e
  with_reducible repeat' first
    | assumption | apply keep_speedUpdate | apply Keep.ite

theorem keep_abandonPushes (x1 : Nat) (h : Keep p a b) : Keep p a (abandonPushes x1 b) := by
  unfold abandonPushes
  repeat' first
    | (with_reducible first
        | assumption | apply keep_rasterMode | apply keep_modOutp | apply keep_rasterStart | apply keep_returnAll
        | apply Keep.each | apply Keep.ite | intro _ _ _)
    | split

theorem keep_execSignalLoss (x1 : Nat) (x2 : Nat) {b c : State} (e : execSignalLoss x1 x2 b = .next c) (h : Keep p a b) : Keep p a c := by
  unfold execSignalLoss at e
  extract_lets l1 l2 l3 l4 at e
  have h1 : Keep p a l1 := by
    unfold l1
    with_reducible repeat' first
      | assumption | apply Keep.begin
  clear_value l1 l2 l3
  have h4 : Keep p a l4 := by
    unfold l4
    with_reducible repeat' first
      | assumption | apply keep_setLane | apply keep_startTraining
  clear_value l4
  replace e := Host.Outcome.next.inj e
  subst e
  repeat' first
    | (with_reducible first
        | assumption | apply keep_lockLost | apply keep_abandonPushes | apply keep_raise | apply keep_linkPhyDown)
    | split

end Sys2Proof.Laws
end

