-- ==== Sys2Proof/Laws/KeepTurns.lean ====
section
/-! SUPPORT. What Keep says of the operations of turns, calendars, the casebook, colophons and ports: one lemma for each. -/

namespace Sys2Proof.Laws

open Machine

variable {p : Prop} {a b : State}

/-! Turns.lean. -/

theorem keep_checkFlows (x1 : Nat) (x2 : Bool) (h : Keep p a b) : Keep p a (checkFlows x1 x2 b) := by
  unfold checkFlows
  extract_lets l1 l2 l3 l4 l5
  clear_value l1 l2 l3 l4
  repeat' first
    | (with_reducible first
        | assumption | apply keep_recheck | apply Keep.ite)
    | (simp only [Keep.lit]; with_reducible refine Keep.asked rfl ?_)

theorem keep_linkEntersUp (x1 : Nat) (x2 : Bool) (h : Keep p a b) : Keep p a (linkEntersUp x1 x2 b) := by
  unfold linkEntersUp
  extract_lets l1 l2
  have h1 : Keep p a l1 := by
    unfold l1
    with_reducible repeat' first
      | assumption | apply keep_linkUp
  clear_value l1
  have h2 : Keep p a l2 := by
    unfold l2
    with_reducible repeat' first
      | assumption | apply keep_modLink | apply keep_raise
  clear_value l2
  with_reducible repeat' first
    | assumption | apply keep_checkFlows | apply Keep.ite

theorem keep_applyBonds (x1 : Nat) (h : Keep p a b) : Keep p a (applyBonds x1 b) := by
  unfold applyBonds
  extract_lets l1
  repeat' first
    | (with_reducible first
        | assumption | apply Keep.each | apply Keep.ite | intro _ _ _)
    | (simp only [Keep.lit]; with_reducible refine Keep.asked rfl ?_)

theorem keep_calendarSwitched (x1 : Nat) (h : Keep p a b) : Keep p a (calendarSwitched x1 b) := by
  unfold calendarSwitched
  extract_lets l1 l2
  have h1 : Keep p a l1 := by
    unfold l1
    with_reducible repeat' first
      | assumption | apply keep_applyBonds
  clear_value l1
  have h2 : Keep p a l2 := by
    unfold l2
    with_reducible repeat' first
      | assumption | apply keep_modLane | apply Keep.each | intro _ _ _
  clear_value l2
  with_reducible repeat' first
    | assumption | apply keep_calendarEmptied

theorem keep_phaseSwitch (x1 : Nat) (h : Keep p a b) : Keep p a (phaseSwitch x1 b) := by
  unfold phaseSwitch
  extract_lets l1 l2 l3
  clear_value l1
  have h2 : Keep p a l2 := by
    unfold l2
    with_reducible repeat' first
      | assumption | apply keep_setForce
  clear_value l2 l3
  with_reducible repeat' first
    | assumption | apply keep_setPhase | apply Keep.ite

theorem keep_phaseShift (x1 : Nat) (h : Keep p a b) : Keep p a (phaseShift x1 b) := by
  unfold phaseShift
  extract_lets l1 l2 l3 l4
  clear_value l1
  have h2 : Keep p a l2.2 := by
    unfold l2
    with_reducible repeat' first
      | assumption | apply Keep.draw
  clear_value l2
  have h3 : Keep p a l3.2 := by
    unfold l3
    with_reducible repeat' first
      | assumption | apply Keep.draw
  clear_value l3
  have h4 : Keep p a l4 := by
    unfold l4
    with_reducible repeat' first
      | assumption | apply keep_setPhase
  clear_value l4
  repeat' first
    | (with_reducible first
        | assumption | apply keep_setPhase | apply keep_raise | apply keep_sendSkip | apply Keep.each | apply Keep.ite
        | intro _ _ _ | intro _ _)
    | split

theorem keep_phaseSeeks (x1 : Nat) (h : Keep p a b) : Keep p a (phaseSeeks x1 b) := by
  unfold phaseSeeks
  with_reducible repeat' first
    | assumption | apply keep_setPhase | apply Keep.each | intro _ _ _ | intro _ _

theorem keep_retrainCleared (x1 : Nat) (h : Keep p a b) : Keep p a (retrainCleared x1 b) := by
  unfold retrainCleared
  repeat' first
    | (with_reducible first
        | assumption | apply Keep.each | apply keep_laneRetrain | apply Keep.ite | intro _ _ _)
    | split

theorem keep_turnMembers (x1 : Nat) (x2 : Nat) (x3 : Nat) (h : Keep p a b) : Keep p a (turnMembers x1 x2 x3 b) := by
  unfold turnMembers
  extract_lets l1
  clear_value l1
  repeat' first
    | (with_reducible first
        | assumption | apply keep_modLink | apply keep_retrainCleared | apply keep_raise | apply keep_memberBack
        | apply keep_excludeMember | apply Keep.ite)
    | split

theorem keep_turnEpoch (x1 : Nat) (x2 : Nat) (x3 : Nat) (h : Keep p a b) : Keep p a (turnEpoch x1 x2 x3 b) := by
  unfold turnEpoch
  extract_lets l1
  clear_value l1
  repeat' first
    | (with_reducible first
        | assumption | apply keep_calendarSwitched | apply keep_setLinkShown | apply keep_txTurn | apply keep_setLink
        | apply Keep.foldl | apply Keep.ite | intro _ _ _ | intro _ _)
    | split

theorem keep_sendParts (x1 : Nat) (h : Keep p a b) : Keep p a (sendParts x1 b) := by
  unfold sendParts
  extract_lets l1 l2 l3
  clear_value l1 l2
  have h3 : Keep p a l3 := by
    unfold l3
    with_reducible repeat' first
      | assumption | apply keep_modLink
  clear_value l3
  with_reducible repeat' first
    | assumption | apply keep_pushCtl

theorem keep_startNegotiating (x1 : Nat) (h : Keep p a b) : Keep p a (startNegotiating x1 b) := by
  unfold startNegotiating
  extract_lets l1 l2
  clear_value l1
  have h2 : Keep p a l2 := by
    unfold l2
    with_reducible repeat' first
      | assumption | apply keep_setLinkShown | apply keep_txTurn
  clear_value l2
  with_reducible repeat' first
    | assumption | apply keep_sendParts

theorem keep_turnLocked (x1 : Nat) (h : Keep p a b) : Keep p a (turnLocked x1 b) := by
  unfold turnLocked
  extract_lets l1 l2 l3
  have h1 : Keep p a l1 := by
    unfold l1
    with_reducible repeat' first
      | assumption | apply keep_phaseSeeks
  clear_value l1 l2 l3
  with_reducible repeat' first
    | assumption | apply keep_sendParts | apply keep_setLink | apply keep_txTurn | apply keep_startNegotiating
    | apply Keep.ite

theorem keep_turnSeen (x1 : Nat) (x2 : Nat) (x3 : Nat) (h : Keep p a b) : Keep p a (turnSeen x1 x2 x3 b) := by
  unfold turnSeen
  extract_lets l1 l2 l3
  clear_value l1 l2
  have h3 : Keep p a l3 := by
    unfold l3
    with_reducible repeat' first
      | assumption | apply keep_setLink
  clear_value l3
  repeat' first
    | (with_reducible first
        | assumption | apply keep_turnMiss | apply keep_setLink | apply keep_turnMembers | apply keep_turnEpoch)
    | split

theorem keep_turnFolioOp (x1 : Nat) (x2 : Nat) (x3 : List Int) (h : Keep p a b) : Keep p a (turnFolioOp x1 x2 x3 b) := by
  unfold turnFolioOp
  extract_lets l1 l2 l3 l4 l5 l6 l7
  clear_value l1 l2 l3 l4 l5
  have h6 : Keep p a l6 := by
    unfold l6
    with_reducible repeat' first
      | assumption | apply keep_setLink | apply keep_txTurn
  clear_value l6 l7
  repeat' first
    | (with_reducible first
        | assumption | apply keep_modLink | apply keep_txTurn | apply keep_turnSeen | apply keep_turnMembers
        | apply keep_turnLocked | apply Keep.ite)
    | split

theorem keep_execTurnFolio (x1 : Nat) (x2 : Nat) (x3 : Nat) (x4 : List Int) {b c : State} (e : execTurnFolio x1 x2 x3 x4 b = .next c) (h : Keep p a b) : Keep p a c := by
  unfold execTurnFolio at e
  extract_lets l1 at e
  have h1 : Keep p a l1 := by
    unfold l1
    with_reducible repeat' first
      | assumption | apply Keep.begin
  clear_value l1
  replace e := Host.Outcome.next.inj e
  subst e
  with_reducible repeat' first
    | assumption | apply keep_goodHeader | apply keep_turnFolioOp | apply Keep.ite

theorem keep_execSkipFolio (x1 : Nat) (x2 : Nat) {b c : State} (e : execSkipFolio x1 x2 b = .next c) (h : Keep p a b) : Keep p a c := by
  unfold execSkipFolio at e
  extract_lets l1 at e
  have h1 : Keep p a l1 := by
    unfold l1
    with_reducible repeat' first
      | assumption | apply keep_goodHeader | apply Keep.begin
  clear_value l1
  replace e := Host.Outcome.next.inj e
  subst e
  with_reducible repeat' first
    | assumption | apply keep_sendSkip | apply Keep.each | intro _ _ _ | intro _ _

theorem keep_execIdleFolio (x1 : Nat) (x2 : Nat) (x3 : Nat) {b c : State} (e : execIdleFolio x1 x2 x3 b = .next c) (h : Keep p a b) : Keep p a c := by
  unfold execIdleFolio at e
  extract_lets l1 l2 l3 at e
  have h1 : Keep p a l1 := by
    unfold l1
    with_reducible repeat' first
      | assumption | apply Keep.begin
  clear_value l1 l2
  have h3 : Keep p a l3 := by
    unfold l3
    with_reducible repeat' first
      | assumption | apply keep_goodHeader
  clear_value l3
  replace e := Host.Outcome.next.inj e
  subst e
  with_reducible repeat' first
    | assumption | apply keep_turnMiss | apply Keep.ite

theorem keep_loseFolio (x1 : Nat) (x2 : Nat) (h : Keep p a b) : Keep p a (loseFolio x1 x2 b) := by
  unfold loseFolio
  repeat' first
    | (with_reducible first
        | assumption | apply keep_modFrame)
    | split

theorem keep_execInvalidHeader (x1 : Nat) (x2 : Nat) (x3 : Nat) {b c : State} (e : execInvalidHeader x1 x2 x3 b = .next c) (h : Keep p a b) : Keep p a c := by
  unfold execInvalidHeader at e
  extract_lets l1 l2 l3 l4 l5 l6 at e
  have h1 : Keep p a l1 := by
    unfold l1
    with_reducible repeat' first
      | assumption | apply Keep.begin
  clear_value l1 l2 l3 l4
  have h5 : Keep p a l5 := by
    unfold l5
    with_reducible repeat' first
      | assumption | apply keep_setLink
  clear_value l5
  have h6 : Keep p a l6 := by
    unfold l6
    with_reducible repeat' first
      | assumption | apply keep_turnMiss | apply keep_loseFolio | apply Keep.ite
  clear_value l6
  replace e := Host.Outcome.next.inj e
  subst e
  repeat' first
    | (with_reducible first
        | assumption | apply keep_alignLost | apply keep_setLink)
    | split

theorem keep_execUnknownControlFolio (x1 : Nat) (x2 : Nat) (x3 : Nat) (x4 : Nat) {b c : State} (e : execUnknownControlFolio x1 x2 x3 x4 b = .next c) (h : Keep p a b) : Keep p a c := by
  unfold execUnknownControlFolio at e
  replace e := Host.Outcome.next.inj e
  subst e
  with_reducible repeat' first
    | assumption | apply keep_turnMiss | apply keep_loseFolio | apply Keep.begin | apply keep_received
    | apply keep_modCounts | apply Keep.ite | intro _ _

theorem keep_enterLowPower (x1 : Nat) (h : Keep p a b) : Keep p a (enterLowPower x1 b) := by
  unfold enterLowPower
  extract_lets l1 l2 l3
  clear_value l1 l2
  have h3 : Keep p a l3 := by
    unfold l3
    with_reducible repeat' first
      | assumption | apply keep_sendIdle | apply Keep.each | intro _ _ _
  clear_value l3
  with_reducible repeat' first
    | assumption | apply keep_modLane | apply keep_leaveReady

theorem keep_enterRate (x1 : Nat) (x2 : Nat) (h : Keep p a b) : Keep p a (enterRate x1 x2 b) := by
  unfold enterRate
  extract_lets l1
  have h1 : Keep p a l1 := by
    unfold l1
    with_reducible repeat' first
      | assumption | apply keep_modLink
  clear_value l1
  with_reducible repeat' first
    | assumption | apply keep_modLane | apply keep_startTraining

theorem keep_txSwitch (x1 : Nat) (x2 : Nat) (h : Keep p a b) : Keep p a (txSwitch x1 x2 b) := by
  unfold txSwitch
  extract_lets l1
  clear_value l1
  repeat' first
    | (with_reducible first
        | assumption | apply keep_phaseSwitch | apply Keep.each | apply keep_checkFlows | apply keep_setLink
        | apply keep_calendarSwitched)
    | split

theorem keep_txMembers (x1 : Nat) (h : Keep p a b) : Keep p a (txMembers x1 b) := by
  unfold txMembers
  extract_lets l1 l2 l3
  clear_value l1
  have h2 : Keep p a l2 := by
    unfold l2
    with_reducible repeat' first
      | assumption | apply keep_setLink
  clear_value l2
  have h3 : Keep p a l3 := by
    unfold l3
    with_reducible repeat' first
      | assumption | apply keep_wakeLane | apply Keep.each | apply Keep.ite
  clear_value l3
  with_reducible repeat' first
    | assumption | apply keep_retrainCleared | apply Keep.ite

theorem keep_turnSkip (x1 : Nat) (x2 : Nat) (h : Keep p a b) : Keep p a (turnSkip x1 x2 b) := by
  unfold turnSkip
  with_reducible repeat' first
    | assumption | apply keep_sendSkip | apply Keep.whenever | intro _ _ _ | intro _ _

theorem keep_turnOver (x1 : Nat) (x2 : TxWalk) (h : Keep p a b) : Keep p a (turnOver x1 x2 b) := by
  unfold turnOver
  extract_lets l1 l2 l3 l4 l5 l6
  clear_value l1 l2
  have h3 : Keep p a l3 := by
    unfold l3
    with_reducible repeat' first
      | assumption | apply keep_setLink | apply keep_txTurn
  clear_value l3
  have h4 : Keep p a l4 := by
    unfold l4
    with_reducible repeat' first
      | assumption | apply keep_setSend | apply Keep.each | intro _ _ _ | intro _ _
  clear_value l4
  have h5 : Keep p a l5 := by
    unfold l5
    with_reducible repeat' first
      | assumption | apply keep_emit | apply Keep.each | intro _ _ _ | intro _ _
  clear_value l5
  have h6 : Keep p a l6 := by
    unfold l6
    with_reducible repeat' first
      | assumption | apply keep_emit
  clear_value l6
  with_reducible repeat' first
    | assumption | apply keep_raiseLimited | apply Keep.ite

theorem keep_txTurn (x1 : Nat) (h : Keep p a b) : Keep p a (txTurn x1 b) := by
  unfold txTurn
  extract_lets l1 l2 l3 l4 l5 l6 l7
  clear_value l1 l2
  have h3 : Keep p a l3 := by
    unfold l3
    with_reducible repeat' first
      | assumption | apply keep_modLink
  clear_value l3
  have h4 : Keep p a l4 := by
    unfold l4
    with_reducible repeat' first
      | assumption | apply keep_turnSkip | apply keep_phaseShift | apply keep_txMembers | apply keep_txSwitch
  clear_value l4 l5 l6
  have h7 : Keep p a l7 := by
    unfold l7
    with_reducible repeat' first
      | assumption | apply keep_sendParts | apply Keep.whenever | intro _ _ _ | intro _ _
  clear_value l7
  with_reducible repeat' first
    | assumption | apply keep_turnOver

theorem keep_execTxTurnStart (x1 : Nat) (x2 : Nat) {b c : State} (e : execTxTurnStart x1 x2 b = .next c) (h : Keep p a b) : Keep p a c := by
  unfold execTxTurnStart at e
  extract_lets l1 l2 l3 at e
  have h1 : Keep p a l1 := by
    unfold l1
    with_reducible repeat' first
      | assumption | apply Keep.begin
  clear_value l1 l2 l3
  replace e := Host.Outcome.next.inj e
  subst e
  repeat' first
    | (with_reducible first
        | assumption | apply keep_enterLowPower | apply keep_txTurn | apply keep_enterRate | apply Keep.ite)
    | split

/-! Calendars.lean. -/

theorem keep_lnkAnnounceOp (x1 : Nat) (h : Keep p a b) : Keep p a (lnkAnnounceOp x1 b).1 := by
  unfold lnkAnnounceOp
  extract_lets l1 l2 l3 l4
  clear_value l1 l2
  have h3 : Keep p a l3 := by
    unfold l3
    with_reducible repeat' first
      | assumption | apply keep_wakeLane | apply Keep.each | apply Keep.ite
  clear_value l3
  have h4 : Keep p a l4 := by
    unfold l4
    with_reducible repeat' first
      | assumption | apply keep_modLink
  clear_value l4
  with_reducible repeat' first
    | assumption | apply keep_modLink | apply keep_announce | apply Keep.ite | apply Keep.iteFst

theorem keep_lnkCancelOp (x1 : Nat) (h : Keep p a b) : Keep p a (lnkCancelOp x1 b).1 := by
  unfold lnkCancelOp
  with_reducible repeat' first
    | assumption | apply keep_modLink

theorem keep_execLnkAnnounceCalendar (x1 : Nat) (x2 : Src) (x3 : Nat) {b c : State} (e : execLnkAnnounceCalendar x1 x2 x3 b = .next c) (h : Keep p a b) : Keep p a c := by
  unfold execLnkAnnounceCalendar at e
  replace e := Host.Outcome.next.inj e
  subst e
  with_reducible repeat' first
    | assumption | apply keep_answer | apply keep_lnkAnnounceOp | apply Keep.begin | intro _ _

theorem keep_execLnkCancelCalendar (x1 : Nat) (x2 : Src) (x3 : Nat) {b c : State} (e : execLnkCancelCalendar x1 x2 x3 b = .next c) (h : Keep p a b) : Keep p a c := by
  unfold execLnkCancelCalendar at e
  replace e := Host.Outcome.next.inj e
  subst e
  with_reducible repeat' first
    | assumption | apply keep_lnkCancelOp | apply keep_answer | apply Keep.begin | intro _ _

theorem keep_calendarSegmentOp (x1 : Nat) (x2 : Nat) (h : Keep p a b) : Keep p a (calendarSegmentOp x1 x2 b) := by
  unfold calendarSegmentOp
  extract_lets l1 l2 l3 l4 l5 l6
  clear_value l1 l2 l3 l4 l5 l6
  with_reducible repeat' first
    | assumption | apply keep_setLink | apply Keep.ite

theorem keep_execCalendarSegment (x1 : Nat) (x2 : Nat) (x3 : Nat) {b c : State} (e : execCalendarSegment x1 x2 x3 b = .next c) (h : Keep p a b) : Keep p a c := by
  unfold execCalendarSegment at e
  replace e := Host.Outcome.next.inj e
  subst e
  with_reducible repeat' first
    | assumption | apply keep_calendarSegmentOp | apply Keep.begin | apply keep_received | apply Keep.ite
    | intro _ _

theorem keep_calendarCommitOp (x1 : Nat) (x2 : Nat) (h : Keep p a b) : Keep p a (calendarCommitOp x1 x2 b) := by
  unfold calendarCommitOp
  extract_lets l1 l2 l3
  clear_value l1 l2
  have h3 : Keep p a l3 := by
    unfold l3
    with_reducible repeat' first
      | assumption | apply keep_pushCtl
  clear_value l3
  with_reducible repeat' first
    | assumption | apply keep_modLink

theorem keep_execCalendarCommit (x1 : Nat) (x2 : Nat) (x3 : Nat) {b c : State} (e : execCalendarCommit x1 x2 x3 b = .next c) (h : Keep p a b) : Keep p a c := by
  unfold execCalendarCommit at e
  replace e := Host.Outcome.next.inj e
  subst e
  with_reducible repeat' first
    | assumption | apply keep_calendarCommitOp | apply Keep.begin | apply keep_received | apply Keep.ite | intro _ _

theorem keep_calendarAckOp (x1 : Nat) (x2 : Nat) (h : Keep p a b) : Keep p a (calendarAckOp x1 x2 b) := by
  unfold calendarAckOp
  extract_lets l1
  clear_value l1
  repeat' first
    | (with_reducible first
        | assumption | apply keep_setLink | apply Keep.ite)
    | split

theorem keep_execCalendarAck (x1 : Nat) (x2 : Nat) (x3 : Nat) {b c : State} (e : execCalendarAck x1 x2 x3 b = .next c) (h : Keep p a b) : Keep p a c := by
  unfold execCalendarAck at e
  replace e := Host.Outcome.next.inj e
  subst e
  with_reducible repeat' first
    | assumption | apply keep_calendarAckOp | apply Keep.begin | apply keep_received | intro _ _

theorem keep_calendarRefuseOp (x1 : Nat) (x2 : Nat) (h : Keep p a b) : Keep p a (calendarRefuseOp x1 x2 b) := by
  unfold calendarRefuseOp
  extract_lets l1 l2 l3
  clear_value l1 l2
  have h3 : Keep p a l3 := by
    unfold l3
    with_reducible repeat' first
      | assumption | apply keep_setLink
  clear_value l3
  repeat' first
    | (with_reducible first
        | assumption | apply keep_announce)
    | split

theorem keep_execCalendarRefuse (x1 : Nat) (x2 : Nat) (x3 : Nat) {b c : State} (e : execCalendarRefuse x1 x2 x3 b = .next c) (h : Keep p a b) : Keep p a c := by
  unfold execCalendarRefuse at e
  replace e := Host.Outcome.next.inj e
  subst e
  with_reducible repeat' first
    | assumption | apply keep_calendarRefuseOp | apply Keep.begin | apply keep_received | intro _ _

theorem keep_bondFolioOp (x1 : Bool) (x2 : Nat) (x3 : Nat) (h : Keep p a b) : Keep p a (bondFolioOp x1 x2 x3 b) := by
  unfold bondFolioOp
  extract_lets l1
  clear_value l1
  repeat' first
    | (with_reducible first
        | assumption | apply keep_modLink)
    | split

theorem keep_execBondMemberLost (x1 : Nat) (x2 : Nat) (x3 : Nat) {b c : State} (e : execBondMemberLost x1 x2 x3 b = .next c) (h : Keep p a b) : Keep p a c := by
  unfold execBondMemberLost at e
  replace e := Host.Outcome.next.inj e
  subst e
  with_reducible repeat' first
    | assumption | apply keep_bondFolioOp | apply Keep.begin | apply keep_received | intro _ _

theorem keep_execBondMemberWithdrawn (x1 : Nat) (x2 : Nat) (x3 : Nat) {b c : State} (e : execBondMemberWithdrawn x1 x2 x3 b = .next c) (h : Keep p a b) : Keep p a c := by
  unfold execBondMemberWithdrawn at e
  replace e := Host.Outcome.next.inj e
  subst e
  with_reducible repeat' first
    | assumption | apply keep_bondFolioOp | apply Keep.begin | apply keep_received | intro _ _

theorem keep_execBondMemberReady (x1 : Nat) (x2 : Nat) (x3 : Nat) {b c : State} (e : execBondMemberReady x1 x2 x3 b = .next c) (h : Keep p a b) : Keep p a c := by
  unfold execBondMemberReady at e
  replace e := Host.Outcome.next.inj e
  subst e
  with_reducible repeat' first
    | assumption | apply keep_bondFolioOp | apply Keep.begin | apply keep_received | intro _ _

/-! Casebook.lean. -/

theorem keep_cbPin (x1 : CbRec) (h : Keep p a b) : Keep p a (cbPin x1 b) := by
  unfold cbPin
  extract_lets l1 l2 l3
  have h1 : Keep p a l1 := by
    unfold l1
    with_reducible repeat' first
      | assumption | apply keep_setReg
  clear_value l1
  repeat' first
    | (with_reducible first
        | assumption | apply keep_raise | apply Keep.ite)
    | (simp only [Keep.lit]; with_reducible refine Keep.asked rfl ?_)

theorem cbErase_epoch (x : CbStore) (n : Nat) : (cbErase x n).keyEpoch = x.keyEpoch := by
  unfold cbErase
  rfl

theorem keep_cbAppend (x1 : CbItem) (h : Keep p a b) : Keep p a (cbAppend x1 b) := by
  unfold cbAppend
  extract_lets l1 l2 l3 l4 n l6 l7 l8 l9 l10 l11 l12 l13
  have hx : Keep p a l10 := by
    refine keep_setReg _ _ (Keep.withCb ?_ ?_ h)
    · exact Nat.le_succ _
    · exact Nat.le_of_eq (cbErase_epoch l2 n).symm
  have hy : Keep p a l13 := hx.like rfl
  clear_value l13
  exact keep_cbPin _ (.ite (keep_raise _ _ hy) hy)

theorem keep_cbCommitOne (h : Keep p a b) : Keep p a (cbCommitOne b) := by
  unfold cbCommitOne
  extract_lets l1 l2 l3
  have h2 : Keep p a l2 := by
    unfold l2
    repeat' first
      | (with_reducible first
          | assumption | apply keep_cbAppend)
      | (simp only [Keep.lit]; with_reducible refine Keep.asked rfl ?_) | split
  clear_value l2
  repeat' first
    | (with_reducible first
        | assumption | apply keep_cbAppend)
    | (simp only [Keep.lit]; with_reducible refine Keep.asked rfl ?_) | split

theorem keep_cbCommitAll (x1 : Nat) (h : Keep p a b) : Keep p a (cbCommitAll x1 b) := by
  induction x1 generalizing b with
  | zero => exact h
  | succ n ih => exact .ite h (ih (keep_cbCommitOne h))

theorem keep_cbFault (h : Keep p a b) : Keep p a (cbFault b) := by
  unfold cbFault
  extract_lets l1
  repeat' first
    | (with_reducible first
        | assumption | apply keep_raise | apply Keep.ite)
    | (simp only [Keep.lit]; with_reducible refine Keep.asked rfl ?_)

theorem keep_execCbCommit (x1 : Nat) (x2 : Bool) {b c : State} (e : execCbCommit x1 x2 b = .next c) (h : Keep p a b) : Keep p a c := by
  unfold execCbCommit at e
  extract_lets l1 at e
  have h1 : Keep p a l1 := by
    unfold l1
    with_reducible repeat' first
      | assumption | apply Keep.begin
  clear_value l1
  replace e := Host.Outcome.next.inj e
  subst e
  with_reducible repeat' first
    | assumption | apply keep_cbFault | apply keep_cbCommitOne | apply Keep.ite

theorem keep_execCbNvmRetry (x1 : Nat) (x2 : Bool) {b c : State} (e : execCbNvmRetry x1 x2 b = .next c) (h : Keep p a b) : Keep p a c := by
  unfold execCbNvmRetry at e
  extract_lets l1 l2 at e
  have h1 : Keep p a l1 := by
    unfold l1
    with_reducible repeat' first
      | assumption | apply Keep.begin
  clear_value l1
  replace e := Host.Outcome.next.inj e
  subst e
  repeat' first
    | (with_reducible first
        | assumption | apply keep_cbCommitOne | apply Keep.ite)
    | (simp only [Keep.lit]; with_reducible refine Keep.asked rfl ?_)

theorem keep_cbNoteOp (x1 : List Nat) (h : Keep p a b) : Keep p a (cbNoteOp x1 b).1 := by
  unfold cbNoteOp
  with_reducible repeat' first
    | assumption | apply keep_cbWrite | apply Keep.iteFst

theorem keep_execCbNote (x1 : Nat) (x2 : Src) (x3 : List Nat) {b c : State} (e : execCbNote x1 x2 x3 b = .next c) (h : Keep p a b) : Keep p a c := by
  unfold execCbNote at e
  replace e := Host.Outcome.next.inj e
  subst e
  with_reducible repeat' first
    | assumption | apply keep_cbNoteOp | apply keep_answer | apply Keep.begin | intro _ _

theorem keep_cbStatsClearOp (h : Keep p a b) : Keep p a (cbStatsClearOp b).1 := by
  unfold cbStatsClearOp
  with_reducible repeat' first
    | assumption | apply keep_clear

theorem keep_execCbStatsClear (x1 : Nat) (x2 : Src) {b c : State} (e : execCbStatsClear x1 x2 b = .next c) (h : Keep p a b) : Keep p a c := by
  unfold execCbStatsClear at e
  replace e := Host.Outcome.next.inj e
  subst e
  with_reducible repeat' first
    | assumption | apply keep_cbStatsClearOp | apply keep_answer | apply Keep.begin

theorem keep_cbReadOne (x1 : List Nat) (x2 : CbRec × Bool × Nat) (h : Keep p a b) : Keep p a (cbReadOne x1 x2 b).2 := by
  unfold cbReadOne
  extract_lets l1 l2 l3 l4
  clear_value l1 l2 l3
  have h4 : Keep p a l4.2 := by
    unfold l4
    with_reducible repeat' first
      | assumption | apply Keep.drawBytes
  clear_value l4
  with_reducible repeat' first
    | assumption | apply keep_raise | apply keep_count | apply Keep.iteSnd

theorem keep_cbReadData (x1 : List Nat) (h : Keep p a b) : Keep p a (cbReadData x1 b).2 := by
  unfold cbReadData
  extract_lets l1 l2 l3 l4 l5
  clear_value l1 l2 l3 l4
  have h5 : Keep p a l5 := by
    unfold l5
    with_reducible repeat' first
      | assumption | apply keep_setReg
  clear_value l5
  with_reducible repeat' first
    | assumption | apply keep_cbReadOne | apply Keep.foldlSnd | intro _ _ _

theorem keep_execCbRead (x1 : Nat) (x2 : Requester) (x3 : List Nat) {b c : State} (e : execCbRead x1 x2 x3 b = .next c) (h : Keep p a b) : Keep p a c := by
  unfold execCbRead at e
  extract_lets l1 at e
  have h1 : Keep p a l1.2 := by
    unfold l1
    with_reducible repeat' first
      | assumption | apply keep_cbReadData | apply Keep.begin
  clear_value l1
  replace e := Host.Outcome.next.inj e
  subst e
  with_reducible repeat' first
    | assumption | apply keep_emit

/-! Colophon.lean. -/

theorem keep_joined (x1 : Nat) (h : Keep p a b) : Keep p a (joined x1 b) := by
  unfold joined
  with_reducible repeat' first
    | assumption | apply keep_raise | apply keep_linkEntersUp

theorem keep_incompatible (x1 : Nat) (x2 : Nat) (h : Keep p a b) : Keep p a (incompatible x1 x2 b) := by
  unfold incompatible
  with_reducible repeat' first
    | assumption | apply keep_modLink | apply keep_raise

theorem keep_renegotiate (x1 : Nat) (h : Keep p a b) : Keep p a (renegotiate x1 b) := by
  unfold renegotiate
  extract_lets l1
  have h1 : Keep p a l1 := by
    unfold l1
    with_reducible repeat' first
      | assumption | apply keep_modLink | apply keep_leaveUp | apply Keep.ite
  clear_value l1
  with_reducible repeat' first
    | assumption | apply keep_startNegotiating

theorem keep_lnkRenegotiateOp (x1 : Nat) (h : Keep p a b) : Keep p a (lnkRenegotiateOp x1 b).1 := by
  unfold lnkRenegotiateOp
  repeat' first
    | (with_reducible first
        | assumption | apply keep_renegotiate)
    | split

theorem keep_execLnkRenegotiate (x1 : Nat) (x2 : Src) (x3 : Nat) {b c : State} (e : execLnkRenegotiate x1 x2 x3 b = .next c) (h : Keep p a b) : Keep p a c := by
  unfold execLnkRenegotiate at e
  replace e := Host.Outcome.next.inj e
  subst e
  with_reducible repeat' first
    | assumption | apply keep_answer | apply keep_lnkRenegotiateOp | apply Keep.begin | intro _ _

theorem keep_challenge (x1 : Nat) (h : Keep p a b) : Keep p a (challenge x1 b) := by
  unfold challenge
  extract_lets l1 l2 l3
  clear_value l1
  have h2 : Keep p a l2.2 := by
    unfold l2
    with_reducible repeat' first
      | assumption | apply Keep.drawBytes
  clear_value l2
  have h3 : Keep p a l3 := by
    unfold l3
    with_reducible repeat' first
      | assumption | apply keep_modLink
  clear_value l3
  with_reducible repeat' first
    | assumption | apply keep_pushCtl

theorem keep_agreed (x1 : Nat) (h : Keep p a b) : Keep p a (agreed x1 b) := by
  unfold agreed
  extract_lets l1 l2
  have h1 : Keep p a l1 := by
    unfold l1
    with_reducible repeat' first
      | assumption | apply keep_modLink
  clear_value l1 l2
  with_reducible repeat' first
    | assumption | apply keep_incompatible | apply keep_joined | apply keep_challenge | apply keep_setLink
    | apply Keep.ite

theorem keep_authDone (x1 : Nat) (h : Keep p a b) : Keep p a (authDone x1 b) := by
  unfold authDone
  extract_lets l1 l2 l3 l4 l5
  clear_value l1 l2
  have h3 : Keep p a l3 := by
    unfold l3
    repeat' first
      | (with_reducible first
          | assumption | apply keep_useSlot)
      | split
  clear_value l3 l4
  have h5 : Keep p a l5 := by
    unfold l5
    with_reducible repeat' first
      | assumption | apply keep_setLinkShown | apply keep_txTurn
  clear_value l5
  with_reducible repeat' first
    | assumption | apply keep_joined | apply Keep.ite

theorem keep_streamsUnverified (x1 : Nat) (h : Keep p a b) : Keep p a (streamsUnverified x1 b) := by
  unfold streamsUnverified
  extract_lets l1
  have h1 : Keep p a l1 := by
    unfold l1
    with_reducible repeat' first
      | assumption | apply keep_modIns | apply Keep.each | intro _ _ _
  clear_value l1
  with_reducible repeat' first
    | assumption | apply keep_recheck

theorem keep_reauthFails (x1 : Nat) (x2 : Nat) (h : Keep p a b) : Keep p a (reauthFails x1 x2 b) := by
  unfold reauthFails
  extract_lets l1 l2 l3 l4 l5
  clear_value l1 l2 l3 l4
  have h5 : Keep p a l5 := by
    unfold l5
    with_reducible repeat' first
      | assumption | apply keep_setLinkShown | apply keep_txTurn
  clear_value l5
  with_reducible repeat' first
    | assumption | apply keep_raise | apply keep_streamsUnverified | apply Keep.ite

theorem keep_authFails (x1 : Nat) (x2 : Nat) (h : Keep p a b) : Keep p a (authFails x1 x2 b) := by
  unfold authFails
  extract_lets l1 l2
  clear_value l1
  have h2 : Keep p a l2 := by
    unfold l2
    with_reducible repeat' first
      | assumption | apply keep_raise | apply keep_setLinkShown | apply keep_txTurn
  clear_value l2
  with_reducible repeat' first
    | assumption | apply keep_reauthFails | apply keep_incompatible | apply keep_joined | apply Keep.ite

theorem keep_startReauth (x1 : Nat) (h : Keep p a b) : Keep p a (startReauth x1 b) := by
  unfold startReauth
  extract_lets l1 l2
  clear_value l1 l2
  with_reducible repeat' first
    | assumption | apply keep_reauthFails | apply keep_challenge | apply keep_setLink | apply Keep.ite

theorem keep_part2Op (x1 : Nat) (x2 : Nat) (h : Keep p a b) : Keep p a (part2Op x1 x2 b) := by
  unfold part2Op
  extract_lets l1 l2 l3 l4 l5 l6 l7 l8 l9
  clear_value l1
  have h2 : Keep p a l2 := by
    unfold l2
    with_reducible repeat' first
      | assumption | apply keep_modLink | apply keep_challenge | apply Keep.ite
  clear_value l2 l3 l4
  have h5 : Keep p a l5 := by
    unfold l5
    with_reducible repeat' first
      | assumption | apply keep_modLink
  clear_value l5 l6
  have h7 : Keep p a l7 := by
    unfold l7
    with_reducible repeat' first
      | assumption | apply keep_useSlot
  clear_value l7
  have h8 : Keep p a l8 := by
    unfold l8
    with_reducible repeat' first
      | assumption | apply keep_pushCtl
  clear_value l8
  have h9 : Keep p a l9 := by
    unfold l9
    with_reducible repeat' first
      | assumption | apply keep_pushCtl
  clear_value l9
  with_reducible repeat' first
    | assumption | apply keep_modLink | apply keep_authDone | apply Keep.ite

theorem keep_execColophonPart2 (x1 : Nat) (x2 : Nat) (x3 : Nat) {b c : State} (e : execColophonPart2 x1 x2 x3 b = .next c) (h : Keep p a b) : Keep p a c := by
  unfold execColophonPart2 at e
  replace e := Host.Outcome.next.inj e
  subst e
  with_reducible repeat' first
    | assumption | apply keep_part2Op | apply Keep.begin | apply keep_received | intro _ _

theorem keep_responseOp (x1 : Nat) (x2 : Nat) (x3 : Nat) (h : Keep p a b) : Keep p a (responseOp x1 x2 x3 b) := by
  unfold responseOp
  extract_lets l1 l2
  clear_value l1 l2
  with_reducible repeat' first
    | assumption | apply keep_modLink | apply keep_authDone | apply keep_authFails | apply keep_useSlot
    | apply Keep.ite

theorem keep_execColophonResponse (x1 : Nat) (x2 : Nat) (x3 : Nat) (x4 : Nat) {b c : State} (e : execColophonResponse x1 x2 x3 x4 b = .next c) (h : Keep p a b) : Keep p a c := by
  unfold execColophonResponse at e
  replace e := Host.Outcome.next.inj e
  subst e
  with_reducible repeat' first
    | assumption | apply keep_responseOp | apply Keep.begin | apply keep_received | intro _ _

theorem keep_execAuthTimeout (x1 : Nat) (x2 : Nat) {b c : State} (e : execAuthTimeout x1 x2 b = .next c) (h : Keep p a b) : Keep p a c := by
  unfold execAuthTimeout at e
  extract_lets l1 l2 at e
  have h1 : Keep p a l1 := by
    unfold l1
    with_reducible repeat' first
      | assumption | apply Keep.begin
  clear_value l1 l2
  replace e := Host.Outcome.next.inj e
  subst e
  with_reducible repeat' first
    | assumption | apply keep_authFails | apply Keep.ite

theorem keep_partnerSeen (x1 : Nat) (x2 : Nat) (h : Keep p a b) : Keep p a (partnerSeen x1 x2 b) := by
  unfold partnerSeen
  extract_lets l1 l2 l3
  clear_value l1 l2
  have h3 : Keep p a l3 := by
    unfold l3
    with_reducible repeat' first
      | assumption | apply keep_setLink
  clear_value l3
  with_reducible repeat' first
    | assumption | apply keep_raise | apply Keep.ite

theorem keep_negotiate (x1 : Nat) (x2 : Nat) (h : Keep p a b) : Keep p a (negotiate x1 x2 b) := by
  unfold negotiate
  extract_lets l1 l2 l3 l4 l5
  clear_value l1 l2 l3
  have h4 : Keep p a l4 := by
    unfold l4
    with_reducible repeat' first
      | assumption | apply keep_modLink
  clear_value l4
  have h5 : Keep p a l5 := by
    unfold l5
    with_reducible repeat' first
      | assumption | apply keep_sendParts
  clear_value l5
  with_reducible repeat' first
    | assumption | apply keep_agreed | apply keep_incompatible | apply Keep.ite

theorem keep_part0Op (x1 : Nat) (x2 : Nat) (h : Keep p a b) : Keep p a (part0Op x1 x2 b) := by
  unfold part0Op
  extract_lets l1
  clear_value l1
  repeat' first
    | (with_reducible first
        | assumption | apply keep_renegotiate | apply keep_startNegotiating | apply keep_negotiate
        | apply keep_setLink)
    | split

theorem keep_execColophonPart0 (x1 : Nat) (x2 : Nat) (x3 : Nat) {b c : State} (e : execColophonPart0 x1 x2 x3 b = .next c) (h : Keep p a b) : Keep p a c := by
  unfold execColophonPart0 at e
  replace e := Host.Outcome.next.inj e
  subst e
  with_reducible repeat' first
    | assumption | apply keep_part0Op | apply keep_goodHeader | apply Keep.begin

theorem keep_part1Op (x1 : Nat) (x2 : Nat) (h : Keep p a b) : Keep p a (part1Op x1 x2 b) := by
  unfold part1Op
  extract_lets l1
  clear_value l1
  repeat' first
    | (with_reducible first
        | assumption | apply keep_renegotiate | apply keep_startNegotiating | apply keep_partnerSeen
        | apply keep_linkEntersUp)
    | split

theorem keep_execColophonPart1 (x1 : Nat) (x2 : Nat) (x3 : Nat) {b c : State} (e : execColophonPart1 x1 x2 x3 b = .next c) (h : Keep p a b) : Keep p a c := by
  unfold execColophonPart1 at e
  replace e := Host.Outcome.next.inj e
  subst e
  with_reducible repeat' first
    | assumption | apply keep_part1Op | apply keep_goodHeader | apply Keep.begin

theorem keep_execColophonTimeout (x1 : Nat) (x2 : Nat) {b c : State} (e : execColophonTimeout x1 x2 b = .next c) (h : Keep p a b) : Keep p a c := by
  unfold execColophonTimeout at e
  extract_lets l1 l2 at e
  have h1 : Keep p a l1 := by
    unfold l1
    with_reducible repeat' first
      | assumption | apply Keep.begin
  clear_value l1 l2
  replace e := Host.Outcome.next.inj e
  subst e
  with_reducible repeat' first
    | assumption | apply keep_incompatible | apply Keep.ite

theorem keep_execResumeTimeout (x1 : Nat) (x2 : Nat) {b c : State} (e : execResumeTimeout x1 x2 b = .next c) (h : Keep p a b) : Keep p a c := by
  unfold execResumeTimeout at e
  extract_lets l1 l2 l3 at e
  have h1 : Keep p a l1 := by
    unfold l1
    with_reducible repeat' first
      | assumption | apply Keep.begin
  clear_value l1 l2 l3
  replace e := Host.Outcome.next.inj e
  subst e
  with_reducible repeat' first
    | assumption | apply keep_raise | apply keep_setLink | apply Keep.ite

theorem keep_epochAdvanceOp (x1 : Nat) (h : Keep p a b) : Keep p a (epochAdvanceOp x1 b) := by
  unfold epochAdvanceOp
  extract_lets l1
  clear_value l1
  repeat' first
    | (with_reducible first
        | assumption | apply keep_raise | apply keep_startReauth | apply keep_setLink)
    | split

theorem keep_execEpochAdvance (x1 : Nat) (x2 : Nat) {b c : State} (e : execEpochAdvance x1 x2 b = .next c) (h : Keep p a b) : Keep p a c := by
  unfold execEpochAdvance at e
  replace e := Host.Outcome.next.inj e
  subst e
  with_reducible repeat' first
    | assumption | apply keep_epochAdvanceOp | apply Keep.begin

theorem keep_rederive (x1 : Nat) (h : Keep p a b) : Keep p a (rederive x1 b) := by
  unfold rederive
  extract_lets l1 l2
  clear_value l1 l2
  with_reducible repeat' first
    | assumption | apply keep_useSlot | apply keep_setKeySlot | apply Keep.ite

theorem keep_orphanEpochEndOp (x1 : Nat) (h : Keep p a b) : Keep p a (orphanEpochEndOp x1 b) := by
  unfold orphanEpochEndOp
  extract_lets l1
  clear_value l1
  repeat' first
    | (with_reducible first
        | assumption | apply keep_endSession | apply keep_startReauth | apply keep_rederive)
    | split

theorem keep_execOrphanEpochEnd (x1 : Nat) (x2 : Nat) {b c : State} (e : execOrphanEpochEnd x1 x2 b = .next c) (h : Keep p a b) : Keep p a c := by
  unfold execOrphanEpochEnd at e
  replace e := Host.Outcome.next.inj e
  subst e
  with_reducible repeat' first
    | assumption | apply keep_orphanEpochEndOp | apply Keep.begin

theorem keep_reauthRetryOp (x1 : Nat) (h : Keep p a b) : Keep p a (reauthRetryOp x1 b) := by
  unfold reauthRetryOp
  repeat' first
    | (with_reducible first
        | assumption | apply keep_startReauth | apply keep_rederive)
    | split

theorem keep_execReauthRetry (x1 : Nat) (x2 : Nat) {b c : State} (e : execReauthRetry x1 x2 b = .next c) (h : Keep p a b) : Keep p a c := by
  unfold execReauthRetry at e
  replace e := Host.Outcome.next.inj e
  subst e
  with_reducible repeat' first
    | assumption | apply keep_reauthRetryOp | apply Keep.begin

/-! Image.lean. -/

theorem keep_saveStands (x1 : SaveRun) (h : Keep p a b) : Keep p a (saveStands x1 b) := by
  unfold saveStands
  extract_lets l1 l2 l3 l4
  clear_value l1
  have h4 : Keep p a l4 := by
    unfold l4
    repeat' first
      | (with_reducible first
          | assumption)
      | (simp only [Keep.lit]; with_reducible refine Keep.asked rfl ?_)
  clear_value l4
  with_reducible repeat' first
    | assumption | apply keep_setReg | apply keep_count

/-! Ports.lean. -/

theorem keep_withPath (x1 : Nat) (x2 : State → State) (k2 : ∀ (s : State), Keep p a s → Keep p a (x2 s)) (h : Keep p a b) : Keep p a (withPath x1 x2 b) := by
  unfold withPath
  extract_lets l1
  have h1 : Keep p a l1 := by
    unfold l1
    with_reducible repeat' first
      | assumption | apply k2
  clear_value l1
  with_reducible repeat' first
    | assumption | apply keep_pathUp | apply keep_pathDown | apply Keep.ite

theorem keep_canFresh (x1 : Nat) (h : Keep p a b) : Keep p a (canFresh x1 b) := by
  unfold canFresh
  extract_lets l1
  clear_value l1
  with_reducible repeat' first
    | assumption | apply keep_setCan

theorem keep_canForce (x1 : Nat) (x2 : Nat) (h : Keep p a b) : Keep p a (canForce x1 x2 b) := by
  unfold canForce
  with_reducible repeat' first
    | assumption | apply keep_canFresh | apply keep_setForce | apply keep_withPath | apply Keep.ite | intro _ _

theorem keep_canApplyOp (x1 : Nat) (h : Keep p a b) : Keep p a (canApplyOp x1 b).1 := by
  unfold canApplyOp
  with_reducible repeat' first
    | assumption | apply keep_canForce | apply Keep.iteFst

theorem keep_canLeaveOp (x1 : Nat) (h : Keep p a b) : Keep p a (canLeaveOp x1 b).1 := by
  unfold canLeaveOp
  with_reducible repeat' first
    | assumption | apply keep_canFresh | apply keep_withPath | apply Keep.ite | apply Keep.iteFst | intro _ _

theorem keep_execCanApplySetup (x1 : Nat) (x2 : Src) (x3 : Nat) {b c : State} (e : execCanApplySetup x1 x2 x3 b = .next c) (h : Keep p a b) : Keep p a c := by
  unfold execCanApplySetup at e
  replace e := Host.Outcome.next.inj e
  subst e
  with_reducible repeat' first
    | assumption | apply keep_canApplyOp | apply keep_answer | apply Keep.begin | intro _ _

theorem keep_execCanLeaveBusOff (x1 : Nat) (x2 : Src) (x3 : Nat) {b c : State} (e : execCanLeaveBusOff x1 x2 x3 b = .next c) (h : Keep p a b) : Keep p a c := by
  unfold execCanLeaveBusOff at e
  replace e := Host.Outcome.next.inj e
  subst e
  with_reducible repeat' first
    | assumption | apply keep_answer | apply keep_canLeaveOp | apply Keep.begin | intro _ _

theorem keep_execCanBusError (x1 : Nat) (x2 : Nat) (x3 : Nat) (x4 : Nat) {b c : State} (e : execCanBusError x1 x2 x3 x4 b = .next c) (h : Keep p a b) : Keep p a c := by
  unfold execCanBusError at e
  extract_lets l1 l2 at e
  have h1 : Keep p a l1 := by
    unfold l1
    with_reducible repeat' first
      | assumption | apply Keep.begin
  clear_value l1 l2
  replace e := Host.Outcome.next.inj e
  subst e
  with_reducible repeat' first
    | assumption | apply keep_setCan | apply keep_withPath | apply Keep.ite | intro _ _

theorem keep_execCanBusOffRecovery (x1 : Nat) (x2 : Nat) {b c : State} (e : execCanBusOffRecovery x1 x2 b = .next c) (h : Keep p a b) : Keep p a c := by
  unfold execCanBusOffRecovery at e
  extract_lets l1 at e
  have h1 : Keep p a l1 := by
    unfold l1
    with_reducible repeat' first
      | assumption | apply Keep.begin
  clear_value l1
  replace e := Host.Outcome.next.inj e
  subst e
  with_reducible repeat' first
    | assumption | apply keep_canFresh | apply keep_withPath | apply Keep.ite | intro _ _

theorem keep_netForce (x1 : Nat) (h : Keep p a b) : Keep p a (netForce x1 b) := by
  unfold netForce
  with_reducible repeat' first
    | assumption | apply keep_setForce | apply keep_withPath | intro _ _

theorem keep_netApplyOp (h : Keep p a b) : Keep p a (netApplyOp b).1 := by
  unfold netApplyOp
  with_reducible repeat' first
    | assumption | apply keep_netForce | apply Keep.iteFst

theorem keep_netLink (x1 : Bool) (h : Keep p a b) : Keep p a (netLink x1 b) := by
  unfold netLink
  repeat' first
    | (with_reducible first
        | assumption | apply keep_withPath | intro _ _)
    | (simp only [Keep.lit]; with_reducible refine Keep.asked rfl ?_)

theorem keep_netRestartOp (h : Keep p a b) : Keep p a (netRestartOp b).1 := by
  unfold netRestartOp
  with_reducible repeat' first
    | assumption | apply keep_netLink

theorem keep_execNetApplySetup (x1 : Nat) (x2 : Src) {b c : State} (e : execNetApplySetup x1 x2 b = .next c) (h : Keep p a b) : Keep p a c := by
  unfold execNetApplySetup at e
  replace e := Host.Outcome.next.inj e
  subst e
  with_reducible repeat' first
    | assumption | apply keep_netApplyOp | apply keep_answer | apply Keep.begin

theorem keep_execNetRestartPhy (x1 : Nat) (x2 : Src) {b c : State} (e : execNetRestartPhy x1 x2 b = .next c) (h : Keep p a b) : Keep p a c := by
  unfold execNetRestartPhy at e
  replace e := Host.Outcome.next.inj e
  subst e
  with_reducible repeat' first
    | assumption | apply keep_netRestartOp | apply keep_answer | apply Keep.begin

theorem keep_execNetLinkChange (x1 : Nat) (x2 : Bool) {b c : State} (e : execNetLinkChange x1 x2 b = .next c) (h : Keep p a b) : Keep p a c := by
  unfold execNetLinkChange at e
  replace e := Host.Outcome.next.inj e
  subst e
  with_reducible repeat' first
    | assumption | apply keep_netLink | apply Keep.begin

theorem keep_execArpRequest (x1 : Nat) (x2 : Nat) (x3 : Nat) (x4 : Nat) {b c : State} (e : execArpRequest x1 x2 x3 x4 b = .next c) (h : Keep p a b) : Keep p a c := by
  unfold execArpRequest at e
  extract_lets l1 at e
  have h1 : Keep p a l1 := by
    unfold l1
    with_reducible repeat' first
      | assumption | apply Keep.begin
  clear_value l1
  replace e := Host.Outcome.next.inj e
  subst e
  with_reducible repeat' first
    | assumption | apply keep_emit | apply Keep.ite

theorem keep_execIcmpEcho (x1 : Nat) (x2 : Nat) (x3 : Nat) (x4 : List Nat) {b c : State} (e : execIcmpEcho x1 x2 x3 x4 b = .next c) (h : Keep p a b) : Keep p a c := by
  unfold execIcmpEcho at e
  extract_lets l1 at e
  have h1 : Keep p a l1 := by
    unfold l1
    with_reducible repeat' first
      | assumption | apply Keep.begin
  clear_value l1
  replace e := Host.Outcome.next.inj e
  subst e
  with_reducible repeat' first
    | assumption | apply keep_emit | apply Keep.ite

theorem keep_dapStatsClearOp (h : Keep p a b) : Keep p a (dapStatsClearOp b).1 := by
  unfold dapStatsClearOp
  extract_lets l1 l2
  have h2 : Keep p a l2 := by
    unfold l2
    repeat' first
      | (with_reducible first
          | assumption)
      | (simp only [Keep.lit]; with_reducible refine Keep.asked rfl ?_)
  clear_value l2
  with_reducible repeat' first
    | assumption | apply keep_clear

theorem keep_execDapStatsClear (x1 : Nat) (x2 : Src) {b c : State} (e : execDapStatsClear x1 x2 b = .next c) (h : Keep p a b) : Keep p a c := by
  unfold execDapStatsClear at e
  replace e := Host.Outcome.next.inj e
  subst e
  with_reducible repeat' first
    | assumption | apply keep_dapStatsClearOp | apply keep_answer | apply Keep.begin

end Sys2Proof.Laws
end

