-- ==== Sys2Proof/Laws/KeepPower.lean ====
section
/-! SUPPORT. What Keep says of the operations of the ledger, supplies, keys and resets: one lemma for each. -/

namespace Sys2Proof.Laws

open Machine

variable {p : Prop} {a b : State}

/-! Ledger.lean. -/

theorem keep_modStep (x1 : Nat) (x2 : StepRec → StepRec) (h : Keep p a b) : Keep p a (State.modStep b x1 x2) := by
  unfold State.modStep
  extract_lets l1
  repeat' first
    | (with_reducible first
        | assumption)
    | (simp only [Keep.lit]; with_reducible refine Keep.asked rfl ?_)

theorem keep_keepLedger (h : Keep p a b) : Keep p a (keepLedger b) := by
  unfold keepLedger
  extract_lets l1
  repeat' first
    | (with_reducible first
        | assumption)
    | (simp only [Keep.lit]; with_reducible refine Keep.asked rfl ?_)

theorem keep_closeLast (h : Keep p a b) : Keep p a (closeLast b) := by
  unfold closeLast
  extract_lets l1
  repeat' first
    | (with_reducible first
        | assumption)
    | (simp only [Keep.lit]; with_reducible refine Keep.asked rfl ?_) | split

theorem keep_startAbandoned (h : Keep p a b) : Keep p a (startAbandoned b) := by
  unfold startAbandoned
  extract_lets l1 l2
  repeat' first
    | (with_reducible first
        | assumption | apply keep_keepLedger | apply Keep.ite)
    | (simp only [Keep.lit]; with_reducible refine Keep.asked rfl ?_)

theorem keep_startBegins (x1 x2 x3 x4 : Nat) (h : Keep p a b) : Keep p a (startBegins x1 x2 x3 x4 b) := by
  unfold startBegins
  extract_lets l1
  have h1 : Keep p a l1 := keep_closeLast h
  clear_value l1
  exact keep_setReg _ _ ((h1.withNvm (n := countReset x3 { l1.nvm with boot := l1.nvm.boot + 1 }) (Nat.le_refl _) id
    (Nat.le_succ _) (Nat.le_refl _) (Nat.le_refl _) (Nat.le_refl _)).like rfl)

theorem keep_stepEnds (x1 : Nat) (x2 : Nat) (x3 : Nat) (x4 : Nat) (x5 : Nat) (h : Keep p a b) : Keep p a (stepEnds x1 x2 x3 x4 x5 b) := by
  unfold stepEnds
  extract_lets l1 l2 l3 l4
  have h1 : Keep p a l1 := by
    unfold l1
    with_reducible repeat' first
      | assumption | apply keep_modStep
  clear_value l1 l2
  have h4 : Keep p a l4 := by
    unfold l4
    repeat' first
      | (with_reducible first
          | assumption)
      | (simp only [Keep.lit]; with_reducible refine Keep.asked rfl ?_)
  clear_value l4
  with_reducible repeat' first
    | assumption | apply keep_keepLedger | apply Keep.ite

theorem keep_startStops (x1 : Nat) (x2 : Nat) (x3 : Nat) (x4 : Nat) (x5 : Nat) (h : Keep p a b) : Keep p a (startStops x1 x2 x3 x4 x5 b) := by
  unfold startStops
  extract_lets l1 l2 l3
  have h1 : Keep p a l1 := by
    unfold l1
    with_reducible repeat' first
      | assumption | apply keep_modStep
  clear_value l1
  have h3 : Keep p a l3 := by
    unfold l3
    repeat' first
      | (with_reducible first
          | assumption)
      | (simp only [Keep.lit]; with_reducible refine Keep.asked rfl ?_)
  clear_value l3
  with_reducible repeat' first
    | assumption | apply keep_keepLedger | apply Keep.ite

theorem keep_stepFailed (x1 : Nat) (x2 : Nat) (h : Keep p a b) : Keep p a (stepFailed x1 x2 b) := by
  unfold stepFailed
  with_reducible repeat' first
    | assumption | apply keep_raise

/-! Power.lean. -/

theorem keep_setRail (x1 : Nat) (x2 : Bool) (x3 : Nat) (h : Keep p a b) : Keep p a (setRail x1 x2 x3 b) := by
  unfold setRail
  with_reducible repeat' first
    | assumption | apply keep_setReg

theorem keep_goodSince (h : Keep p a b) : Keep p a (goodSince b) := by
  unfold goodSince
  extract_lets l1 l2 l3
  clear_value l1
  repeat' first
    | (with_reducible first
        | assumption)
    | (simp only [Keep.lit]; with_reducible refine Keep.asked rfl ?_)

theorem keep_outOfRange (x1 : Nat) (x2 : Nat) (h : Keep p a b) : Keep p a (outOfRange x1 x2 b) := by
  unfold outOfRange
  with_reducible repeat' first
    | assumption | apply keep_raise | apply keep_count

theorem keep_enterHoldup (x1 : List Nat) (h : Keep p a b) : Keep p a (enterHoldup x1 b) := by
  unfold enterHoldup
  extract_lets l1 l2 l3 l4 l5 l6 l7 l8 l9 l10 l11 l12
  have h1 : Keep p a l1 := by
    unfold l1
    with_reducible repeat' first
      | assumption | apply keep_setReg
  clear_value l1
  have h2 : Keep p a l2 := by
    unfold l2
    with_reducible repeat' first
      | assumption | apply keep_modLane | apply Keep.each | apply keep_leaveReady | apply keep_linkPhyDown
      | apply Keep.ite | intro _ _ _
  clear_value l2
  have h3 : Keep p a l3 := by
    unfold l3
    with_reducible repeat' first
      | assumption | apply keep_modOutp | apply Keep.each | intro _ _ _
  clear_value l3
  have h4 : Keep p a l4 := by
    unfold l4
    with_reducible repeat' first
      | assumption | apply keep_audioStops
  clear_value l4
  have h8 : Keep p a l8 := by
    unfold l8
    with_reducible repeat' first
      | (refine Keep.emptied rfl ?_; assumption)
  clear_value l8
  have h9 : Keep p a l9 := by
    unfold l9
    repeat' first
      | (with_reducible first
          | assumption | apply keep_saveStands)
      | split
  clear_value l9
  have h10 : Keep p a l10 := by
    unfold l10
    with_reducible repeat' first
      | assumption | apply keep_raise
  clear_value l10
  have h11 : Keep p a l11 := by
    unfold l11
    with_reducible repeat' first
      | assumption | apply keep_cbCommitAll | apply Keep.ite
  clear_value l11
  repeat' first
    | (with_reducible first
        | assumption | apply Keep.ite)
    | (simp only [Keep.lit]; with_reducible refine Keep.asked rfl ?_)

theorem keep_leaveReserve (h : Keep p a b) : Keep p a (leaveReserve b) := by
  unfold leaveReserve
  repeat' first
    | (with_reducible first
        | assumption | apply keep_setReg | apply keep_count)
    | (simp only [Keep.lit]; with_reducible refine Keep.asked rfl ?_) | split

theorem keep_routeStops (x1 : Nat) (h : Keep p a b) : Keep p a (routeStops x1 b) := by
  unfold routeStops
  extract_lets l1 l2
  have h1 : Keep p a l1 := by
    unfold l1
    with_reducible repeat' first
      | assumption | apply keep_rtDropShown | apply keep_rtEndHold | apply keep_rtDropFirst
  clear_value l1
  have h2 : Keep p a l2 := by
    unfold l2
    with_reducible repeat' first
      | assumption | apply keep_holdUnits
  clear_value l2
  with_reducible repeat' first
    | assumption | apply keep_modRoute | apply keep_rtMove

theorem keep_takeUnpowered (x1 : Take) (h : Keep p a b) : Keep p a (takeUnpowered x1 b).2 := by
  unfold takeUnpowered
  extract_lets l1 l2
  clear_value l1 l2
  with_reducible repeat' first
    | assumption | apply keep_rtClear | apply keep_routeStops | apply keep_installTake | apply Keep.iteSnd

theorem keep_groupsUnpowered (h : Keep p a b) : Keep p a (groupsUnpowered b) := by
  unfold groupsUnpowered
  extract_lets l1 l2 l3 l4 l5
  have h1 : Keep p a l1 := by
    unfold l1
    with_reducible repeat' first
      | assumption | apply keep_latchDue
  clear_value l1
  have h2 : Keep p a l2 := by
    unfold l2
    with_reducible repeat' first
      | assumption | apply keep_raise | apply keep_dropGroup | apply Keep.each | intro _ _ _ | intro _ _
  clear_value l2
  have h3 : Keep p a l3.2 := by
    unfold l3
    with_reducible repeat' first
      | assumption | apply keep_takeUnpowered | apply Keep.foldlSnd | apply Keep.iteSnd | intro _ _ _ | intro _ _
  clear_value l3
  have h4 : Keep p a l4 := by
    unfold l4
    with_reducible repeat' first
      | assumption
  clear_value l4 l5
  repeat' first
    | (with_reducible first
        | assumption | apply keep_finishGroups)
    | (simp only [Keep.lit]; with_reducible refine Keep.asked rfl ?_)

theorem keep_routesUnpowered (h : Keep p a b) : Keep p a (routesUnpowered b) := by
  unfold routesUnpowered
  extract_lets l1 l2
  have h1 : Keep p a l1 := by
    unfold l1
    with_reducible repeat' first
      | assumption | apply keep_groupsUnpowered
  clear_value l1
  have h2 : Keep p a l2 := by
    unfold l2
    with_reducible repeat' first
      | assumption | apply keep_routeStops | apply Keep.each | intro _ _ _ | intro _ _
  clear_value l2
  with_reducible repeat' first
    | assumption | apply keep_rtFall | apply keep_modRoute | apply Keep.each | apply Keep.ite
    | intro _ _ _ | intro _ _

theorem keep_lanesUnpowered (h : Keep p a b) : Keep p a (lanesUnpowered b) := by
  unfold lanesUnpowered
  with_reducible repeat' first
    | assumption | apply keep_modLane | apply Keep.each | apply keep_setPhase | apply keep_leaveReady
    | apply keep_linkPhyDown | apply Keep.ite | intro _ _ _

theorem keep_changesEnd (h : Keep p a b) : Keep p a (changesEnd b) := by
  unfold changesEnd
  extract_lets l1 l2 l3 l4
  have h4 : Keep p a l4 := by
    unfold l4
    repeat' first
      | (with_reducible first
          | assumption)
      | (simp only [Keep.lit]; with_reducible refine Keep.asked rfl ?_)
  clear_value l4
  repeat' first
    | (with_reducible first
        | assumption | apply keep_endChange)
    | split

theorem keep_outputsUnpowered (h : Keep p a b) : Keep p a (outputsUnpowered b) := by
  unfold outputsUnpowered
  with_reducible repeat' first
    | assumption | apply keep_modOutp | apply keep_setOutp | apply Keep.each | apply keep_qsChanged | apply Keep.ite
    | intro _ _ _

theorem keep_functionsUnpowered (h : Keep p a b) : Keep p a (functionsUnpowered b) := by
  unfold functionsUnpowered
  extract_lets l1
  have h1 : Keep p a l1 := by
    unfold l1
    with_reducible repeat' first
      | assumption | apply Keep.each | apply keep_qsChanged | apply keep_setUnit | intro _ _ _
  clear_value l1
  with_reducible repeat' first
    | assumption | apply keep_engineStops | apply Keep.each | apply keep_qsChanged | apply keep_setEngine
    | intro _ _ _

theorem keep_storeUnpowered (h : Keep p a b) : Keep p a (storeUnpowered b) := by
  unfold storeUnpowered
  extract_lets l1
  with_reducible repeat' first
    | (refine Keep.emptied rfl ?_; assumption)

theorem keep_reserveEntry (x1 : Nat) (x2 : Nat) (h : Keep p a b) : Keep p a (reserveEntry x1 x2 b) := by
  unfold reserveEntry
  extract_lets l1 l2 l3 l4 l5 l6 l7 l8 l9 l10 l11 l12 l13 l14 l15 l16 l17
  clear_value l1
  have h2 : Keep p a l2 := by
    unfold l2
    with_reducible repeat' first
      | assumption | apply keep_startAbandoned
  clear_value l2
  have h3 : Keep p a l3 := by
    unfold l3
    with_reducible repeat' first
      | assumption | apply keep_setReg | apply keep_count
  clear_value l3 l4
  have h5 : Keep p a l5 := by
    unfold l5
    repeat' first
      | (with_reducible first
          | assumption | apply Keep.ite)
      | (simp only [Keep.lit]; with_reducible refine Keep.asked rfl ?_)
  clear_value l5
  have h6 : Keep p a l6 := by
    unfold l6
    with_reducible repeat' first
      | assumption | apply keep_setReg | apply Keep.ite
  clear_value l6
  have h7 : Keep p a l7 := by
    unfold l7
    with_reducible repeat' first
      | assumption | apply keep_routesUnpowered | apply keep_changesEnd
  clear_value l7
  have h8 : Keep p a l8 := by
    unfold l8
    with_reducible repeat' first
      | assumption | apply keep_abandonFrame | apply Keep.each | intro _ _ _ | intro _ _
  clear_value l8
  have h9 : Keep p a l9 := by
    unfold l9
    with_reducible repeat' first
      | assumption | apply keep_lanesUnpowered
  clear_value l9
  have h10 : Keep p a l10 := by
    unfold l10
    with_reducible repeat' first
      | assumption | apply keep_outputsUnpowered
  clear_value l10
  have h11 : Keep p a l11 := by
    unfold l11
    with_reducible repeat' first
      | assumption | apply keep_functionsUnpowered | apply keep_storeUnpowered
  clear_value l11
  have h12 : Keep p a l12 := by
    unfold l12
    with_reducible repeat' first
      | assumption | apply keep_raise
  clear_value l12
  have h13 : Keep p a l13 := by
    unfold l13
    with_reducible repeat' first
      | assumption | apply keep_setReg | apply keep_audioStops
  clear_value l13
  have h14 : Keep p a l14 := by
    unfold l14
    with_reducible repeat' first
      | assumption | apply keep_modGov
  clear_value l14
  have h15 : Keep p a l15 := by
    unfold l15
    with_reducible repeat' first
      | assumption | apply keep_setReg
  clear_value l15
  have h16 : Keep p a l16 := by
    unfold l16
    with_reducible repeat' first
      | assumption | apply keep_recheck
  clear_value l16
  have h17 : Keep p a l17 := by
    unfold l17
    repeat' first
      | (with_reducible first
          | assumption | apply keep_endStaged | apply Keep.each | apply Keep.ite | intro _ _ _ | intro _ _)
      | split
  clear_value l17
  with_reducible repeat' first
    | assumption | apply keep_raise | apply Keep.ite

theorem keep_bulkRuns (h : Keep p a b) : Keep p a (bulkRuns b) := by
  unfold bulkRuns
  extract_lets l1 l2
  repeat' first
    | (with_reducible first
        | assumption)
    | (simp only [Keep.lit]; with_reducible refine Keep.asked rfl ?_)

theorem keep_enterS7 (h : Keep p a b) : Keep p a (enterS7 b) := by
  unfold enterS7
  extract_lets l1 l2 l3
  have h3 : Keep p a l3 := by
    unfold l3
    repeat' first
      | (with_reducible first
          | assumption)
      | (simp only [Keep.lit]; with_reducible refine Keep.asked rfl ?_)
  clear_value l3
  with_reducible repeat' first
    | assumption | apply keep_setReg | apply keep_leaveReserve | apply keep_bulkRuns | apply Keep.ite

theorem keep_mainBack (h : Keep p a b) : Keep p a (mainBack b) := by
  unfold mainBack
  extract_lets l1 l2 l3 l4
  have h2 : Keep p a l2 := by
    unfold l2
    with_reducible repeat' first
      | assumption | apply keep_setReg | apply keep_leaveReserve | apply keep_startBegins
  clear_value l2
  have h3 : Keep p a l3 := by
    unfold l3
    with_reducible repeat' first
      | assumption | apply keep_bulkRuns
  clear_value l3
  repeat' first
    | (with_reducible first
        | assumption | apply keep_enterS7 | apply Keep.ite)
    | (simp only [Keep.lit]; with_reducible refine Keep.asked rfl ?_)

theorem keep_execRailGood (x1 : Nat) (x2 : Nat) (x3 : Nat) {b c : State} (e : execRailGood x1 x2 x3 b = .next c) (h : Keep p a b) : Keep p a c := by
  unfold execRailGood at e
  extract_lets l1 at e
  have h1 : Keep p a l1 := by
    unfold l1
    with_reducible repeat' first
      | assumption | apply Keep.begin
  clear_value l1
  replace e := Host.Outcome.next.inj e
  subst e
  with_reducible repeat' first
    | assumption | apply keep_setRail | apply keep_goodSince | apply Keep.ite

theorem keep_execKeeperRailFail (x1 : Nat) (x2 : Nat) (x3 : Nat) {b c : State} (e : execKeeperRailFail x1 x2 x3 b = .next c) (h : Keep p a b) : Keep p a c := by
  unfold execKeeperRailFail at e
  extract_lets l1 l2 l3 l4 l5 l6 l7 at e
  have h1 : Keep p a l1 := by
    unfold l1
    with_reducible repeat' first
      | assumption | apply Keep.begin
  clear_value l1 l2 l3
  have h4 : Keep p a l4 := by
    unfold l4
    with_reducible repeat' first
      | assumption | apply keep_setRail | apply keep_goodSince
  clear_value l4 l5 l6
  have h7 : Keep p a l7 := by
    unfold l7
    with_reducible repeat' first
      | assumption | apply keep_setReg | apply keep_count
  clear_value l7
  replace e := Host.Outcome.next.inj e
  subst e
  with_reducible repeat' first
    | assumption | apply keep_raise | apply keep_enterHoldup | apply Keep.ite

theorem keep_execBulkRailFail (x1 : Nat) (x2 : Nat) (x3 : Nat) {b c : State} (e : execBulkRailFail x1 x2 x3 b = .next c) (h : Keep p a b) : Keep p a c := by
  unfold execBulkRailFail at e
  extract_lets l1 l2 l3 l4 l5 at e
  have h1 : Keep p a l1 := by
    unfold l1
    with_reducible repeat' first
      | assumption | apply Keep.begin
  clear_value l1 l2
  have h3 : Keep p a l3 := by
    unfold l3
    with_reducible repeat' first
      | assumption | apply keep_setRail | apply keep_goodSince
  clear_value l3
  have h5 : Keep p a l5 := by
    unfold l5
    repeat' first
      | (with_reducible first
          | assumption)
      | (simp only [Keep.lit]; with_reducible refine Keep.asked rfl ?_)
  clear_value l5
  replace e := Host.Outcome.next.inj e
  subst e
  with_reducible repeat' first
    | assumption | apply keep_reserveEntry | apply Keep.ite

theorem keep_execRailHigh (x1 : Nat) (x2 : Nat) (x3 : Nat) {b c : State} (e : execRailHigh x1 x2 x3 b = .next c) (h : Keep p a b) : Keep p a c := by
  unfold execRailHigh at e
  extract_lets l1 at e
  have h1 : Keep p a l1 := by
    unfold l1
    with_reducible repeat' first
      | assumption | apply Keep.begin
  clear_value l1
  replace e := Host.Outcome.next.inj e
  subst e
  with_reducible repeat' first
    | assumption | apply keep_setReg | apply keep_outOfRange | apply Keep.ite

theorem keep_execHoldInFail (x1 : Nat) (x2 : Nat) {b c : State} (e : execHoldInFail x1 x2 b = .next c) (h : Keep p a b) : Keep p a c := by
  unfold execHoldInFail at e
  replace e := Host.Outcome.next.inj e
  subst e
  with_reducible repeat' first
    | assumption | apply keep_setRail | apply Keep.begin

theorem keep_execMainQualified (x1 : Nat) {b c : State} (e : execMainQualified x1 b = .next c) (h : Keep p a b) : Keep p a c := by
  unfold execMainQualified at e
  extract_lets l1 l2 at e
  have h1 : Keep p a l1 := by
    unfold l1
    with_reducible repeat' first
      | assumption | apply Keep.begin
  clear_value l1
  replace e := Host.Outcome.next.inj e
  subst e
  repeat' first
    | (with_reducible first
        | assumption | apply keep_mainBack | apply Keep.ite)
    | (simp only [Keep.lit]; with_reducible refine Keep.asked rfl ?_)

theorem keep_execSideAQualified (x1 : Nat) {b c : State} (e : execSideAQualified x1 b = .next c) (h : Keep p a b) : Keep p a c := by
  unfold execSideAQualified at e
  extract_lets l1 at e
  have h1 : Keep p a l1 := by
    unfold l1
    with_reducible repeat' first
      | assumption | apply Keep.begin
  clear_value l1
  replace e := Host.Outcome.next.inj e
  subst e
  with_reducible repeat' first
    | assumption | apply keep_setReg | apply keep_raise | apply keep_count | apply Keep.ite

theorem keep_execHoldupEntry (x1 : Nat) {b c : State} (e : execHoldupEntry x1 b = .next c) (h : Keep p a b) : Keep p a c := by
  unfold execHoldupEntry at e
  replace e := Host.Outcome.next.inj e
  subst e
  with_reducible repeat' first
    | assumption | apply keep_enterHoldup | apply Keep.begin

theorem keep_execHoldupStoreExhausted (x1 : Nat) {b c : State} (e : execHoldupStoreExhausted x1 b = .next c) (h : Keep p a b) : Keep p a c := by
  unfold execHoldupStoreExhausted at e
  extract_lets l1 l2 l3 l4 l5 l6 l7 at e
  have h1 : Keep p a l1 := by
    unfold l1
    with_reducible repeat' first
      | assumption | apply Keep.begin
  clear_value l1 l2
  have h7 : Keep p a l7 := by
    unfold l7
    repeat' first
      | (with_reducible first
          | assumption)
      | (simp only [Keep.lit]; with_reducible refine Keep.asked rfl ?_)
  clear_value l7
  replace e := Host.Outcome.next.inj e
  subst e
  with_reducible repeat' first
    | assumption | apply keep_setReg | apply Keep.ite

theorem keep_execHoldupIndicatorTick (x1 : Nat) (x2 : Nat) {b c : State} (e : execHoldupIndicatorTick x1 x2 b = .next c) (h : Keep p a b) : Keep p a c := by
  unfold execHoldupIndicatorTick at e
  extract_lets l1 l2 l3 l4 l5 l6 l7 l8 at e
  have h1 : Keep p a l1 := by
    unfold l1
    with_reducible repeat' first
      | assumption | apply Keep.begin
  clear_value l1 l2 l3 l4
  have h5 : Keep p a l5 := by
    unfold l5
    with_reducible repeat' first
      | assumption | apply keep_setReg
  clear_value l5 l6
  have h8 : Keep p a l8 := by
    unfold l8
    repeat' first
      | (with_reducible first
          | assumption | apply keep_setReg)
      | (simp only [Keep.lit]; with_reducible refine Keep.asked rfl ?_)
  clear_value l8
  replace e := Host.Outcome.next.inj e
  subst e
  with_reducible repeat' first
    | assumption | apply keep_raiseLimited | apply Keep.ite

theorem keep_execVddqAboveVdd2 (x1 : Nat) (x2 : Nat) (x3 : Nat) {b c : State} (e : execVddqAboveVdd2 x1 x2 x3 b = .next c) (h : Keep p a b) : Keep p a c := by
  unfold execVddqAboveVdd2 at e
  extract_lets l1 l2 l3 l4 l5 at e
  have h1 : Keep p a l1 := by
    unfold l1
    with_reducible repeat' first
      | assumption | apply Keep.begin
  clear_value l1 l2
  have h3 : Keep p a l3 := by
    unfold l3
    with_reducible repeat' first
      | assumption | apply keep_setReg
  clear_value l3
  have h5 : Keep p a l5 := by
    unfold l5
    repeat' first
      | (with_reducible first
          | assumption | apply keep_outOfRange)
      | (simp only [Keep.lit]; with_reducible refine Keep.asked rfl ?_)
  clear_value l5
  replace e := Host.Outcome.next.inj e
  subst e
  with_reducible repeat' first
    | assumption | apply keep_finishRetire | apply Keep.each | apply Keep.ite

theorem keep_takeSensors (x1 : List Int) (h : Keep p a b) : Keep p a (takeSensors x1 b) := by
  unfold takeSensors
  extract_lets l1 l2 l3 l4 l5 l6 l7
  clear_value l1 l2 l3 l4 l5
  have h6 : Keep p a l6 := by
    unfold l6
    with_reducible repeat' first
      | assumption | apply keep_setReg
  clear_value l6
  have h7 : Keep p a l7 := by
    unfold l7
    with_reducible repeat' first
      | assumption | apply keep_setReg
  clear_value l7
  with_reducible repeat' first
    | assumption | apply keep_setReg

theorem keep_execThermalTrip (x1 : Nat) (x2 : List Int) {b c : State} (e : execThermalTrip x1 x2 b = .next c) (h : Keep p a b) : Keep p a c := by
  unfold execThermalTrip at e
  extract_lets l1 l2 l3 at e
  have h1 : Keep p a l1 := by
    unfold l1
    with_reducible repeat' first
      | assumption | apply keep_takeSensors | apply Keep.begin
  clear_value l1
  have h3 : Keep p a l3 := by
    unfold l3
    repeat' first
      | (with_reducible first
          | assumption)
      | (simp only [Keep.lit]; with_reducible refine Keep.asked rfl ?_)
  clear_value l3
  replace e := Host.Outcome.next.inj e
  subst e
  with_reducible repeat' first
    | assumption | apply keep_setReg | apply keep_reserveEntry | apply Keep.ite

theorem keep_execThermalReturn (x1 : Nat) (x2 : List Int) {b c : State} (e : execThermalReturn x1 x2 b = .next c) (h : Keep p a b) : Keep p a c := by
  unfold execThermalReturn at e
  extract_lets l1 l2 l3 at e
  have h1 : Keep p a l1 := by
    unfold l1
    with_reducible repeat' first
      | assumption | apply keep_takeSensors | apply Keep.begin
  clear_value l1
  have h3 : Keep p a l3 := by
    unfold l3
    repeat' first
      | (with_reducible first
          | assumption)
      | (simp only [Keep.lit]; with_reducible refine Keep.asked rfl ?_)
  clear_value l3
  replace e := Host.Outcome.next.inj e
  subst e
  with_reducible repeat' first
    | assumption | apply keep_setReg | apply keep_mainBack | apply Keep.ite

theorem keep_execTjRangeCrossing (x1 : Nat) (x2 : List Int) {b c : State} (e : execTjRangeCrossing x1 x2 b = .next c) (h : Keep p a b) : Keep p a c := by
  unfold execTjRangeCrossing at e
  extract_lets l1 at e
  have h1 : Keep p a l1 := by
    unfold l1
    with_reducible repeat' first
      | assumption | apply keep_takeSensors | apply Keep.begin
  clear_value l1
  replace e := Host.Outcome.next.inj e
  subst e
  with_reducible repeat' first
    | assumption | apply keep_raise | apply keep_count

theorem keep_pwrStatsClearOp (h : Keep p a b) : Keep p a (pwrStatsClearOp b).1 := by
  unfold pwrStatsClearOp
  with_reducible repeat' first
    | assumption | apply keep_setReg | apply keep_clear

theorem keep_execPwrStatsClear (x1 : Nat) (x2 : Src) {b c : State} (e : execPwrStatsClear x1 x2 b = .next c) (h : Keep p a b) : Keep p a c := by
  unfold execPwrStatsClear at e
  replace e := Host.Outcome.next.inj e
  subst e
  with_reducible repeat' first
    | assumption | apply keep_answer | apply keep_pwrStatsClearOp | apply Keep.begin

/-! Security.lean. -/

theorem keep_keyReplaced (x1 : Nat) (h : Keep p a b) : Keep p a (keyReplaced x1 b) := by
  unfold keyReplaced
  extract_lets l1 l2
  clear_value l1
  have h2 : Keep p a l2 := by
    unfold l2
    with_reducible repeat' first
      | assumption | apply keep_orphanBelow
  clear_value l2
  with_reducible repeat' first
    | assumption | apply keep_raise | apply Keep.ite

theorem keep_applyUpdate (x1 : List Nat) (hc : b.nvm.keys.counter ≤ umCounter x1) (h : Keep p a b) :
    Keep p a (applyUpdate x1 b) := by
  unfold applyUpdate
  extract_lets l1 l2 l3 l4 l5 l6 l7 l8 l9 l10 l11 l12 l13 l14 l15
  have h7 : Keep p a l7 := (h.withNvm (n := { b.nvm with keys := { b.nvm.keys with counter := umCounter x1, torn := false } })
      (Nat.le_refl _) id (Nat.le_refl _) hc (Nat.le_refl _) (Nat.le_refl _)).like rfl
  have h13 : Keep p a l13 := by
    unfold l13 l12 l9
    clear_value l7
    split
    · exact keep_setKeySlot _ _ (.ite (keep_keyReplaced _ h7) h7)
    · exact keep_setKeySlot _ _ (keep_useSlot _ (.ite (keep_keyReplaced _ h7) h7))
    · exact keep_setKeySlot _ _ (.ite (keep_keyReplaced _ h7) h7)
    · exact keep_setKeySlot _ _ h7
  exact keep_setReg _ _ (keep_setReg _ _ (h13.like rfl))

theorem keep_recoveryMet (h : Keep p a b) : Keep p a (recoveryMet b) := by
  unfold recoveryMet
  extract_lets l1
  repeat' first
    | (with_reducible first
        | assumption | apply Keep.ite)
    | (simp only [Keep.lit]; with_reducible refine Keep.asked rfl ?_)

theorem updateCode_counter {s : State} {d : List Nat} {ok : Bool} (e : updateCode s d ok = 0) :
    s.nvm.keys.counter ≤ umCounter d := by
  refine Nat.le_of_not_le fun k => ?_
  unfold updateCode at e
  by_cases h1 : (!umWellFormed d) = true
  · rw [if_pos h1] at e
    cases e
  by_cases h2 : umDevice d ≠ Config.deviceId % 2 ^ 64
  · rw [if_neg h1, if_pos h2] at e
    cases e
  · rw [if_neg h1, if_neg h2, if_pos k] at e
    cases e

theorem keep_secUpdateOp (x1 : Src) (x2 : List Nat) (x3 : Bool) (h : Keep p a b) : Keep p a (secUpdateOp x1 x2 x3 b).1 := by
  unfold secUpdateOp
  extract_lets l1 l2 l3
  have h3 : Keep p a l3 := keep_setReg _ _ (keep_setReg _ _ h)
  split
  · rename_i e
    have hc := updateCode_counter e
    exact keep_raise _ _ (keep_recoveryMet (keep_applyUpdate _ hc h3))
  · exact keep_raise _ _ h3

theorem keep_execSecUpdate (x1 : Nat) (x2 : Src) (x3 : List Nat) (x4 : Bool) {b c : State} (e : execSecUpdate x1 x2 x3 x4 b = .next c) (h : Keep p a b) : Keep p a c := by
  unfold execSecUpdate at e
  replace e := Host.Outcome.next.inj e
  subst e
  with_reducible repeat' first
    | assumption | apply keep_answer | apply keep_secUpdateOp | apply Keep.begin | intro _ _

theorem keep_secChallengeOp (x1 : Src) (x2 : List Nat) (h : Keep p a b) : Keep p a (secChallengeOp x1 x2 b).1 := by
  unfold secChallengeOp
  extract_lets l1 l2
  clear_value l1 l2
  with_reducible repeat' first
    | assumption | apply keep_setReg | apply keep_raise | apply keep_useSlot | apply Keep.iteFst

theorem keep_execSecChallenge (x1 : Nat) (x2 : Src) (x3 : List Nat) {b c : State} (e : execSecChallenge x1 x2 x3 b = .next c) (h : Keep p a b) : Keep p a c := by
  unfold execSecChallenge at e
  replace e := Host.Outcome.next.inj e
  subst e
  with_reducible repeat' first
    | assumption | apply keep_answer | apply Keep.begin | apply keep_secChallengeOp | intro _ _

theorem keep_secStatsClearOp (h : Keep p a b) : Keep p a (secStatsClearOp b).1 := by
  unfold secStatsClearOp
  extract_lets l1
  repeat' first
    | (with_reducible first
        | assumption)
    | (simp only [Keep.lit]; with_reducible refine Keep.asked rfl ?_)

theorem keep_execSecStatsClear (x1 : Nat) (x2 : Src) {b c : State} (e : execSecStatsClear x1 x2 b = .next c) (h : Keep p a b) : Keep p a c := by
  unfold execSecStatsClear at e
  replace e := Host.Outcome.next.inj e
  subst e
  with_reducible repeat' first
    | assumption | apply keep_answer | apply Keep.begin | apply keep_secStatsClearOp

theorem keep_execRemaskTick (x1 : Nat) (x2 : Nat) {b c : State} (e : execRemaskTick x1 x2 b = .next c) (h : Keep p a b) : Keep p a c := by
  unfold execRemaskTick at e
  extract_lets l1 l2 l3 l4 l5 l6 l7 at e
  have h1 : Keep p a l1 := by
    unfold l1
    with_reducible repeat' first
      | assumption | apply Keep.begin
  clear_value l1 l2 l3 l4 l5
  have h6 : Keep p a l6 := by
    unfold l6
    repeat' first
      | (with_reducible first
          | assumption)
      | (simp only [Keep.lit]; with_reducible refine Keep.asked rfl ?_)
  clear_value l6
  have h7 : Keep p a l7 := by
    unfold l7
    with_reducible repeat' first
      | assumption | apply keep_setKeySlot
  clear_value l7
  replace e := Host.Outcome.next.inj e
  subst e
  with_reducible repeat' first
    | assumption | apply keep_raise | apply Keep.ite

theorem keep_execTransportKeyLoad (x1 : Nat) (x2 : List Nat) {b c : State} (e : execTransportKeyLoad x1 x2 b = .next c) (h : Keep p a b) : Keep p a c := by
  unfold execTransportKeyLoad at e
  extract_lets l1 l2 l3 at e
  have h1 : Keep p a l1 := by
    unfold l1
    with_reducible repeat' first
      | assumption | apply Keep.begin
  clear_value l1 l2
  replace e := Host.Outcome.next.inj e
  subst e
  repeat' first
    | (with_reducible first
        | assumption | apply keep_setReg | apply Keep.ite)
    | (simp only [Keep.lit]; with_reducible refine Keep.asked rfl ?_)

theorem keep_clearStartKey (h : Keep p a b) : Keep p a (clearStartKey b) := by
  unfold clearStartKey
  extract_lets l1
  repeat' first
    | (with_reducible first
        | assumption | apply keep_setReg)
    | (simp only [Keep.lit]; with_reducible refine Keep.asked rfl ?_)

theorem keep_destroyKeys (x1 : Nat) (h : Keep p a b) : Keep p a (destroyKeys x1 b) := by
  unfold destroyKeys
  extract_lets l1
  have h1 : Keep p a l1 := keep_clearStartKey h
  clear_value l1
  refine keep_raise _ _ (.each (fun s n k => ?_) (keep_endSessions _ (keep_setReg _ _ (keep_setReg _ _ (keep_setReg _ _ ?_)))))
  · exact .ite (keep_reauthFails _ _ (keep_modLink _ _ k)) k
  · exact (h1.withNvm (n := { l1.nvm with
      cb := { l1.nvm.cb with keyEpoch := l1.nvm.cb.keyEpoch + 1 }
      keys := { l1.nvm.keys with root := none, helper := none, destroyed := true, slots := [], torn := false } })
      (Nat.le_refl _) id (Nat.le_refl _) (Nat.le_refl _) (Nat.le_refl _) (Nat.le_succ _)).like rfl

theorem keep_execTamperTrip (x1 : Nat) (x2 : Nat) {b c : State} (e : execTamperTrip x1 x2 b = .next c) (h : Keep p a b) : Keep p a c := by
  unfold execTamperTrip at e
  extract_lets l1 at e
  have h1 : Keep p a l1 := by
    unfold l1
    with_reducible repeat' first
      | assumption | apply Keep.begin
  clear_value l1
  replace e := Host.Outcome.next.inj e
  subst e
  with_reducible repeat' first
    | assumption | apply keep_setReg | apply keep_destroyKeys | apply Keep.ite

/-! Resets.lean. -/

theorem keep_freshFrom (x1 : List Nat) (h : Keep p a b) : Keep True a (freshFrom x1 b) :=
  h.weaken.trans ⟨rfl, fun _ => rfl, Nat.le_refl _, id, Nat.le_refl _, Nat.le_refl _, Nat.le_refl _, Nat.le_refl _,
    fun _ => by refine ⟨?_, ?_, ?_, ?_⟩ <;> simp [freshFrom], .inl trivial, Nat.le_refl _⟩

theorem keep_endAllStaged (h : Keep p a b) : Keep p a (endAllStaged b) := by
  unfold endAllStaged
  with_reducible repeat' first
    | assumption | apply Keep.each | apply keep_endStaged

theorem keep_takeStraps (x1 : Nat) (h : Keep p a b) : Keep p a (takeStraps x1 b) := by
  unfold takeStraps
  extract_lets l1 l2
  have h2 : Keep p a l2 := by
    unfold l2
    repeat' first
      | (with_reducible first
          | assumption)
      | (simp only [Keep.lit]; with_reducible refine Keep.asked rfl ?_)
  clear_value l2
  with_reducible repeat' first
    | assumption | apply keep_setReg

theorem keep_chooseSide (h : Keep p a b) : Keep p a (chooseSide b) := by
  unfold chooseSide
  extract_lets l1 l2 l3
  clear_value l1 l2
  have h3 : Keep p a l3 := by
    unfold l3
    with_reducible repeat' first
      | assumption | apply keep_setReg
  clear_value l3
  with_reducible repeat' first
    | assumption | apply keep_raise | apply Keep.ite

theorem keep_execPowerOn (x1 x2 x3 : Nat) {b c : State} (hp : p) (e : execPowerOn x1 x2 x3 b = .next c) (h : Keep p a b) :
    Keep p a c := by
  unfold execPowerOn at e
  extract_lets l1 l2 l3 l4 l5 l6 l7 l8 at e
  have h1 : Keep p a l1 := h.like rfl
  have h3 : Keep p a l3 := .free_of hp (keep_freshFrom _ (keep_endAllStaged h1))
  have h6 : Keep p a l6 := (h3.withNvm (n := { l3.nvm with cb := { l3.nvm.cb with lostAll := l3.nvm.cb.lostAll || l2 } })
    (Nat.le_refl _) id (Nat.le_refl _) (Nat.le_refl _) (Nat.le_refl _) (Nat.le_refl _)).like rfl
  cases e
  refine .ite h1 (keep_chooseSide (keep_goodSince (keep_setReg _ _ (keep_takeStraps _ (.ite ?_ ?_)))))
  · exact keep_setReg _ _ (keep_setReg _ _ (keep_setReg _ _ h6))
  · exact keep_setReg _ _ (keep_setReg _ _ h6)

theorem keep_coldReset (x1 : Nat) (x2 : Bool) (h : Keep p a b) : Keep p a (coldReset x1 x2 b) := by
  unfold coldReset
  split
  · exact h
  · extract_lets l1 l2 l3 l4
    have h1 : Keep p a l1 := keep_clearStartKey (keep_leaveReserve (keep_endAllStaged h))
    have h2 : Keep True a l2 := keep_freshFrom _ h1
    clear_value l1 l2
    have h4 : Keep p a { l2 with dt := l1.dt } :=
      ⟨h2.pending, h2.mem, h2.rank, h2.life, h2.boot, h2.counter, h2.seq, h2.epoch, h2.pins, h1.dt, h2.free⟩
    exact keep_takeStraps _ (keep_setReg _ _ (h4.like rfl))

theorem keep_execResetNAssert (x1 : Nat) {b c : State} (e : execResetNAssert x1 b = .next c) (h : Keep p a b) : Keep p a c := by
  unfold execResetNAssert at e
  replace e := Host.Outcome.next.inj e
  subst e
  with_reducible repeat' first
    | assumption | apply Keep.begin | apply keep_coldReset

theorem keep_execResetNRelease (x1 : Nat) (x2 : Nat) {b c : State} (e : execResetNRelease x1 x2 b = .next c) (h : Keep p a b) : Keep p a c := by
  unfold execResetNRelease at e
  extract_lets l1 l2 at e
  have h1 : Keep p a l1 := by
    unfold l1
    with_reducible repeat' first
      | assumption | apply Keep.begin
  clear_value l1
  replace e := Host.Outcome.next.inj e
  subst e
  repeat' first
    | (with_reducible first
        | assumption | apply keep_takeStraps | apply Keep.ite)
    | (simp only [Keep.lit]; with_reducible refine Keep.asked rfl ?_)

theorem keep_rstColdOp (h : Keep p a b) : Keep p a (rstColdOp b).1 := by
  unfold rstColdOp
  with_reducible repeat' first
    | assumption | apply keep_coldReset

theorem keep_execRstCold (x1 : Nat) (x2 : Src) {b c : State} (e : execRstCold x1 x2 b = .next c) (h : Keep p a b) : Keep p a c := by
  unfold execRstCold at e
  replace e := Host.Outcome.next.inj e
  subst e
  with_reducible repeat' first
    | assumption | apply keep_answer | apply keep_rstColdOp | apply Keep.begin

theorem keep_abortSave (h : Keep p a b) : Keep p a (abortSave b) := by
  unfold abortSave
  extract_lets l1
  repeat' first
    | (with_reducible first
        | assumption | apply keep_setReg | apply Keep.ite)
    | (simp only [Keep.lit]; with_reducible refine Keep.asked rfl ?_)

theorem keep_firmwareEvent (x1 : Nat) (x2 : Nat) (x3 : Nat) (h : Keep p a b) : Keep p a (firmwareEvent x1 x2 x3 b) := by
  unfold firmwareEvent
  with_reducible repeat' first
    | assumption | apply keep_raiseAs

theorem keep_processorAnew (h : Keep p a b) : Keep p a (processorAnew b) := by
  unfold processorAnew
  extract_lets l1 l2 l3
  have h1 : Keep p a l1 := by
    unfold l1
    with_reducible repeat' first
      | assumption | apply keep_abortSave | apply keep_endAllStaged
  clear_value l1
  have h3 : Keep p a l3 := by
    unfold l3
    repeat' first
      | (with_reducible first
          | assumption)
      | (simp only [Keep.lit]; with_reducible refine Keep.asked rfl ?_)
  clear_value l3
  with_reducible repeat' first
    | assumption | apply keep_setReg | apply keep_count

theorem keep_trialEnds (x1 : Bool) (h : Keep p a b) : Keep p a (trialEnds x1 b) := by
  unfold trialEnds
  extract_lets l1 l2
  have h2 : Keep p a l2 := by
    unfold l2
    repeat' first
      | (with_reducible first
          | assumption)
      | (simp only [Keep.lit]; with_reducible refine Keep.asked rfl ?_)
  clear_value l2
  repeat' first
    | (with_reducible first
        | assumption | apply keep_setReg | apply keep_firmwareEvent | apply keep_endChange)
    | split

theorem keep_procRestart (h : Keep p a b) : Keep p a (procRestart b) := by
  unfold procRestart
  with_reducible repeat' first
    | assumption | apply keep_processorAnew | apply keep_trialEnds

theorem keep_rstProcOp (h : Keep p a b) : Keep p a (rstProcOp b).1 := by
  unfold rstProcOp
  with_reducible repeat' first
    | assumption | apply keep_setReg | apply keep_procRestart

theorem keep_execRstProcRestart (x1 : Nat) (x2 : Src) {b c : State} (e : execRstProcRestart x1 x2 b = .next c) (h : Keep p a b) : Keep p a c := by
  unfold execRstProcRestart at e
  replace e := Host.Outcome.next.inj e
  subst e
  with_reducible repeat' first
    | assumption | apply keep_rstProcOp | apply keep_answer | apply Keep.begin

theorem keep_execProcWatchdogExpiry (x1 : Nat) {b c : State} (e : execProcWatchdogExpiry x1 b = .next c) (h : Keep p a b) : Keep p a c := by
  unfold execProcWatchdogExpiry at e
  replace e := Host.Outcome.next.inj e
  subst e
  with_reducible repeat' first
    | assumption | apply keep_procRestart | apply keep_raise | apply Keep.begin

theorem keep_pathsAnew (h : Keep p a b) : Keep p a (pathsAnew b) := by
  unfold pathsAnew
  extract_lets l1 l2
  have h1 : Keep p a l1 := by
    unfold l1
    with_reducible repeat' first
      | assumption | apply keep_abortSave | apply keep_endAllStaged
  clear_value l1
  repeat' first
    | (with_reducible first
        | assumption | apply keep_releaseLock)
    | (simp only [Keep.lit]; with_reducible refine Keep.asked rfl ?_)

theorem keep_bulkAnew (h : Keep p a b) : Keep p a (bulkAnew b) := by
  unfold bulkAnew
  extract_lets l1 l2 l3 l4 l5 l6
  have h2 : Keep p a l2 := by
    unfold l2
    with_reducible repeat' first
      | assumption | apply Keep.each | apply keep_setUnit | intro _ _ _
  clear_value l2
  have h3 : Keep p a l3 := by
    unfold l3
    with_reducible repeat' first
      | assumption | apply keep_engineStops | apply Keep.each | apply keep_setEngine | intro _ _ _
  clear_value l3
  have h4 : Keep p a l4 := by
    unfold l4
    with_reducible repeat' first
      | assumption | apply keep_modOutp | apply Keep.each | intro _ _ _
  clear_value l4
  repeat' first
    | (with_reducible first
        | assumption | apply keep_audioStops)
    | (simp only [Keep.lit]; with_reducible refine Keep.asked rfl ?_)

theorem keep_warmReset (x1 : Nat) (h : Keep p a b) : Keep p a (warmReset x1 b) := by
  unfold warmReset
  extract_lets l1 l2 l3 l4 l5 l6 l7 l8
  have h1 : Keep p a l1 := by
    unfold l1
    with_reducible repeat' first
      | assumption | apply keep_pathsAnew | apply keep_trialEnds
  clear_value l1
  have h3 : Keep p a l3 := by
    unfold l3
    repeat' first
      | (with_reducible first
          | assumption | apply keep_clearStatus)
      | (simp only [Keep.lit]; with_reducible refine Keep.asked rfl ?_)
  clear_value l3
  have h4 : Keep p a l4 := by
    unfold l4
    with_reducible repeat' first
      | assumption | apply keep_changesEnd | apply keep_bulkAnew
  clear_value l4
  have h5 : Keep p a l5 := by
    unfold l5
    with_reducible repeat' first
      | assumption | apply keep_startBegins
  clear_value l5
  have h7 : Keep p a l7 := by
    unfold l7
    repeat' first
      | (with_reducible first
          | assumption)
      | (simp only [Keep.lit]; with_reducible refine Keep.asked rfl ?_)
  clear_value l7
  have h8 : Keep p a l8 := by
    unfold l8
    with_reducible repeat' first
      | assumption | apply keep_setReg
  clear_value l8
  with_reducible repeat' first
    | assumption | apply keep_setReg | apply keep_recheck | apply Keep.ite

theorem keep_askWarm (x1 : Nat) (h : Keep p a b) : Keep p a (askWarm x1 b) := by
  unfold askWarm
  extract_lets l1 l2
  have h2 : Keep p a l2 := by
    unfold l2
    repeat' first
      | (with_reducible first
          | assumption)
      | (simp only [Keep.lit]; with_reducible refine Keep.asked rfl ?_)
  clear_value l2
  with_reducible repeat' first
    | assumption | apply keep_setReg | apply keep_raise | apply keep_warmReset | apply Keep.ite

theorem keep_warmGoes (h : Keep p a b) : Keep p a (warmGoes b) := by
  unfold warmGoes
  with_reducible repeat' first
    | assumption | apply keep_warmReset | apply Keep.ite

theorem keep_warmMet (h : Keep p a b) : Keep p a (warmMet b) := by
  unfold warmMet
  with_reducible repeat' first
    | assumption | apply keep_warmGoes | apply Keep.ite

theorem keep_rstWarmOp (h : Keep p a b) : Keep p a (rstWarmOp b).1 := by
  unfold rstWarmOp
  with_reducible repeat' first
    | assumption | apply keep_setReg | apply keep_askWarm

theorem keep_execRstWarm (x1 : Nat) (x2 : Src) {b c : State} (e : execRstWarm x1 x2 b = .next c) (h : Keep p a b) : Keep p a c := by
  unfold execRstWarm at e
  replace e := Host.Outcome.next.inj e
  subst e
  with_reducible repeat' first
    | assumption | apply keep_answer | apply keep_rstWarmOp | apply Keep.begin

theorem keep_rstProceedOp (h : Keep p a b) : Keep p a (rstProceedOp b).1 := by
  unfold rstProceedOp
  with_reducible repeat' first
    | assumption | apply keep_warmGoes

theorem keep_execRstProceed (x1 : Nat) (x2 : Src) {b c : State} (e : execRstProceed x1 x2 b = .next c) (h : Keep p a b) : Keep p a c := by
  unfold execRstProceed at e
  replace e := Host.Outcome.next.inj e
  subst e
  with_reducible repeat' first
    | assumption | apply keep_answer | apply keep_rstProceedOp | apply Keep.begin

theorem keep_execWarmHoldExpiry (x1 : Nat) {b c : State} (e : execWarmHoldExpiry x1 b = .next c) (h : Keep p a b) : Keep p a c := by
  unfold execWarmHoldExpiry at e
  extract_lets l1 at e
  have h1 : Keep p a l1 := by
    unfold l1
    with_reducible repeat' first
      | assumption | apply Keep.begin
  clear_value l1
  replace e := Host.Outcome.next.inj e
  subst e
  repeat' first
    | (with_reducible first
        | assumption | apply keep_warmGoes)
    | split

theorem keep_execFsWinRelease (x1 : Nat) (x2 : Src) (x3 : Nat) {b c : State} (e : execFsWinRelease x1 x2 x3 b = .next c) (h : Keep p a b) : Keep p a c := by
  unfold execFsWinRelease at e
  replace e := Host.Outcome.next.inj e
  subst e
  with_reducible repeat' first
    | assumption | apply keep_answer | apply keep_warmMet | apply keep_fsWinReleaseOp | apply Keep.begin | intro _ _

theorem keep_execFsWinCommit (x1 : Nat) (x2 : Src) {b c : State} (e : execFsWinCommit x1 x2 b = .next c) (h : Keep p a b) : Keep p a c := by
  unfold execFsWinCommit at e
  replace e := Host.Outcome.next.inj e
  subst e
  with_reducible repeat' first
    | assumption | apply keep_answer | apply keep_warmMet | apply keep_fsWinCommitOp | apply Keep.begin

theorem keep_startFailedClearOp (h : Keep p a b) : Keep p a (startFailedClearOp b).1 := by
  unfold startFailedClearOp
  extract_lets l1
  repeat' first
    | (with_reducible first
        | assumption)
    | (simp only [Keep.lit]; with_reducible refine Keep.asked rfl ?_)

theorem keep_execStartFailedClear (x1 : Nat) (x2 : Src) {b c : State} (e : execStartFailedClear x1 x2 b = .next c) (h : Keep p a b) : Keep p a c := by
  unfold execStartFailedClear at e
  replace e := Host.Outcome.next.inj e
  subst e
  with_reducible repeat' first
    | assumption | apply keep_startFailedClearOp | apply keep_answer | apply Keep.begin

end Sys2Proof.Laws
end

