-- ==== Sys2Proof/Laws/KeepStart.lean ====
section
/-! SUPPORT. What Keep says of the operations of the start sequence, references, links and the life cycle: one lemma for each. -/

namespace Sys2Proof.Laws

open Machine

variable {p : Prop} {a b : State}

/-! Start.lean. -/

theorem keep_execStartS0Supply (x1 : Nat) (x2 : Nat) (x3 : List Nat) {b c : State} (e : execStartS0Supply x1 x2 x3 b = .next c) (h : Keep p a b) : Keep p a c := by
  unfold execStartS0Supply at e
  extract_lets l1 l2 l3 l4 l5 l6 l7 l8 at e
  have h1 : Keep p a l1 := by
    unfold l1
    with_reducible repeat' first
      | assumption | apply Keep.begin
  clear_value l1 l2
  have h3 : Keep p a l3 := by
    unfold l3
    with_reducible repeat' first
      | assumption | apply keep_setReg
  clear_value l3
  have h4 : Keep p a l4 := by
    unfold l4
    with_reducible repeat' first
      | assumption | apply keep_setReg | apply Keep.each | intro _ _ _
  clear_value l4
  have h5 : Keep p a l5 := by
    unfold l5
    with_reducible repeat' first
      | assumption | apply keep_goodSince
  clear_value l5 l6
  have h7 : Keep p a l7 := by
    unfold l7
    with_reducible repeat' first
      | assumption | apply keep_chooseSide | apply Keep.ite
  clear_value l7
  have h8 : Keep p a l8 := by
    unfold l8
    with_reducible repeat' first
      | assumption | apply keep_takeStraps
  clear_value l8
  replace e := Host.Outcome.next.inj e
  subst e
  with_reducible repeat' first
    | assumption | apply keep_stepEnds | apply Keep.ite

theorem keep_clocksBegin (h : Keep p a b) : Keep p a (clocksBegin b) := by
  unfold clocksBegin
  extract_lets l1
  have h1 : Keep p a l1 := by
    unfold l1
    with_reducible repeat' first
      | assumption | apply keep_refTo | apply Keep.each | apply Keep.ite | intro _ _ _
  clear_value l1
  with_reducible repeat' first
    | assumption | apply keep_domTo | apply Keep.each | apply Keep.ite | intro _ _ _

theorem keep_execStartS1Osc (x1 : Nat) (x2 : Bool) (x3 : Bool) {b c : State} (e : execStartS1Osc x1 x2 x3 b = .next c) (h : Keep p a b) : Keep p a c := by
  unfold execStartS1Osc at e
  extract_lets l1 l2 l3 l4 l5 l6 l7 at e
  have h1 : Keep p a l1 := by
    unfold l1
    with_reducible repeat' first
      | assumption | apply Keep.begin
  clear_value l1
  have h3 : Keep p a l3 := by
    unfold l3
    repeat' first
      | (with_reducible first
          | assumption)
      | (simp only [Keep.lit]; with_reducible refine Keep.asked rfl ?_)
  clear_value l3
  have h4 : Keep p a l4 := by
    unfold l4
    with_reducible repeat' first
      | assumption | apply keep_setReg
  clear_value l4
  have h5 : Keep p a l5 := by
    unfold l5
    with_reducible repeat' first
      | assumption | apply keep_modLane | apply Keep.each | apply Keep.ite | intro _ _ _
  clear_value l5 l6
  have h7 : Keep p a l7 := by
    unfold l7
    with_reducible repeat' first
      | assumption | apply keep_stepFailed | apply keep_raise
  clear_value l7
  replace e := Host.Outcome.next.inj e
  subst e
  with_reducible repeat' first
    | assumption | apply keep_clocksBegin | apply keep_startStops | apply keep_stepEnds | apply Keep.ite

theorem keep_readSafe (h : Keep p a b) : Keep p a (readSafe b) := by
  unfold readSafe
  extract_lets l1 l2 l3 l4 l5 l6 l7 l8
  clear_value l1 l2 l3 l4
  have h5 : Keep p a l5 := by
    unfold l5
    with_reducible repeat' first
      | assumption | apply keep_setReg
  clear_value l5
  have h6 : Keep p a l6 := by
    unfold l6
    with_reducible repeat' first
      | assumption | apply keep_setReg
  clear_value l6
  have h7 : Keep p a l7 := by
    unfold l7
    with_reducible repeat' first
      | assumption | apply keep_setReg
  clear_value l7
  have h8 : Keep p a l8 := by
    unfold l8
    with_reducible repeat' first
      | assumption | apply keep_setReg
  clear_value l8
  with_reducible repeat' first
    | assumption | apply keep_setReg | apply Keep.ite

theorem keep_startCounts (h : Keep p a b) : Keep p a (startCounts b) := by
  unfold startCounts
  extract_lets l1 r
  have h1 : Keep p a l1 := keep_closeLast h
  clear_value l1 r
  exact (h1.withNvm (n := countReset r { l1.nvm with boot := l1.nvm.boot + 1 }) (Nat.le_refl _) id
    (Nat.le_succ _) (Nat.le_refl _) (Nat.le_refl _) (Nat.le_refl _)).like rfl

theorem keep_startLoops (h : Keep p a b) : Keep p a (startLoops b) := by
  unfold startLoops
  extract_lets l1 l2
  have h2 : Keep p a l2 := by
    unfold l2
    repeat' first
      | (with_reducible first
          | assumption)
      | (simp only [Keep.lit]; with_reducible refine Keep.asked rfl ?_)
  clear_value l2
  with_reducible repeat' first
    | assumption | apply keep_setReg | apply keep_raise | apply Keep.ite

theorem keep_execStartS2Nvm (x1 : Nat) (x2 : Bool) {b c : State} (e : execStartS2Nvm x1 x2 b = .next c) (h : Keep p a b) : Keep p a c := by
  unfold execStartS2Nvm at e
  extract_lets l1 l2 l3 l4 l5 l6 l7 l8 l9 at e
  have h1 : Keep p a l1 := by
    unfold l1
    with_reducible repeat' first
      | assumption | apply Keep.begin
  clear_value l1
  have h3 : Keep p a l3 := by
    unfold l3
    repeat' first
      | (with_reducible first
          | assumption)
      | (simp only [Keep.lit]; with_reducible refine Keep.asked rfl ?_)
  clear_value l3
  have h4 : Keep p a l4 := by
    unfold l4
    with_reducible repeat' first
      | assumption | apply keep_startCounts
  clear_value l4
  have h8 : Keep p a l8 := by
    unfold l8
    repeat' first
      | (with_reducible first
          | assumption | apply Keep.ite)
      | (simp only [Keep.lit]; with_reducible refine Keep.asked rfl ?_)
  clear_value l8
  have h9 : Keep p a l9 := by
    unfold l9
    repeat' first
      | (with_reducible first
          | assumption | apply keep_setReg)
      | split
  clear_value l9
  replace e := Host.Outcome.next.inj e
  subst e
  with_reducible repeat' first
    | assumption | apply keep_startLoops | apply keep_stepFailed | apply keep_startStops | apply keep_readSafe
    | apply keep_stepEnds | apply Keep.ite

theorem keep_modKeys (f : KeyStore → KeyStore) (hf : ∀ k, (f k).counter = k.counter) (h : Keep p a b) :
    Keep p a (b.modKeys f) :=
  h.withNvm (n := { b.nvm with keys := f b.nvm.keys }) (Nat.le_refl _) id (Nat.le_refl _) (Nat.le_of_eq (hf _).symm)
    (Nat.le_refl _) (Nat.le_refl _)

theorem keep_drawRoot (h : Keep p a b) : Keep p a (drawRoot b) := by
  unfold drawRoot
  extract_lets l1
  have h1 : Keep p a l1.2 := by
    unfold l1
    with_reducible repeat' first
      | assumption | apply Keep.drawBytes
  clear_value l1
  with_reducible repeat' first
    | assumption | (refine keep_modKeys _ (fun _ => rfl) ?_)

theorem keep_enrol (h : Keep p a b) : Keep p a (enrol b) := by
  unfold enrol
  with_reducible repeat' first
    | assumption | (refine keep_modKeys _ (fun _ => rfl) ?_)

theorem keep_emptySlots (h : Keep p a b) : Keep p a (emptySlots b) := by
  unfold emptySlots
  with_reducible repeat' first
    | assumption | (refine keep_modKeys _ (fun _ => rfl) ?_)

theorem keep_pufStands (x1 : List Nat) (h : Keep p a b) : Keep p a (pufStands x1 b) := by
  unfold pufStands
  extract_lets l1 l2
  clear_value l1
  have h2 : Keep p a l2 := by
    unfold l2
    repeat' first
      | (with_reducible first
          | assumption)
      | (simp only [Keep.lit]; with_reducible refine Keep.asked rfl ?_)
  clear_value l2
  with_reducible repeat' first
    | assumption | apply keep_setReg | apply keep_setSigning

theorem keep_cellsKeyed (h : Keep p a b) : Keep p a (cellsKeyed b) :=
  h.like rfl

theorem keep_checkRoot (x1 : Bool) (h : Keep p a b) : Keep p a (checkRoot x1 b).1 := by
  unfold checkRoot
  extract_lets l1
  with_reducible repeat' first
    | assumption | apply keep_enrol | apply keep_drawRoot | apply keep_raise | apply keep_emptySlots
    | apply Keep.iteFst

theorem keep_recover (h : Keep p a b) : Keep p a (recover b) := by
  unfold recover
  extract_lets l1 l2
  have h2 : Keep p a l2 := by
    refine keep_pufStands _ ?_
    exact keep_modKeys _ (fun _ => rfl) (keep_enrol h)
  clear_value l2
  refine keep_raise _ _ (keep_clearStartKey (keep_setReg _ _ ?_))
  exact (h2.withNvm (n := { l2.nvm with cb := { l2.nvm.cb with keyEpoch := l2.nvm.cb.keyEpoch + 1 } })
      (Nat.le_refl _) id (Nat.le_refl _) (Nat.le_refl _) (Nat.le_refl _) (Nat.le_succ _)).like rfl

theorem keep_execStartS3Root (x1 : Nat) (x2 : Bool) (x3 : Bool) {b c : State} (e : execStartS3Root x1 x2 x3 b = .next c) (h : Keep p a b) : Keep p a c := by
  unfold execStartS3Root at e
  extract_lets l1 l2 l3 l4 l5 l6 l7 l8 l9 l10 l11 l12 l13 l14 at e
  have h1 : Keep p a l1 := by
    unfold l1
    with_reducible repeat' first
      | assumption | apply Keep.begin
  clear_value l1
  have h2 : Keep p a l2.1 := by
    unfold l2
    with_reducible repeat' first
      | assumption | apply keep_checkRoot | apply keep_cellsKeyed
  clear_value l2
  have h3 : Keep p a l3 := by
    unfold l3
    with_reducible repeat' first
      | assumption
  clear_value l3 l4 l5
  have h6 : Keep p a l6 := by
    unfold l6
    repeat' first
      | (with_reducible first
          | assumption | apply keep_pufStands | apply keep_raise | apply Keep.ite)
      | (simp only [Keep.lit]; with_reducible refine Keep.asked rfl ?_)
  clear_value l6 l7
  have h8 : Keep p a l8 := by
    unfold l8
    with_reducible repeat' first
      | assumption | apply keep_setReg
  clear_value l8
  have h9 : Keep p a l9 := by
    unfold l9
    with_reducible repeat' first
      | assumption | apply keep_raise | apply keep_setReg | apply Keep.ite
  clear_value l9 l10
  have h11 : Keep p a l11 := by
    unfold l11
    with_reducible repeat' first
      | assumption | apply keep_recover | apply Keep.ite
  clear_value l11 l12
  have h13 : Keep p a l13 := by
    unfold l13
    with_reducible repeat' first
      | assumption | apply keep_setReg
  clear_value l13 l14
  replace e := Host.Outcome.next.inj e
  subst e
  with_reducible repeat' first
    | assumption | apply keep_stepEnds | apply keep_stepFailed | apply Keep.ite

theorem keep_bankVerified (x1 : Nat) (x2 : Bool) (h : Keep p a b) : Keep p a (bankVerified x1 x2 b).1 := by
  unfold bankVerified
  extract_lets l1
  clear_value l1
  with_reducible repeat' first
    | assumption | apply keep_setBank | apply Keep.ite | apply Keep.iteFst

theorem keep_execStartS4Firmware (x1 : Nat) (x2 : Bool) (x3 : Bool) {b c : State} (e : execStartS4Firmware x1 x2 x3 b = .next c) (h : Keep p a b) : Keep p a c := by
  unfold execStartS4Firmware at e
  extract_lets l1 l2 l3 l4 l5 l6 l7 l8 l9 l10 l11 at e
  have h1 : Keep p a l1 := by
    unfold l1
    with_reducible repeat' first
      | assumption | apply Keep.begin
  clear_value l1
  have h2 : Keep p a l2.1 := by
    unfold l2
    with_reducible repeat' first
      | assumption | apply keep_bankVerified
  clear_value l2
  have h3 : Keep p a l3.1 := by
    unfold l3
    with_reducible repeat' first
      | assumption | apply keep_bankVerified
  clear_value l3
  have h4 : Keep p a l4 := by
    unfold l4
    with_reducible repeat' first
      | assumption
  clear_value l4 l5 l7
  have h8 : Keep p a l8 := by
    unfold l8
    with_reducible repeat' first
      | assumption | apply keep_setReg
  clear_value l8 l9
  have h10 : Keep p a l10 := by
    unfold l10
    with_reducible repeat' first
      | assumption | apply keep_stepFailed | apply keep_stepEnds | apply Keep.ite
  clear_value l10
  replace e := Host.Outcome.next.inj e
  subst e
  repeat' first
    | (with_reducible first
        | assumption | apply keep_keepLedger | apply keep_stepFailed | apply keep_startStops | apply keep_enterS7
        | apply Keep.ite)
    | (simp only [Keep.lit]; with_reducible refine Keep.asked rfl ?_)

theorem keep_safeCaches (x1 : List Nat) (h : Keep p a b) : Keep p a (safeCaches x1 b) := by
  unfold safeCaches
  extract_lets l1 l2 l3 l4 l5
  clear_value l1 l3
  have h5 : Keep p a l5 := by
    unfold l5
    repeat' first
      | (with_reducible first
          | assumption)
      | (simp only [Keep.lit]; with_reducible refine Keep.asked rfl ?_)
  clear_value l5
  repeat' first
    | (with_reducible first
        | assumption | apply Keep.each | intro _ _ _)
    | (simp only [Keep.lit]; with_reducible refine Keep.asked rfl ?_)

theorem keep_safeSounds (x1 : List Nat) (h : Keep p a b) : Keep p a (safeSounds x1 b) := by
  unfold safeSounds
  extract_lets l1
  clear_value l1
  with_reducible repeat' first
    | assumption | apply keep_setReg | apply keep_loadSounds

theorem keep_lanesPowerUp (x1 : Nat) (x2 : Nat) (h : Keep p a b) : Keep p a (lanesPowerUp x1 x2 b) := by
  unfold lanesPowerUp
  with_reducible repeat' first
    | assumption | apply keep_setLane | apply Keep.each | apply Keep.ite | intro _ _ _

theorem keep_s5Begins (x1 : Nat) (x2 : List Nat) (x3 : List Nat) (h : Keep p a b) : Keep p a (s5Begins x1 x2 x3 b) := by
  unfold s5Begins
  extract_lets l1 l2 l3 l4
  have h1 : Keep p a l1 := by
    unfold l1
    with_reducible repeat' first
      | assumption | apply keep_safeSounds | apply keep_lanesPowerUp | apply keep_safeCaches
  clear_value l1
  have h3 : Keep p a l3 := by
    unfold l3
    repeat' first
      | (with_reducible first
          | assumption)
      | (simp only [Keep.lit]; with_reducible refine Keep.asked rfl ?_)
  clear_value l3
  have h4 : Keep p a l4 := by
    unfold l4
    with_reducible repeat' first
      | assumption | apply keep_modStep
  clear_value l4
  with_reducible repeat' first
    | assumption | apply keep_stepFailed | apply Keep.ite

theorem keep_s5Ends (h : Keep p a b) : Keep p a (s5Ends b) := by
  unfold s5Ends
  extract_lets l1 l2
  clear_value l1
  have h2 : Keep p a l2 := by
    unfold l2
    with_reducible repeat' first
      | assumption | apply keep_clearStartKey
  clear_value l2
  with_reducible repeat' first
    | assumption | apply keep_stepEnds | apply Keep.ite

theorem keep_execStartS5Keeper (x1 : Nat) (x2 : Nat) (x3 : List Nat) (x4 : List Nat) {b c : State} (e : execStartS5Keeper x1 x2 x3 x4 b = .next c) (h : Keep p a b) : Keep p a c := by
  unfold execStartS5Keeper at e
  extract_lets l1 l2 at e
  have h1 : Keep p a l1 := by
    unfold l1
    with_reducible repeat' first
      | assumption | apply Keep.begin
  clear_value l1
  replace e := Host.Outcome.next.inj e
  subst e
  repeat' first
    | (with_reducible first
        | assumption | apply keep_s5Ends | apply keep_s5Begins | apply keep_recoveryMet | apply Keep.ite)
    | (simp only [Keep.lit]; with_reducible refine Keep.asked rfl ?_)

theorem keep_execRecoveryWaitEnd (x1 : Nat) {b c : State} (e : execRecoveryWaitEnd x1 b = .next c) (h : Keep p a b) : Keep p a c := by
  unfold execRecoveryWaitEnd at e
  extract_lets l1 l2 at e
  have h1 : Keep p a l1 := by
    unfold l1
    with_reducible repeat' first
      | assumption | apply Keep.begin
  clear_value l1
  replace e := Host.Outcome.next.inj e
  subst e
  repeat' first
    | (with_reducible first
        | assumption | apply keep_s5Ends | apply Keep.ite)
    | (simp only [Keep.lit]; with_reducible refine Keep.asked rfl ?_)

theorem keep_installSafe (h : Keep p a b) : Keep p a (installSafe b) := by
  unfold installSafe
  extract_lets l1 l2 l3 l4 l5 l6 l7 l8 l9 l10
  have h1 : Keep p a l1 := by
    unfold l1
    with_reducible repeat' first
      | assumption | apply keep_setForce | apply keep_setReg | apply keep_gangChange | apply keep_modOutp
      | apply keep_underruns | apply keep_commitLate | apply keep_outOfRange | apply Keep.each
      | intro _ _ _ | intro _ _
  clear_value l1
  have h2 : Keep p a l2 := by
    unfold l2
    with_reducible repeat' first
      | assumption | apply keep_setReg
  clear_value l2
  have h3 : Keep p a l3 := by
    unfold l3
    with_reducible repeat' first
      | assumption | apply keep_putOutDesc | apply Keep.each | intro _ _ _ | intro _ _
  clear_value l3
  have h4 : Keep p a l4 := by
    unfold l4
    with_reducible repeat' first
      | assumption | apply keep_setReg
  clear_value l4 l5 l6 l7 l8
  have h9 : Keep p a l9 := by
    unfold l9
    repeat' first
      | (with_reducible first
          | assumption | apply Keep.foldl | intro _ _ _ | intro _ _)
      | (simp only [Keep.lit]; with_reducible refine Keep.asked rfl ?_)
  clear_value l9
  have h10 : Keep p a l10 := by
    unfold l10
    with_reducible repeat' first
      | assumption | apply keep_restoreGroup | apply Keep.ite
  clear_value l10
  with_reducible repeat' first
    | assumption | apply keep_bindSafe | apply Keep.each | intro _ _ _ | intro _ _

theorem keep_s6Passes (h : Keep p a b) : Keep p a (s6Passes b) := by
  unfold s6Passes
  extract_lets l1 l2
  have h2 : Keep p a l2 := keep_stepEnds _ _ _ _ _ (keep_setReg _ _ h)
  clear_value l2
  exact keep_enterS7 (keep_raise _ _ (keep_pins (fun k => k.latched) h2))

theorem keep_s6Fails (h : Keep p a b) : Keep p a (s6Fails b) := by
  unfold s6Fails
  extract_lets l1
  have h1 : Keep p a l1 := by
    unfold l1
    with_reducible repeat' first
      | assumption | apply keep_setReg
  clear_value l1
  with_reducible repeat' first
    | assumption | apply keep_raise | apply keep_enterS7 | apply keep_stepEnds

theorem keep_execStartS6Firstlight (x1 : Nat) {b c : State} (e : execStartS6Firstlight x1 b = .next c) (h : Keep p a b) : Keep p a c := by
  unfold execStartS6Firstlight at e
  extract_lets l1 l2 l3 l4 at e
  have h1 : Keep p a l1 := by
    unfold l1
    with_reducible repeat' first
      | assumption | apply Keep.begin
  clear_value l1
  have h2 : Keep p a l2 := by
    unfold l2
    with_reducible repeat' first
      | assumption | apply keep_installSafe | apply Keep.ite
  clear_value l2
  have h4 : Keep p a l4 := by
    unfold l4
    repeat' first
      | (with_reducible first
          | assumption)
      | (simp only [Keep.lit]; with_reducible refine Keep.asked rfl ?_)
  clear_value l4
  replace e := Host.Outcome.next.inj e
  subst e
  with_reducible repeat' first
    | assumption | apply keep_s6Fails | apply keep_s6Passes | apply Keep.ite

/-! Refs.lean. -/

theorem keep_followLane (x1 : Nat) (h : Keep p a b) : Keep p a (followLane x1 b) := by
  unfold followLane
  with_reducible repeat' first
    | assumption | apply keep_refInactive | apply keep_refActive | apply Keep.ite

theorem keep_refApplyOp (x1 : Nat) (h : Keep p a b) : Keep p a (refApplyOp x1 b).1 := by
  unfold refApplyOp
  extract_lets l1 l2 l3 l4 l5 l6 l7 l8
  have h4 : Keep p a l4 := by
    unfold l4
    with_reducible repeat' first
      | assumption | apply keep_apply
  clear_value l4
  have h6 : Keep p a l6 := by
    unfold l6
    repeat' first
      | (with_reducible first
          | assumption | apply Keep.ite)
      | (simp only [Keep.lit]; with_reducible refine Keep.asked rfl ?_)
  clear_value l6
  have h7 : Keep p a l7 := by
    unfold l7
    with_reducible repeat' first
      | assumption | apply keep_refRequalify
  clear_value l7
  have h8 : Keep p a l8 := by
    unfold l8
    with_reducible repeat' first
      | assumption | apply keep_refTo | apply keep_modSrc | apply keep_domLoop | apply Keep.each | apply Keep.ite
      | intro _ _ _ | intro _ _
  clear_value l8
  exact Keep.iteFst h (Keep.ite (keep_followLane _ h8) h8)

theorem keep_refRequalifyOp (x1 : Nat) (h : Keep p a b) : Keep p a (refRequalifyOp x1 b).1 := by
  unfold refRequalifyOp
  with_reducible repeat' first
    | assumption | apply keep_refRequalify

theorem keep_refClearCountsOp (x1 : Nat) (h : Keep p a b) : Keep p a (refClearCountsOp x1 b).1 := by
  unfold refClearCountsOp
  with_reducible repeat' first
    | assumption | apply keep_modSrc

theorem keep_domApplyOp (x1 : Nat) (x2 : List (Nat × Int)) (h : Keep p a b) : Keep p a (domApplyOp x1 x2 b).1 := by
  unfold domApplyOp
  extract_lets l1 l2 l3
  clear_value l1
  have h2 : Keep p a l2 := by
    unfold l2
    with_reducible repeat' first
      | assumption | apply keep_apply
  clear_value l2
  have h3 : Keep p a l3 := by
    unfold l3
    with_reducible repeat' first
      | assumption | apply keep_domTo | apply keep_modDom | apply Keep.ite
  clear_value l3
  with_reducible repeat' first
    | assumption | apply keep_domTo | apply keep_modDom | apply keep_domEval | apply keep_domLoop | apply Keep.iteFst

theorem keep_domClearHistoryOp (x1 : Nat) (h : Keep p a b) : Keep p a (domClearHistoryOp x1 b).1 := by
  unfold domClearHistoryOp
  with_reducible repeat' first
    | assumption | apply keep_modDom

theorem keep_domClearCountsOp (x1 : Nat) (h : Keep p a b) : Keep p a (domClearCountsOp x1 b).1 := by
  unfold domClearCountsOp
  with_reducible repeat' first
    | assumption | apply keep_modDom

theorem keep_refStatsClearOp (h : Keep p a b) : Keep p a (refStatsClearOp b).1 := by
  unfold refStatsClearOp
  extract_lets l1 l2
  have h1 : Keep p a l1 := by
    unfold l1
    with_reducible repeat' first
      | assumption | apply keep_refClearCountsOp | apply Keep.each
  clear_value l1
  have h2 : Keep p a l2 := by
    unfold l2
    with_reducible repeat' first
      | assumption | apply Keep.each | apply keep_domClearCountsOp
  clear_value l2
  with_reducible repeat' first
    | assumption | apply keep_setReg

theorem keep_dtDomainOp (x1 : Nat) (h : Keep p a b) : Keep p a (dtDomainOp x1 b).1 := by
  unfold dtDomainOp
  extract_lets l1
  repeat' first
    | (with_reducible first
        | assumption | apply keep_setReg | apply Keep.iteFst)
    | (simp only [Keep.lit]; with_reducible refine Keep.asked rfl ?_)

theorem keep_execRefApply (x1 : Nat) (x2 : Src) (x3 : Nat) {b c : State} (e : execRefApply x1 x2 x3 b = .next c) (h : Keep p a b) : Keep p a c := by
  unfold execRefApply at e
  replace e := Host.Outcome.next.inj e
  subst e
  with_reducible repeat' first
    | assumption | apply keep_refApplyOp | apply keep_answer | apply Keep.begin | intro _ _

theorem keep_execRefRequalify (x1 : Nat) (x2 : Src) (x3 : Nat) {b c : State} (e : execRefRequalify x1 x2 x3 b = .next c) (h : Keep p a b) : Keep p a c := by
  unfold execRefRequalify at e
  replace e := Host.Outcome.next.inj e
  subst e
  with_reducible repeat' first
    | assumption | apply keep_answer | apply Keep.begin | apply keep_refRequalifyOp | intro _ _

theorem keep_execRefClearCounts (x1 : Nat) (x2 : Src) (x3 : Nat) {b c : State} (e : execRefClearCounts x1 x2 x3 b = .next c) (h : Keep p a b) : Keep p a c := by
  unfold execRefClearCounts at e
  replace e := Host.Outcome.next.inj e
  subst e
  with_reducible repeat' first
    | assumption | apply keep_refClearCountsOp | apply keep_answer | apply Keep.begin | intro _ _

theorem keep_execDomApply (x1 : Nat) (x2 : Src) (x3 : Nat) (x4 : List (Nat × Int)) {b c : State} (e : execDomApply x1 x2 x3 x4 b = .next c) (h : Keep p a b) : Keep p a c := by
  unfold execDomApply at e
  replace e := Host.Outcome.next.inj e
  subst e
  with_reducible repeat' first
    | assumption | apply keep_answer | apply keep_domApplyOp | apply Keep.begin | intro _ _

theorem keep_execDomClearHistory (x1 : Nat) (x2 : Src) (x3 : Nat) {b c : State} (e : execDomClearHistory x1 x2 x3 b = .next c) (h : Keep p a b) : Keep p a c := by
  unfold execDomClearHistory at e
  replace e := Host.Outcome.next.inj e
  subst e
  with_reducible repeat' first
    | assumption | apply keep_domClearHistoryOp | apply keep_answer | apply Keep.begin | intro _ _

theorem keep_execDomClearCounts (x1 : Nat) (x2 : Src) (x3 : Nat) {b c : State} (e : execDomClearCounts x1 x2 x3 b = .next c) (h : Keep p a b) : Keep p a c := by
  unfold execDomClearCounts at e
  replace e := Host.Outcome.next.inj e
  subst e
  with_reducible repeat' first
    | assumption | apply keep_answer | apply keep_domClearCountsOp | apply Keep.begin | intro _ _

theorem keep_execRefStatsClear (x1 : Nat) (x2 : Src) {b c : State} (e : execRefStatsClear x1 x2 b = .next c) (h : Keep p a b) : Keep p a c := by
  unfold execRefStatsClear at e
  replace e := Host.Outcome.next.inj e
  subst e
  with_reducible repeat' first
    | assumption | apply keep_answer | apply keep_refStatsClearOp | apply Keep.begin

theorem keep_execDtDomainWrite (x1 : Nat) (x2 : Src) (x3 : Nat) {b c : State} (e : execDtDomainWrite x1 x2 x3 b = .next c) (h : Keep p a b) : Keep p a c := by
  unfold execDtDomainWrite at e
  replace e := Host.Outcome.next.inj e
  subst e
  with_reducible repeat' first
    | assumption | apply keep_dtDomainOp | apply keep_answer | apply Keep.begin | intro _ _

theorem keep_execRefActivityTimeout (x1 : Nat) (x2 : Nat) {b c : State} (e : execRefActivityTimeout x1 x2 b = .next c) (h : Keep p a b) : Keep p a c := by
  unfold execRefActivityTimeout at e
  extract_lets l1 l2 at e
  have h1 : Keep p a l1 := by
    unfold l1
    with_reducible repeat' first
      | assumption | apply Keep.begin
  clear_value l1 l2
  replace e := Host.Outcome.next.inj e
  subst e
  repeat' first
    | (with_reducible first
        | assumption | apply keep_refInactive)
    | split

theorem keep_execClockSourceActive (x1 : Nat) (x2 : Nat) {b c : State} (e : execClockSourceActive x1 x2 b = .next c) (h : Keep p a b) : Keep p a c := by
  unfold execClockSourceActive at e
  extract_lets l1 at e
  have h1 : Keep p a l1 := by
    unfold l1
    with_reducible repeat' first
      | assumption | apply Keep.begin
  clear_value l1
  replace e := Host.Outcome.next.inj e
  subst e
  with_reducible repeat' first
    | assumption | apply keep_refActive | apply Keep.ite

theorem keep_execRefPulseEdge (x1 : Nat) (x2 : Nat) {b c : State} (e : execRefPulseEdge x1 x2 b = .next c) (h : Keep p a b) : Keep p a c := by
  unfold execRefPulseEdge at e
  extract_lets l1 l2 l3 l4 l5 l6 at e
  have h1 : Keep p a l1 := by
    unfold l1
    with_reducible repeat' first
      | assumption | apply Keep.begin
  clear_value l1 l2 l3 l4 l5
  have h6 : Keep p a l6 := by
    unfold l6
    with_reducible repeat' first
      | assumption | apply keep_setSrc
  clear_value l6
  replace e := Host.Outcome.next.inj e
  subst e
  with_reducible repeat' first
    | assumption | apply keep_refActive | apply Keep.ite

theorem keep_execRefWindowEnd (x1 : Nat) (x2 : Nat) (x3 : Int) (x4 : List (Nat × Int × Int)) {b c : State} (e : execRefWindowEnd x1 x2 x3 x4 b = .next c) (h : Keep p a b) : Keep p a c := by
  unfold execRefWindowEnd at e
  extract_lets l1 l2 at e
  have h1 : Keep p a l1 := by
    unfold l1
    with_reducible repeat' first
      | assumption | apply Keep.begin
  clear_value l1
  have h2 : Keep p a l2 := by
    unfold l2
    with_reducible repeat' first
      | assumption | apply keep_refWindow | apply keep_refDisagreements | apply keep_refAgreement
  clear_value l2
  replace e := Host.Outcome.next.inj e
  subst e
  repeat' first
    | (with_reducible first
        | assumption | apply keep_domTo | apply Keep.each | apply keep_modDom | apply Keep.ite | intro _ _ _)
    | split

theorem keep_execRefQualTimeExpiry (x1 : Nat) (x2 : Nat) {b c : State} (e : execRefQualTimeExpiry x1 x2 b = .next c) (h : Keep p a b) : Keep p a c := by
  unfold execRefQualTimeExpiry at e
  extract_lets l1 l2 l3 at e
  have h1 : Keep p a l1 := by
    unfold l1
    with_reducible repeat' first
      | assumption | apply Keep.begin
  clear_value l1 l2
  replace e := Host.Outcome.next.inj e
  subst e
  with_reducible repeat' first
    | assumption | apply keep_refTo | apply Keep.ite

theorem keep_execSelectionEval (x1 : Nat) (x2 : List (Nat × Int)) {b c : State} (e : execSelectionEval x1 x2 b = .next c) (h : Keep p a b) : Keep p a c := by
  unfold execSelectionEval at e
  extract_lets l1 at e
  have h1 : Keep p a l1 := by
    unfold l1
    with_reducible repeat' first
      | assumption | apply Keep.begin
  clear_value l1
  replace e := Host.Outcome.next.inj e
  subst e
  with_reducible repeat' first
    | assumption | apply keep_domEval | apply Keep.each | intro _ _ _

theorem keep_execHistoryTick (x1 : Nat) (x2 : List (Nat × Int)) {b c : State} (e : execHistoryTick x1 x2 b = .next c) (h : Keep p a b) : Keep p a c := by
  unfold execHistoryTick at e
  extract_lets l1 at e
  have h1 : Keep p a l1 := by
    unfold l1
    with_reducible repeat' first
      | assumption | apply Keep.begin
  clear_value l1
  replace e := Host.Outcome.next.inj e
  subst e
  with_reducible repeat' first
    | assumption | apply Keep.each | apply keep_modDom | apply Keep.ite | intro _ _ _

theorem keep_execDomFramePulse (x1 : Nat) (x2 : Nat) {b c : State} (e : execDomFramePulse x1 x2 b = .next c) (h : Keep p a b) : Keep p a c := by
  unfold execDomFramePulse at e
  extract_lets l1 at e
  have h1 : Keep p a l1 := by
    unfold l1
    with_reducible repeat' first
      | assumption | apply Keep.begin
  clear_value l1
  replace e := Host.Outcome.next.inj e
  subst e
  with_reducible repeat' first
    | assumption | apply keep_modDom | apply keep_emit | apply Keep.ite

theorem keep_execGptpSync (x1 : Nat) (x2 : Nat) (x3 : Nat) {b c : State} (e : execGptpSync x1 x2 x3 b = .next c) (h : Keep p a b) : Keep p a c := by
  unfold execGptpSync at e
  extract_lets l1 l2 l3 l4 l5 l6 at e
  have h1 : Keep p a l1 := by
    unfold l1
    with_reducible repeat' first
      | assumption | apply Keep.begin
  clear_value l1 l2
  have h3 : Keep p a l3 := by
    unfold l3
    with_reducible repeat' first
      | assumption | apply keep_refInactive | apply keep_modSrc | apply Keep.ite
  clear_value l3
  have h4 : Keep p a l4 := by
    unfold l4
    with_reducible repeat' first
      | assumption | apply keep_setReg
  clear_value l4
  have h5 : Keep p a l5 := by
    unfold l5
    with_reducible repeat' first
      | assumption | apply keep_modSrc
  clear_value l5
  replace e := Host.Outcome.next.inj e
  subst e
  repeat' first
    | (with_reducible first
        | assumption | apply keep_refActive | apply Keep.ite)
    | (simp only [Keep.lit]; with_reducible refine Keep.asked rfl ?_)

theorem keep_execNetMapLatch (x1 : Nat) (x2 : Nat) (x3 : Nat) {b c : State} (e : execNetMapLatch x1 x2 x3 b = .next c) (h : Keep p a b) : Keep p a c := by
  unfold execNetMapLatch at e
  extract_lets l1 l2 at e
  have h1 : Keep p a l1 := by
    unfold l1
    with_reducible repeat' first
      | assumption | apply Keep.begin
  clear_value l1
  replace e := Host.Outcome.next.inj e
  subst e
  repeat' first
    | (with_reducible first
        | assumption | apply Keep.ite)
    | (simp only [Keep.lit]; with_reducible refine Keep.asked rfl ?_)

theorem keep_execXoLoss (x1 : Nat) (x2 : Bool) {b c : State} (e : execXoLoss x1 x2 b = .next c) (h : Keep p a b) : Keep p a c := by
  unfold execXoLoss at e
  extract_lets l1 l2 at e
  have h1 : Keep p a l1 := by
    unfold l1
    with_reducible repeat' first
      | assumption | apply Keep.begin
  clear_value l1
  have h2 : Keep p a l2 := by
    unfold l2
    with_reducible repeat' first
      | assumption | apply keep_setReg
  clear_value l2
  replace e := Host.Outcome.next.inj e
  subst e
  with_reducible repeat' first
    | assumption | apply keep_raise

theorem keep_execPhyrefLoss (x1 : Nat) {b c : State} (e : execPhyrefLoss x1 b = .next c) (h : Keep p a b) : Keep p a c := by
  unfold execPhyrefLoss at e
  extract_lets l1 l2 l3 l4 l5 at e
  have h1 : Keep p a l1 := by
    unfold l1
    with_reducible repeat' first
      | assumption | apply Keep.begin
  clear_value l1
  have h2 : Keep p a l2 := by
    unfold l2
    with_reducible repeat' first
      | assumption | apply keep_modLane | apply Keep.each | intro _ _ _
  clear_value l2
  have h4 : Keep p a l4 := by
    unfold l4
    repeat' first
      | (with_reducible first
          | assumption)
      | (simp only [Keep.lit]; with_reducible refine Keep.asked rfl ?_)
  clear_value l4
  have h5 : Keep p a l5 := by
    unfold l5
    with_reducible repeat' first
      | assumption | apply keep_setReg | apply Keep.ite
  clear_value l5
  replace e := Host.Outcome.next.inj e
  subst e
  with_reducible repeat' first
    | assumption | apply keep_raise

/-! Link.lean. -/

theorem keep_rateAgree (x1 : Nat) (x2 : Nat) (h : Keep p a b) : Keep p a (rateAgree x1 x2 b) := by
  unfold rateAgree
  with_reducible repeat' first
    | assumption | apply keep_modLink | apply keep_leaveUp | apply Keep.each | apply Keep.ite | intro _ _ _

theorem keep_rateRequestOp (x1 : Nat) (x2 : Nat) (h : Keep p a b) : Keep p a (rateRequestOp x1 x2 b) := by
  unfold rateRequestOp
  extract_lets l1 l2 l3
  clear_value l1 l2
  have h3 : Keep p a l3 := by
    unfold l3
    with_reducible repeat' first
      | assumption | apply keep_modLink
  clear_value l3
  with_reducible repeat' first
    | assumption | apply keep_pushCtl | apply keep_rateAgree | apply Keep.ite

theorem keep_execRateRequestFolio (x1 : Nat) (x2 : Nat) (x3 : Nat) {b c : State} (e : execRateRequestFolio x1 x2 x3 b = .next c) (h : Keep p a b) : Keep p a c := by
  unfold execRateRequestFolio at e
  replace e := Host.Outcome.next.inj e
  subst e
  with_reducible repeat' first
    | assumption | apply keep_rateRequestOp | apply Keep.begin | apply keep_received | intro _ _

theorem keep_rateAcceptOp (x1 : Nat) (x2 : Nat) (h : Keep p a b) : Keep p a (rateAcceptOp x1 x2 b) := by
  unfold rateAcceptOp
  with_reducible repeat' first
    | assumption | apply keep_rateAgree | apply Keep.ite

theorem keep_execRateAcceptFolio (x1 : Nat) (x2 : Nat) (x3 : Nat) {b c : State} (e : execRateAcceptFolio x1 x2 x3 b = .next c) (h : Keep p a b) : Keep p a c := by
  unfold execRateAcceptFolio at e
  replace e := Host.Outcome.next.inj e
  subst e
  with_reducible repeat' first
    | assumption | apply keep_rateAcceptOp | apply Keep.begin | apply keep_received | intro _ _

theorem keep_rateRefuseOp (x1 : Nat) (x2 : Nat) (h : Keep p a b) : Keep p a (rateRefuseOp x1 x2 b) := by
  unfold rateRefuseOp
  with_reducible repeat' first
    | assumption | apply keep_modLink

theorem keep_execRateRefuseFolio (x1 : Nat) (x2 : Nat) (x3 : Nat) {b c : State} (e : execRateRefuseFolio x1 x2 x3 b = .next c) (h : Keep p a b) : Keep p a c := by
  unfold execRateRefuseFolio at e
  replace e := Host.Outcome.next.inj e
  subst e
  with_reducible repeat' first
    | assumption | apply keep_rateRefuseOp | apply Keep.begin | apply keep_received | intro _ _

theorem keep_lnkRateRequestOp (x1 : Nat) (x2 : Nat) (h : Keep p a b) : Keep p a (lnkRateRequestOp x1 x2 b).1 := by
  unfold lnkRateRequestOp
  with_reducible repeat' first
    | assumption | apply keep_pushCtl | apply keep_modLink | apply Keep.iteFst

theorem keep_execLnkRateRequest (x1 : Nat) (x2 : Src) (x3 : Nat) (x4 : Nat) {b c : State} (e : execLnkRateRequest x1 x2 x3 x4 b = .next c) (h : Keep p a b) : Keep p a c := by
  unfold execLnkRateRequest at e
  replace e := Host.Outcome.next.inj e
  subst e
  with_reducible repeat' first
    | assumption | apply keep_answer | apply keep_lnkRateRequestOp | apply Keep.begin | intro _ _

theorem keep_sleepAgreed (x1 : Nat) (x2 : Nat) (h : Keep p a b) : Keep p a (sleepAgreed x1 x2 b) := by
  unfold sleepAgreed
  extract_lets l1
  have h1 : Keep p a l1 := by
    unfold l1
    with_reducible repeat' first
      | assumption | apply keep_leaveUp | apply Keep.ite
  clear_value l1
  with_reducible repeat' first
    | assumption | apply keep_modLink | apply keep_modLane

theorem keep_sleepRequestOp (x1 : Nat) (x2 : Nat) (h : Keep p a b) : Keep p a (sleepRequestOp x1 x2 b) := by
  unfold sleepRequestOp
  extract_lets l1
  clear_value l1
  with_reducible repeat' first
    | assumption | apply keep_pushCtl | apply keep_sleepAgreed | apply Keep.ite

theorem keep_execQuietRequestFolio (x1 : Nat) (x2 : Nat) {b c : State} (e : execQuietRequestFolio x1 x2 b = .next c) (h : Keep p a b) : Keep p a c := by
  unfold execQuietRequestFolio at e
  replace e := Host.Outcome.next.inj e
  subst e
  with_reducible repeat' first
    | assumption | apply keep_sleepRequestOp | apply Keep.begin | apply keep_received | intro _ _

theorem keep_execDormantRequestFolio (x1 : Nat) (x2 : Nat) {b c : State} (e : execDormantRequestFolio x1 x2 b = .next c) (h : Keep p a b) : Keep p a c := by
  unfold execDormantRequestFolio at e
  replace e := Host.Outcome.next.inj e
  subst e
  with_reducible repeat' first
    | assumption | apply keep_sleepRequestOp | apply Keep.begin | apply keep_received | intro _ _

theorem keep_sleepAcceptOp (x1 : Nat) (h : Keep p a b) : Keep p a (sleepAcceptOp x1 b) := by
  unfold sleepAcceptOp
  extract_lets l1
  clear_value l1
  with_reducible repeat' first
    | assumption | apply keep_sleepAgreed | apply Keep.ite

theorem keep_execLpAcceptFolio (x1 : Nat) (x2 : Nat) {b c : State} (e : execLpAcceptFolio x1 x2 b = .next c) (h : Keep p a b) : Keep p a c := by
  unfold execLpAcceptFolio at e
  replace e := Host.Outcome.next.inj e
  subst e
  with_reducible repeat' first
    | assumption | apply Keep.begin | apply keep_received | apply keep_sleepAcceptOp | intro _ _

theorem keep_execLpRefuseFolio (x1 : Nat) (x2 : Nat) {b c : State} (e : execLpRefuseFolio x1 x2 b = .next c) (h : Keep p a b) : Keep p a c := by
  unfold execLpRefuseFolio at e
  replace e := Host.Outcome.next.inj e
  subst e
  with_reducible repeat' first
    | assumption | apply keep_modLane | apply Keep.begin | apply keep_received | intro _ _

theorem keep_loopRequestOp (x1 : Nat) (x2 : Nat) (h : Keep p a b) : Keep p a (loopRequestOp x1 x2 b) := by
  unfold loopRequestOp
  extract_lets l1 l2
  clear_value l1
  have h2 : Keep p a l2 := by
    unfold l2
    with_reducible repeat' first
      | assumption | apply keep_emit
  clear_value l2
  with_reducible repeat' first
    | assumption | apply keep_pushCtl | apply keep_modLink | apply keep_beginLoop | apply Keep.ite

theorem keep_execLoopRequestFolio (x1 : Nat) (x2 : Nat) (x3 : Nat) {b c : State} (e : execLoopRequestFolio x1 x2 x3 b = .next c) (h : Keep p a b) : Keep p a c := by
  unfold execLoopRequestFolio at e
  replace e := Host.Outcome.next.inj e
  subst e
  with_reducible repeat' first
    | assumption | apply keep_loopRequestOp | apply Keep.begin | apply keep_received | intro _ _

theorem keep_loopAcceptOp (x1 : Nat) (h : Keep p a b) : Keep p a (loopAcceptOp x1 b) := by
  unfold loopAcceptOp
  extract_lets l1
  clear_value l1
  with_reducible repeat' first
    | assumption | apply keep_beginLoop | apply Keep.ite

theorem keep_execLoopAcceptFolio (x1 : Nat) (x2 : Nat) {b c : State} (e : execLoopAcceptFolio x1 x2 b = .next c) (h : Keep p a b) : Keep p a c := by
  unfold execLoopAcceptFolio at e
  replace e := Host.Outcome.next.inj e
  subst e
  with_reducible repeat' first
    | assumption | apply Keep.begin | apply keep_received | apply keep_loopAcceptOp | intro _ _

theorem keep_execLoopRefuseFolio (x1 : Nat) (x2 : Nat) {b c : State} (e : execLoopRefuseFolio x1 x2 b = .next c) (h : Keep p a b) : Keep p a c := by
  unfold execLoopRefuseFolio at e
  replace e := Host.Outcome.next.inj e
  subst e
  with_reducible repeat' first
    | assumption | apply keep_modLink | apply Keep.begin | apply keep_received | intro _ _

theorem keep_execLoopEndFolio (x1 : Nat) (x2 : Nat) {b c : State} (e : execLoopEndFolio x1 x2 b = .next c) (h : Keep p a b) : Keep p a c := by
  unfold execLoopEndFolio at e
  extract_lets l1 at e
  have h1 : Keep p a l1 := by
    unfold l1
    with_reducible repeat' first
      | assumption | apply Keep.begin
  clear_value l1
  replace e := Host.Outcome.next.inj e
  subst e
  with_reducible repeat' first
    | assumption | apply keep_modLink | apply keep_endLoop | apply Keep.ite

theorem keep_lnkApplyOp (x1 : Nat) (h : Keep p a b) : Keep p a (lnkApplyOp x1 b).1 := by
  unfold lnkApplyOp
  with_reducible repeat' first
    | assumption | apply keep_apply

theorem keep_execLnkApplySetup (x1 : Nat) (x2 : Src) (x3 : Nat) {b c : State} (e : execLnkApplySetup x1 x2 x3 b = .next c) (h : Keep p a b) : Keep p a c := by
  unfold execLnkApplySetup at e
  replace e := Host.Outcome.next.inj e
  subst e
  with_reducible repeat' first
    | assumption | apply keep_answer | apply Keep.begin | apply keep_lnkApplyOp | intro _ _

theorem keep_lnkClearOp (x1 : Nat) (h : Keep p a b) : Keep p a (lnkClearOp x1 b).1 := by
  unfold lnkClearOp
  with_reducible repeat' first
    | assumption | apply keep_modCounts

theorem keep_execLnkClearCounts (x1 : Nat) (x2 : Src) (x3 : Nat) {b c : State} (e : execLnkClearCounts x1 x2 x3 b = .next c) (h : Keep p a b) : Keep p a c := by
  unfold execLnkClearCounts at e
  replace e := Host.Outcome.next.inj e
  subst e
  with_reducible repeat' first
    | assumption | apply keep_lnkClearOp | apply keep_answer | apply Keep.begin | intro _ _

theorem keep_lnkStatsClearOp (h : Keep p a b) : Keep p a (lnkStatsClearOp b).1 := by
  unfold lnkStatsClearOp
  with_reducible repeat' first
    | assumption | apply keep_setReg | apply Keep.each | apply keep_modCounts | intro _ _ _

theorem keep_execLnkStatsClear (x1 : Nat) (x2 : Src) {b c : State} (e : execLnkStatsClear x1 x2 b = .next c) (h : Keep p a b) : Keep p a c := by
  unfold execLnkStatsClear at e
  replace e := Host.Outcome.next.inj e
  subst e
  with_reducible repeat' first
    | assumption | apply keep_answer | apply keep_lnkStatsClearOp | apply Keep.begin

/-! Trim.lean. -/

theorem keep_govBegins (h : Keep p a b) : Keep p a (govBegins b) := by
  unfold govBegins
  with_reducible repeat' first
    | assumption | apply keep_setReg | apply keep_modGov

theorem keep_govService (h : Keep p a b) : Keep p a (govService b) := by
  unfold govService
  extract_lets l1
  have h1 : Keep p a l1 := by
    unfold l1
    with_reducible repeat' first
      | assumption | apply keep_modGov
  clear_value l1
  with_reducible repeat' first
    | assumption | apply keep_setReg

theorem keep_govApplyOp (h : Keep p a b) : Keep p a (govApplyOp b).1 := by
  unfold govApplyOp
  extract_lets l1 l2
  clear_value l1
  have h2 : Keep p a l2 := by
    unfold l2
    with_reducible repeat' first
      | assumption | apply keep_apply
  clear_value l2
  with_reducible repeat' first
    | assumption | apply keep_setReg | apply keep_govBegins | apply Keep.ite | apply Keep.iteFst

theorem keep_govPauseOp (h : Keep p a b) : Keep p a (govPauseOp b).1 := by
  unfold govPauseOp
  with_reducible repeat' first
    | assumption | apply keep_setReg | apply keep_modGov | apply keep_govNominal | apply Keep.ite

theorem keep_govResumeOp (h : Keep p a b) : Keep p a (govResumeOp b).1 := by
  unfold govResumeOp
  with_reducible repeat' first
    | assumption | apply keep_modGov | apply keep_govBegins | apply Keep.ite

theorem keep_govClearFaultOp (h : Keep p a b) : Keep p a (govClearFaultOp b).1 := by
  unfold govClearFaultOp
  with_reducible repeat' first
    | assumption | apply keep_govBegins | apply Keep.ite

theorem keep_execGovApply (x1 : Nat) (x2 : Src) {b c : State} (e : execGovApply x1 x2 b = .next c) (h : Keep p a b) : Keep p a c := by
  unfold execGovApply at e
  replace e := Host.Outcome.next.inj e
  subst e
  with_reducible repeat' first
    | assumption | apply keep_answer | apply keep_govApplyOp | apply Keep.begin

theorem keep_execGovPause (x1 : Nat) (x2 : Src) {b c : State} (e : execGovPause x1 x2 b = .next c) (h : Keep p a b) : Keep p a c := by
  unfold execGovPause at e
  replace e := Host.Outcome.next.inj e
  subst e
  with_reducible repeat' first
    | assumption | apply keep_answer | apply Keep.begin | apply keep_govPauseOp

theorem keep_execGovResume (x1 : Nat) (x2 : Src) {b c : State} (e : execGovResume x1 x2 b = .next c) (h : Keep p a b) : Keep p a c := by
  unfold execGovResume at e
  replace e := Host.Outcome.next.inj e
  subst e
  with_reducible repeat' first
    | assumption | apply keep_answer | apply Keep.begin | apply keep_govResumeOp

theorem keep_execGovClearFault (x1 : Nat) (x2 : Src) {b c : State} (e : execGovClearFault x1 x2 b = .next c) (h : Keep p a b) : Keep p a c := by
  unfold execGovClearFault at e
  replace e := Host.Outcome.next.inj e
  subst e
  with_reducible repeat' first
    | assumption | apply keep_answer | apply keep_govClearFaultOp | apply Keep.begin

theorem keep_govTrim (h : Keep p a b) : Keep p a (govTrim b) := by
  unfold govTrim
  extract_lets l1 l2 l3 l4 l5 l6
  clear_value l1 l2
  have h3 : Keep p a l3 := by
    unfold l3
    with_reducible repeat' first
      | assumption | apply keep_setReg
  clear_value l3 l4 l5
  with_reducible repeat' first
    | assumption | apply keep_modGov | apply keep_govWrite | apply keep_count | apply Keep.ite

theorem keep_execGovInterval (x1 : Nat) {b c : State} (e : execGovInterval x1 b = .next c) (h : Keep p a b) : Keep p a c := by
  unfold execGovInterval at e
  extract_lets l1 at e
  have h1 : Keep p a l1 := by
    unfold l1
    with_reducible repeat' first
      | assumption | apply Keep.begin
  clear_value l1
  replace e := Host.Outcome.next.inj e
  subst e
  with_reducible repeat' first
    | assumption | apply keep_govTrim | apply Keep.ite

theorem keep_execGovWaitTimeout (x1 : Nat) {b c : State} (e : execGovWaitTimeout x1 b = .next c) (h : Keep p a b) : Keep p a c := by
  unfold execGovWaitTimeout at e
  extract_lets l1 at e
  have h1 : Keep p a l1 := by
    unfold l1
    with_reducible repeat' first
      | assumption | apply Keep.begin
  clear_value l1
  replace e := Host.Outcome.next.inj e
  subst e
  with_reducible repeat' first
    | assumption | apply keep_setReg | apply Keep.ite

theorem keep_govFault (h : Keep p a b) : Keep p a (govFault b) := by
  unfold govFault
  with_reducible repeat' first
    | assumption | apply keep_setReg | apply keep_raise

theorem keep_execAvsTransactionDone (x1 : Nat) (x2 : Option Nat) {b c : State} (e : execAvsTransactionDone x1 x2 b = .next c) (h : Keep p a b) : Keep p a c := by
  unfold execAvsTransactionDone at e
  extract_lets l1 l2 l3 at e
  have h1 : Keep p a l1 := by
    unfold l1
    with_reducible repeat' first
      | assumption | apply Keep.begin
  clear_value l1
  have h2 : Keep p a l2 := by
    unfold l2
    with_reducible repeat' first
      | assumption | apply keep_modGov | apply keep_count
  clear_value l2 l3
  replace e := Host.Outcome.next.inj e
  subst e
  repeat' first
    | (with_reducible first
        | assumption | apply keep_setReg | apply keep_modGov | apply keep_count | apply keep_govFault
        | apply Keep.ite)
    | split

/-! Restore.lean. -/

theorem keep_restoreValue (x1 : Nat) (x2 : Nat) (h : Keep p a b) : Keep p a (restoreValue x1 x2 b) := by
  unfold restoreValue
  extract_lets l1
  repeat' first
    | (with_reducible first
        | assumption | apply keep_setReg | apply keep_writeSeverity | apply keep_writeEnable
        | apply keep_chimeTableOp | apply Keep.ite)
    | (simp only [Keep.lit]; with_reducible refine Keep.asked rfl ?_)

theorem keep_restoreValues (x1 : List (Nat × List Nat)) (h : Keep p a b) : Keep p a (restoreValues x1 b).1 := by
  unfold restoreValues
  repeat' first
    | (with_reducible first
        | assumption | apply keep_restoreValue | apply Keep.foldlFst | apply Keep.iteFst | intro _ _ _)
    | split

theorem keep_applyShadows (ks : List Nat) {op : State → State × Nat} {x : State × Nat}
    (k : ∀ s : State, Keep p a s → Keep p a (op s).1) (h : Keep p a x.1) : Keep p a (applyShadows ks op x).1 := by
  unfold applyShadows
  extract_lets l1 l2 l3
  have h3 : Keep p a l3.1 := k _ h
  clear_value l2 l3
  exact .iteFst h (.iteFst h3 (.each (fun s i k => keep_setReg _ _ k) h))

theorem keep_applyEach (n : Nat) (ks : Nat → List Nat) {op : Nat → State → State × Nat} {x : State × Nat}
    (k : ∀ (i : Nat) (s : State), Keep p a s → Keep p a (op i s).1) (h : Keep p a x.1) : Keep p a (applyEach n ks op x).1 :=
  .foldlFst (fun _ i h => keep_applyShadows (ks i) (k i) h) h

theorem keep_restoreBonds (h : Keep p a b) : Keep p a (restoreBonds b) := by
  unfold restoreBonds
  extract_lets l1
  repeat' first
    | (with_reducible first
        | assumption)
    | (simp only [Keep.lit]; with_reducible refine Keep.asked rfl ?_)

theorem keep_restoreCalendars {x : State × Nat} (h : Keep p a x.1) : Keep p a (restoreCalendars x).1 := by
  unfold restoreCalendars
  refine .foldlFst (fun y n h => ?_) h
  exact .iteFst h (.iteFst (keep_lnkAnnounceOp n h) (keep_setReg _ _ h))

theorem keep_restoreStreams {x : State × Nat} (h : Keep p a x.1) : Keep p a (restoreStreams x).1 := by
  unfold restoreStreams
  extract_lets l1 l2 l3 l4 l5 l6 l7 l8
  have h4 : Keep p a l4 := keep_setReg _ _ h
  have h5 : Keep p a l5.1 := keep_applyShadows _ (fun _ => keep_strCommitOp) h4
  clear_value l4 l5
  exact keep_setReg _ _ (h5.like rfl)

theorem keep_restoreOutput (x1 : Nat) (h : Keep p a b) : Keep p a (restoreOutput x1 b).1 := by
  unfold restoreOutput
  extract_lets l1 l2 l3 l4 l5
  clear_value l1 l3
  have h4 : Keep p a l4 := by
    unfold l4
    with_reducible repeat' first
      | assumption | apply keep_apply | apply Keep.each
  clear_value l4
  have h5 : Keep p a l5 := by
    unfold l5
    with_reducible repeat' first
      | assumption | apply keep_modOutp
  clear_value l5
  with_reducible repeat' first
    | assumption | apply keep_gangChange | apply Keep.iteFst

theorem keep_restoreAudio (h : Keep p a b) : Keep p a (restoreAudio b).1 := by
  unfold restoreAudio
  extract_lets l1
  clear_value l1
  with_reducible repeat' first
    | assumption | apply keep_apply | apply Keep.each | apply Keep.iteFst

theorem keep_restoreCan (x1 : Nat) (h : Keep p a b) : Keep p a (restoreCan x1 b).1 := by
  unfold restoreCan
  with_reducible repeat' first
    | assumption | apply keep_canApplyOp

theorem keep_restoreApplies {x : State × Nat} (h : Keep p a x.1) : Keep p a (restoreApplies x).1 := by
  unfold restoreApplies
  extract_lets l1 l2 l3 l4 l5 l6 l7 l8 l9 l10 l11 l12 l13 l14
  have h1 : Keep p a l1.1 := keep_applyEach _ _ (fun n _ => keep_refApplyOp n) h
  have h2 : Keep p a l2.1 := keep_applyEach _ _ (fun d _ => keep_domApplyOp d []) h1
  have h3 : Keep p a l3.1 := keep_applyEach _ _ (fun n _ => keep_phyApplyOp n) h2
  have h4 : Keep p a l4.1 := keep_applyEach _ _ (fun n _ => keep_lnkApplyOp n) h3
  have h5 : Keep p a l5.1 := keep_restoreCalendars (keep_restoreStreams (keep_restoreBonds h4))
  have h6 : Keep p a l6.1 := keep_applyEach _ _ (fun n _ => keep_cmpApplyOp n) h5
  have h7 : Keep p a l7.1 := keep_applyShadows _ (fun _ => keep_fsPoolCommitOp) h6
  have h8 : Keep p a l8.1 := keep_applyShadows _ (fun _ => keep_fsWinCommitOp) h7
  have h9 : Keep p a l9.1 := keep_applyEach _ _ (fun n _ => keep_convApplyOp n) h8
  have h10 : Keep p a l10.1 := keep_applyEach _ _ (fun n _ => keep_restoreOutput n) h9
  have h11 : Keep p a l11.1 := keep_applyShadows _ (fun _ => keep_restoreAudio) h10
  have h12 : Keep p a l12.1 := keep_applyShadows _ (fun _ => keep_apply _) h11
  have h13 : Keep p a l13.1 := keep_applyEach _ _ (fun n _ => keep_restoreCan n) h12
  have h14 : Keep p a l14.1 := keep_applyShadows _ (fun _ => keep_netApplyOp) h13
  exact keep_applyShadows _ (fun _ => keep_govApplyOp) h14

theorem keep_restoreImage (x1 : List (Nat × List Nat)) (h : Keep p a b) : Keep p a (restoreImage x1 b).1 :=
  keep_restoreApplies (keep_restoreValues x1 h)

/-! Ready.lean. -/

theorem keep_channelTrained (x1 : Nat) (x2 : Nat × Nat) (h : Keep p a b) : Keep p a (channelTrained x1 x2 b) := by
  unfold channelTrained
  extract_lets l1 l2 l3
  clear_value l1 l2 l3
  with_reducible repeat' first
    | assumption | apply keep_setChan | apply keep_raise | apply Keep.ite

theorem keep_execStartS7DramTrain (x1 : Nat) (x2 : List (Nat × Nat)) {b c : State} (e : execStartS7DramTrain x1 x2 b = .next c) (h : Keep p a b) : Keep p a c := by
  unfold execStartS7DramTrain at e
  extract_lets l1 l2 l3 l4 l5 l6 l7 at e
  have h1 : Keep p a l1 := by
    unfold l1
    with_reducible repeat' first
      | assumption | apply Keep.begin
  clear_value l1
  have h2 : Keep p a l2 := by
    unfold l2
    with_reducible repeat' first
      | assumption | apply keep_channelTrained | apply Keep.each | intro _ _ _
  clear_value l2 l3 l4 l5
  have h6 : Keep p a l6 := by
    unfold l6
    with_reducible repeat' first
      | assumption | apply keep_stepEnds
  clear_value l6
  replace e := Host.Outcome.next.inj e
  subst e
  repeat' first
    | (with_reducible first
        | assumption | apply Keep.ite)
    | (simp only [Keep.lit]; with_reducible refine Keep.asked rfl ?_)

theorem keep_mappedOut (h : Keep p a b) : Keep p a (mappedOut b) := by
  unfold mappedOut
  extract_lets l1
  clear_value l1
  with_reducible repeat' first
    | assumption | apply Keep.each | apply keep_modBuf | intro _ _ _

theorem keep_wipeDram (h : Keep p a b) : Keep p a (wipeDram b) := by
  unfold wipeDram
  extract_lets l1 l2 l3 l4 l5
  clear_value l1
  have h2 : Keep p a l2 := by
    unfold l2
    with_reducible repeat' first
      | assumption | apply keep_storeEmpty | apply keep_forgetShown | apply keep_mappedOut
  clear_value l2
  have h5 : Keep p a l5 := by
    unfold l5
    repeat' first
      | (with_reducible first
          | assumption)
      | (simp only [Keep.lit]; with_reducible refine Keep.asked rfl ?_)
  clear_value l5
  with_reducible repeat' first
    | assumption | apply keep_recheck | apply Keep.each | apply keep_raise | intro _ _ _

theorem keep_execStartS8DramWipe (x1 : Nat) (x2 : Nat) {b c : State} (e : execStartS8DramWipe x1 x2 b = .next c) (h : Keep p a b) : Keep p a c := by
  unfold execStartS8DramWipe at e
  extract_lets l1 l2 l3 l4 at e
  have h1 : Keep p a l1 := by
    unfold l1
    with_reducible repeat' first
      | assumption | apply Keep.begin
  clear_value l1 l2
  have h3 : Keep p a l3 := by
    unfold l3
    with_reducible repeat' first
      | assumption | apply keep_modChan | apply Keep.each | apply keep_raise | intro _ _ _
  clear_value l3
  have h4 : Keep p a l4 := by
    unfold l4
    with_reducible repeat' first
      | assumption | apply keep_wipeDram
  clear_value l4
  replace e := Host.Outcome.next.inj e
  subst e
  with_reducible repeat' first
    | assumption | apply keep_stepEnds | apply Keep.ite

theorem keep_execStartS9Lanes (x1 : Nat) {b c : State} (e : execStartS9Lanes x1 b = .next c) (h : Keep p a b) : Keep p a c := by
  unfold execStartS9Lanes at e
  extract_lets l1 l2 l3 at e
  have h1 : Keep p a l1 := by
    unfold l1
    with_reducible repeat' first
      | assumption | apply Keep.begin
  clear_value l1 l3
  replace e := Host.Outcome.next.inj e
  subst e
  repeat' first
    | (with_reducible first
        | assumption | apply keep_lanesPowerUp | apply keep_stepEnds | apply Keep.ite)
    | (simp only [Keep.lit]; with_reducible refine Keep.asked rfl ?_)

theorem keep_pathsRestored (h : Keep p a b) : Keep p a (pathsRestored b) := by
  unfold pathsRestored
  with_reducible repeat' first
    | assumption | apply Keep.each | apply keep_pathDown

theorem keep_execStartS10Config (x1 : Nat) (x2 : Bool) {b c : State} (e : execStartS10Config x1 x2 b = .next c) (h : Keep p a b) : Keep p a c := by
  unfold execStartS10Config at e
  extract_lets l1 at e
  have h1 : Keep p a l1 := by
    unfold l1
    with_reducible repeat' first
      | assumption | apply Keep.begin
  clear_value l1
  replace e := Host.Outcome.next.inj e
  subst e
  repeat' first
    | (with_reducible first
        | assumption | apply keep_stepFailed | apply keep_restoreImage | apply keep_pathsRestored
        | apply keep_stepEnds)
    | split

theorem keep_rastersStart (h : Keep p a b) : Keep p a (rastersStart b) := by
  unfold rastersStart
  with_reducible repeat' first
    | assumption | apply keep_rasterMode | apply Keep.each | apply keep_rasterFormat | apply Keep.ite | intro _ _ _

theorem keep_heldView (x1 : List Nat) (h : Keep p a b) : Keep p a (heldView x1 b) := by
  unfold heldView
  repeat' first
    | (with_reducible first
        | assumption | apply keep_setForce | apply Keep.each | apply Keep.ite | intro _ _ _ | intro _ _)
    | split

theorem keep_heldBegin (x1 : List Nat) (h : Keep p a b) : Keep p a (heldBegin x1 b) := by
  unfold heldBegin
  repeat' first
    | (with_reducible first
        | assumption | apply Keep.each | apply keep_putOutDesc | apply Keep.ite | intro _ _ _)
    | (simp only [Keep.lit]; with_reducible refine Keep.asked rfl ?_) | split

theorem keep_s11Begins (h : Keep p a b) : Keep p a (s11Begins b) := by
  unfold s11Begins
  extract_lets l1 l2 l3 l4 l5 l6 l7 l8 l9 l10 l11
  clear_value l1
  have h2 : Keep p a l2 := by
    unfold l2
    repeat' first
      | (with_reducible first
          | assumption)
      | (simp only [Keep.lit]; with_reducible refine Keep.asked rfl ?_)
  clear_value l2
  have h3 : Keep p a l3 := by
    unfold l3
    with_reducible repeat' first
      | assumption | apply keep_rastersStart
  clear_value l3 l4 l5 l6 l7
  have h8 : Keep p a l8 := by
    unfold l8
    repeat' first
      | (with_reducible first
          | assumption)
      | (simp only [Keep.lit]; with_reducible refine Keep.asked rfl ?_)
  clear_value l8 l9
  have h10 : Keep p a l10 := by
    unfold l10
    repeat' first
      | (with_reducible first
          | assumption | apply Keep.foldl | apply Keep.ite | intro _ _ _ | intro _ _)
      | (simp only [Keep.lit]; with_reducible refine Keep.asked rfl ?_)
  clear_value l10
  have h11 : Keep p a l11 := by
    unfold l11
    with_reducible repeat' first
      | assumption | apply keep_heldBegin
  clear_value l11
  with_reducible repeat' first
    | assumption | apply keep_restoreGroup | apply Keep.ite

theorem keep_outputsReturn (h : Keep p a b) : Keep p a (outputsReturn b) := by
  unfold outputsReturn
  with_reducible repeat' first
    | assumption | apply keep_rasterMode | apply keep_setOutp | apply Keep.each | apply keep_qsChanged
    | apply Keep.ite | intro _ _ _

theorem keep_functionFails (x1 : Nat) (h : Keep p a b) : Keep p a (functionFails x1 b) := by
  unfold functionFails
  extract_lets l1
  have h1 : Keep p a l1 := by
    unfold l1
    with_reducible repeat' first
      | assumption | apply keep_modPort
  clear_value l1
  with_reducible repeat' first
    | assumption | apply keep_unitIsolate | apply keep_engineIsolate | apply Keep.ite

theorem keep_portsRetested (h : Keep p a b) : Keep p a (portsRetested b) := by
  unfold portsRetested
  extract_lets l1 l2
  clear_value l1
  have h2 : Keep p a l2 := by
    unfold l2
    with_reducible repeat' first
      | assumption | apply keep_portReturned | apply Keep.each | apply Keep.draw | apply Keep.ite
      | intro _ _ _ | intro _ _
  clear_value l2
  with_reducible repeat' first
    | assumption | apply keep_functionFails | apply Keep.each | apply Keep.draw | apply Keep.ite
    | intro _ _ _ | intro _ _

theorem keep_handover (h : Keep p a b) : Keep p a (handover b) := by
  unfold handover
  extract_lets l1 l2
  have h1 : Keep p a l1 := by
    unfold l1
    with_reducible repeat' first
      | assumption | apply keep_rtClear | apply Keep.each | intro _ _ _ | intro _ _
  clear_value l1 l2
  repeat' first
    | (with_reducible first
        | assumption | apply keep_releaseUnnamed | apply keep_heldApply | apply Keep.ite)
    | (simp only [Keep.lit]; with_reducible refine Keep.asked rfl ?_)

theorem keep_readyStands (x1 : StartState) (h : Keep p a b) : Keep p a (readyStands x1 b) := by
  unfold readyStands
  extract_lets l1 l2 l3 l4 l5
  have h1 : Keep p a l1 := by
    unfold l1
    with_reducible repeat' first
      | assumption | apply keep_stepEnds
  clear_value l1
  have h5 : Keep p a l5 := by
    unfold l5
    repeat' first
      | (with_reducible first
          | assumption)
      | (simp only [Keep.lit]; with_reducible refine Keep.asked rfl ?_)
  clear_value l5
  with_reducible repeat' first
    | assumption | apply keep_setReg

theorem keep_readyBegins (x1 : Bool) (h : Keep p a b) : Keep p a (readyBegins x1 b) := by
  unfold readyBegins
  extract_lets l1 l2
  have h1 : Keep p a l1 := by
    unfold l1
    with_reducible repeat' first
      | assumption | apply keep_outputsReturn | apply keep_portsRetested | apply Keep.ite
  clear_value l1
  have h2 : Keep p a l2 := by
    unfold l2
    with_reducible repeat' first
      | assumption | apply keep_govService | apply keep_audioStarts | apply Keep.ite
  clear_value l2
  with_reducible repeat' first
    | assumption | apply keep_recheck | apply keep_handover | apply Keep.ite

theorem keep_readyTold (x1 : StartState) (h : Keep p a b) : Keep p a (readyTold x1 b) := by
  unfold readyTold
  extract_lets l1 l2 l3 l4 l5 l6
  have h1 : Keep p a l1 := by
    unfold l1
    with_reducible repeat' first
      | assumption | apply keep_keepLedger
  clear_value l1
  have h2 : Keep p a l2 := by
    unfold l2
    with_reducible repeat' first
      | assumption | apply keep_cbWrite
  clear_value l2
  have h3 : Keep p a l3 := by
    unfold l3
    with_reducible repeat' first
      | assumption | apply keep_routeDigest | apply keep_raise
  clear_value l3
  have h5 : Keep p a l5 := by
    unfold l5
    repeat' first
      | (with_reducible first
          | assumption | apply keep_raise | apply Keep.ite)
      | (simp only [Keep.lit]; with_reducible refine Keep.asked rfl ?_)
  clear_value l5
  repeat' first
    | (with_reducible first
        | assumption | apply keep_raise)
    | (simp only [Keep.lit]; with_reducible refine Keep.asked rfl ?_) | split

theorem keep_serviceReady (h : Keep p a b) : Keep p a (serviceReady b) := by
  unfold serviceReady
  with_reducible repeat' first
    | assumption | apply keep_readyBegins | apply keep_readyStands | apply keep_readyTold

theorem keep_execStartS11Routes (x1 : Nat) {b c : State} (e : execStartS11Routes x1 b = .next c) (h : Keep p a b) : Keep p a c := by
  unfold execStartS11Routes at e
  extract_lets l1 l2 at e
  have h1 : Keep p a l1 := by
    unfold l1
    with_reducible repeat' first
      | assumption | apply Keep.begin
  clear_value l1
  have h2 : Keep p a l2 := by
    unfold l2
    with_reducible repeat' first
      | assumption | apply keep_s11Begins | apply Keep.ite
  clear_value l2
  replace e := Host.Outcome.next.inj e
  subst e
  with_reducible repeat' first
    | assumption | apply keep_serviceReady | apply Keep.ite

/-! Lifecycle.lean. -/

theorem keep_laneAnew (x1 : Nat) (h : Keep p a b) : Keep p a (laneAnew x1 b) := by
  unfold laneAnew
  with_reducible repeat' first
    | assumption | apply keep_modLane | apply keep_leaveReady | apply keep_linkPhyDown

theorem keep_storeAnew (h : Keep p a b) : Keep p a (storeAnew b) := by
  unfold storeAnew
  with_reducible repeat' first
    | assumption | apply keep_storeEmpty | apply keep_recheck | apply keep_forgetShown

theorem keep_subsystemAnew (x1 : Nat) (x2 : Nat) (h : Keep p a b) : Keep p a (subsystemAnew x1 x2 b) := by
  unfold subsystemAnew
  with_reducible repeat' first
    | assumption | apply keep_subsystemDone | apply keep_laneAnew | apply keep_storeAnew | apply keep_audioStops
    | apply keep_audioStarts | apply Keep.ite

theorem keep_unitResets (x1 : Nat) (h : Keep p a b) : Keep p a (unitResets x1 b) := by
  unfold unitResets
  extract_lets l1 l2 l3 l4 l5 l6
  clear_value l1 l2 l3 l4
  have h5 : Keep p a l5 := by
    unfold l5
    with_reducible repeat' first
      | assumption | apply keep_unitDrains | apply keep_modUnit | apply Keep.each | intro _ _ _
  clear_value l5
  have h6 : Keep p a l6 := by
    unfold l6
    with_reducible repeat' first
      | assumption | apply keep_modUnit
  clear_value l6
  with_reducible repeat' first
    | assumption | apply keep_recheck | apply keep_unitDrained | apply Keep.ite

theorem keep_engineResets (x1 : Nat) (h : Keep p a b) : Keep p a (engineResets x1 b) := by
  unfold engineResets
  extract_lets l1 l2 l3 l4
  clear_value l1 l2 l3
  have h4 : Keep p a l4 := by
    unfold l4
    with_reducible repeat' first
      | assumption | apply keep_qsChanged | apply keep_setEngine
  clear_value l4
  with_reducible repeat' first
    | assumption | apply keep_engineStops | apply keep_engineDrained | apply Keep.ite

theorem keep_outResets (x1 : Nat) (h : Keep p a b) : Keep p a (outResets x1 b) := by
  unfold outResets
  extract_lets l1 l2 l3
  clear_value l2
  have h3 : Keep p a l3 := by
    unfold l3
    with_reducible repeat' first
      | assumption | apply keep_setOutp | apply keep_qsChanged
  clear_value l3
  repeat' first
    | (with_reducible first
        | assumption | apply keep_subsystemDone | apply keep_outDrained)
    | split

theorem keep_subsystemResets (x1 : Nat) (x2 : Nat) (h : Keep p a b) : Keep p a (subsystemResets x1 x2 b) := by
  unfold subsystemResets
  with_reducible repeat' first
    | assumption | apply keep_engineResets | apply keep_unitResets | apply keep_outResets | apply keep_subsystemAnew
    | apply Keep.ite

theorem keep_rstSubsystemOp (x1 : Nat) (x2 : Bool) (h : Keep p a b) : Keep p a (rstSubsystemOp x1 x2 b).1 := by
  unfold rstSubsystemOp
  extract_lets l1 l2 l3 l4 l5
  clear_value l1 l2
  have h3 : Keep p a l3 := by
    unfold l3
    with_reducible repeat' first
      | assumption | apply keep_setReg
  clear_value l3
  have h5 : Keep p a l5 := by
    unfold l5
    repeat' first
      | (with_reducible first
          | assumption)
      | (simp only [Keep.lit]; with_reducible refine Keep.asked rfl ?_)
  clear_value l5
  with_reducible repeat' first
    | assumption | apply keep_setReg | apply keep_subsystemResets | apply Keep.iteFst

theorem keep_execRstSubsystem (x1 : Nat) (x2 : Src) (x3 : Nat) (x4 : Bool) {b c : State} (e : execRstSubsystem x1 x2 x3 x4 b = .next c) (h : Keep p a b) : Keep p a c := by
  unfold execRstSubsystem at e
  replace e := Host.Outcome.next.inj e
  subst e
  with_reducible repeat' first
    | assumption | apply keep_rstSubsystemOp | apply keep_answer | apply Keep.begin | intro _ _

/-- Every transition of R571 goes forward, and to one of the five states. -/
theorem lcAllowed_forward {x y : Nat} (e : lcAllowed x y = true) : lcRank x ≤ lcRank y ∧ y ≤ 4 := by
  unfold lcAllowed at e
  split at e <;> first | exact ⟨by decide, by decide⟩ | cases e

theorem keep_lcCommit (x1 x2 : Nat) (hl : lcAllowed b.nvm.lc x1 = true) (hc : b.nvm.keys.counter ≤ x2) (h : Keep p a b) :
    Keep p a (lcCommit x1 x2 b) := by
  unfold lcCommit
  extract_lets l1 l2 l3 l4 l5 l6
  have h6 : Keep p a l6 := (h.withNvm (n := l6.nvm) (lcAllowed_forward hl).1 (fun _ => (lcAllowed_forward hl).2)
    (Nat.le_refl _) hc (Nat.le_refl _) (Nat.le_refl _)).like rfl
  clear_value l6
  exact keep_cbWrite _ _ (keep_setReg _ _ h6)

theorem lcCode_zero {s : State} {d : List Nat} {ok : Bool} (e : lcCode s d ok = 0) :
    lcAllowed s.nvm.lc (lrTarget d) = true ∧ s.nvm.keys.counter ≤ lrCounter d := by
  unfold lcCode at e
  by_cases h1 : d.length ≠ 64 ∨ lrFormat d ≠ 1 ∨ !allZero ((d.drop 3).take 1) ∨ !allZero ((d.drop 20).take 12)
  · rw [if_pos h1] at e
    cases e
  by_cases h2 : lrDevice d ≠ Config.deviceId % 2 ^ 64
  · rw [if_neg h1, if_pos h2] at e
    cases e
  by_cases h3 : lrCounter d ≤ s.nvm.keys.counter
  · rw [if_neg h1, if_neg h2, if_pos h3] at e
    cases e
  by_cases h4 : (!s.slotValid 31 || hmac (s.slotKey 31) (d.take 32) != lrMac d) = true
  · rw [if_neg h1, if_neg h2, if_neg h3, if_pos h4] at e
    cases e
  by_cases h5 : (!lcAllowed s.nvm.lc (lrTarget d)) = true
  · rw [if_neg h1, if_neg h2, if_neg h3, if_neg h4, if_pos h5] at e
    cases e
  · exact ⟨by simpa using h5, Nat.le_of_not_le h3⟩

theorem keep_lcRequestOp (x1 : List Nat) (x2 : Bool) (h : Keep p a b) : Keep p a (lcRequestOp x1 x2 b).1 := by
  unfold lcRequestOp
  extract_lets l1 l2 l3
  have h2 : Keep p a l2 := keep_setReg _ _ h
  by_cases e : l1 ≠ 0
  · rw [if_pos e]
    exact keep_raise _ _ h2
  · rw [if_neg e]
    have e := lcCode_zero (Decidable.of_not_not e)
    have h3 : Keep p a l3 := keep_lcCommit _ _ e.1 e.2 h2
    clear_value l3
    exact .ite (keep_coldReset _ _ (keep_destroyKeys _ h3)) (keep_askWarm _ h3)

theorem keep_execLcRequest (x1 : Nat) (x2 : Src) (x3 : List Nat) (x4 : Bool) {b c : State} (e : execLcRequest x1 x2 x3 x4 b = .next c) (h : Keep p a b) : Keep p a c := by
  unfold execLcRequest at e
  replace e := Host.Outcome.next.inj e
  subst e
  with_reducible repeat' first
    | assumption | apply keep_answer | apply Keep.begin | apply keep_lcRequestOp | intro _ _

end Sys2Proof.Laws
end

