-- ==== Sys2Proof/Laws/KeepSupervision.lean ====
section
/-! SUPPORT. What Keep says of the operations of supervision, views, event commands and transports: one lemma for each. -/

namespace Sys2Proof.Laws

open Machine

variable {p : Prop} {a b : State}

/-! Supervision.lean. -/

theorem keep_execCbDigestTick (x1 : Nat) {b c : State} (e : execCbDigestTick x1 b = .next c) (h : Keep p a b) : Keep p a c := by
  unfold execCbDigestTick at e
  extract_lets l1 l2 l3 at e
  have h1 : Keep p a l1 := by
    unfold l1
    with_reducible repeat' first
      | assumption | apply Keep.begin
  clear_value l1
  have h3 : Keep p a l3 := by
    unfold l3
    repeat' first
      | (with_reducible first
          | assumption)
      | (simp only [Keep.lit]; with_reducible refine Keep.asked rfl ?_)
  clear_value l3
  replace e := Host.Outcome.next.inj e
  subst e
  with_reducible repeat' first
    | assumption | apply keep_routeDigest | apply Keep.ite

theorem keep_recordTwice (h : Keep p a b) : Keep p a (recordTwice b) := by
  unfold recordTwice
  split
  · exact h
  · rename_i i _ _
    have hd := Keep.draw h
    have hc := keep_cbAppend i (Keep.refl p b.draw.2)
    refine Keep.ite hd (hd.trans ⟨rfl, id, Nat.le_refl _, id, Nat.le_refl _, Nat.le_refl _, Nat.le_refl _, hc.epoch, id,
      .inr (Nat.le_refl _), Nat.le_refl _⟩)

theorem keep_masterReset (x1 : Hang) (h : Keep p a b) : Keep p a (masterReset x1 b) := by
  unfold masterReset
  extract_lets l1 l2
  clear_value l1
  repeat' first
    | (with_reducible first
        | assumption | apply keep_setReg | apply keep_procRestart | apply keep_recordTwice)
    | (simp only [Keep.lit]; with_reducible refine Keep.asked rfl ?_) | split

theorem keep_busHang (x1 : Hang) (h : Keep p a b) : Keep p a (busHang x1 b) := by
  unfold busHang
  extract_lets l1 l2 l3 l4 l5
  clear_value l1
  have h2 : Keep p a l2 := by
    unfold l2
    with_reducible repeat' first
      | assumption | apply keep_setBusMaster
  clear_value l2
  have h4 : Keep p a l4 := by
    unfold l4
    repeat' first
      | (with_reducible first
          | assumption)
      | (simp only [Keep.lit]; with_reducible refine Keep.asked rfl ?_)
  clear_value l4
  have h5 : Keep p a l5 := by
    unfold l5
    with_reducible repeat' first
      | assumption | apply keep_count
  clear_value l5
  with_reducible repeat' first
    | assumption | apply keep_raiseAs | apply keep_masterReset

theorem keep_execBusWatchdogExpiry (x1 : Nat) (x2 : Hang) {b c : State} (e : execBusWatchdogExpiry x1 x2 b = .next c) (h : Keep p a b) : Keep p a c := by
  unfold execBusWatchdogExpiry at e
  extract_lets l1 at e
  have h1 : Keep p a l1 := by
    unfold l1
    with_reducible repeat' first
      | assumption | apply Keep.begin
  clear_value l1
  replace e := Host.Outcome.next.inj e
  subst e
  with_reducible repeat' first
    | assumption | apply keep_busHang | apply Keep.ite

theorem keep_busStatsClearOp (h : Keep p a b) : Keep p a (busStatsClearOp b).1 := by
  unfold busStatsClearOp
  extract_lets l1 l2
  have h1 : Keep p a l1 := by
    unfold l1
    with_reducible repeat' first
      | assumption | apply keep_clear
  clear_value l1
  repeat' first
    | (with_reducible first
        | assumption)
    | (simp only [Keep.lit]; with_reducible refine Keep.asked rfl ?_)

theorem keep_execBusStatsClear (x1 : Nat) (x2 : Src) {b c : State} (e : execBusStatsClear x1 x2 b = .next c) (h : Keep p a b) : Keep p a c := by
  unfold execBusStatsClear at e
  replace e := Host.Outcome.next.inj e
  subst e
  with_reducible repeat' first
    | assumption | apply keep_answer | apply keep_busStatsClearOp | apply Keep.begin

theorem keep_drained (x1 : Nat) (x2 : Nat) (h : Keep p a b) : Keep p a (drained x1 x2 b) := by
  unfold drained
  with_reducible repeat' first
    | assumption | apply keep_engineDrained | apply keep_unitDrained | apply keep_warmMet | apply keep_subsystemAnew
    | apply keep_outDrained | apply Keep.ite

theorem keep_execDrainDone (x1 : Nat) (x2 : Nat) (x3 : Nat) {b c : State} (e : execDrainDone x1 x2 x3 b = .next c) (h : Keep p a b) : Keep p a c := by
  unfold execDrainDone at e
  replace e := Host.Outcome.next.inj e
  subst e
  with_reducible repeat' first
    | assumption | apply keep_drained | apply Keep.begin

theorem keep_retireLimit (x1 : Nat) (x2 : Nat) (h : Keep p a b) : Keep p a (retireLimit x1 x2 b) := by
  unfold retireLimit
  extract_lets l1
  have h1 : Keep p a l1 := by
    unfold l1
    with_reducible repeat' first
      | assumption | apply keep_evacMove
  clear_value l1
  with_reducible repeat' first
    | assumption | apply keep_finishRetire | apply keep_endChange

theorem keep_execDrainLimit (x1 : Nat) (x2 : Nat) (x3 : Nat) (x4 : Nat) {b c : State} (e : execDrainLimit x1 x2 x3 x4 b = .next c) (h : Keep p a b) : Keep p a c := by
  unfold execDrainLimit at e
  extract_lets l1 l2 at e
  have h1 : Keep p a l1 := by
    unfold l1
    with_reducible repeat' first
      | assumption | apply Keep.begin
  clear_value l1 l2
  replace e := Host.Outcome.next.inj e
  subst e
  with_reducible repeat' first
    | assumption | apply keep_drained | apply keep_qsForced | apply keep_convCutOff | apply keep_retireLimit
    | apply Keep.whenever | apply Keep.ite | intro _ _ _ | intro _ _

theorem keep_fwImageOp (x1 : List Nat) (x2 : Bool) (h : Keep p a b) : Keep p a (fwImageOp x1 x2 b).1 := by
  unfold fwImageOp
  extract_lets l1 l2 l3 l4 l5 l6
  clear_value l1 l2
  have h3 : Keep p a l3 := by
    unfold l3
    with_reducible repeat' first
      | assumption | apply keep_setReg
  clear_value l3
  have h4 : Keep p a l4 := by
    unfold l4
    with_reducible repeat' first
      | assumption | apply keep_setBank
  clear_value l4 l5
  have h6 : Keep p a l6 := by
    unfold l6
    with_reducible repeat' first
      | assumption | apply keep_setReg | apply keep_setBank
  clear_value l6
  with_reducible repeat' first
    | assumption | apply keep_setReg | apply keep_firmwareEvent | apply Keep.iteFst

theorem keep_execFwImageWrite (x1 : Nat) (x2 : Src) (x3 : List Nat) (x4 : Bool) {b c : State} (e : execFwImageWrite x1 x2 x3 x4 b = .next c) (h : Keep p a b) : Keep p a c := by
  unfold execFwImageWrite at e
  replace e := Host.Outcome.next.inj e
  subst e
  with_reducible repeat' first
    | assumption | apply keep_fwImageOp | apply keep_answer | apply Keep.begin | intro _ _

theorem keep_fwTrialOp (h : Keep p a b) : Keep p a (fwTrialOp b).1 := by
  unfold fwTrialOp
  extract_lets l1 l2 l3 l4
  clear_value l1
  have h3 : Keep p a l3 := by
    unfold l3
    repeat' first
      | (with_reducible first
          | assumption)
      | (simp only [Keep.lit]; with_reducible refine Keep.asked rfl ?_)
  clear_value l3
  have h4 : Keep p a l4 := by
    unfold l4
    with_reducible repeat' first
      | assumption | apply keep_setReg | apply keep_firmwareEvent
  clear_value l4
  with_reducible repeat' first
    | assumption | apply keep_setReg | apply keep_processorAnew | apply Keep.iteFst

theorem keep_execFwTrial (x1 : Nat) (x2 : Src) {b c : State} (e : execFwTrial x1 x2 b = .next c) (h : Keep p a b) : Keep p a c := by
  unfold execFwTrial at e
  replace e := Host.Outcome.next.inj e
  subst e
  with_reducible repeat' first
    | assumption | apply keep_answer | apply keep_fwTrialOp | apply Keep.begin

theorem keep_fwConfirmOp (h : Keep p a b) : Keep p a (fwConfirmOp b).1 := by
  unfold fwConfirmOp
  extract_lets l1 l2
  repeat' first
    | (with_reducible first
        | assumption | apply keep_setReg | apply keep_endChange)
    | (simp only [Keep.lit]; with_reducible refine Keep.asked rfl ?_) | split

theorem keep_execFwConfirm (x1 : Nat) (x2 : Src) {b c : State} (e : execFwConfirm x1 x2 b = .next c) (h : Keep p a b) : Keep p a c := by
  unfold execFwConfirm at e
  replace e := Host.Outcome.next.inj e
  subst e
  with_reducible repeat' first
    | assumption | apply keep_fwConfirmOp | apply keep_answer | apply Keep.begin

theorem keep_fwRevertOp (h : Keep p a b) : Keep p a (fwRevertOp b).1 := by
  unfold fwRevertOp
  with_reducible repeat' first
    | assumption | apply keep_procRestart | apply Keep.iteFst

theorem keep_execFwRevert (x1 : Nat) (x2 : Src) {b c : State} (e : execFwRevert x1 x2 b = .next c) (h : Keep p a b) : Keep p a c := by
  unfold execFwRevert at e
  replace e := Host.Outcome.next.inj e
  subst e
  with_reducible repeat' first
    | assumption | apply keep_answer | apply keep_fwRevertOp | apply Keep.begin

theorem keep_execFwConfirmTimeout (x1 : Nat) {b c : State} (e : execFwConfirmTimeout x1 b = .next c) (h : Keep p a b) : Keep p a c := by
  unfold execFwConfirmTimeout at e
  extract_lets l1 at e
  have h1 : Keep p a l1 := by
    unfold l1
    with_reducible repeat' first
      | assumption | apply Keep.begin
  clear_value l1
  replace e := Host.Outcome.next.inj e
  subst e
  repeat' first
    | (with_reducible first
        | assumption | apply keep_procRestart)
    | split

theorem keep_assetWriteOp (x1 : List Nat) (x2 : Bool) (h : Keep p a b) : Keep p a (assetWriteOp x1 x2 b).1 := by
  unfold assetWriteOp
  extract_lets l1 l2 l3 l4 l5 l6 l7
  clear_value l1 l2
  have h3 : Keep p a l3 := by
    unfold l3
    with_reducible repeat' first
      | assumption | apply keep_setReg
  clear_value l3 l4
  have h7 : Keep p a l7 := by
    unfold l7
    repeat' first
      | (with_reducible first
          | assumption)
      | (simp only [Keep.lit]; with_reducible refine Keep.asked rfl ?_)
  clear_value l7
  with_reducible repeat' first
    | assumption | apply keep_recheck | apply keep_raise | apply Keep.iteFst

theorem keep_execAssetWrite (x1 : Nat) (x2 : Src) (x3 : List Nat) (x4 : Bool) {b c : State} (e : execAssetWrite x1 x2 x3 x4 b = .next c) (h : Keep p a b) : Keep p a c := by
  unfold execAssetWrite at e
  replace e := Host.Outcome.next.inj e
  subst e
  with_reducible repeat' first
    | assumption | apply keep_assetWriteOp | apply keep_answer | apply Keep.begin | intro _ _

theorem keep_assetDeleteOp (x1 : Nat) (h : Keep p a b) : Keep p a (assetDeleteOp x1 b).1 := by
  unfold assetDeleteOp
  extract_lets l1 l2
  have h2 : Keep p a l2 := by
    unfold l2
    repeat' first
      | (with_reducible first
          | assumption)
      | (simp only [Keep.lit]; with_reducible refine Keep.asked rfl ?_)
  clear_value l2
  with_reducible repeat' first
    | assumption | apply keep_setReg | apply keep_recheck | apply keep_raise | apply Keep.iteFst

theorem keep_execAssetDelete (x1 : Nat) (x2 : Src) (x3 : Nat) {b c : State} (e : execAssetDelete x1 x2 x3 b = .next c) (h : Keep p a b) : Keep p a c := by
  unfold execAssetDelete at e
  replace e := Host.Outcome.next.inj e
  subst e
  with_reducible repeat' first
    | assumption | apply keep_assetDeleteOp | apply keep_answer | apply Keep.begin | intro _ _

theorem keep_windowOpens (h : Keep p a b) : Keep p a (windowOpens b) := by
  unfold windowOpens
  extract_lets l1 l2
  have h1 : Keep p a l1 := by
    unfold l1
    with_reducible repeat' first
      | assumption | apply keep_setReg
  clear_value l1
  repeat' first
    | (with_reducible first
        | assumption | apply keep_raise | apply Keep.ite)
    | (simp only [Keep.lit]; with_reducible refine Keep.asked rfl ?_)

theorem keep_windowWriteOp (x1 : List Nat) (h : Keep p a b) : Keep p a (windowWriteOp x1 b).1 := by
  unfold windowWriteOp
  with_reducible repeat' first
    | assumption | apply keep_windowOpens | apply Keep.iteFst

theorem keep_windowReadOp (h : Keep p a b) : Keep p a (windowReadOp b).2 := by
  unfold windowReadOp
  with_reducible repeat' first
    | assumption | apply Keep.drawBytes | apply keep_windowOpens

theorem keep_execSvcWindowAccess (x1 : Nat) (x2 : Src) (x3 : Option (List Nat)) {b c : State} (e : execSvcWindowAccess x1 x2 x3 b = .next c) (h : Keep p a b) : Keep p a c := by
  unfold execSvcWindowAccess at e
  extract_lets l1 l2 l3 at e
  have h1 : Keep p a l1 := by
    unfold l1
    with_reducible repeat' first
      | assumption | apply Keep.begin
  clear_value l1 l2
  have h3 : Keep p a l3.2 := by
    unfold l3
    with_reducible repeat' first
      | assumption | apply keep_windowReadOp
  clear_value l3
  replace e := Host.Outcome.next.inj e
  subst e
  repeat' first
    | (with_reducible first
        | assumption | apply keep_answer | apply keep_windowWriteOp | apply keep_emit | intro _ _)
    | split

/-! View.lean. -/

theorem keep_measuredNow (x1 : Nat) (h : Keep p a b) : Keep p a (measuredNow x1 b).2 := by
  unfold measuredNow
  repeat' first
    | (with_reducible first
        | assumption | apply Keep.draw | apply Keep.iteSnd)
    | split

theorem keep_damagedNow (h : Keep p a b) : Keep p a (damagedNow b).2 :=
  h.trans ⟨rfl, id, Nat.le_refl _, id, Nat.le_refl _, Nat.le_refl _, Nat.le_refl _, Nat.le_refl _, id,
    .inr (Nat.le_refl _), Nat.le_add_right _ _⟩

theorem keep_varyingBytes (x1 x2 : Bool) (x3 : Nat) (h : Keep p a b) : Keep p a (varyingBytes x1 x2 x3 b).2.2 := by
  unfold varyingBytes
  refine .iteThird h (.iteThird h (.iteThird (keep_cbReadData _ (keep_damagedNow h)) (.iteThird h (.iteThird h (.iteThird h
    (.iteThird h (.iteThird ?_ (.iteThird (.iteThird h (keep_windowReadOp h)) h))))))))
  cases fsBufReadOp (frozenState b x3) <;> exact h

theorem keep_openBytes (x1 : Entry) (h : Keep p a b) : Keep p a (openBytes x1 b).2 := by
  unfold openBytes
  extract_lets l1
  have h1 : Keep p a l1.2 := by
    unfold l1
    with_reducible repeat' first
      | assumption | apply Keep.draw
  clear_value l1
  with_reducible repeat' first
    | assumption | apply Keep.drawBytes

theorem keep_entryBytes (x1 : Requester) (x2 : Bool) (x3 : Bool) (x4 : Nat) (h : Keep p a b) : Keep p a (entryBytes x1 x2 x3 x4 b).2.2 := by
  unfold entryBytes
  extract_lets l1
  have h1 : Keep p a l1.2 := by
    unfold l1
    with_reducible repeat' first
      | assumption | apply keep_measuredNow
  clear_value l1
  repeat' first
    | (with_reducible first
        | assumption | apply keep_openBytes | apply keep_varyingBytes | apply Keep.iteThird)
    | split

/-! EventCmds.lean. -/

theorem keep_evtStatusOp (x1 : Nat) (x2 : Nat) (h : Keep p a b) : Keep p a (evtStatusOp x1 x2 b).1 := by
  unfold evtStatusOp
  with_reducible repeat' first
    | assumption | apply keep_clearStatus

theorem keep_execEvtStatusClear (x1 : Nat) (x2 : Src) (x3 : Nat) (x4 : Nat) {b c : State} (e : execEvtStatusClear x1 x2 x3 x4 b = .next c) (h : Keep p a b) : Keep p a c := by
  unfold execEvtStatusClear at e
  replace e := Host.Outcome.next.inj e
  subst e
  with_reducible repeat' first
    | assumption | apply keep_answer | apply Keep.begin | apply keep_evtStatusOp | intro _ _

theorem keep_evtEnableOp (x1 : Nat) (x2 : Nat) (h : Keep p a b) : Keep p a (evtEnableOp x1 x2 b).1 := by
  unfold evtEnableOp
  with_reducible repeat' first
    | assumption | apply keep_writeEnable

theorem keep_execEvtEnableWrite (x1 : Nat) (x2 : Src) (x3 : Nat) (x4 : Nat) {b c : State} (e : execEvtEnableWrite x1 x2 x3 x4 b = .next c) (h : Keep p a b) : Keep p a c := by
  unfold execEvtEnableWrite at e
  replace e := Host.Outcome.next.inj e
  subst e
  with_reducible repeat' first
    | assumption | apply keep_evtEnableOp | apply keep_answer | apply Keep.begin | intro _ _

theorem keep_evtSeverityOp (x1 : Nat) (x2 : Nat) (h : Keep p a b) : Keep p a (evtSeverityOp x1 x2 b).1 := by
  unfold evtSeverityOp
  with_reducible repeat' first
    | assumption | apply keep_writeSeverity | apply Keep.iteFst

theorem keep_execEvtSeverityWrite (x1 : Nat) (x2 : Src) (x3 : Nat) (x4 : Nat) {b c : State} (e : execEvtSeverityWrite x1 x2 x3 x4 b = .next c) (h : Keep p a b) : Keep p a c := by
  unfold execEvtSeverityWrite at e
  replace e := Host.Outcome.next.inj e
  subst e
  with_reducible repeat' first
    | assumption | apply keep_evtSeverityOp | apply keep_answer | apply Keep.begin | intro _ _

theorem keep_evtClearAllOp (h : Keep p a b) : Keep p a (evtClearAllOp b).1 := by
  unfold evtClearAllOp
  with_reducible repeat' first
    | assumption | apply keep_clearStatus

theorem keep_execEvtClearAll (x1 : Nat) (x2 : Src) {b c : State} (e : execEvtClearAll x1 x2 b = .next c) (h : Keep p a b) : Keep p a c := by
  unfold execEvtClearAll at e
  replace e := Host.Outcome.next.inj e
  subst e
  with_reducible repeat' first
    | assumption | apply keep_answer | apply keep_evtClearAllOp | apply Keep.begin

theorem keep_evtClearIdOp (x1 : Nat) (h : Keep p a b) : Keep p a (evtClearIdOp x1 b).1 := by
  unfold evtClearIdOp
  with_reducible repeat' first
    | assumption | apply keep_clearStatus | apply Keep.iteFst

theorem keep_execEvtClearId (x1 : Nat) (x2 : Src) (x3 : Nat) {b c : State} (e : execEvtClearId x1 x2 x3 b = .next c) (h : Keep p a b) : Keep p a c := by
  unfold execEvtClearId at e
  replace e := Host.Outcome.next.inj e
  subst e
  with_reducible repeat' first
    | assumption | apply keep_answer | apply keep_evtClearIdOp | apply Keep.begin | intro _ _

theorem keep_evtTestOp (x1 : Nat) (h : Keep p a b) : Keep p a (evtTestOp x1 b).1 := by
  unfold evtTestOp
  with_reducible repeat' first
    | assumption | apply keep_raiseN | apply Keep.iteFst

theorem keep_execEvtTest (x1 : Nat) (x2 : Src) (x3 : Nat) {b c : State} (e : execEvtTest x1 x2 x3 b = .next c) (h : Keep p a b) : Keep p a c := by
  unfold execEvtTest at e
  replace e := Host.Outcome.next.inj e
  subst e
  with_reducible repeat' first
    | assumption | apply keep_evtTestOp | apply keep_answer | apply Keep.begin | intro _ _

theorem keep_evtDefaultsOp (h : Keep p a b) : Keep p a (evtDefaultsOp b).1 := by
  unfold evtDefaultsOp
  with_reducible repeat' first
    | assumption | apply keep_eventDefaults

theorem keep_execEvtDefaults (x1 : Nat) (x2 : Src) {b c : State} (e : execEvtDefaults x1 x2 b = .next c) (h : Keep p a b) : Keep p a c := by
  unfold execEvtDefaults at e
  replace e := Host.Outcome.next.inj e
  subst e
  with_reducible repeat' first
    | assumption | apply keep_evtDefaultsOp | apply keep_answer | apply Keep.begin

theorem keep_execSafeMinLowExpiry (x1 : Nat) {b c : State} (e : execSafeMinLowExpiry x1 b = .next c) (h : Keep p a b) :
    Keep p a c := by
  unfold execSafeMinLowExpiry at e
  cases e
  have h := Keep.begin x1 h
  exact .ite h (keep_pins (fun k => k.latched) h)

/-! Transport.lean. -/

theorem keep_sendMessage (x1 : Requester) (x2 : Nat) (x3 : Nat) (x4 : List Nat) (h : Keep p a b) : Keep p a (sendMessage x1 x2 x3 x4 b) := by
  unfold sendMessage
  with_reducible repeat' first
    | assumption | apply keep_pushCtl | apply Keep.each | apply keep_emit | apply Keep.ite | intro _ _ _

theorem keep_setReasm (x1 : Nat) (x2 : Option Reasm) (h : Keep p a b) : Keep p a (State.setReasm b x1 x2) := by
  unfold State.setReasm
  extract_lets l1
  repeat' first
    | (with_reducible first
        | assumption)
    | (simp only [Keep.lit]; with_reducible refine Keep.asked rfl ?_)

theorem keep_takeSegment (x1 : Nat) (x2 : Bool) (x3 : Bool) (x4 : Nat) (x5 : Nat) (x6 : Nat) (x7 : List Nat) (h : Keep p a b) : Keep p a (takeSegment x1 x2 x3 x4 x5 x6 x7 b).2.2 := by
  unfold takeSegment
  extract_lets l1
  clear_value l1
  repeat' first
    | (with_reducible first
        | assumption | apply keep_setReasm)
    | split

theorem keep_reasmExpires (x1 : Nat) (h : Keep p a b) : Keep p a (reasmExpires x1 b) := by
  unfold reasmExpires
  repeat' first
    | (with_reducible first
        | assumption | apply keep_setReasm)
    | split

end Sys2Proof.Laws
end

