-- ==== Sys2Proof/Laws/KeepDap.lean ====
section
/-! SUPPORT. What Keep says of the operations of writes and DAP messages: one lemma for each. -/

namespace Sys2Proof.Laws

open Machine

variable {p : Prop} {a b : State}

/-! Writes.lean. -/

theorem keep_controlNil (v : Nat) (h : Keep p a b) : Keep p a (controlOp [] v b).1 := h

theorem keep_controlCons {n : Nat} {op : State → State × Nat} {l : List (Nat × (State → State × Nat))} {v : Nat}
    (k : Keep p a (op b).1) (h : Keep p a (controlOp l v b).1) : Keep p a (controlOp ((n, op) :: l) v b).1 := by
  unfold controlOp at h ⊢
  rw [List.find?_cons]
  split
  · rename_i o e
    split at e
    · cases e
      exact k
    · rw [e] at h
      exact h
  · rename_i e
    split at e
    · cases e
    · rw [e] at h
      exact h

theorem keep_keepValue (x1 : Nat) (x2 : Nat) (h : Keep p a b) : Keep p a (keepValue x1 x2 b).1 := by
  unfold keepValue
  extract_lets l1
  clear_value l1
  with_reducible repeat' first
    | assumption | apply keep_setReg | apply Keep.iteFst

theorem keep_keepThen (x1 : Nat) (x2 : Nat) (x3 : State → State) (k3 : ∀ (s : State), Keep p a s → Keep p a (x3 s)) (h : Keep p a b) : Keep p a (keepThen x1 x2 x3 b).1 := by
  unfold keepThen
  extract_lets l1
  have h1 : Keep p a l1.1 := by
    unfold l1
    with_reducible repeat' first
      | assumption | apply keep_keepValue
  clear_value l1
  with_reducible repeat' first
    | assumption | apply k3 | apply Keep.iteFst

theorem keep_keepRecords (x1 : Nat) (x2 : List Nat) (h : Keep p a b) : Keep p a (keepRecords x1 x2 b).1 := by
  unfold keepRecords
  with_reducible repeat' first
    | assumption | apply keep_setReg

theorem keep_pathEnableOp (x1 : Nat) (h : Keep p a b) : Keep p a (pathEnableOp x1 b).1 := by
  unfold pathEnableOp
  extract_lets l1
  clear_value l1
  with_reducible repeat' first
    | assumption | apply keep_keepThen | apply Keep.each | apply keep_pathUp | apply keep_pathDown | apply Keep.ite
    | intro _ _ _ | intro _ _

theorem keep_notifyEnableOp (x1 : Nat) (h : Keep p a b) : Keep p a (notifyEnableOp x1 b).1 := by
  unfold notifyEnableOp
  extract_lets l1
  clear_value l1
  with_reducible repeat' first
    | assumption | apply keep_keepThen | apply Keep.each | apply keep_pathUp | intro _ _

theorem keep_dapLockOp (x1 : Nat) (x2 : Nat) (h : Keep p a b) : Keep p a (dapLockOp x1 x2 b).1 := by
  unfold dapLockOp
  extract_lets l1 l2
  clear_value l1
  repeat' first
    | (with_reducible first
        | assumption | apply keep_setReg | apply keep_releaseLock | apply Keep.iteFst)
    | (simp only [Keep.lit]; with_reducible refine Keep.asked rfl ?_)

theorem keep_tamperEnableOp (x1 : Nat) (h : Keep p a b) : Keep p a (tamperEnableOp x1 b).1 := by
  unfold tamperEnableOp
  with_reducible repeat' first
    | assumption | apply keep_keepValue | apply Keep.iteFst

theorem keep_fsBufCmdOp (x1 : Nat) (h : Keep p a b) : Keep p a (fsBufCmdOp x1 b).1 := by
  unfold fsBufCmdOp
  repeat' first
    | (with_reducible first
        | assumption | apply keep_fsCancelQueuedOp | apply keep_fsFreeOp | apply keep_fsAllocOp
        | apply keep_bufResult)
    | split

theorem keep_thenWarm (x1 : State → State × Nat) (k1 : ∀ (s : State), Keep p a s → Keep p a (x1 s).1) (h : Keep p a b) : Keep p a (thenWarm x1 b).1 := by
  unfold thenWarm
  extract_lets l1
  have h1 : Keep p a l1.1 := by
    unfold l1
    with_reducible repeat' first
      | assumption | apply k1
  clear_value l1
  with_reducible repeat' first
    | assumption | apply keep_warmMet

theorem keep_domApplyWrite (x1 : Nat) (h : Keep p a b) : Keep p a (domApplyWrite x1 b).1 :=
  keep_domApplyOp _ _ (h.trans ⟨rfl, id, Nat.le_refl _, id, Nat.le_refl _, Nat.le_refl _, Nat.le_refl _, Nat.le_refl _, id,
    .inr (Nat.le_refl _), Nat.le_add_right _ _⟩)

theorem keep_chimeCmdOp (x1 : Nat) (h : Keep p a b) : Keep p a (chimeCmdOp x1 b).1 := by
  unfold chimeCmdOp
  extract_lets l1 l2
  clear_value l1
  have h2 : Keep p a l2.2 := by
    unfold l2
    with_reducible repeat' first
      | assumption | apply Keep.draw
  clear_value l2
  repeat' first
    | (with_reducible first
        | assumption | apply keep_chimeStartOp | apply keep_chimeStopAllOp | apply keep_chimeStopOp)
    | split

theorem keep_writeManagement (x1 : Src) (x2 : Nat) (x3 : Nat) (x4 : List Nat) (x5 : Bool) (h : Keep p a b) : Keep p a (writeManagement x1 x2 x3 x4 x5 b).1 := by
  unfold writeManagement
  extract_lets l1 l2
  clear_value l1 l2
  with_reducible repeat' first
    | assumption | apply keep_notifyEnableOp | apply keep_assetDeleteOp | apply keep_netApplyOp
    | apply keep_tamperEnableOp | apply keep_keepValue | apply keep_startFailedClearOp | apply keep_fwImageOp
    | apply keep_netRestartOp | apply keep_dapStatsClearOp | apply keep_cbNoteOp | apply keep_dapLockOp
    | apply keep_evtSeverityOp | apply keep_rstProcOp | apply keep_fwConfirmOp | apply keep_evtDefaultsOp
    | apply keep_pathEnableOp | apply keep_evtTestOp | apply keep_cbStatsClearOp | apply keep_canApplyOp
    | apply keep_assetWriteOp | apply keep_evtEnableOp | apply keep_rstSubsystemOp | apply keep_govClearFaultOp
    | apply keep_busStatsClearOp | apply keep_rstColdOp | apply keep_fwTrialOp | apply keep_controlNil
    | apply keep_controlCons | apply keep_rstProceedOp | apply keep_canLeaveOp | apply keep_fwRevertOp
    | apply keep_govApplyOp | apply keep_secUpdateOp | apply keep_pwrStatsClearOp | apply keep_evtClearAllOp
    | apply keep_evtClearIdOp | apply keep_rstWarmOp | apply keep_secChallengeOp | apply keep_windowWriteOp
    | apply keep_evtStatusOp | apply keep_govPauseOp | apply keep_secStatsClearOp | apply keep_lcRequestOp
    | apply keep_govResumeOp | apply Keep.iteFst

theorem keep_writeLink (x1 : Nat) (x2 : Nat) (h : Keep p a b) : Keep p a (writeLink x1 x2 b).1 := by
  unfold writeLink
  extract_lets l1 l2 l3
  clear_value l1 l2 l3
  with_reducible repeat' first
    | assumption | apply keep_phyApplyOp | apply keep_keepValue | apply keep_domClearHistoryOp
    | apply keep_refApplyOp | apply keep_phyWakeOp | apply keep_refClearCountsOp | apply keep_phyLoopStopOp
    | apply keep_dtDomainOp | apply keep_lnkCancelOp | apply keep_lnkClearOp | apply keep_lnkRateRequestOp
    | apply keep_controlNil | apply keep_controlCons | apply keep_phyRetrainOp | apply keep_refStatsClearOp
    | apply keep_domClearCountsOp | apply keep_lnkAnnounceOp | apply keep_phySweepOp | apply keep_phyLoopStartOp
    | apply keep_lnkRenegotiateOp | apply keep_lnkStatsClearOp | apply keep_phyLowPowerOp
    | apply keep_phyClearCountsOp | apply keep_domApplyWrite | apply keep_refRequalifyOp | apply keep_lnkApplyOp
    | apply Keep.iteFst

theorem keep_writeRoutes (x1 : Nat) (x2 : Nat) (x3 : List Nat) (x4 : Bool) (h : Keep p a b) : Keep p a (writeRoutes x1 x2 x3 x4 b).1 := by
  unfold writeRoutes
  with_reducible repeat' first
    | assumption | apply keep_takeCancelled | apply keep_keepValue | apply keep_keepThen | apply keep_keepRecords
    | apply keep_takeGroupOp | apply keep_takeStatsClearOp | apply keep_releaseUnnamed | apply keep_safeSetCommitOp
    | apply keep_fabStatsClearOp | apply keep_controlNil | apply keep_controlCons | apply keep_stvClearOp
    | apply keep_fabRestoreOp | apply keep_strCommitOp | apply Keep.iteFst

theorem keep_writeStore (x1 : Nat) (x2 : Nat) (x3 : List Nat) (x4 : Bool) (h : Keep p a b) : Keep p a (writeStore x1 x2 x3 x4 b).1 := by
  unfold writeStore
  extract_lets l1 l2 l3
  clear_value l1 l2 l3
  with_reducible repeat' first
    | assumption | apply keep_keepValue | apply keep_convDisableOp | apply keep_convEnableOp
    | apply keep_fsStatsClearOp | apply keep_thenWarm | apply keep_fsChRestoreOp | apply keep_fsWinRestartOp
    | apply keep_fsBufCmdOp | apply keep_fsWinTriggerOp | apply keep_convApplyOp | apply keep_controlNil
    | apply keep_controlCons | apply keep_fsPoolCommitOp | apply keep_fsChRetireOp | apply keep_convClearOp
    | apply keep_cmpRetestOp | apply keep_fsBufWriteOp | apply keep_fsWinCommitOp | apply keep_cmpClearOp
    | apply keep_fsWinReleaseOp | apply keep_convRetestOp | apply keep_cmpDisableOp | apply keep_cmpApplyOp
    | apply keep_cmpEnableOp | apply keep_fsChSweepOp | apply keep_cmpStatsClearOp | apply Keep.iteFst | intro _ _

theorem keep_writeOutput (x1 : Nat) (x2 : Nat) (x3 : List Nat) (x4 : Bool) (h : Keep p a b) : Keep p a (writeOutput x1 x2 x3 x4 b).1 := by
  unfold writeOutput
  extract_lets l1 l2 l3
  clear_value l1 l2 l3
  with_reducible repeat' first
    | assumption | apply keep_keepValue | apply keep_outDisableOp | apply keep_tdmResyncOp | apply keep_outRetestOp
    | apply keep_tdmClearOp | apply keep_audCommitOp | apply keep_audStatsClearOp | apply keep_outEnableOp
    | apply keep_audMuteOp | apply keep_controlNil | apply keep_controlCons | apply keep_soundDeleteOp
    | apply keep_rasterClearCountsOp | apply keep_chimeCmdOp | apply keep_soundWriteOp | apply keep_resetRegionsOp
    | apply keep_outClearOp | apply keep_chimeTableOp | apply keep_rasterClearLateOp | apply keep_outCommitOp
    | apply Keep.iteFst

theorem keep_writeEffect (x1 : Src) (x2 : Nat) (x3 : List Nat) (x4 : Bool) (h : Keep p a b) : Keep p a (writeEffect x1 x2 x3 x4 b).1 := by
  unfold writeEffect
  extract_lets l1
  clear_value l1
  with_reducible repeat' first
    | assumption | apply keep_writeRoutes | apply keep_writeStore | apply keep_writeManagement
    | apply keep_writeOutput | apply keep_writeLink | apply Keep.iteFst

theorem keep_writeEntry (x1 : Src) (x2 : Nat) (x3 : List Nat) (x4 : Bool) (h : Keep p a b) : Keep p a (writeEntry x1 x2 x3 x4 b).1 := by
  unfold writeEntry
  extract_lets l1 l2
  clear_value l1 l2
  repeat' first
    | (with_reducible first
        | assumption | apply keep_writeEffect | apply Keep.iteFst)
    | split

theorem keep_execRegisterWrite (x1 : Nat) (x2 : Src) (x3 : Nat) (x4 : Nat) (x5 : List Nat) {b c : State} (e : execRegisterWrite x1 x2 x3 x4 x5 b = .next c) (h : Keep p a b) : Keep p a c := by
  unfold execRegisterWrite at e
  extract_lets l1 l2 l3 l4 at e
  have h1 : Keep p a l1 := by
    unfold l1
    with_reducible repeat' first
      | assumption | apply Keep.begin
  clear_value l1 l2
  have h3 : Keep p a l3.2 := by
    unfold l3
    with_reducible repeat' first
      | assumption | apply Keep.draw | apply Keep.iteSnd
  clear_value l3
  have h4 : Keep p a l4.1 := by
    unfold l4
    with_reducible repeat' first
      | assumption | apply keep_writeEntry
  clear_value l4
  replace e := Host.Outcome.next.inj e
  subst e
  with_reducible repeat' first
    | assumption | apply keep_emit

theorem keep_execDapLockWrite (x1 : Nat) (x2 : Src) (x3 : Nat) {b c : State} (e : execDapLockWrite x1 x2 x3 b = .next c) (h : Keep p a b) : Keep p a c := by
  unfold execDapLockWrite at e
  replace e := Host.Outcome.next.inj e
  subst e
  with_reducible repeat' first
    | assumption | apply keep_dapLockOp | apply keep_answer | apply Keep.begin | intro _ _

theorem keep_execLockTimeoutExpired (x1 : Nat) {b c : State} (e : execLockTimeoutExpired x1 b = .next c) (h : Keep p a b) : Keep p a c := by
  unfold execLockTimeoutExpired at e
  extract_lets l1 at e
  have h1 : Keep p a l1 := by
    unfold l1
    with_reducible repeat' first
      | assumption | apply Keep.begin
  clear_value l1
  replace e := Host.Outcome.next.inj e
  subst e
  with_reducible repeat' first
    | assumption | apply keep_releaseLock | apply Keep.ite

theorem keep_execFsBufRead (x1 : Nat) (x2 : Requester) {b c : State} (e : execFsBufRead x1 x2 b = .next c) (h : Keep p a b) : Keep p a c := by
  unfold execFsBufRead at e
  extract_lets l1 at e
  have h1 : Keep p a l1 := by
    unfold l1
    with_reducible repeat' first
      | assumption | apply Keep.begin
  clear_value l1
  replace e := Host.Outcome.next.inj e
  subst e
  repeat' first
    | (with_reducible first
        | assumption | apply keep_emit)
    | split

/-! Dap.lean. -/

theorem keep_keepResponse (x1 : Requester) (x2 : Kept) (h : Keep p a b) : Keep p a (keepResponse x1 x2 b) := by
  unfold keepResponse
  extract_lets l1 l2 l3
  clear_value l1 l2
  repeat' first
    | (with_reducible first
        | assumption)
    | (simp only [Keep.lit]; with_reducible refine Keep.asked rfl ?_)

theorem keep_sendDap (x1 : Requester) (x2 : List Nat) (h : Keep p a b) : Keep p a (sendDap x1 x2 b) := by
  unfold sendDap
  with_reducible repeat' first
    | assumption | apply keep_sendMessage

theorem keep_respond (x1 : Requester) (x2 : Msg) (x3 : Proven) (x4 : Nat) (x5 : List Nat) (x6 : Bool) (h : Keep p a b) : Keep p a (respond x1 x2 x3 x4 x5 x6 b) := by
  unfold respond
  extract_lets l1 l2 l3 l4 l5 l6
  have h1 : Keep p a l1 := by
    unfold l1
    with_reducible repeat' first
      | assumption | apply keep_modPath | apply keep_count | apply Keep.ite
  clear_value l1 l2 l3
  have h5 : Keep p a l5.2 := by
    unfold l5
    repeat' first
      | (with_reducible first
          | assumption)
      | (simp only [Keep.lit]; with_reducible refine Keep.asked rfl ?_) | split
  clear_value l5 l6
  with_reducible repeat' first
    | assumption | apply keep_sendDap | apply keep_keepResponse

theorem keep_touchSession (x1 : Nat) (x2 : Session → Session) (h : Keep p a b) : Keep p a (touchSession x1 x2 b) := by
  unfold touchSession
  extract_lets l1
  repeat' first
    | (with_reducible first
        | assumption)
    | (simp only [Keep.lit]; with_reducible refine Keep.asked rfl ?_) | split

theorem keep_authenticate (x1 : Requester) (x2 : Msg) (h : Keep p a b) : Keep p a (authenticate x1 x2 b).2.2 := by
  unfold authenticate
  repeat' first
    | (with_reducible first
        | assumption | apply keep_touchSession)
    | split | dsimp only

theorem keep_readPart (x1 : Msg) (x2 : List Nat) (h : Keep p a b) : Keep p a (readPart x1 x2 b).state := by
  unfold readPart
  extract_lets l1
  clear_value l1
  repeat' first
    | (with_reducible first
        | assumption)
    | split

theorem keep_setSnap (x1 : Requester) (x2 : Option Snapshot) (h : Keep p a b) : Keep p a (setSnap x1 x2 b) := by
  unfold setSnap
  extract_lets l1
  repeat' first
    | (with_reducible first
        | assumption)
    | (simp only [Keep.lit]; with_reducible refine Keep.asked rfl ?_)

theorem keep_dapReadOp (x1 : Requester) (x2 : Msg) (x3 : Proven) (h : Keep p a b) : Keep p a (dapReadOp x1 x2 x3 b).state := by
  unfold dapReadOp
  extract_lets l1 l2 l3
  clear_value l1 l2
  have h3 : Keep p a l3.2.2 := by
    unfold l3
    with_reducible repeat' first
      | assumption | apply keep_entryBytes
  clear_value l3
  repeat' first
    | (with_reducible first
        | assumption | apply keep_readPart | apply keep_setSnap)
    | split

theorem keep_setStaged (x1 : Requester) (x2 : Option Staged) (h : Keep p a b) : Keep p a (setStaged x1 x2 b) := by
  unfold setStaged
  extract_lets l1
  repeat' first
    | (with_reducible first
        | assumption)
    | (simp only [Keep.lit]; with_reducible refine Keep.asked rfl ?_)

theorem keep_imageBegins (x1 : Nat) (h : Keep p a b) : Keep p a (imageBegins x1 b) := by
  unfold imageBegins
  extract_lets l1
  clear_value l1
  with_reducible repeat' first
    | assumption | apply keep_setReg | apply keep_setBank | apply Keep.ite

theorem keep_wholeWrite (x1 : Src) (x2 : Nat) (x3 : List Nat) (x4 : Bool) (h : Keep p a b) : Keep p a (wholeWrite x1 x2 x3 x4 b).state := by
  unfold wholeWrite
  extract_lets l1 l2 l3
  have h1 : Keep p a l1.1 := by
    unfold l1
    with_reducible repeat' first
      | assumption | apply keep_writeEntry
  clear_value l1 l2 l3
  with_reducible repeat' first
    | assumption | apply keep_setReg | apply keep_setBank | apply Keep.ite

theorem keep_stageMore (x1 : Src) (x2 : Msg) (x3 : Nat) (x4 : Nat) (x5 : Bool) (x6 : List Nat) (h : Keep p a b) : Keep p a (stageMore x1 x2 x3 x4 x5 x6 b).state := by
  unfold stageMore
  extract_lets l1 l2
  clear_value l1
  have h2 : Keep p a l2 := by
    unfold l2
    with_reducible repeat' first
      | assumption | apply keep_imageBegins | apply Keep.ite
  clear_value l2
  repeat' first
    | (with_reducible first
        | assumption | apply keep_setStaged | apply keep_wholeWrite | apply keep_endStaged)
    | split

theorem keep_dapWriteOp (x1 : Requester) (x2 : Msg) (x3 : Proven) (x4 : Bool) (h : Keep p a b) : Keep p a (dapWriteOp x1 x2 x3 x4 b).state := by
  unfold dapWriteOp
  extract_lets l1 l2 l3 l4 l5 l6
  clear_value l1 l2 l3 l4 l5 l6
  repeat' first
    | (with_reducible first
        | assumption | apply keep_stageMore | apply keep_wholeWrite | apply keep_endStaged)
    | split

theorem keep_dapAbortOp (x1 : Requester) (h : Keep p a b) : Keep p a (dapAbortOp x1 b).state := by
  unfold dapAbortOp
  with_reducible repeat' first
    | assumption | apply keep_endStaged

theorem keep_subscribe (x1 : Requester) (h : Keep p a b) : Keep p a (subscribe x1 b) := by
  unfold subscribe
  extract_lets l1 l2 l3
  clear_value l1 l2
  have h3 : ∀ (y0 : Nat) (s : State), Keep p a s → Keep p a (l3 y0 s) := by
    intro y0 s h
    unfold l3
    repeat' first
      | (with_reducible first
          | assumption)
      | (simp only [Keep.lit]; with_reducible refine Keep.asked rfl ?_)
  clear_value l3
  repeat' first
    | (with_reducible first
        | assumption | apply h3 | apply keep_setQueue)
    | split

theorem keep_dapHelloOp (x1 : Requester) (x2 : Msg) (h : Keep p a b) : Keep p a (dapHelloOp x1 x2 b).state := by
  unfold dapHelloOp
  extract_lets l1
  have h1 : Keep p a l1 := by
    unfold l1
    with_reducible repeat' first
      | assumption | apply keep_subscribe | apply Keep.ite
  clear_value l1
  with_reducible repeat' first
    | assumption

theorem keep_dapSaveOp (x1 : Requester) (x2 : Msg) (x3 : Proven) (h : Keep p a b) : Keep p a (dapSaveOp x1 x2 x3 b).state := by
  unfold dapSaveOp
  extract_lets l1 l2
  have h2 : Keep p a l2 := by
    unfold l2
    repeat' first
      | (with_reducible first
          | assumption)
      | (simp only [Keep.lit]; with_reducible refine Keep.asked rfl ?_)
  clear_value l2
  repeat' first
    | (with_reducible first
        | assumption | apply keep_setReg)
    | split

theorem keep_restoreDefaultsOp (x1 : Proven) (h : Keep p a b) : Keep p a (restoreDefaultsOp x1 b).state := by
  unfold restoreDefaultsOp
  extract_lets l1
  repeat' first
    | (with_reducible first
        | assumption)
    | (simp only [Keep.lit]; with_reducible refine Keep.asked rfl ?_) | split

theorem keep_setSession (x1 : Nat) (x2 : Session) (h : Keep p a b) : Keep p a (setSession x1 x2 b) := by
  unfold setSession
  extract_lets l1
  repeat' first
    | (with_reducible first
        | assumption)
    | (simp only [Keep.lit]; with_reducible refine Keep.asked rfl ?_)

theorem keep_sessionOpenOp (x1 : Requester) (x2 : Msg) (h : Keep p a b) : Keep p a (sessionOpenOp x1 x2 b).state := by
  unfold sessionOpenOp
  extract_lets l1 l2 l3 l4
  clear_value l1 l2 l3
  have h4 : Keep p a l4.2 := by
    unfold l4
    with_reducible repeat' first
      | assumption | apply Keep.drawBytes
  clear_value l4
  repeat' first
    | (with_reducible first
        | assumption | apply keep_setSession)
    | split

theorem keep_proofFails (x1 : Nat) (x2 : Nat) (h : Keep p a b) : Keep p a (proofFails x1 x2 b) := by
  unfold proofFails
  extract_lets l1 l2 l3
  clear_value l1 l2
  have h3 : Keep p a l3 := by
    unfold l3
    with_reducible repeat' first
      | assumption | apply keep_modPath
  clear_value l3
  with_reducible repeat' first
    | assumption | apply keep_raise

theorem keep_sessionProveOp (x1 : Requester) (x2 : Msg) (h : Keep p a b) : Keep p a (sessionProveOp x1 x2 b).state := by
  unfold sessionProveOp
  extract_lets l1
  clear_value l1
  repeat' first
    | (with_reducible first
        | assumption | apply keep_endSession | apply keep_setSession | apply keep_proofFails | apply keep_useSlot)
    | split

theorem keep_sessionCloseOp (x1 : Requester) (x2 : Msg) (h : Keep p a b) : Keep p a (sessionCloseOp x1 x2 b).state := by
  unfold sessionCloseOp
  extract_lets l1
  clear_value l1
  repeat' first
    | (with_reducible first
        | assumption | apply keep_endSession)
    | split

theorem keep_dapAct (x1 : Requester) (x2 : Msg) (x3 : Proven) (x4 : Bool) (h : Keep p a b) : Keep p a (dapAct x1 x2 x3 x4 b).state := by
  unfold dapAct
  repeat' first
    | (with_reducible first
        | assumption | apply keep_sessionOpenOp | apply keep_dapAbortOp | apply keep_dapSaveOp
        | apply keep_sessionCloseOp | apply keep_restoreDefaultsOp | apply keep_dapHelloOp | apply keep_dapReadOp
        | apply keep_dapWriteOp | apply keep_sessionProveOp)
    | split

theorem keep_dapExecute (x1 : Requester) (x2 : Msg) (x3 : Proven → State → Reply)
    (k3 : ∀ (y : Proven) (s : State), Keep p a s → Keep p a (x3 y s).state) (h : Keep p a b) :
    Keep p a (dapExecute x1 x2 x3 b) := by
  unfold dapExecute
  extract_lets l1 l2 l3 l4
  have h1 : Keep p a l1 := by
    unfold l1
    split
    · exact .ite (keep_touchSession _ _ h) h
    · exact h
  have h3 : Keep p a l3.2.2 := keep_authenticate _ _ h
  have h4 : Keep p a l4.state := k3 _ _ h3
  clear_value l1 l2 l3 l4
  split
  · exact keep_sendDap _ _ h1
  · exact .ite (keep_respond _ _ _ _ _ _ h) (.ite (keep_respond _ _ _ _ _ _ h3) (.ite h4 (keep_respond _ _ _ _ _ _ h4)))

theorem keep_runWaiting (x1 : Nat) (h : Keep p a b) : Keep p a (runWaiting x1 b) := by
  induction x1 generalizing b with
  | zero => exact h
  | succ n ih =>
    unfold runWaiting
    split
    · exact h
    · exact ih (keep_dapExecute _ _ _ (fun _ _ => keep_dapAct _ _ _ _) (h.like rfl))

theorem keep_dapMessage (x1 : Requester) (x2 : Msg) (x3 : Bool) (x4 : Proven → State → Reply) (k4 : ∀ (y : Proven) (s : State), Keep p a s → Keep p a (x4 y s).state) (h : Keep p a b) : Keep p a (dapMessage x1 x2 x3 x4 b) := by
  unfold dapMessage
  extract_lets l1 l2 l3 l4 l5 l6
  have h1 : Keep p a l1 := by
    unfold l1
    with_reducible repeat' first
      | assumption | apply keep_modPath
  clear_value l1
  have h3 : Keep p a l3 := by
    unfold l3
    repeat' first
      | (with_reducible first
          | assumption | apply Keep.ite)
      | (simp only [Keep.lit]; with_reducible refine Keep.asked rfl ?_)
  clear_value l3
  have h4 : Keep p a l4 := by
    unfold l4
    with_reducible repeat' first
      | assumption | apply keep_runWaiting | apply Keep.ite
  clear_value l4 l5
  repeat' first
    | (with_reducible first
        | assumption | apply keep_dapExecute | apply keep_respond | apply Keep.ite)
    | (simp only [Keep.lit]; with_reducible refine Keep.asked rfl ?_)

theorem keep_dapArrives (x1 : Requester) (x2 : Msg) (x3 : Bool) (h : Keep p a b) : Keep p a (dapArrives x1 x2 x3 b) := by
  unfold dapArrives
  with_reducible repeat' first
    | assumption | apply keep_dapAct | apply keep_dapMessage | intro _ _ _

/-! DapCmds.lean. -/

theorem keep_execDapRead (x1 : Nat) (x2 : Requester) (x3 : Msg) {b c : State} (e : execDapRead x1 x2 x3 b = .next c) (h : Keep p a b) : Keep p a c := by
  unfold execDapRead at e
  replace e := Host.Outcome.next.inj e
  subst e
  with_reducible repeat' first
    | assumption | apply keep_dapMessage | apply keep_dapReadOp | apply Keep.begin | intro _ _ _

theorem keep_execDapWrite (x1 : Nat) (x2 : Requester) (x3 : Msg) (x4 : Bool) {b c : State} (e : execDapWrite x1 x2 x3 x4 b = .next c) (h : Keep p a b) : Keep p a c := by
  unfold execDapWrite at e
  replace e := Host.Outcome.next.inj e
  subst e
  with_reducible repeat' first
    | assumption | apply keep_dapMessage | apply Keep.begin | apply keep_dapWriteOp | intro _ _ _

theorem keep_execDapHello (x1 : Nat) (x2 : Requester) (x3 : Msg) {b c : State} (e : execDapHello x1 x2 x3 b = .next c) (h : Keep p a b) : Keep p a c := by
  unfold execDapHello at e
  replace e := Host.Outcome.next.inj e
  subst e
  with_reducible repeat' first
    | assumption | apply keep_dapMessage | apply keep_dapHelloOp | apply Keep.begin | intro _ _ _

theorem keep_execDapSave (x1 : Nat) (x2 : Requester) (x3 : Msg) {b c : State} (e : execDapSave x1 x2 x3 b = .next c) (h : Keep p a b) : Keep p a c := by
  unfold execDapSave at e
  replace e := Host.Outcome.next.inj e
  subst e
  with_reducible repeat' first
    | assumption | apply keep_dapMessage | apply keep_dapSaveOp | apply Keep.begin | intro _ _ _

theorem keep_execRestoreDefaults (x1 : Nat) (x2 : Requester) (x3 : Msg) {b c : State} (e : execRestoreDefaults x1 x2 x3 b = .next c) (h : Keep p a b) : Keep p a c := by
  unfold execRestoreDefaults at e
  replace e := Host.Outcome.next.inj e
  subst e
  with_reducible repeat' first
    | assumption | apply keep_dapMessage | apply keep_restoreDefaultsOp | apply Keep.begin | intro _ _ _

theorem keep_execSessionOpen (x1 : Nat) (x2 : Requester) (x3 : Msg) {b c : State} (e : execSessionOpen x1 x2 x3 b = .next c) (h : Keep p a b) : Keep p a c := by
  unfold execSessionOpen at e
  replace e := Host.Outcome.next.inj e
  subst e
  with_reducible repeat' first
    | assumption | apply keep_dapMessage | apply keep_sessionOpenOp | apply Keep.begin | intro _ _ _

theorem keep_execSessionProve (x1 : Nat) (x2 : Requester) (x3 : Msg) {b c : State} (e : execSessionProve x1 x2 x3 b = .next c) (h : Keep p a b) : Keep p a c := by
  unfold execSessionProve at e
  replace e := Host.Outcome.next.inj e
  subst e
  with_reducible repeat' first
    | assumption | apply keep_dapMessage | apply Keep.begin | apply keep_sessionProveOp | intro _ _ _

theorem keep_execSessionClose (x1 : Nat) (x2 : Requester) (x3 : Msg) {b c : State} (e : execSessionClose x1 x2 x3 b = .next c) (h : Keep p a b) : Keep p a c := by
  unfold execSessionClose at e
  replace e := Host.Outcome.next.inj e
  subst e
  with_reducible repeat' first
    | assumption | apply keep_dapMessage | apply keep_sessionCloseOp | apply Keep.begin | intro _ _ _

theorem keep_execDapAbort (x1 : Nat) (x2 : Requester) (x3 : Msg) {b c : State} (e : execDapAbort x1 x2 x3 b = .next c) (h : Keep p a b) : Keep p a c := by
  unfold execDapAbort at e
  replace e := Host.Outcome.next.inj e
  subst e
  with_reducible repeat' first
    | assumption | apply keep_dapMessage | apply keep_dapAbortOp | apply Keep.begin | intro _ _ _

theorem keep_execSaveCommitWord (x1 : Nat) (x2 : Bool) {b c : State} (e : execSaveCommitWord x1 x2 b = .next c) (h : Keep p a b) : Keep p a c := by
  unfold execSaveCommitWord at e
  extract_lets l1 l2 at e
  have h1 : Keep p a l1 := by
    unfold l1
    with_reducible repeat' first
      | assumption | apply Keep.begin
  clear_value l1
  replace e := Host.Outcome.next.inj e
  subst e
  repeat' first
    | (with_reducible first
        | assumption | apply keep_setReg | apply keep_runWaiting | apply keep_respond | apply keep_saveStands)
    | (simp only [Keep.lit]; with_reducible refine Keep.asked rfl ?_) | split

theorem keep_execStagedWriteTimeout (x1 : Nat) (x2 : Requester) {b c : State} (e : execStagedWriteTimeout x1 x2 b = .next c) (h : Keep p a b) : Keep p a c := by
  unfold execStagedWriteTimeout at e
  extract_lets l1 at e
  have h1 : Keep p a l1 := by
    unfold l1
    with_reducible repeat' first
      | assumption | apply Keep.begin
  clear_value l1
  replace e := Host.Outcome.next.inj e
  subst e
  repeat' first
    | (with_reducible first
        | assumption | apply keep_endStaged)
    | split

theorem keep_execSessionIdleTimeout (x1 : Nat) (x2 : Nat) {b c : State} (e : execSessionIdleTimeout x1 x2 b = .next c) (h : Keep p a b) : Keep p a c := by
  unfold execSessionIdleTimeout at e
  extract_lets l1 at e
  have h1 : Keep p a l1 := by
    unfold l1
    with_reducible repeat' first
      | assumption | apply Keep.begin
  clear_value l1
  replace e := Host.Outcome.next.inj e
  subst e
  repeat' first
    | (with_reducible first
        | assumption | apply keep_endSession)
    | split

theorem keep_execSnapshotDiscard (x1 : Nat) (x2 : Requester) {b c : State} (e : execSnapshotDiscard x1 x2 b = .next c) (h : Keep p a b) : Keep p a c := by
  unfold execSnapshotDiscard at e
  extract_lets l1 at e
  have h1 : Keep p a l1 := by
    unfold l1
    with_reducible repeat' first
      | assumption | apply Keep.begin
  clear_value l1
  replace e := Host.Outcome.next.inj e
  subst e
  repeat' first
    | (with_reducible first
        | assumption | apply keep_setSnap)
    | split

theorem keep_execKeptResponseExpiry (x1 : Nat) (x2 : Requester) {b c : State} (e : execKeptResponseExpiry x1 x2 b = .next c) (h : Keep p a b) : Keep p a c := by
  unfold execKeptResponseExpiry at e
  extract_lets l1 l2 l3 at e
  have h1 : Keep p a l1 := by
    unfold l1
    with_reducible repeat' first
      | assumption | apply Keep.begin
  clear_value l1 l2
  replace e := Host.Outcome.next.inj e
  subst e
  repeat' first
    | (with_reducible first
        | assumption)
    | (simp only [Keep.lit]; with_reducible refine Keep.asked rfl ?_)

theorem keep_execProofLockoutEnd (x1 : Nat) (x2 : Nat) {b c : State} (e : execProofLockoutEnd x1 x2 b = .next c) (h : Keep p a b) : Keep p a c := by
  unfold execProofLockoutEnd at e
  extract_lets l1 at e
  have h1 : Keep p a l1 := by
    unfold l1
    with_reducible repeat' first
      | assumption | apply Keep.begin
  clear_value l1
  replace e := Host.Outcome.next.inj e
  subst e
  repeat' first
    | (with_reducible first
        | assumption | apply keep_modPath)
    | split

theorem keep_execSubscriptionExpiry (x1 : Nat) (x2 : Nat) {b c : State} (e : execSubscriptionExpiry x1 x2 b = .next c) (h : Keep p a b) : Keep p a c := by
  unfold execSubscriptionExpiry at e
  extract_lets l1 l2 at e
  have h1 : Keep p a l1 := by
    unfold l1
    with_reducible repeat' first
      | assumption | apply Keep.begin
  clear_value l1
  replace e := Host.Outcome.next.inj e
  subst e
  repeat' first
    | (with_reducible first
        | assumption | apply keep_setQueue)
    | (simp only [Keep.lit]; with_reducible refine Keep.asked rfl ?_) | split

theorem keep_execNotifySend (x1 : Nat) (x2 : Requester) (x3 : Nat) {b c : State} (e : execNotifySend x1 x2 x3 b = .next c) (h : Keep p a b) : Keep p a c := by
  unfold execNotifySend at e
  extract_lets l1 l2 l3 l4 l5 l6 l7 l8 l9 at e
  have h1 : Keep p a l1 := by
    unfold l1
    with_reducible repeat' first
      | assumption | apply Keep.begin
  clear_value l1 l2 l3 l4
  have h5 : Keep p a l5.2 := by
    unfold l5
    with_reducible repeat' first
      | assumption | apply Keep.draw
  clear_value l5 l6 l7 l8 l9
  replace e := Host.Outcome.next.inj e
  subst e
  with_reducible repeat' first
    | assumption | apply keep_setQueue | apply keep_sendMessage | apply Keep.ite

theorem keep_canCounted (x1 : Nat) (h : Keep p a b) : Keep p a (canCounted x1 b) := by
  unfold canCounted
  extract_lets l1
  clear_value l1
  with_reducible repeat' first
    | assumption | apply keep_setCan

theorem keep_execCanSegment (x1 : Nat) (x2 : Nat) (x3 : CanFrame) (x4 : Bool) {b c : State} (e : execCanSegment x1 x2 x3 x4 b = .next c) (h : Keep p a b) : Keep p a c := by
  unfold execCanSegment at e
  extract_lets l1 l2 l3 l4 l5 l6 l7 l8 l9 at e
  have h1 : Keep p a l1 := by
    unfold l1
    with_reducible repeat' first
      | assumption | apply Keep.begin
  clear_value l1 l2 l3
  have h4 : Keep p a l4 := by
    unfold l4
    with_reducible repeat' first
      | assumption | apply keep_canCounted
  clear_value l4 l5
  have h6 : Keep p a l6.2.2 := by
    unfold l6
    with_reducible repeat' first
      | assumption | apply keep_takeSegment
  clear_value l6
  have h7 : Keep p a l7 := by
    unfold l7
    with_reducible repeat' first
      | assumption
  clear_value l7
  have h9 : Keep p a l9 := by
    unfold l9
    repeat' first
      | (with_reducible first
          | assumption)
      | (simp only [Keep.lit]; with_reducible refine Keep.asked rfl ?_)
  clear_value l9
  replace e := Host.Outcome.next.inj e
  subst e
  repeat' first
    | (with_reducible first
        | assumption | apply keep_dapArrives | apply keep_count)
    | split

theorem keep_execCanReassemblyAbort (x1 : Nat) (x2 : Nat) (x3 : CanFrame) {b c : State} (e : execCanReassemblyAbort x1 x2 x3 b = .next c) (h : Keep p a b) : Keep p a c := by
  unfold execCanReassemblyAbort at e
  extract_lets l1 at e
  have h1 : Keep p a l1 := by
    unfold l1
    with_reducible repeat' first
      | assumption | apply Keep.begin
  clear_value l1
  replace e := Host.Outcome.next.inj e
  subst e
  with_reducible repeat' first
    | assumption | apply keep_canCounted | apply keep_setReasm | apply Keep.ite

theorem keep_execCanReassemblyTimeout (x1 : Nat) (x2 : Nat) (x3 : Nat) {b c : State} (e : execCanReassemblyTimeout x1 x2 x3 b = .next c) (h : Keep p a b) : Keep p a c := by
  unfold execCanReassemblyTimeout at e
  replace e := Host.Outcome.next.inj e
  subst e
  with_reducible repeat' first
    | assumption | apply keep_reasmExpires | apply Keep.begin

theorem keep_execNetDatagram (x1 : Nat) (x2 : Requester) (x3 : List Nat) (x4 : Bool) {b c : State} (e : execNetDatagram x1 x2 x3 x4 b = .next c) (h : Keep p a b) : Keep p a c := by
  unfold execNetDatagram at e
  extract_lets l1 l2 l3 l4 l5 l6 l7 l8 at e
  have h1 : Keep p a l1 := by
    unfold l1
    with_reducible repeat' first
      | assumption | apply Keep.begin
  clear_value l1
  have h3 : Keep p a l3 := by
    unfold l3
    repeat' first
      | (with_reducible first
          | assumption)
      | (simp only [Keep.lit]; with_reducible refine Keep.asked rfl ?_)
  clear_value l3 l4
  have h5 : Keep p a l5.2.2 := by
    unfold l5
    with_reducible repeat' first
      | assumption | apply keep_takeSegment
  clear_value l5
  have h6 : Keep p a l6 := by
    unfold l6
    with_reducible repeat' first
      | assumption | apply keep_count | apply Keep.ite
  clear_value l6
  have h8 : Keep p a l8 := by
    unfold l8
    repeat' first
      | (with_reducible first
          | assumption)
      | (simp only [Keep.lit]; with_reducible refine Keep.asked rfl ?_)
  clear_value l8
  replace e := Host.Outcome.next.inj e
  subst e
  repeat' first
    | (with_reducible first
        | assumption | apply keep_dapArrives | apply keep_count | apply keep_setReasm)
    | split

theorem keep_execNetReassemblyTimeout (x1 : Nat) (x2 : Requester) {b c : State} (e : execNetReassemblyTimeout x1 x2 b = .next c) (h : Keep p a b) : Keep p a c := by
  unfold execNetReassemblyTimeout at e
  replace e := Host.Outcome.next.inj e
  subst e
  with_reducible repeat' first
    | assumption | apply keep_reasmExpires | apply Keep.begin

theorem keep_dapFolio (x1 : Nat) (x2 : Nat) (x3 : Bool) (h : Keep p a b) : Keep p a (dapFolio x1 x2 x3 b) := by
  unfold dapFolio
  extract_lets l1 l2 l3
  clear_value l1 l2
  have h3 : Keep p a l3.2.2 := by
    unfold l3
    with_reducible repeat' first
      | assumption | apply keep_takeSegment
  clear_value l3
  repeat' first
    | (with_reducible first
        | assumption | apply keep_dapArrives | apply keep_setReasm)
    | split

theorem keep_execLaneDapSegment (x1 : Nat) (x2 : Nat) (x3 : Nat) (x4 : Bool) {b c : State} (e : execLaneDapSegment x1 x2 x3 x4 b = .next c) (h : Keep p a b) : Keep p a c := by
  unfold execLaneDapSegment at e
  replace e := Host.Outcome.next.inj e
  subst e
  with_reducible repeat' first
    | assumption | apply keep_dapFolio | apply Keep.begin | apply keep_received | intro _ _

end Sys2Proof.Laws
end

