-- ==== Sys2Proof/Laws/Keys.lean ====
section
/-! SUPPORT. What a slot of the key store holds after a write: the shares come to the key under any mask drawn (R520). -/

namespace Sys2Proof.Laws

open Machine

theorem xorBytes_mask (key m : List Nat) (h : m.length = key.length) : xorBytes (xorBytes key m) m = key := by
  induction key generalizing m with
  | nil => simp [xorBytes]
  | cons k key ih =>
    cases m with
    | nil => simp at h
    | cons x m =>
      have t : xorBytes (xorBytes key m) m = key := ih m (by simpa using h)
      simp only [xorBytes, List.zipWith_cons_cons, Nat.xor_assoc, Nat.xor_self, Nat.xor_zero, List.cons.injEq, true_and]
      exact t

/-- The shares of a key come to that key, whichever mask is drawn. -/
@[simp] theorem slot_sharesOf (n : Nat) (key : List Nat) (attr label : Nat) : (sharesOf n key attr label).slot = ⟨key, attr, label⟩ := by
  simp [sharesOf, KeyCells.slot, xorBytes_mask]

/-- A slot reads as it was written. -/
theorem keySlot_setKeySlot (s : State) (n : Nat) (v : KeySlot) (h : twf (fun _ => ({} : KeyCells)) s.nvm.keys.slots = true) :
    (s.setKeySlot n v).keySlot n = v := by
  simp only [twf, Bool.and_eq_true] at h
  simp only [State.keySlot, State.setKeySlot]
  rw [tget_tset_same _ _ _ _ h.1, slot_sharesOf]

end Sys2Proof.Laws
end

