-- ==== Sys2Proof/Laws/Raise.lean ====
section
/-! SUPPORT. What raising an event can change (R503): the event words, the casebook's queue, the NOTIFY queues, four counts,
the windows that a SAFE event triggers, and the chimes and ducking it starts. Everything else stays. -/

namespace Sys2Proof.Laws

open Machine

/-- A value set at one key is read at another as it was. -/
theorem tget_tset_other {α : Type} [DecidableEq α] (d : Nat → α) (m : Tbl α) (k j : Nat) (v : α) (h : j ≠ k) :
    tget d (tset d m k v) j = tget d m j := by
  induction m with
  | nil =>
    unfold tset
    split
    · rfl
    · simp [tget, Ne.symm h]
  | cons x r ih =>
    obtain ⟨i, w⟩ := x
    unfold tset
    split
    · split
      · rfl
      · simp [tget, Ne.symm h]
    · split
      · rename_i hk
        subst hk
        split
        · simp [tget, Ne.symm h]
        · simp [tget, Ne.symm h]
      · simp only [tget, ih]

/-- A value that is no default is read back. -/
theorem tget_tset_set {α : Type} [DecidableEq α] (d : Nat → α) (m : Tbl α) (k : Nat) (v : α) (h : v ≠ d k) :
    tget d (tset d m k v) k = v := by
  induction m with
  | nil => simp [tset, tget, h]
  | cons x r ih =>
    obtain ⟨j, w⟩ := x
    unfold tset
    split
    · simp [tget, h]
    · split
      · simp [tget, h]
      · rename_i hj
        simp only [tget, if_neg (Ne.symm hj), ih]

/-- The counts that a raise may change. -/
def raiseCounts : List Nat := [Reg.dapNotifyDropped, Reg.cbLost, Reg.chimeCount, Reg.chimeLastDt]

/-- From a to b only what a raise can change has changed. -/
structure Raised (a b : State) : Prop where
  rest : b = { a with
    evt := b.evt, cb := b.cb, regs := b.regs
    dap := { a.dap with queues := b.dap.queues }
    fs := { a.fs with wins := b.fs.wins }
    aud := { a.aud with chimes := b.aud.chimes, outs := b.aud.outs } }
  reg : ∀ k, k ∉ raiseCounts → b.reg k = a.reg k

theorem Raised.refl (a : State) : Raised a a := ⟨rfl, fun _ _ => rfl⟩

theorem Raised.trans {a b c : State} (h : Raised a b) (k : Raised b c) : Raised a c :=
  ⟨by rw [k.rest, h.rest], fun x hx => (k.reg x hx).trans (h.reg x hx)⟩

theorem Raised.ite {q : Prop} [Decidable q] {a b c : State} (h : Raised a b) (k : Raised a c) : Raised a (if q then b else c) := by
  split <;> assumption

theorem Raised.each {α : Type} {f : State → α → State} (h : ∀ s x, Raised s (f s x)) (l : List α) (s : State) :
    Raised s (s.each l f) := by
  unfold State.each
  induction l generalizing s with
  | nil => exact .refl s
  | cons x r ih => exact (h s x).trans (ih (f s x))

theorem Raised.setReg {k : Nat} (h : k ∈ raiseCounts) (s : State) (v : Nat) : Raised s (s.setReg k v) :=
  ⟨rfl, fun _ hx => tget_tset_other _ _ _ _ _ fun e => hx (e ▸ h)⟩

theorem Raised.count {k : Nat} (h : k ∈ raiseCounts) (s : State) (v : Nat) : Raised s (s.count k v) := .setReg h s _

theorem Raised.withCb {s b : State} {x : CbState} (h : Raised { s with cb := x } b) : Raised s b :=
  .trans (b := { s with cb := x }) ⟨rfl, fun _ _ => rfl⟩ h

theorem Raised.withEvt {s b : State} {x : EvtState} (h : Raised { s with evt := x } b) : Raised s b :=
  .trans (b := { s with evt := x }) ⟨rfl, fun _ _ => rfl⟩ h

theorem raised_latchEvent (id : Nat) (test : Bool) (s : State) : Raised s (latchEvent id test s) := ⟨rfl, fun _ _ => rfl⟩

theorem raised_notifyOne (r : NotifyRec) (s : State) (key : Nat) : Raised s (notifyOne r s key) := by
  unfold notifyOne
  dsimp only
  split
  · exact Raised.trans (b := s.setQueue key _) ⟨rfl, fun _ _ => rfl⟩ (Raised.setReg (by decide) _ _)
  · exact ⟨rfl, fun _ _ => rfl⟩

theorem raised_raiseCore (id : Nat) (items : List Nat) (test : Bool) (s : State) : Raised s (raiseCore id items test s) := by
  unfold raiseCore notifyAll
  exact (raised_latchEvent id test s).trans (.ite (Raised.each (fun s x => raised_notifyOne _ s x) _ _) (.refl _))

theorem raised_cbQueue (i : CbItem) (s : State) : Raised s (cbQueue i s) := by
  unfold cbQueue cbLose
  dsimp only
  split
  · exact ⟨rfl, fun _ _ => rfl⟩
  · refine Raised.trans ?_ (raised_raiseCore _ _ _ _)
    exact .withCb (.withCb (.count (by decide) _ _))

theorem raised_cbWrite (type : Nat) (body : List Nat) (s : State) : Raised s (cbWrite type body s) := raised_cbQueue _ s

theorem raised_eventRecord (id sev : Nat) (items : List Nat) (s : State) : Raised s (eventRecord id sev items s) := by
  unfold eventRecord
  refine .ite (.withCb (raised_cbQueue _ _)) ⟨rfl, fun _ _ => rfl⟩

theorem raised_recordRaise (id sev : Nat) (items : List Nat) (test : Bool) (mode : RecMode) (s : State) :
    Raised s (recordRaise id sev items test mode s) := by
  unfold recordRaise
  dsimp only
  split
  · exact raised_cbQueue _ s
  · split
    · exact raised_cbQueue _ s
    · exact raised_cbQueue _ s
    · split
      · exact raised_cbQueue _ s
      · split
        · exact raised_cbQueue _ s
        · split
          · exact raised_eventRecord _ _ _ s
          · exact .refl s

theorem raised_winTrigger (w : Nat) (s : State) : Raised s (winTrigger w s) := by
  unfold winTrigger
  dsimp only
  split
  · exact ⟨rfl, fun _ _ => rfl⟩
  · exact .refl s

theorem raised_winOnSafe (s : State) : Raised s (winOnSafe s) := Raised.each (fun s w => raised_winTrigger w s) _ _

theorem raised_duckAll (g : Nat) (s : State) : Raised s (duckAll g s) := by
  unfold duckAll
  refine Raised.each (fun s x => ?_) _ _
  unfold duckChannel
  exact .ite ⟨rfl, fun _ _ => rfl⟩ (.refl s)

theorem raised_chimeBegin (g : Nat) (s : State) : Raised s (chimeBegin g s) := by
  unfold chimeBegin
  refine Raised.trans ?_ (raised_duckAll g _)
  refine Raised.trans ?_ (Raised.setReg (by decide) _ _)
  exact Raised.trans (b := s.setChime g _) ⟨rfl, fun _ _ => rfl⟩ (Raised.setReg (by decide) _ _)

theorem raised_raiseN (fuel id : Nat) (items : List Nat) (test : Bool) (mode : RecMode) (s : State) :
    Raised s (raiseN fuel id items test mode s) := by
  induction fuel generalizing id items test mode s with
  | zero => exact .refl s
  | succ n ih =>
    unfold raiseN
    dsimp only
    have h := (raised_raiseCore id items test s).trans (raised_recordRaise id (s.severityOf id) items test mode _)
    refine Raised.trans ?_ (Raised.each (fun s g => (raised_chimeBegin g s).trans (ih _ _ _ _ _)) _ _)
    split
    · exact h.trans (raised_winOnSafe _)
    · exact h

/-- An event raised changes only what R503 and the rules of its record, windows and chimes name. -/
theorem raised_raise (s : State) (id : Nat) (items : List Nat) : Raised s (s.raise id items) := raised_raiseN _ _ _ _ _ s

theorem raised_raiseAs (s : State) (id : Nat) (items : List Nat) (mode : RecMode) : Raised s (s.raiseAs id items mode) :=
  raised_raiseN _ _ _ _ _ s

theorem raised_raiseLimited (s : State) (period id : Nat) (items : List Nat) : Raised s (s.raiseLimited period id items) := by
  unfold State.raiseLimited
  refine .ite (.withEvt (raised_raise _ _ _)) ⟨rfl, fun _ _ => rfl⟩

end Sys2Proof.Laws
end

