-- ==== Sys2Proof/Laws/State.lean ====
section
/-! SUPPORT. One lemma per field per update of the state, and what reading a table after a write of it answers. -/

namespace Sys2Proof.Laws

open Machine

@[simp] theorem begin_free (s : State) (t : Nat) : (s.begin t).free = s.free := rfl
@[simp] theorem begin_regs (s : State) (t : Nat) : (s.begin t).regs = s.regs := rfl
@[simp] theorem begin_inForce (s : State) (t : Nat) : (s.begin t).inForce = s.inForce := rfl
@[simp] theorem begin_evt (s : State) (t : Nat) : (s.begin t).evt = s.evt := rfl
@[simp] theorem begin_cb (s : State) (t : Nat) : (s.begin t).cb = s.cb := rfl
@[simp] theorem begin_sup (s : State) (t : Nat) : (s.begin t).sup = s.sup := rfl
@[simp] theorem begin_dap (s : State) (t : Nat) : (s.begin t).dap = s.dap := rfl
@[simp] theorem begin_aud (s : State) (t : Nat) : (s.begin t).aud = s.aud := rfl
@[simp] theorem begin_phy (s : State) (t : Nat) : (s.begin t).phy = s.phy := rfl
@[simp] theorem begin_lnk (s : State) (t : Nat) : (s.begin t).lnk = s.lnk := rfl
@[simp] theorem begin_eps (s : State) (t : Nat) : (s.begin t).eps = s.eps := rfl
@[simp] theorem begin_str (s : State) (t : Nat) : (s.begin t).str = s.str := rfl
@[simp] theorem begin_fab (s : State) (t : Nat) : (s.begin t).fab = s.fab := rfl
@[simp] theorem begin_conv (s : State) (t : Nat) : (s.begin t).conv = s.conv := rfl
@[simp] theorem begin_cmp (s : State) (t : Nat) : (s.begin t).cmp = s.cmp := rfl
@[simp] theorem begin_comp (s : State) (t : Nat) : (s.begin t).comp = s.comp := rfl
@[simp] theorem begin_fs (s : State) (t : Nat) : (s.begin t).fs = s.fs := rfl
@[simp] theorem begin_clk (s : State) (t : Nat) : (s.begin t).clk = s.clk := rfl
@[simp] theorem begin_sec (s : State) (t : Nat) : (s.begin t).sec = s.sec := rfl
@[simp] theorem begin_start (s : State) (t : Nat) : (s.begin t).start = s.start := rfl
@[simp] theorem begin_pwr (s : State) (t : Nat) : (s.begin t).pwr = s.pwr := rfl
@[simp] theorem begin_nvm (s : State) (t : Nat) : (s.begin t).nvm = s.nvm := rfl
@[simp] theorem begin_pending (s : State) (t : Nat) : (s.begin t).pending = s.pending := rfl
@[simp] theorem begin_dt (s : State) (t : Nat) : (s.begin t).dt = max s.dt t := rfl
@[simp] theorem begin_out (s : State) (t : Nat) : (s.begin t).out = [] := rfl

@[simp] theorem emit_dt (s : State) (o : Output) : (s.emit o).dt = s.dt := rfl
@[simp] theorem emit_free (s : State) (o : Output) : (s.emit o).free = s.free := rfl
@[simp] theorem emit_regs (s : State) (o : Output) : (s.emit o).regs = s.regs := rfl
@[simp] theorem emit_inForce (s : State) (o : Output) : (s.emit o).inForce = s.inForce := rfl
@[simp] theorem emit_evt (s : State) (o : Output) : (s.emit o).evt = s.evt := rfl
@[simp] theorem emit_cb (s : State) (o : Output) : (s.emit o).cb = s.cb := rfl
@[simp] theorem emit_sup (s : State) (o : Output) : (s.emit o).sup = s.sup := rfl
@[simp] theorem emit_dap (s : State) (o : Output) : (s.emit o).dap = s.dap := rfl
@[simp] theorem emit_aud (s : State) (o : Output) : (s.emit o).aud = s.aud := rfl
@[simp] theorem emit_phy (s : State) (o : Output) : (s.emit o).phy = s.phy := rfl
@[simp] theorem emit_lnk (s : State) (o : Output) : (s.emit o).lnk = s.lnk := rfl
@[simp] theorem emit_eps (s : State) (o : Output) : (s.emit o).eps = s.eps := rfl
@[simp] theorem emit_str (s : State) (o : Output) : (s.emit o).str = s.str := rfl
@[simp] theorem emit_fab (s : State) (o : Output) : (s.emit o).fab = s.fab := rfl
@[simp] theorem emit_conv (s : State) (o : Output) : (s.emit o).conv = s.conv := rfl
@[simp] theorem emit_cmp (s : State) (o : Output) : (s.emit o).cmp = s.cmp := rfl
@[simp] theorem emit_comp (s : State) (o : Output) : (s.emit o).comp = s.comp := rfl
@[simp] theorem emit_fs (s : State) (o : Output) : (s.emit o).fs = s.fs := rfl
@[simp] theorem emit_clk (s : State) (o : Output) : (s.emit o).clk = s.clk := rfl
@[simp] theorem emit_sec (s : State) (o : Output) : (s.emit o).sec = s.sec := rfl
@[simp] theorem emit_start (s : State) (o : Output) : (s.emit o).start = s.start := rfl
@[simp] theorem emit_pwr (s : State) (o : Output) : (s.emit o).pwr = s.pwr := rfl
@[simp] theorem emit_nvm (s : State) (o : Output) : (s.emit o).nvm = s.nvm := rfl
@[simp] theorem emit_pending (s : State) (o : Output) : (s.emit o).pending = s.pending := rfl
@[simp] theorem emit_out (s : State) (o : Output) : (s.emit o).out = s.out ++ [o] := rfl

@[simp] theorem draw_dt (s : State) : (s.draw.2).dt = s.dt := rfl
@[simp] theorem draw_out (s : State) : (s.draw.2).out = s.out := rfl
@[simp] theorem draw_regs (s : State) : (s.draw.2).regs = s.regs := rfl
@[simp] theorem draw_inForce (s : State) : (s.draw.2).inForce = s.inForce := rfl
@[simp] theorem draw_evt (s : State) : (s.draw.2).evt = s.evt := rfl
@[simp] theorem draw_cb (s : State) : (s.draw.2).cb = s.cb := rfl
@[simp] theorem draw_sup (s : State) : (s.draw.2).sup = s.sup := rfl
@[simp] theorem draw_dap (s : State) : (s.draw.2).dap = s.dap := rfl
@[simp] theorem draw_aud (s : State) : (s.draw.2).aud = s.aud := rfl
@[simp] theorem draw_phy (s : State) : (s.draw.2).phy = s.phy := rfl
@[simp] theorem draw_lnk (s : State) : (s.draw.2).lnk = s.lnk := rfl
@[simp] theorem draw_eps (s : State) : (s.draw.2).eps = s.eps := rfl
@[simp] theorem draw_str (s : State) : (s.draw.2).str = s.str := rfl
@[simp] theorem draw_fab (s : State) : (s.draw.2).fab = s.fab := rfl
@[simp] theorem draw_conv (s : State) : (s.draw.2).conv = s.conv := rfl
@[simp] theorem draw_cmp (s : State) : (s.draw.2).cmp = s.cmp := rfl
@[simp] theorem draw_comp (s : State) : (s.draw.2).comp = s.comp := rfl
@[simp] theorem draw_fs (s : State) : (s.draw.2).fs = s.fs := rfl
@[simp] theorem draw_clk (s : State) : (s.draw.2).clk = s.clk := rfl
@[simp] theorem draw_sec (s : State) : (s.draw.2).sec = s.sec := rfl
@[simp] theorem draw_start (s : State) : (s.draw.2).start = s.start := rfl
@[simp] theorem draw_pwr (s : State) : (s.draw.2).pwr = s.pwr := rfl
@[simp] theorem draw_nvm (s : State) : (s.draw.2).nvm = s.nvm := rfl
@[simp] theorem draw_pending (s : State) : (s.draw.2).pending = s.pending := rfl
@[simp] theorem draw_free (s : State) : s.draw.2.free = s.free + 1 := rfl
@[simp] theorem draw_value (s : State) : s.draw.1 = Config.freeValue s.free := rfl

@[simp] theorem setReg_dt (s : State) (k v : Nat) : (s.setReg k v).dt = s.dt := rfl
@[simp] theorem setReg_out (s : State) (k v : Nat) : (s.setReg k v).out = s.out := rfl
@[simp] theorem setReg_free (s : State) (k v : Nat) : (s.setReg k v).free = s.free := rfl
@[simp] theorem setReg_inForce (s : State) (k v : Nat) : (s.setReg k v).inForce = s.inForce := rfl
@[simp] theorem setReg_evt (s : State) (k v : Nat) : (s.setReg k v).evt = s.evt := rfl
@[simp] theorem setReg_cb (s : State) (k v : Nat) : (s.setReg k v).cb = s.cb := rfl
@[simp] theorem setReg_sup (s : State) (k v : Nat) : (s.setReg k v).sup = s.sup := rfl
@[simp] theorem setReg_dap (s : State) (k v : Nat) : (s.setReg k v).dap = s.dap := rfl
@[simp] theorem setReg_aud (s : State) (k v : Nat) : (s.setReg k v).aud = s.aud := rfl
@[simp] theorem setReg_phy (s : State) (k v : Nat) : (s.setReg k v).phy = s.phy := rfl
@[simp] theorem setReg_lnk (s : State) (k v : Nat) : (s.setReg k v).lnk = s.lnk := rfl
@[simp] theorem setReg_eps (s : State) (k v : Nat) : (s.setReg k v).eps = s.eps := rfl
@[simp] theorem setReg_str (s : State) (k v : Nat) : (s.setReg k v).str = s.str := rfl
@[simp] theorem setReg_fab (s : State) (k v : Nat) : (s.setReg k v).fab = s.fab := rfl
@[simp] theorem setReg_conv (s : State) (k v : Nat) : (s.setReg k v).conv = s.conv := rfl
@[simp] theorem setReg_cmp (s : State) (k v : Nat) : (s.setReg k v).cmp = s.cmp := rfl
@[simp] theorem setReg_comp (s : State) (k v : Nat) : (s.setReg k v).comp = s.comp := rfl
@[simp] theorem setReg_fs (s : State) (k v : Nat) : (s.setReg k v).fs = s.fs := rfl
@[simp] theorem setReg_clk (s : State) (k v : Nat) : (s.setReg k v).clk = s.clk := rfl
@[simp] theorem setReg_sec (s : State) (k v : Nat) : (s.setReg k v).sec = s.sec := rfl
@[simp] theorem setReg_start (s : State) (k v : Nat) : (s.setReg k v).start = s.start := rfl
@[simp] theorem setReg_pwr (s : State) (k v : Nat) : (s.setReg k v).pwr = s.pwr := rfl
@[simp] theorem setReg_nvm (s : State) (k v : Nat) : (s.setReg k v).nvm = s.nvm := rfl
@[simp] theorem setReg_pending (s : State) (k v : Nat) : (s.setReg k v).pending = s.pending := rfl
@[simp] theorem setReg_regs (s : State) (k v : Nat) : (s.setReg k v).regs = tset entryDefault s.regs k v := rfl

@[simp] theorem setForce_dt (s : State) (k v : Nat) : (s.setForce k v).dt = s.dt := rfl
@[simp] theorem setForce_out (s : State) (k v : Nat) : (s.setForce k v).out = s.out := rfl
@[simp] theorem setForce_free (s : State) (k v : Nat) : (s.setForce k v).free = s.free := rfl
@[simp] theorem setForce_regs (s : State) (k v : Nat) : (s.setForce k v).regs = s.regs := rfl
@[simp] theorem setForce_evt (s : State) (k v : Nat) : (s.setForce k v).evt = s.evt := rfl
@[simp] theorem setForce_cb (s : State) (k v : Nat) : (s.setForce k v).cb = s.cb := rfl
@[simp] theorem setForce_sup (s : State) (k v : Nat) : (s.setForce k v).sup = s.sup := rfl
@[simp] theorem setForce_dap (s : State) (k v : Nat) : (s.setForce k v).dap = s.dap := rfl
@[simp] theorem setForce_aud (s : State) (k v : Nat) : (s.setForce k v).aud = s.aud := rfl
@[simp] theorem setForce_phy (s : State) (k v : Nat) : (s.setForce k v).phy = s.phy := rfl
@[simp] theorem setForce_lnk (s : State) (k v : Nat) : (s.setForce k v).lnk = s.lnk := rfl
@[simp] theorem setForce_eps (s : State) (k v : Nat) : (s.setForce k v).eps = s.eps := rfl
@[simp] theorem setForce_str (s : State) (k v : Nat) : (s.setForce k v).str = s.str := rfl
@[simp] theorem setForce_fab (s : State) (k v : Nat) : (s.setForce k v).fab = s.fab := rfl
@[simp] theorem setForce_conv (s : State) (k v : Nat) : (s.setForce k v).conv = s.conv := rfl
@[simp] theorem setForce_cmp (s : State) (k v : Nat) : (s.setForce k v).cmp = s.cmp := rfl
@[simp] theorem setForce_comp (s : State) (k v : Nat) : (s.setForce k v).comp = s.comp := rfl
@[simp] theorem setForce_fs (s : State) (k v : Nat) : (s.setForce k v).fs = s.fs := rfl
@[simp] theorem setForce_clk (s : State) (k v : Nat) : (s.setForce k v).clk = s.clk := rfl
@[simp] theorem setForce_sec (s : State) (k v : Nat) : (s.setForce k v).sec = s.sec := rfl
@[simp] theorem setForce_start (s : State) (k v : Nat) : (s.setForce k v).start = s.start := rfl
@[simp] theorem setForce_pwr (s : State) (k v : Nat) : (s.setForce k v).pwr = s.pwr := rfl
@[simp] theorem setForce_nvm (s : State) (k v : Nat) : (s.setForce k v).nvm = s.nvm := rfl
@[simp] theorem setForce_pending (s : State) (k v : Nat) : (s.setForce k v).pending = s.pending := rfl
@[simp] theorem setForce_inForce (s : State) (k v : Nat) : (s.setForce k v).inForce = tset entryDefault s.inForce k v := rfl

@[simp] theorem setLane_dt (s : State) (n : Nat) (l : PhyLane) : (s.setLane n l).dt = s.dt := rfl
@[simp] theorem setLane_out (s : State) (n : Nat) (l : PhyLane) : (s.setLane n l).out = s.out := rfl
@[simp] theorem setLane_free (s : State) (n : Nat) (l : PhyLane) : (s.setLane n l).free = s.free := rfl
@[simp] theorem setLane_regs (s : State) (n : Nat) (l : PhyLane) : (s.setLane n l).regs = s.regs := rfl
@[simp] theorem setLane_inForce (s : State) (n : Nat) (l : PhyLane) : (s.setLane n l).inForce = s.inForce := rfl
@[simp] theorem setLane_evt (s : State) (n : Nat) (l : PhyLane) : (s.setLane n l).evt = s.evt := rfl
@[simp] theorem setLane_cb (s : State) (n : Nat) (l : PhyLane) : (s.setLane n l).cb = s.cb := rfl
@[simp] theorem setLane_sup (s : State) (n : Nat) (l : PhyLane) : (s.setLane n l).sup = s.sup := rfl
@[simp] theorem setLane_dap (s : State) (n : Nat) (l : PhyLane) : (s.setLane n l).dap = s.dap := rfl
@[simp] theorem setLane_aud (s : State) (n : Nat) (l : PhyLane) : (s.setLane n l).aud = s.aud := rfl
@[simp] theorem setLane_lnk (s : State) (n : Nat) (l : PhyLane) : (s.setLane n l).lnk = s.lnk := rfl
@[simp] theorem setLane_eps (s : State) (n : Nat) (l : PhyLane) : (s.setLane n l).eps = s.eps := rfl
@[simp] theorem setLane_str (s : State) (n : Nat) (l : PhyLane) : (s.setLane n l).str = s.str := rfl
@[simp] theorem setLane_fab (s : State) (n : Nat) (l : PhyLane) : (s.setLane n l).fab = s.fab := rfl
@[simp] theorem setLane_conv (s : State) (n : Nat) (l : PhyLane) : (s.setLane n l).conv = s.conv := rfl
@[simp] theorem setLane_cmp (s : State) (n : Nat) (l : PhyLane) : (s.setLane n l).cmp = s.cmp := rfl
@[simp] theorem setLane_comp (s : State) (n : Nat) (l : PhyLane) : (s.setLane n l).comp = s.comp := rfl
@[simp] theorem setLane_fs (s : State) (n : Nat) (l : PhyLane) : (s.setLane n l).fs = s.fs := rfl
@[simp] theorem setLane_clk (s : State) (n : Nat) (l : PhyLane) : (s.setLane n l).clk = s.clk := rfl
@[simp] theorem setLane_sec (s : State) (n : Nat) (l : PhyLane) : (s.setLane n l).sec = s.sec := rfl
@[simp] theorem setLane_start (s : State) (n : Nat) (l : PhyLane) : (s.setLane n l).start = s.start := rfl
@[simp] theorem setLane_pwr (s : State) (n : Nat) (l : PhyLane) : (s.setLane n l).pwr = s.pwr := rfl
@[simp] theorem setLane_nvm (s : State) (n : Nat) (l : PhyLane) : (s.setLane n l).nvm = s.nvm := rfl
@[simp] theorem setLane_pending (s : State) (n : Nat) (l : PhyLane) : (s.setLane n l).pending = s.pending := rfl

@[simp] theorem setLink_dt (s : State) (n : Nat) (l : LinkLane) : (s.setLink n l).dt = s.dt := rfl
@[simp] theorem setLink_out (s : State) (n : Nat) (l : LinkLane) : (s.setLink n l).out = s.out := rfl
@[simp] theorem setLink_free (s : State) (n : Nat) (l : LinkLane) : (s.setLink n l).free = s.free := rfl
@[simp] theorem setLink_regs (s : State) (n : Nat) (l : LinkLane) : (s.setLink n l).regs = s.regs := rfl
@[simp] theorem setLink_inForce (s : State) (n : Nat) (l : LinkLane) : (s.setLink n l).inForce = s.inForce := rfl
@[simp] theorem setLink_evt (s : State) (n : Nat) (l : LinkLane) : (s.setLink n l).evt = s.evt := rfl
@[simp] theorem setLink_cb (s : State) (n : Nat) (l : LinkLane) : (s.setLink n l).cb = s.cb := rfl
@[simp] theorem setLink_sup (s : State) (n : Nat) (l : LinkLane) : (s.setLink n l).sup = s.sup := rfl
@[simp] theorem setLink_dap (s : State) (n : Nat) (l : LinkLane) : (s.setLink n l).dap = s.dap := rfl
@[simp] theorem setLink_aud (s : State) (n : Nat) (l : LinkLane) : (s.setLink n l).aud = s.aud := rfl
@[simp] theorem setLink_phy (s : State) (n : Nat) (l : LinkLane) : (s.setLink n l).phy = s.phy := rfl
@[simp] theorem setLink_eps (s : State) (n : Nat) (l : LinkLane) : (s.setLink n l).eps = s.eps := rfl
@[simp] theorem setLink_str (s : State) (n : Nat) (l : LinkLane) : (s.setLink n l).str = s.str := rfl
@[simp] theorem setLink_fab (s : State) (n : Nat) (l : LinkLane) : (s.setLink n l).fab = s.fab := rfl
@[simp] theorem setLink_conv (s : State) (n : Nat) (l : LinkLane) : (s.setLink n l).conv = s.conv := rfl
@[simp] theorem setLink_cmp (s : State) (n : Nat) (l : LinkLane) : (s.setLink n l).cmp = s.cmp := rfl
@[simp] theorem setLink_comp (s : State) (n : Nat) (l : LinkLane) : (s.setLink n l).comp = s.comp := rfl
@[simp] theorem setLink_fs (s : State) (n : Nat) (l : LinkLane) : (s.setLink n l).fs = s.fs := rfl
@[simp] theorem setLink_clk (s : State) (n : Nat) (l : LinkLane) : (s.setLink n l).clk = s.clk := rfl
@[simp] theorem setLink_sec (s : State) (n : Nat) (l : LinkLane) : (s.setLink n l).sec = s.sec := rfl
@[simp] theorem setLink_start (s : State) (n : Nat) (l : LinkLane) : (s.setLink n l).start = s.start := rfl
@[simp] theorem setLink_pwr (s : State) (n : Nat) (l : LinkLane) : (s.setLink n l).pwr = s.pwr := rfl
@[simp] theorem setLink_nvm (s : State) (n : Nat) (l : LinkLane) : (s.setLink n l).nvm = s.nvm := rfl
@[simp] theorem setLink_pending (s : State) (n : Nat) (l : LinkLane) : (s.setLink n l).pending = s.pending := rfl

@[simp] theorem setEndpoint_dt (s : State) (e : Nat) (v : Option Endpoint) : (s.setEndpoint e v).dt = s.dt := rfl
@[simp] theorem setEndpoint_out (s : State) (e : Nat) (v : Option Endpoint) : (s.setEndpoint e v).out = s.out := rfl
@[simp] theorem setEndpoint_free (s : State) (e : Nat) (v : Option Endpoint) : (s.setEndpoint e v).free = s.free := rfl
@[simp] theorem setEndpoint_regs (s : State) (e : Nat) (v : Option Endpoint) : (s.setEndpoint e v).regs = s.regs := rfl
@[simp] theorem setEndpoint_inForce (s : State) (e : Nat) (v : Option Endpoint) : (s.setEndpoint e v).inForce = s.inForce := rfl
@[simp] theorem setEndpoint_evt (s : State) (e : Nat) (v : Option Endpoint) : (s.setEndpoint e v).evt = s.evt := rfl
@[simp] theorem setEndpoint_cb (s : State) (e : Nat) (v : Option Endpoint) : (s.setEndpoint e v).cb = s.cb := rfl
@[simp] theorem setEndpoint_sup (s : State) (e : Nat) (v : Option Endpoint) : (s.setEndpoint e v).sup = s.sup := rfl
@[simp] theorem setEndpoint_dap (s : State) (e : Nat) (v : Option Endpoint) : (s.setEndpoint e v).dap = s.dap := rfl
@[simp] theorem setEndpoint_aud (s : State) (e : Nat) (v : Option Endpoint) : (s.setEndpoint e v).aud = s.aud := rfl
@[simp] theorem setEndpoint_phy (s : State) (e : Nat) (v : Option Endpoint) : (s.setEndpoint e v).phy = s.phy := rfl
@[simp] theorem setEndpoint_lnk (s : State) (e : Nat) (v : Option Endpoint) : (s.setEndpoint e v).lnk = s.lnk := rfl
@[simp] theorem setEndpoint_str (s : State) (e : Nat) (v : Option Endpoint) : (s.setEndpoint e v).str = s.str := rfl
@[simp] theorem setEndpoint_fab (s : State) (e : Nat) (v : Option Endpoint) : (s.setEndpoint e v).fab = s.fab := rfl
@[simp] theorem setEndpoint_conv (s : State) (e : Nat) (v : Option Endpoint) : (s.setEndpoint e v).conv = s.conv := rfl
@[simp] theorem setEndpoint_cmp (s : State) (e : Nat) (v : Option Endpoint) : (s.setEndpoint e v).cmp = s.cmp := rfl
@[simp] theorem setEndpoint_comp (s : State) (e : Nat) (v : Option Endpoint) : (s.setEndpoint e v).comp = s.comp := rfl
@[simp] theorem setEndpoint_fs (s : State) (e : Nat) (v : Option Endpoint) : (s.setEndpoint e v).fs = s.fs := rfl
@[simp] theorem setEndpoint_clk (s : State) (e : Nat) (v : Option Endpoint) : (s.setEndpoint e v).clk = s.clk := rfl
@[simp] theorem setEndpoint_sec (s : State) (e : Nat) (v : Option Endpoint) : (s.setEndpoint e v).sec = s.sec := rfl
@[simp] theorem setEndpoint_start (s : State) (e : Nat) (v : Option Endpoint) : (s.setEndpoint e v).start = s.start := rfl
@[simp] theorem setEndpoint_pwr (s : State) (e : Nat) (v : Option Endpoint) : (s.setEndpoint e v).pwr = s.pwr := rfl
@[simp] theorem setEndpoint_nvm (s : State) (e : Nat) (v : Option Endpoint) : (s.setEndpoint e v).nvm = s.nvm := rfl
@[simp] theorem setEndpoint_pending (s : State) (e : Nat) (v : Option Endpoint) : (s.setEndpoint e v).pending = s.pending := rfl

@[simp] theorem setBuf_dt (s : State) (k : Nat) (b : Buffer) : (s.setBuf k b).dt = s.dt := rfl
@[simp] theorem setBuf_out (s : State) (k : Nat) (b : Buffer) : (s.setBuf k b).out = s.out := rfl
@[simp] theorem setBuf_free (s : State) (k : Nat) (b : Buffer) : (s.setBuf k b).free = s.free := rfl
@[simp] theorem setBuf_regs (s : State) (k : Nat) (b : Buffer) : (s.setBuf k b).regs = s.regs := rfl
@[simp] theorem setBuf_inForce (s : State) (k : Nat) (b : Buffer) : (s.setBuf k b).inForce = s.inForce := rfl
@[simp] theorem setBuf_evt (s : State) (k : Nat) (b : Buffer) : (s.setBuf k b).evt = s.evt := rfl
@[simp] theorem setBuf_cb (s : State) (k : Nat) (b : Buffer) : (s.setBuf k b).cb = s.cb := rfl
@[simp] theorem setBuf_sup (s : State) (k : Nat) (b : Buffer) : (s.setBuf k b).sup = s.sup := rfl
@[simp] theorem setBuf_dap (s : State) (k : Nat) (b : Buffer) : (s.setBuf k b).dap = s.dap := rfl
@[simp] theorem setBuf_aud (s : State) (k : Nat) (b : Buffer) : (s.setBuf k b).aud = s.aud := rfl
@[simp] theorem setBuf_phy (s : State) (k : Nat) (b : Buffer) : (s.setBuf k b).phy = s.phy := rfl
@[simp] theorem setBuf_lnk (s : State) (k : Nat) (b : Buffer) : (s.setBuf k b).lnk = s.lnk := rfl
@[simp] theorem setBuf_eps (s : State) (k : Nat) (b : Buffer) : (s.setBuf k b).eps = s.eps := rfl
@[simp] theorem setBuf_str (s : State) (k : Nat) (b : Buffer) : (s.setBuf k b).str = s.str := rfl
@[simp] theorem setBuf_fab (s : State) (k : Nat) (b : Buffer) : (s.setBuf k b).fab = s.fab := rfl
@[simp] theorem setBuf_conv (s : State) (k : Nat) (b : Buffer) : (s.setBuf k b).conv = s.conv := rfl
@[simp] theorem setBuf_cmp (s : State) (k : Nat) (b : Buffer) : (s.setBuf k b).cmp = s.cmp := rfl
@[simp] theorem setBuf_comp (s : State) (k : Nat) (b : Buffer) : (s.setBuf k b).comp = s.comp := rfl
@[simp] theorem setBuf_clk (s : State) (k : Nat) (b : Buffer) : (s.setBuf k b).clk = s.clk := rfl
@[simp] theorem setBuf_sec (s : State) (k : Nat) (b : Buffer) : (s.setBuf k b).sec = s.sec := rfl
@[simp] theorem setBuf_start (s : State) (k : Nat) (b : Buffer) : (s.setBuf k b).start = s.start := rfl
@[simp] theorem setBuf_pwr (s : State) (k : Nat) (b : Buffer) : (s.setBuf k b).pwr = s.pwr := rfl
@[simp] theorem setBuf_nvm (s : State) (k : Nat) (b : Buffer) : (s.setBuf k b).nvm = s.nvm := rfl
@[simp] theorem setBuf_pending (s : State) (k : Nat) (b : Buffer) : (s.setBuf k b).pending = s.pending := rfl

@[simp] theorem setChan_dt (s : State) (k : Nat) (c : Chan) : (s.setChan k c).dt = s.dt := rfl
@[simp] theorem setChan_out (s : State) (k : Nat) (c : Chan) : (s.setChan k c).out = s.out := rfl
@[simp] theorem setChan_free (s : State) (k : Nat) (c : Chan) : (s.setChan k c).free = s.free := rfl
@[simp] theorem setChan_regs (s : State) (k : Nat) (c : Chan) : (s.setChan k c).regs = s.regs := rfl
@[simp] theorem setChan_inForce (s : State) (k : Nat) (c : Chan) : (s.setChan k c).inForce = s.inForce := rfl
@[simp] theorem setChan_evt (s : State) (k : Nat) (c : Chan) : (s.setChan k c).evt = s.evt := rfl
@[simp] theorem setChan_cb (s : State) (k : Nat) (c : Chan) : (s.setChan k c).cb = s.cb := rfl
@[simp] theorem setChan_sup (s : State) (k : Nat) (c : Chan) : (s.setChan k c).sup = s.sup := rfl
@[simp] theorem setChan_dap (s : State) (k : Nat) (c : Chan) : (s.setChan k c).dap = s.dap := rfl
@[simp] theorem setChan_aud (s : State) (k : Nat) (c : Chan) : (s.setChan k c).aud = s.aud := rfl
@[simp] theorem setChan_phy (s : State) (k : Nat) (c : Chan) : (s.setChan k c).phy = s.phy := rfl
@[simp] theorem setChan_lnk (s : State) (k : Nat) (c : Chan) : (s.setChan k c).lnk = s.lnk := rfl
@[simp] theorem setChan_eps (s : State) (k : Nat) (c : Chan) : (s.setChan k c).eps = s.eps := rfl
@[simp] theorem setChan_str (s : State) (k : Nat) (c : Chan) : (s.setChan k c).str = s.str := rfl
@[simp] theorem setChan_fab (s : State) (k : Nat) (c : Chan) : (s.setChan k c).fab = s.fab := rfl
@[simp] theorem setChan_conv (s : State) (k : Nat) (c : Chan) : (s.setChan k c).conv = s.conv := rfl
@[simp] theorem setChan_cmp (s : State) (k : Nat) (c : Chan) : (s.setChan k c).cmp = s.cmp := rfl
@[simp] theorem setChan_comp (s : State) (k : Nat) (c : Chan) : (s.setChan k c).comp = s.comp := rfl
@[simp] theorem setChan_clk (s : State) (k : Nat) (c : Chan) : (s.setChan k c).clk = s.clk := rfl
@[simp] theorem setChan_sec (s : State) (k : Nat) (c : Chan) : (s.setChan k c).sec = s.sec := rfl
@[simp] theorem setChan_start (s : State) (k : Nat) (c : Chan) : (s.setChan k c).start = s.start := rfl
@[simp] theorem setChan_pwr (s : State) (k : Nat) (c : Chan) : (s.setChan k c).pwr = s.pwr := rfl
@[simp] theorem setChan_nvm (s : State) (k : Nat) (c : Chan) : (s.setChan k c).nvm = s.nvm := rfl
@[simp] theorem setChan_pending (s : State) (k : Nat) (c : Chan) : (s.setChan k c).pending = s.pending := rfl

@[simp] theorem setWin_dt (s : State) (w : Nat) (v : Window) : (s.setWin w v).dt = s.dt := rfl
@[simp] theorem setWin_out (s : State) (w : Nat) (v : Window) : (s.setWin w v).out = s.out := rfl
@[simp] theorem setWin_free (s : State) (w : Nat) (v : Window) : (s.setWin w v).free = s.free := rfl
@[simp] theorem setWin_regs (s : State) (w : Nat) (v : Window) : (s.setWin w v).regs = s.regs := rfl
@[simp] theorem setWin_inForce (s : State) (w : Nat) (v : Window) : (s.setWin w v).inForce = s.inForce := rfl
@[simp] theorem setWin_evt (s : State) (w : Nat) (v : Window) : (s.setWin w v).evt = s.evt := rfl
@[simp] theorem setWin_cb (s : State) (w : Nat) (v : Window) : (s.setWin w v).cb = s.cb := rfl
@[simp] theorem setWin_sup (s : State) (w : Nat) (v : Window) : (s.setWin w v).sup = s.sup := rfl
@[simp] theorem setWin_dap (s : State) (w : Nat) (v : Window) : (s.setWin w v).dap = s.dap := rfl
@[simp] theorem setWin_aud (s : State) (w : Nat) (v : Window) : (s.setWin w v).aud = s.aud := rfl
@[simp] theorem setWin_phy (s : State) (w : Nat) (v : Window) : (s.setWin w v).phy = s.phy := rfl
@[simp] theorem setWin_lnk (s : State) (w : Nat) (v : Window) : (s.setWin w v).lnk = s.lnk := rfl
@[simp] theorem setWin_eps (s : State) (w : Nat) (v : Window) : (s.setWin w v).eps = s.eps := rfl
@[simp] theorem setWin_str (s : State) (w : Nat) (v : Window) : (s.setWin w v).str = s.str := rfl
@[simp] theorem setWin_fab (s : State) (w : Nat) (v : Window) : (s.setWin w v).fab = s.fab := rfl
@[simp] theorem setWin_conv (s : State) (w : Nat) (v : Window) : (s.setWin w v).conv = s.conv := rfl
@[simp] theorem setWin_cmp (s : State) (w : Nat) (v : Window) : (s.setWin w v).cmp = s.cmp := rfl
@[simp] theorem setWin_comp (s : State) (w : Nat) (v : Window) : (s.setWin w v).comp = s.comp := rfl
@[simp] theorem setWin_clk (s : State) (w : Nat) (v : Window) : (s.setWin w v).clk = s.clk := rfl
@[simp] theorem setWin_sec (s : State) (w : Nat) (v : Window) : (s.setWin w v).sec = s.sec := rfl
@[simp] theorem setWin_start (s : State) (w : Nat) (v : Window) : (s.setWin w v).start = s.start := rfl
@[simp] theorem setWin_pwr (s : State) (w : Nat) (v : Window) : (s.setWin w v).pwr = s.pwr := rfl
@[simp] theorem setWin_nvm (s : State) (w : Nat) (v : Window) : (s.setWin w v).nvm = s.nvm := rfl
@[simp] theorem setWin_pending (s : State) (w : Nat) (v : Window) : (s.setWin w v).pending = s.pending := rfl

@[simp] theorem setChime_dt (s : State) (g : Nat) (c : Chime) : (s.setChime g c).dt = s.dt := rfl
@[simp] theorem setChime_out (s : State) (g : Nat) (c : Chime) : (s.setChime g c).out = s.out := rfl
@[simp] theorem setChime_free (s : State) (g : Nat) (c : Chime) : (s.setChime g c).free = s.free := rfl
@[simp] theorem setChime_regs (s : State) (g : Nat) (c : Chime) : (s.setChime g c).regs = s.regs := rfl
@[simp] theorem setChime_inForce (s : State) (g : Nat) (c : Chime) : (s.setChime g c).inForce = s.inForce := rfl
@[simp] theorem setChime_evt (s : State) (g : Nat) (c : Chime) : (s.setChime g c).evt = s.evt := rfl
@[simp] theorem setChime_cb (s : State) (g : Nat) (c : Chime) : (s.setChime g c).cb = s.cb := rfl
@[simp] theorem setChime_sup (s : State) (g : Nat) (c : Chime) : (s.setChime g c).sup = s.sup := rfl
@[simp] theorem setChime_dap (s : State) (g : Nat) (c : Chime) : (s.setChime g c).dap = s.dap := rfl
@[simp] theorem setChime_phy (s : State) (g : Nat) (c : Chime) : (s.setChime g c).phy = s.phy := rfl
@[simp] theorem setChime_lnk (s : State) (g : Nat) (c : Chime) : (s.setChime g c).lnk = s.lnk := rfl
@[simp] theorem setChime_eps (s : State) (g : Nat) (c : Chime) : (s.setChime g c).eps = s.eps := rfl
@[simp] theorem setChime_str (s : State) (g : Nat) (c : Chime) : (s.setChime g c).str = s.str := rfl
@[simp] theorem setChime_fab (s : State) (g : Nat) (c : Chime) : (s.setChime g c).fab = s.fab := rfl
@[simp] theorem setChime_conv (s : State) (g : Nat) (c : Chime) : (s.setChime g c).conv = s.conv := rfl
@[simp] theorem setChime_cmp (s : State) (g : Nat) (c : Chime) : (s.setChime g c).cmp = s.cmp := rfl
@[simp] theorem setChime_comp (s : State) (g : Nat) (c : Chime) : (s.setChime g c).comp = s.comp := rfl
@[simp] theorem setChime_fs (s : State) (g : Nat) (c : Chime) : (s.setChime g c).fs = s.fs := rfl
@[simp] theorem setChime_clk (s : State) (g : Nat) (c : Chime) : (s.setChime g c).clk = s.clk := rfl
@[simp] theorem setChime_sec (s : State) (g : Nat) (c : Chime) : (s.setChime g c).sec = s.sec := rfl
@[simp] theorem setChime_start (s : State) (g : Nat) (c : Chime) : (s.setChime g c).start = s.start := rfl
@[simp] theorem setChime_pwr (s : State) (g : Nat) (c : Chime) : (s.setChime g c).pwr = s.pwr := rfl
@[simp] theorem setChime_nvm (s : State) (g : Nat) (c : Chime) : (s.setChime g c).nvm = s.nvm := rfl
@[simp] theorem setChime_pending (s : State) (g : Nat) (c : Chime) : (s.setChime g c).pending = s.pending := rfl

@[simp] theorem setAudOut_dt (s : State) (o : Nat) (v : AudOut) : (s.setAudOut o v).dt = s.dt := rfl
@[simp] theorem setAudOut_out (s : State) (o : Nat) (v : AudOut) : (s.setAudOut o v).out = s.out := rfl
@[simp] theorem setAudOut_free (s : State) (o : Nat) (v : AudOut) : (s.setAudOut o v).free = s.free := rfl
@[simp] theorem setAudOut_regs (s : State) (o : Nat) (v : AudOut) : (s.setAudOut o v).regs = s.regs := rfl
@[simp] theorem setAudOut_inForce (s : State) (o : Nat) (v : AudOut) : (s.setAudOut o v).inForce = s.inForce := rfl
@[simp] theorem setAudOut_evt (s : State) (o : Nat) (v : AudOut) : (s.setAudOut o v).evt = s.evt := rfl
@[simp] theorem setAudOut_cb (s : State) (o : Nat) (v : AudOut) : (s.setAudOut o v).cb = s.cb := rfl
@[simp] theorem setAudOut_sup (s : State) (o : Nat) (v : AudOut) : (s.setAudOut o v).sup = s.sup := rfl
@[simp] theorem setAudOut_dap (s : State) (o : Nat) (v : AudOut) : (s.setAudOut o v).dap = s.dap := rfl
@[simp] theorem setAudOut_phy (s : State) (o : Nat) (v : AudOut) : (s.setAudOut o v).phy = s.phy := rfl
@[simp] theorem setAudOut_lnk (s : State) (o : Nat) (v : AudOut) : (s.setAudOut o v).lnk = s.lnk := rfl
@[simp] theorem setAudOut_eps (s : State) (o : Nat) (v : AudOut) : (s.setAudOut o v).eps = s.eps := rfl
@[simp] theorem setAudOut_str (s : State) (o : Nat) (v : AudOut) : (s.setAudOut o v).str = s.str := rfl
@[simp] theorem setAudOut_fab (s : State) (o : Nat) (v : AudOut) : (s.setAudOut o v).fab = s.fab := rfl
@[simp] theorem setAudOut_conv (s : State) (o : Nat) (v : AudOut) : (s.setAudOut o v).conv = s.conv := rfl
@[simp] theorem setAudOut_cmp (s : State) (o : Nat) (v : AudOut) : (s.setAudOut o v).cmp = s.cmp := rfl
@[simp] theorem setAudOut_comp (s : State) (o : Nat) (v : AudOut) : (s.setAudOut o v).comp = s.comp := rfl
@[simp] theorem setAudOut_fs (s : State) (o : Nat) (v : AudOut) : (s.setAudOut o v).fs = s.fs := rfl
@[simp] theorem setAudOut_clk (s : State) (o : Nat) (v : AudOut) : (s.setAudOut o v).clk = s.clk := rfl
@[simp] theorem setAudOut_sec (s : State) (o : Nat) (v : AudOut) : (s.setAudOut o v).sec = s.sec := rfl
@[simp] theorem setAudOut_start (s : State) (o : Nat) (v : AudOut) : (s.setAudOut o v).start = s.start := rfl
@[simp] theorem setAudOut_pwr (s : State) (o : Nat) (v : AudOut) : (s.setAudOut o v).pwr = s.pwr := rfl
@[simp] theorem setAudOut_nvm (s : State) (o : Nat) (v : AudOut) : (s.setAudOut o v).nvm = s.nvm := rfl
@[simp] theorem setAudOut_pending (s : State) (o : Nat) (v : AudOut) : (s.setAudOut o v).pending = s.pending := rfl

@[simp] theorem setAudIn_dt (s : State) (i : Nat) (v : AudIn) : (s.setAudIn i v).dt = s.dt := rfl
@[simp] theorem setAudIn_out (s : State) (i : Nat) (v : AudIn) : (s.setAudIn i v).out = s.out := rfl
@[simp] theorem setAudIn_free (s : State) (i : Nat) (v : AudIn) : (s.setAudIn i v).free = s.free := rfl
@[simp] theorem setAudIn_regs (s : State) (i : Nat) (v : AudIn) : (s.setAudIn i v).regs = s.regs := rfl
@[simp] theorem setAudIn_inForce (s : State) (i : Nat) (v : AudIn) : (s.setAudIn i v).inForce = s.inForce := rfl
@[simp] theorem setAudIn_evt (s : State) (i : Nat) (v : AudIn) : (s.setAudIn i v).evt = s.evt := rfl
@[simp] theorem setAudIn_cb (s : State) (i : Nat) (v : AudIn) : (s.setAudIn i v).cb = s.cb := rfl
@[simp] theorem setAudIn_sup (s : State) (i : Nat) (v : AudIn) : (s.setAudIn i v).sup = s.sup := rfl
@[simp] theorem setAudIn_dap (s : State) (i : Nat) (v : AudIn) : (s.setAudIn i v).dap = s.dap := rfl
@[simp] theorem setAudIn_phy (s : State) (i : Nat) (v : AudIn) : (s.setAudIn i v).phy = s.phy := rfl
@[simp] theorem setAudIn_lnk (s : State) (i : Nat) (v : AudIn) : (s.setAudIn i v).lnk = s.lnk := rfl
@[simp] theorem setAudIn_eps (s : State) (i : Nat) (v : AudIn) : (s.setAudIn i v).eps = s.eps := rfl
@[simp] theorem setAudIn_str (s : State) (i : Nat) (v : AudIn) : (s.setAudIn i v).str = s.str := rfl
@[simp] theorem setAudIn_fab (s : State) (i : Nat) (v : AudIn) : (s.setAudIn i v).fab = s.fab := rfl
@[simp] theorem setAudIn_conv (s : State) (i : Nat) (v : AudIn) : (s.setAudIn i v).conv = s.conv := rfl
@[simp] theorem setAudIn_cmp (s : State) (i : Nat) (v : AudIn) : (s.setAudIn i v).cmp = s.cmp := rfl
@[simp] theorem setAudIn_comp (s : State) (i : Nat) (v : AudIn) : (s.setAudIn i v).comp = s.comp := rfl
@[simp] theorem setAudIn_fs (s : State) (i : Nat) (v : AudIn) : (s.setAudIn i v).fs = s.fs := rfl
@[simp] theorem setAudIn_clk (s : State) (i : Nat) (v : AudIn) : (s.setAudIn i v).clk = s.clk := rfl
@[simp] theorem setAudIn_sec (s : State) (i : Nat) (v : AudIn) : (s.setAudIn i v).sec = s.sec := rfl
@[simp] theorem setAudIn_start (s : State) (i : Nat) (v : AudIn) : (s.setAudIn i v).start = s.start := rfl
@[simp] theorem setAudIn_pwr (s : State) (i : Nat) (v : AudIn) : (s.setAudIn i v).pwr = s.pwr := rfl
@[simp] theorem setAudIn_nvm (s : State) (i : Nat) (v : AudIn) : (s.setAudIn i v).nvm = s.nvm := rfl
@[simp] theorem setAudIn_pending (s : State) (i : Nat) (v : AudIn) : (s.setAudIn i v).pending = s.pending := rfl

@[simp] theorem setTdm_dt (s : State) (p : Nat) (v : TdmPort) : (s.setTdm p v).dt = s.dt := rfl
@[simp] theorem setTdm_out (s : State) (p : Nat) (v : TdmPort) : (s.setTdm p v).out = s.out := rfl
@[simp] theorem setTdm_free (s : State) (p : Nat) (v : TdmPort) : (s.setTdm p v).free = s.free := rfl
@[simp] theorem setTdm_regs (s : State) (p : Nat) (v : TdmPort) : (s.setTdm p v).regs = s.regs := rfl
@[simp] theorem setTdm_inForce (s : State) (p : Nat) (v : TdmPort) : (s.setTdm p v).inForce = s.inForce := rfl
@[simp] theorem setTdm_evt (s : State) (p : Nat) (v : TdmPort) : (s.setTdm p v).evt = s.evt := rfl
@[simp] theorem setTdm_cb (s : State) (p : Nat) (v : TdmPort) : (s.setTdm p v).cb = s.cb := rfl
@[simp] theorem setTdm_sup (s : State) (p : Nat) (v : TdmPort) : (s.setTdm p v).sup = s.sup := rfl
@[simp] theorem setTdm_dap (s : State) (p : Nat) (v : TdmPort) : (s.setTdm p v).dap = s.dap := rfl
@[simp] theorem setTdm_phy (s : State) (p : Nat) (v : TdmPort) : (s.setTdm p v).phy = s.phy := rfl
@[simp] theorem setTdm_lnk (s : State) (p : Nat) (v : TdmPort) : (s.setTdm p v).lnk = s.lnk := rfl
@[simp] theorem setTdm_eps (s : State) (p : Nat) (v : TdmPort) : (s.setTdm p v).eps = s.eps := rfl
@[simp] theorem setTdm_str (s : State) (p : Nat) (v : TdmPort) : (s.setTdm p v).str = s.str := rfl
@[simp] theorem setTdm_fab (s : State) (p : Nat) (v : TdmPort) : (s.setTdm p v).fab = s.fab := rfl
@[simp] theorem setTdm_conv (s : State) (p : Nat) (v : TdmPort) : (s.setTdm p v).conv = s.conv := rfl
@[simp] theorem setTdm_cmp (s : State) (p : Nat) (v : TdmPort) : (s.setTdm p v).cmp = s.cmp := rfl
@[simp] theorem setTdm_comp (s : State) (p : Nat) (v : TdmPort) : (s.setTdm p v).comp = s.comp := rfl
@[simp] theorem setTdm_fs (s : State) (p : Nat) (v : TdmPort) : (s.setTdm p v).fs = s.fs := rfl
@[simp] theorem setTdm_clk (s : State) (p : Nat) (v : TdmPort) : (s.setTdm p v).clk = s.clk := rfl
@[simp] theorem setTdm_sec (s : State) (p : Nat) (v : TdmPort) : (s.setTdm p v).sec = s.sec := rfl
@[simp] theorem setTdm_start (s : State) (p : Nat) (v : TdmPort) : (s.setTdm p v).start = s.start := rfl
@[simp] theorem setTdm_pwr (s : State) (p : Nat) (v : TdmPort) : (s.setTdm p v).pwr = s.pwr := rfl
@[simp] theorem setTdm_nvm (s : State) (p : Nat) (v : TdmPort) : (s.setTdm p v).nvm = s.nvm := rfl
@[simp] theorem setTdm_pending (s : State) (p : Nat) (v : TdmPort) : (s.setTdm p v).pending = s.pending := rfl

@[simp] theorem setPath_dt (s : State) (p : Nat) (v : PathState) : (s.setPath p v).dt = s.dt := rfl
@[simp] theorem setPath_out (s : State) (p : Nat) (v : PathState) : (s.setPath p v).out = s.out := rfl
@[simp] theorem setPath_free (s : State) (p : Nat) (v : PathState) : (s.setPath p v).free = s.free := rfl
@[simp] theorem setPath_regs (s : State) (p : Nat) (v : PathState) : (s.setPath p v).regs = s.regs := rfl
@[simp] theorem setPath_inForce (s : State) (p : Nat) (v : PathState) : (s.setPath p v).inForce = s.inForce := rfl
@[simp] theorem setPath_evt (s : State) (p : Nat) (v : PathState) : (s.setPath p v).evt = s.evt := rfl
@[simp] theorem setPath_cb (s : State) (p : Nat) (v : PathState) : (s.setPath p v).cb = s.cb := rfl
@[simp] theorem setPath_sup (s : State) (p : Nat) (v : PathState) : (s.setPath p v).sup = s.sup := rfl
@[simp] theorem setPath_aud (s : State) (p : Nat) (v : PathState) : (s.setPath p v).aud = s.aud := rfl
@[simp] theorem setPath_phy (s : State) (p : Nat) (v : PathState) : (s.setPath p v).phy = s.phy := rfl
@[simp] theorem setPath_lnk (s : State) (p : Nat) (v : PathState) : (s.setPath p v).lnk = s.lnk := rfl
@[simp] theorem setPath_eps (s : State) (p : Nat) (v : PathState) : (s.setPath p v).eps = s.eps := rfl
@[simp] theorem setPath_str (s : State) (p : Nat) (v : PathState) : (s.setPath p v).str = s.str := rfl
@[simp] theorem setPath_fab (s : State) (p : Nat) (v : PathState) : (s.setPath p v).fab = s.fab := rfl
@[simp] theorem setPath_conv (s : State) (p : Nat) (v : PathState) : (s.setPath p v).conv = s.conv := rfl
@[simp] theorem setPath_cmp (s : State) (p : Nat) (v : PathState) : (s.setPath p v).cmp = s.cmp := rfl
@[simp] theorem setPath_comp (s : State) (p : Nat) (v : PathState) : (s.setPath p v).comp = s.comp := rfl
@[simp] theorem setPath_fs (s : State) (p : Nat) (v : PathState) : (s.setPath p v).fs = s.fs := rfl
@[simp] theorem setPath_clk (s : State) (p : Nat) (v : PathState) : (s.setPath p v).clk = s.clk := rfl
@[simp] theorem setPath_sec (s : State) (p : Nat) (v : PathState) : (s.setPath p v).sec = s.sec := rfl
@[simp] theorem setPath_start (s : State) (p : Nat) (v : PathState) : (s.setPath p v).start = s.start := rfl
@[simp] theorem setPath_pwr (s : State) (p : Nat) (v : PathState) : (s.setPath p v).pwr = s.pwr := rfl
@[simp] theorem setPath_nvm (s : State) (p : Nat) (v : PathState) : (s.setPath p v).nvm = s.nvm := rfl
@[simp] theorem setPath_pending (s : State) (p : Nat) (v : PathState) : (s.setPath p v).pending = s.pending := rfl

@[simp] theorem setQueue_dt (s : State) (k : Nat) (v : NotifyQ) : (s.setQueue k v).dt = s.dt := rfl
@[simp] theorem setQueue_out (s : State) (k : Nat) (v : NotifyQ) : (s.setQueue k v).out = s.out := rfl
@[simp] theorem setQueue_free (s : State) (k : Nat) (v : NotifyQ) : (s.setQueue k v).free = s.free := rfl
@[simp] theorem setQueue_regs (s : State) (k : Nat) (v : NotifyQ) : (s.setQueue k v).regs = s.regs := rfl
@[simp] theorem setQueue_inForce (s : State) (k : Nat) (v : NotifyQ) : (s.setQueue k v).inForce = s.inForce := rfl
@[simp] theorem setQueue_evt (s : State) (k : Nat) (v : NotifyQ) : (s.setQueue k v).evt = s.evt := rfl
@[simp] theorem setQueue_cb (s : State) (k : Nat) (v : NotifyQ) : (s.setQueue k v).cb = s.cb := rfl
@[simp] theorem setQueue_sup (s : State) (k : Nat) (v : NotifyQ) : (s.setQueue k v).sup = s.sup := rfl
@[simp] theorem setQueue_aud (s : State) (k : Nat) (v : NotifyQ) : (s.setQueue k v).aud = s.aud := rfl
@[simp] theorem setQueue_phy (s : State) (k : Nat) (v : NotifyQ) : (s.setQueue k v).phy = s.phy := rfl
@[simp] theorem setQueue_lnk (s : State) (k : Nat) (v : NotifyQ) : (s.setQueue k v).lnk = s.lnk := rfl
@[simp] theorem setQueue_eps (s : State) (k : Nat) (v : NotifyQ) : (s.setQueue k v).eps = s.eps := rfl
@[simp] theorem setQueue_str (s : State) (k : Nat) (v : NotifyQ) : (s.setQueue k v).str = s.str := rfl
@[simp] theorem setQueue_fab (s : State) (k : Nat) (v : NotifyQ) : (s.setQueue k v).fab = s.fab := rfl
@[simp] theorem setQueue_conv (s : State) (k : Nat) (v : NotifyQ) : (s.setQueue k v).conv = s.conv := rfl
@[simp] theorem setQueue_cmp (s : State) (k : Nat) (v : NotifyQ) : (s.setQueue k v).cmp = s.cmp := rfl
@[simp] theorem setQueue_comp (s : State) (k : Nat) (v : NotifyQ) : (s.setQueue k v).comp = s.comp := rfl
@[simp] theorem setQueue_fs (s : State) (k : Nat) (v : NotifyQ) : (s.setQueue k v).fs = s.fs := rfl
@[simp] theorem setQueue_clk (s : State) (k : Nat) (v : NotifyQ) : (s.setQueue k v).clk = s.clk := rfl
@[simp] theorem setQueue_sec (s : State) (k : Nat) (v : NotifyQ) : (s.setQueue k v).sec = s.sec := rfl
@[simp] theorem setQueue_start (s : State) (k : Nat) (v : NotifyQ) : (s.setQueue k v).start = s.start := rfl
@[simp] theorem setQueue_pwr (s : State) (k : Nat) (v : NotifyQ) : (s.setQueue k v).pwr = s.pwr := rfl
@[simp] theorem setQueue_nvm (s : State) (k : Nat) (v : NotifyQ) : (s.setQueue k v).nvm = s.nvm := rfl
@[simp] theorem setQueue_pending (s : State) (k : Nat) (v : NotifyQ) : (s.setQueue k v).pending = s.pending := rfl

@[simp] theorem setCan_dt (s : State) (p : Nat) (v : CanPort) : (s.setCan p v).dt = s.dt := rfl
@[simp] theorem setCan_out (s : State) (p : Nat) (v : CanPort) : (s.setCan p v).out = s.out := rfl
@[simp] theorem setCan_free (s : State) (p : Nat) (v : CanPort) : (s.setCan p v).free = s.free := rfl
@[simp] theorem setCan_regs (s : State) (p : Nat) (v : CanPort) : (s.setCan p v).regs = s.regs := rfl
@[simp] theorem setCan_inForce (s : State) (p : Nat) (v : CanPort) : (s.setCan p v).inForce = s.inForce := rfl
@[simp] theorem setCan_evt (s : State) (p : Nat) (v : CanPort) : (s.setCan p v).evt = s.evt := rfl
@[simp] theorem setCan_cb (s : State) (p : Nat) (v : CanPort) : (s.setCan p v).cb = s.cb := rfl
@[simp] theorem setCan_sup (s : State) (p : Nat) (v : CanPort) : (s.setCan p v).sup = s.sup := rfl
@[simp] theorem setCan_aud (s : State) (p : Nat) (v : CanPort) : (s.setCan p v).aud = s.aud := rfl
@[simp] theorem setCan_phy (s : State) (p : Nat) (v : CanPort) : (s.setCan p v).phy = s.phy := rfl
@[simp] theorem setCan_lnk (s : State) (p : Nat) (v : CanPort) : (s.setCan p v).lnk = s.lnk := rfl
@[simp] theorem setCan_eps (s : State) (p : Nat) (v : CanPort) : (s.setCan p v).eps = s.eps := rfl
@[simp] theorem setCan_str (s : State) (p : Nat) (v : CanPort) : (s.setCan p v).str = s.str := rfl
@[simp] theorem setCan_fab (s : State) (p : Nat) (v : CanPort) : (s.setCan p v).fab = s.fab := rfl
@[simp] theorem setCan_conv (s : State) (p : Nat) (v : CanPort) : (s.setCan p v).conv = s.conv := rfl
@[simp] theorem setCan_cmp (s : State) (p : Nat) (v : CanPort) : (s.setCan p v).cmp = s.cmp := rfl
@[simp] theorem setCan_comp (s : State) (p : Nat) (v : CanPort) : (s.setCan p v).comp = s.comp := rfl
@[simp] theorem setCan_fs (s : State) (p : Nat) (v : CanPort) : (s.setCan p v).fs = s.fs := rfl
@[simp] theorem setCan_clk (s : State) (p : Nat) (v : CanPort) : (s.setCan p v).clk = s.clk := rfl
@[simp] theorem setCan_sec (s : State) (p : Nat) (v : CanPort) : (s.setCan p v).sec = s.sec := rfl
@[simp] theorem setCan_start (s : State) (p : Nat) (v : CanPort) : (s.setCan p v).start = s.start := rfl
@[simp] theorem setCan_pwr (s : State) (p : Nat) (v : CanPort) : (s.setCan p v).pwr = s.pwr := rfl
@[simp] theorem setCan_nvm (s : State) (p : Nat) (v : CanPort) : (s.setCan p v).nvm = s.nvm := rfl
@[simp] theorem setCan_pending (s : State) (p : Nat) (v : CanPort) : (s.setCan p v).pending = s.pending := rfl

@[simp] theorem setBusMaster_dt (s : State) (m : Nat) (v : BusMaster) : (s.setBusMaster m v).dt = s.dt := rfl
@[simp] theorem setBusMaster_out (s : State) (m : Nat) (v : BusMaster) : (s.setBusMaster m v).out = s.out := rfl
@[simp] theorem setBusMaster_free (s : State) (m : Nat) (v : BusMaster) : (s.setBusMaster m v).free = s.free := rfl
@[simp] theorem setBusMaster_regs (s : State) (m : Nat) (v : BusMaster) : (s.setBusMaster m v).regs = s.regs := rfl
@[simp] theorem setBusMaster_inForce (s : State) (m : Nat) (v : BusMaster) : (s.setBusMaster m v).inForce = s.inForce := rfl
@[simp] theorem setBusMaster_evt (s : State) (m : Nat) (v : BusMaster) : (s.setBusMaster m v).evt = s.evt := rfl
@[simp] theorem setBusMaster_cb (s : State) (m : Nat) (v : BusMaster) : (s.setBusMaster m v).cb = s.cb := rfl
@[simp] theorem setBusMaster_dap (s : State) (m : Nat) (v : BusMaster) : (s.setBusMaster m v).dap = s.dap := rfl
@[simp] theorem setBusMaster_aud (s : State) (m : Nat) (v : BusMaster) : (s.setBusMaster m v).aud = s.aud := rfl
@[simp] theorem setBusMaster_phy (s : State) (m : Nat) (v : BusMaster) : (s.setBusMaster m v).phy = s.phy := rfl
@[simp] theorem setBusMaster_lnk (s : State) (m : Nat) (v : BusMaster) : (s.setBusMaster m v).lnk = s.lnk := rfl
@[simp] theorem setBusMaster_eps (s : State) (m : Nat) (v : BusMaster) : (s.setBusMaster m v).eps = s.eps := rfl
@[simp] theorem setBusMaster_str (s : State) (m : Nat) (v : BusMaster) : (s.setBusMaster m v).str = s.str := rfl
@[simp] theorem setBusMaster_fab (s : State) (m : Nat) (v : BusMaster) : (s.setBusMaster m v).fab = s.fab := rfl
@[simp] theorem setBusMaster_conv (s : State) (m : Nat) (v : BusMaster) : (s.setBusMaster m v).conv = s.conv := rfl
@[simp] theorem setBusMaster_cmp (s : State) (m : Nat) (v : BusMaster) : (s.setBusMaster m v).cmp = s.cmp := rfl
@[simp] theorem setBusMaster_comp (s : State) (m : Nat) (v : BusMaster) : (s.setBusMaster m v).comp = s.comp := rfl
@[simp] theorem setBusMaster_fs (s : State) (m : Nat) (v : BusMaster) : (s.setBusMaster m v).fs = s.fs := rfl
@[simp] theorem setBusMaster_clk (s : State) (m : Nat) (v : BusMaster) : (s.setBusMaster m v).clk = s.clk := rfl
@[simp] theorem setBusMaster_sec (s : State) (m : Nat) (v : BusMaster) : (s.setBusMaster m v).sec = s.sec := rfl
@[simp] theorem setBusMaster_start (s : State) (m : Nat) (v : BusMaster) : (s.setBusMaster m v).start = s.start := rfl
@[simp] theorem setBusMaster_pwr (s : State) (m : Nat) (v : BusMaster) : (s.setBusMaster m v).pwr = s.pwr := rfl
@[simp] theorem setBusMaster_nvm (s : State) (m : Nat) (v : BusMaster) : (s.setBusMaster m v).nvm = s.nvm := rfl
@[simp] theorem setBusMaster_pending (s : State) (m : Nat) (v : BusMaster) : (s.setBusMaster m v).pending = s.pending := rfl

@[simp] theorem setIns_dt (s : State) (k : Nat) (v : InStream) : (s.setIns k v).dt = s.dt := rfl
@[simp] theorem setIns_out (s : State) (k : Nat) (v : InStream) : (s.setIns k v).out = s.out := rfl
@[simp] theorem setIns_free (s : State) (k : Nat) (v : InStream) : (s.setIns k v).free = s.free := rfl
@[simp] theorem setIns_regs (s : State) (k : Nat) (v : InStream) : (s.setIns k v).regs = s.regs := rfl
@[simp] theorem setIns_inForce (s : State) (k : Nat) (v : InStream) : (s.setIns k v).inForce = s.inForce := rfl
@[simp] theorem setIns_evt (s : State) (k : Nat) (v : InStream) : (s.setIns k v).evt = s.evt := rfl
@[simp] theorem setIns_cb (s : State) (k : Nat) (v : InStream) : (s.setIns k v).cb = s.cb := rfl
@[simp] theorem setIns_sup (s : State) (k : Nat) (v : InStream) : (s.setIns k v).sup = s.sup := rfl
@[simp] theorem setIns_dap (s : State) (k : Nat) (v : InStream) : (s.setIns k v).dap = s.dap := rfl
@[simp] theorem setIns_aud (s : State) (k : Nat) (v : InStream) : (s.setIns k v).aud = s.aud := rfl
@[simp] theorem setIns_phy (s : State) (k : Nat) (v : InStream) : (s.setIns k v).phy = s.phy := rfl
@[simp] theorem setIns_lnk (s : State) (k : Nat) (v : InStream) : (s.setIns k v).lnk = s.lnk := rfl
@[simp] theorem setIns_eps (s : State) (k : Nat) (v : InStream) : (s.setIns k v).eps = s.eps := rfl
@[simp] theorem setIns_fab (s : State) (k : Nat) (v : InStream) : (s.setIns k v).fab = s.fab := rfl
@[simp] theorem setIns_conv (s : State) (k : Nat) (v : InStream) : (s.setIns k v).conv = s.conv := rfl
@[simp] theorem setIns_cmp (s : State) (k : Nat) (v : InStream) : (s.setIns k v).cmp = s.cmp := rfl
@[simp] theorem setIns_comp (s : State) (k : Nat) (v : InStream) : (s.setIns k v).comp = s.comp := rfl
@[simp] theorem setIns_fs (s : State) (k : Nat) (v : InStream) : (s.setIns k v).fs = s.fs := rfl
@[simp] theorem setIns_clk (s : State) (k : Nat) (v : InStream) : (s.setIns k v).clk = s.clk := rfl
@[simp] theorem setIns_sec (s : State) (k : Nat) (v : InStream) : (s.setIns k v).sec = s.sec := rfl
@[simp] theorem setIns_start (s : State) (k : Nat) (v : InStream) : (s.setIns k v).start = s.start := rfl
@[simp] theorem setIns_pwr (s : State) (k : Nat) (v : InStream) : (s.setIns k v).pwr = s.pwr := rfl
@[simp] theorem setIns_nvm (s : State) (k : Nat) (v : InStream) : (s.setIns k v).nvm = s.nvm := rfl
@[simp] theorem setIns_pending (s : State) (k : Nat) (v : InStream) : (s.setIns k v).pending = s.pending := rfl

@[simp] theorem setRoute_dt (s : State) (r : Nat) (v : Route) : (s.setRoute r v).dt = s.dt := rfl
@[simp] theorem setRoute_out (s : State) (r : Nat) (v : Route) : (s.setRoute r v).out = s.out := rfl
@[simp] theorem setRoute_free (s : State) (r : Nat) (v : Route) : (s.setRoute r v).free = s.free := rfl
@[simp] theorem setRoute_regs (s : State) (r : Nat) (v : Route) : (s.setRoute r v).regs = s.regs := rfl
@[simp] theorem setRoute_inForce (s : State) (r : Nat) (v : Route) : (s.setRoute r v).inForce = s.inForce := rfl
@[simp] theorem setRoute_evt (s : State) (r : Nat) (v : Route) : (s.setRoute r v).evt = s.evt := rfl
@[simp] theorem setRoute_cb (s : State) (r : Nat) (v : Route) : (s.setRoute r v).cb = s.cb := rfl
@[simp] theorem setRoute_sup (s : State) (r : Nat) (v : Route) : (s.setRoute r v).sup = s.sup := rfl
@[simp] theorem setRoute_dap (s : State) (r : Nat) (v : Route) : (s.setRoute r v).dap = s.dap := rfl
@[simp] theorem setRoute_aud (s : State) (r : Nat) (v : Route) : (s.setRoute r v).aud = s.aud := rfl
@[simp] theorem setRoute_phy (s : State) (r : Nat) (v : Route) : (s.setRoute r v).phy = s.phy := rfl
@[simp] theorem setRoute_lnk (s : State) (r : Nat) (v : Route) : (s.setRoute r v).lnk = s.lnk := rfl
@[simp] theorem setRoute_eps (s : State) (r : Nat) (v : Route) : (s.setRoute r v).eps = s.eps := rfl
@[simp] theorem setRoute_fab (s : State) (r : Nat) (v : Route) : (s.setRoute r v).fab = s.fab := rfl
@[simp] theorem setRoute_conv (s : State) (r : Nat) (v : Route) : (s.setRoute r v).conv = s.conv := rfl
@[simp] theorem setRoute_cmp (s : State) (r : Nat) (v : Route) : (s.setRoute r v).cmp = s.cmp := rfl
@[simp] theorem setRoute_comp (s : State) (r : Nat) (v : Route) : (s.setRoute r v).comp = s.comp := rfl
@[simp] theorem setRoute_fs (s : State) (r : Nat) (v : Route) : (s.setRoute r v).fs = s.fs := rfl
@[simp] theorem setRoute_clk (s : State) (r : Nat) (v : Route) : (s.setRoute r v).clk = s.clk := rfl
@[simp] theorem setRoute_sec (s : State) (r : Nat) (v : Route) : (s.setRoute r v).sec = s.sec := rfl
@[simp] theorem setRoute_start (s : State) (r : Nat) (v : Route) : (s.setRoute r v).start = s.start := rfl
@[simp] theorem setRoute_pwr (s : State) (r : Nat) (v : Route) : (s.setRoute r v).pwr = s.pwr := rfl
@[simp] theorem setRoute_nvm (s : State) (r : Nat) (v : Route) : (s.setRoute r v).nvm = s.nvm := rfl
@[simp] theorem setRoute_pending (s : State) (r : Nat) (v : Route) : (s.setRoute r v).pending = s.pending := rfl

@[simp] theorem setPort_dt (s : State) (p : Nat) (v : Port) : (s.setPort p v).dt = s.dt := rfl
@[simp] theorem setPort_out (s : State) (p : Nat) (v : Port) : (s.setPort p v).out = s.out := rfl
@[simp] theorem setPort_free (s : State) (p : Nat) (v : Port) : (s.setPort p v).free = s.free := rfl
@[simp] theorem setPort_regs (s : State) (p : Nat) (v : Port) : (s.setPort p v).regs = s.regs := rfl
@[simp] theorem setPort_inForce (s : State) (p : Nat) (v : Port) : (s.setPort p v).inForce = s.inForce := rfl
@[simp] theorem setPort_evt (s : State) (p : Nat) (v : Port) : (s.setPort p v).evt = s.evt := rfl
@[simp] theorem setPort_cb (s : State) (p : Nat) (v : Port) : (s.setPort p v).cb = s.cb := rfl
@[simp] theorem setPort_sup (s : State) (p : Nat) (v : Port) : (s.setPort p v).sup = s.sup := rfl
@[simp] theorem setPort_dap (s : State) (p : Nat) (v : Port) : (s.setPort p v).dap = s.dap := rfl
@[simp] theorem setPort_aud (s : State) (p : Nat) (v : Port) : (s.setPort p v).aud = s.aud := rfl
@[simp] theorem setPort_phy (s : State) (p : Nat) (v : Port) : (s.setPort p v).phy = s.phy := rfl
@[simp] theorem setPort_lnk (s : State) (p : Nat) (v : Port) : (s.setPort p v).lnk = s.lnk := rfl
@[simp] theorem setPort_eps (s : State) (p : Nat) (v : Port) : (s.setPort p v).eps = s.eps := rfl
@[simp] theorem setPort_str (s : State) (p : Nat) (v : Port) : (s.setPort p v).str = s.str := rfl
@[simp] theorem setPort_conv (s : State) (p : Nat) (v : Port) : (s.setPort p v).conv = s.conv := rfl
@[simp] theorem setPort_cmp (s : State) (p : Nat) (v : Port) : (s.setPort p v).cmp = s.cmp := rfl
@[simp] theorem setPort_comp (s : State) (p : Nat) (v : Port) : (s.setPort p v).comp = s.comp := rfl
@[simp] theorem setPort_fs (s : State) (p : Nat) (v : Port) : (s.setPort p v).fs = s.fs := rfl
@[simp] theorem setPort_clk (s : State) (p : Nat) (v : Port) : (s.setPort p v).clk = s.clk := rfl
@[simp] theorem setPort_sec (s : State) (p : Nat) (v : Port) : (s.setPort p v).sec = s.sec := rfl
@[simp] theorem setPort_start (s : State) (p : Nat) (v : Port) : (s.setPort p v).start = s.start := rfl
@[simp] theorem setPort_pwr (s : State) (p : Nat) (v : Port) : (s.setPort p v).pwr = s.pwr := rfl
@[simp] theorem setPort_nvm (s : State) (p : Nat) (v : Port) : (s.setPort p v).nvm = s.nvm := rfl
@[simp] theorem setPort_pending (s : State) (p : Nat) (v : Port) : (s.setPort p v).pending = s.pending := rfl

@[simp] theorem setPhase_dt (s : State) (n : Nat) (v : Phase) : (s.setPhase n v).dt = s.dt := rfl
@[simp] theorem setPhase_out (s : State) (n : Nat) (v : Phase) : (s.setPhase n v).out = s.out := rfl
@[simp] theorem setPhase_free (s : State) (n : Nat) (v : Phase) : (s.setPhase n v).free = s.free := rfl
@[simp] theorem setPhase_regs (s : State) (n : Nat) (v : Phase) : (s.setPhase n v).regs = s.regs := rfl
@[simp] theorem setPhase_inForce (s : State) (n : Nat) (v : Phase) : (s.setPhase n v).inForce = s.inForce := rfl
@[simp] theorem setPhase_evt (s : State) (n : Nat) (v : Phase) : (s.setPhase n v).evt = s.evt := rfl
@[simp] theorem setPhase_cb (s : State) (n : Nat) (v : Phase) : (s.setPhase n v).cb = s.cb := rfl
@[simp] theorem setPhase_sup (s : State) (n : Nat) (v : Phase) : (s.setPhase n v).sup = s.sup := rfl
@[simp] theorem setPhase_dap (s : State) (n : Nat) (v : Phase) : (s.setPhase n v).dap = s.dap := rfl
@[simp] theorem setPhase_aud (s : State) (n : Nat) (v : Phase) : (s.setPhase n v).aud = s.aud := rfl
@[simp] theorem setPhase_phy (s : State) (n : Nat) (v : Phase) : (s.setPhase n v).phy = s.phy := rfl
@[simp] theorem setPhase_lnk (s : State) (n : Nat) (v : Phase) : (s.setPhase n v).lnk = s.lnk := rfl
@[simp] theorem setPhase_eps (s : State) (n : Nat) (v : Phase) : (s.setPhase n v).eps = s.eps := rfl
@[simp] theorem setPhase_str (s : State) (n : Nat) (v : Phase) : (s.setPhase n v).str = s.str := rfl
@[simp] theorem setPhase_conv (s : State) (n : Nat) (v : Phase) : (s.setPhase n v).conv = s.conv := rfl
@[simp] theorem setPhase_cmp (s : State) (n : Nat) (v : Phase) : (s.setPhase n v).cmp = s.cmp := rfl
@[simp] theorem setPhase_comp (s : State) (n : Nat) (v : Phase) : (s.setPhase n v).comp = s.comp := rfl
@[simp] theorem setPhase_fs (s : State) (n : Nat) (v : Phase) : (s.setPhase n v).fs = s.fs := rfl
@[simp] theorem setPhase_clk (s : State) (n : Nat) (v : Phase) : (s.setPhase n v).clk = s.clk := rfl
@[simp] theorem setPhase_sec (s : State) (n : Nat) (v : Phase) : (s.setPhase n v).sec = s.sec := rfl
@[simp] theorem setPhase_start (s : State) (n : Nat) (v : Phase) : (s.setPhase n v).start = s.start := rfl
@[simp] theorem setPhase_pwr (s : State) (n : Nat) (v : Phase) : (s.setPhase n v).pwr = s.pwr := rfl
@[simp] theorem setPhase_nvm (s : State) (n : Nat) (v : Phase) : (s.setPhase n v).nvm = s.nvm := rfl
@[simp] theorem setPhase_pending (s : State) (n : Nat) (v : Phase) : (s.setPhase n v).pending = s.pending := rfl

@[simp] theorem setUnit_dt (s : State) (u : Nat) (v : ConvUnit) : (s.setUnit u v).dt = s.dt := rfl
@[simp] theorem setUnit_out (s : State) (u : Nat) (v : ConvUnit) : (s.setUnit u v).out = s.out := rfl
@[simp] theorem setUnit_free (s : State) (u : Nat) (v : ConvUnit) : (s.setUnit u v).free = s.free := rfl
@[simp] theorem setUnit_regs (s : State) (u : Nat) (v : ConvUnit) : (s.setUnit u v).regs = s.regs := rfl
@[simp] theorem setUnit_inForce (s : State) (u : Nat) (v : ConvUnit) : (s.setUnit u v).inForce = s.inForce := rfl
@[simp] theorem setUnit_evt (s : State) (u : Nat) (v : ConvUnit) : (s.setUnit u v).evt = s.evt := rfl
@[simp] theorem setUnit_cb (s : State) (u : Nat) (v : ConvUnit) : (s.setUnit u v).cb = s.cb := rfl
@[simp] theorem setUnit_sup (s : State) (u : Nat) (v : ConvUnit) : (s.setUnit u v).sup = s.sup := rfl
@[simp] theorem setUnit_dap (s : State) (u : Nat) (v : ConvUnit) : (s.setUnit u v).dap = s.dap := rfl
@[simp] theorem setUnit_aud (s : State) (u : Nat) (v : ConvUnit) : (s.setUnit u v).aud = s.aud := rfl
@[simp] theorem setUnit_phy (s : State) (u : Nat) (v : ConvUnit) : (s.setUnit u v).phy = s.phy := rfl
@[simp] theorem setUnit_lnk (s : State) (u : Nat) (v : ConvUnit) : (s.setUnit u v).lnk = s.lnk := rfl
@[simp] theorem setUnit_eps (s : State) (u : Nat) (v : ConvUnit) : (s.setUnit u v).eps = s.eps := rfl
@[simp] theorem setUnit_str (s : State) (u : Nat) (v : ConvUnit) : (s.setUnit u v).str = s.str := rfl
@[simp] theorem setUnit_fab (s : State) (u : Nat) (v : ConvUnit) : (s.setUnit u v).fab = s.fab := rfl
@[simp] theorem setUnit_cmp (s : State) (u : Nat) (v : ConvUnit) : (s.setUnit u v).cmp = s.cmp := rfl
@[simp] theorem setUnit_comp (s : State) (u : Nat) (v : ConvUnit) : (s.setUnit u v).comp = s.comp := rfl
@[simp] theorem setUnit_fs (s : State) (u : Nat) (v : ConvUnit) : (s.setUnit u v).fs = s.fs := rfl
@[simp] theorem setUnit_clk (s : State) (u : Nat) (v : ConvUnit) : (s.setUnit u v).clk = s.clk := rfl
@[simp] theorem setUnit_sec (s : State) (u : Nat) (v : ConvUnit) : (s.setUnit u v).sec = s.sec := rfl
@[simp] theorem setUnit_start (s : State) (u : Nat) (v : ConvUnit) : (s.setUnit u v).start = s.start := rfl
@[simp] theorem setUnit_pwr (s : State) (u : Nat) (v : ConvUnit) : (s.setUnit u v).pwr = s.pwr := rfl
@[simp] theorem setUnit_nvm (s : State) (u : Nat) (v : ConvUnit) : (s.setUnit u v).nvm = s.nvm := rfl
@[simp] theorem setUnit_pending (s : State) (u : Nat) (v : ConvUnit) : (s.setUnit u v).pending = s.pending := rfl

@[simp] theorem setConvCluster_dt (s : State) (c : Nat) (v : ConvCluster) : (s.setConvCluster c v).dt = s.dt := rfl
@[simp] theorem setConvCluster_out (s : State) (c : Nat) (v : ConvCluster) : (s.setConvCluster c v).out = s.out := rfl
@[simp] theorem setConvCluster_free (s : State) (c : Nat) (v : ConvCluster) : (s.setConvCluster c v).free = s.free := rfl
@[simp] theorem setConvCluster_regs (s : State) (c : Nat) (v : ConvCluster) : (s.setConvCluster c v).regs = s.regs := rfl
@[simp] theorem setConvCluster_inForce (s : State) (c : Nat) (v : ConvCluster) : (s.setConvCluster c v).inForce = s.inForce := rfl
@[simp] theorem setConvCluster_evt (s : State) (c : Nat) (v : ConvCluster) : (s.setConvCluster c v).evt = s.evt := rfl
@[simp] theorem setConvCluster_cb (s : State) (c : Nat) (v : ConvCluster) : (s.setConvCluster c v).cb = s.cb := rfl
@[simp] theorem setConvCluster_sup (s : State) (c : Nat) (v : ConvCluster) : (s.setConvCluster c v).sup = s.sup := rfl
@[simp] theorem setConvCluster_dap (s : State) (c : Nat) (v : ConvCluster) : (s.setConvCluster c v).dap = s.dap := rfl
@[simp] theorem setConvCluster_aud (s : State) (c : Nat) (v : ConvCluster) : (s.setConvCluster c v).aud = s.aud := rfl
@[simp] theorem setConvCluster_phy (s : State) (c : Nat) (v : ConvCluster) : (s.setConvCluster c v).phy = s.phy := rfl
@[simp] theorem setConvCluster_lnk (s : State) (c : Nat) (v : ConvCluster) : (s.setConvCluster c v).lnk = s.lnk := rfl
@[simp] theorem setConvCluster_eps (s : State) (c : Nat) (v : ConvCluster) : (s.setConvCluster c v).eps = s.eps := rfl
@[simp] theorem setConvCluster_str (s : State) (c : Nat) (v : ConvCluster) : (s.setConvCluster c v).str = s.str := rfl
@[simp] theorem setConvCluster_fab (s : State) (c : Nat) (v : ConvCluster) : (s.setConvCluster c v).fab = s.fab := rfl
@[simp] theorem setConvCluster_cmp (s : State) (c : Nat) (v : ConvCluster) : (s.setConvCluster c v).cmp = s.cmp := rfl
@[simp] theorem setConvCluster_comp (s : State) (c : Nat) (v : ConvCluster) : (s.setConvCluster c v).comp = s.comp := rfl
@[simp] theorem setConvCluster_fs (s : State) (c : Nat) (v : ConvCluster) : (s.setConvCluster c v).fs = s.fs := rfl
@[simp] theorem setConvCluster_clk (s : State) (c : Nat) (v : ConvCluster) : (s.setConvCluster c v).clk = s.clk := rfl
@[simp] theorem setConvCluster_sec (s : State) (c : Nat) (v : ConvCluster) : (s.setConvCluster c v).sec = s.sec := rfl
@[simp] theorem setConvCluster_start (s : State) (c : Nat) (v : ConvCluster) : (s.setConvCluster c v).start = s.start := rfl
@[simp] theorem setConvCluster_pwr (s : State) (c : Nat) (v : ConvCluster) : (s.setConvCluster c v).pwr = s.pwr := rfl
@[simp] theorem setConvCluster_nvm (s : State) (c : Nat) (v : ConvCluster) : (s.setConvCluster c v).nvm = s.nvm := rfl
@[simp] theorem setConvCluster_pending (s : State) (c : Nat) (v : ConvCluster) : (s.setConvCluster c v).pending = s.pending := rfl

@[simp] theorem setEngine_dt (s : State) (e : Nat) (v : CmpEngine) : (s.setEngine e v).dt = s.dt := rfl
@[simp] theorem setEngine_out (s : State) (e : Nat) (v : CmpEngine) : (s.setEngine e v).out = s.out := rfl
@[simp] theorem setEngine_free (s : State) (e : Nat) (v : CmpEngine) : (s.setEngine e v).free = s.free := rfl
@[simp] theorem setEngine_regs (s : State) (e : Nat) (v : CmpEngine) : (s.setEngine e v).regs = s.regs := rfl
@[simp] theorem setEngine_inForce (s : State) (e : Nat) (v : CmpEngine) : (s.setEngine e v).inForce = s.inForce := rfl
@[simp] theorem setEngine_evt (s : State) (e : Nat) (v : CmpEngine) : (s.setEngine e v).evt = s.evt := rfl
@[simp] theorem setEngine_cb (s : State) (e : Nat) (v : CmpEngine) : (s.setEngine e v).cb = s.cb := rfl
@[simp] theorem setEngine_sup (s : State) (e : Nat) (v : CmpEngine) : (s.setEngine e v).sup = s.sup := rfl
@[simp] theorem setEngine_dap (s : State) (e : Nat) (v : CmpEngine) : (s.setEngine e v).dap = s.dap := rfl
@[simp] theorem setEngine_aud (s : State) (e : Nat) (v : CmpEngine) : (s.setEngine e v).aud = s.aud := rfl
@[simp] theorem setEngine_phy (s : State) (e : Nat) (v : CmpEngine) : (s.setEngine e v).phy = s.phy := rfl
@[simp] theorem setEngine_lnk (s : State) (e : Nat) (v : CmpEngine) : (s.setEngine e v).lnk = s.lnk := rfl
@[simp] theorem setEngine_eps (s : State) (e : Nat) (v : CmpEngine) : (s.setEngine e v).eps = s.eps := rfl
@[simp] theorem setEngine_str (s : State) (e : Nat) (v : CmpEngine) : (s.setEngine e v).str = s.str := rfl
@[simp] theorem setEngine_fab (s : State) (e : Nat) (v : CmpEngine) : (s.setEngine e v).fab = s.fab := rfl
@[simp] theorem setEngine_conv (s : State) (e : Nat) (v : CmpEngine) : (s.setEngine e v).conv = s.conv := rfl
@[simp] theorem setEngine_comp (s : State) (e : Nat) (v : CmpEngine) : (s.setEngine e v).comp = s.comp := rfl
@[simp] theorem setEngine_fs (s : State) (e : Nat) (v : CmpEngine) : (s.setEngine e v).fs = s.fs := rfl
@[simp] theorem setEngine_clk (s : State) (e : Nat) (v : CmpEngine) : (s.setEngine e v).clk = s.clk := rfl
@[simp] theorem setEngine_sec (s : State) (e : Nat) (v : CmpEngine) : (s.setEngine e v).sec = s.sec := rfl
@[simp] theorem setEngine_start (s : State) (e : Nat) (v : CmpEngine) : (s.setEngine e v).start = s.start := rfl
@[simp] theorem setEngine_pwr (s : State) (e : Nat) (v : CmpEngine) : (s.setEngine e v).pwr = s.pwr := rfl
@[simp] theorem setEngine_nvm (s : State) (e : Nat) (v : CmpEngine) : (s.setEngine e v).nvm = s.nvm := rfl
@[simp] theorem setEngine_pending (s : State) (e : Nat) (v : CmpEngine) : (s.setEngine e v).pending = s.pending := rfl

@[simp] theorem setOutp_dt (s : State) (n : Nat) (v : OutState) : (s.setOutp n v).dt = s.dt := rfl
@[simp] theorem setOutp_out (s : State) (n : Nat) (v : OutState) : (s.setOutp n v).out = s.out := rfl
@[simp] theorem setOutp_free (s : State) (n : Nat) (v : OutState) : (s.setOutp n v).free = s.free := rfl
@[simp] theorem setOutp_regs (s : State) (n : Nat) (v : OutState) : (s.setOutp n v).regs = s.regs := rfl
@[simp] theorem setOutp_inForce (s : State) (n : Nat) (v : OutState) : (s.setOutp n v).inForce = s.inForce := rfl
@[simp] theorem setOutp_evt (s : State) (n : Nat) (v : OutState) : (s.setOutp n v).evt = s.evt := rfl
@[simp] theorem setOutp_cb (s : State) (n : Nat) (v : OutState) : (s.setOutp n v).cb = s.cb := rfl
@[simp] theorem setOutp_sup (s : State) (n : Nat) (v : OutState) : (s.setOutp n v).sup = s.sup := rfl
@[simp] theorem setOutp_dap (s : State) (n : Nat) (v : OutState) : (s.setOutp n v).dap = s.dap := rfl
@[simp] theorem setOutp_aud (s : State) (n : Nat) (v : OutState) : (s.setOutp n v).aud = s.aud := rfl
@[simp] theorem setOutp_phy (s : State) (n : Nat) (v : OutState) : (s.setOutp n v).phy = s.phy := rfl
@[simp] theorem setOutp_lnk (s : State) (n : Nat) (v : OutState) : (s.setOutp n v).lnk = s.lnk := rfl
@[simp] theorem setOutp_eps (s : State) (n : Nat) (v : OutState) : (s.setOutp n v).eps = s.eps := rfl
@[simp] theorem setOutp_str (s : State) (n : Nat) (v : OutState) : (s.setOutp n v).str = s.str := rfl
@[simp] theorem setOutp_fab (s : State) (n : Nat) (v : OutState) : (s.setOutp n v).fab = s.fab := rfl
@[simp] theorem setOutp_conv (s : State) (n : Nat) (v : OutState) : (s.setOutp n v).conv = s.conv := rfl
@[simp] theorem setOutp_cmp (s : State) (n : Nat) (v : OutState) : (s.setOutp n v).cmp = s.cmp := rfl
@[simp] theorem setOutp_fs (s : State) (n : Nat) (v : OutState) : (s.setOutp n v).fs = s.fs := rfl
@[simp] theorem setOutp_clk (s : State) (n : Nat) (v : OutState) : (s.setOutp n v).clk = s.clk := rfl
@[simp] theorem setOutp_sec (s : State) (n : Nat) (v : OutState) : (s.setOutp n v).sec = s.sec := rfl
@[simp] theorem setOutp_start (s : State) (n : Nat) (v : OutState) : (s.setOutp n v).start = s.start := rfl
@[simp] theorem setOutp_pwr (s : State) (n : Nat) (v : OutState) : (s.setOutp n v).pwr = s.pwr := rfl
@[simp] theorem setOutp_nvm (s : State) (n : Nat) (v : OutState) : (s.setOutp n v).nvm = s.nvm := rfl
@[simp] theorem setOutp_pending (s : State) (n : Nat) (v : OutState) : (s.setOutp n v).pending = s.pending := rfl

/-- Entries read before the update are read after it wherever `regs` is the same. -/
theorem reg_congr {a b : State} (h : b.regs = a.regs) (k : Nat) : b.reg k = a.reg k := by
  unfold State.reg
  rw [h]

@[simp] theorem reg_begin (s : State) (t k : Nat) : (s.begin t).reg k = s.reg k := rfl
@[simp] theorem reg_emit (s : State) (o : Output) (k : Nat) : (s.emit o).reg k = s.reg k := rfl
@[simp] theorem force_begin (s : State) (t k : Nat) : (s.begin t).force k = s.force k := rfl
@[simp] theorem force_emit (s : State) (o : Output) (k : Nat) : (s.emit o).force k = s.force k := rfl
@[simp] theorem force_setReg (s : State) (j v k : Nat) : (s.setReg j v).force k = s.force k := rfl
@[simp] theorem reg_setForce (s : State) (j v k : Nat) : (s.setForce j v).reg k = s.reg k := rfl

theorem reg_setReg_other (s : State) (j v k : Nat) (h : k ≠ j) : (s.setReg j v).reg k = s.reg k :=
  tget_tset_other _ _ _ _ _ h

theorem force_setForce_other (s : State) (j v k : Nat) (h : k ≠ j) : (s.setForce j v).force k = s.force k :=
  tget_tset_other _ _ _ _ _ h

/-- In a canonical table the entry just written is read back. -/
theorem reg_setReg_same (s : State) (k v : Nat) (h : twf entryDefault s.regs = true) : (s.setReg k v).reg k = v :=
  tget_tset_same (lo := 0) _ _ _ _ (by
    unfold twf at h
    simp only [Bool.and_eq_true] at h
    exact h.1)

theorem force_setForce_same (s : State) (k v : Nat) (h : twf entryDefault s.inForce = true) : (s.setForce k v).force k = v :=
  tget_tset_same (lo := 0) _ _ _ _ (by
    unfold twf at h
    simp only [Bool.and_eq_true] at h
    exact h.1)

/-! What a raise leaves. -/

theorem Raised.dt {a b : State} (h : Raised a b) : b.dt = a.dt := by rw [h.rest]
theorem Raised.out {a b : State} (h : Raised a b) : b.out = a.out := by rw [h.rest]
theorem Raised.free {a b : State} (h : Raised a b) : b.free = a.free := by rw [h.rest]
theorem Raised.inForce {a b : State} (h : Raised a b) : b.inForce = a.inForce := by rw [h.rest]
theorem Raised.sup {a b : State} (h : Raised a b) : b.sup = a.sup := by rw [h.rest]
theorem Raised.phy {a b : State} (h : Raised a b) : b.phy = a.phy := by rw [h.rest]
theorem Raised.lnk {a b : State} (h : Raised a b) : b.lnk = a.lnk := by rw [h.rest]
theorem Raised.eps {a b : State} (h : Raised a b) : b.eps = a.eps := by rw [h.rest]
theorem Raised.str {a b : State} (h : Raised a b) : b.str = a.str := by rw [h.rest]
theorem Raised.fab {a b : State} (h : Raised a b) : b.fab = a.fab := by rw [h.rest]
theorem Raised.conv {a b : State} (h : Raised a b) : b.conv = a.conv := by rw [h.rest]
theorem Raised.cmp {a b : State} (h : Raised a b) : b.cmp = a.cmp := by rw [h.rest]
theorem Raised.comp {a b : State} (h : Raised a b) : b.comp = a.comp := by rw [h.rest]
theorem Raised.clk {a b : State} (h : Raised a b) : b.clk = a.clk := by rw [h.rest]
theorem Raised.sec {a b : State} (h : Raised a b) : b.sec = a.sec := by rw [h.rest]
theorem Raised.start {a b : State} (h : Raised a b) : b.start = a.start := by rw [h.rest]
theorem Raised.pwr {a b : State} (h : Raised a b) : b.pwr = a.pwr := by rw [h.rest]
theorem Raised.nvm {a b : State} (h : Raised a b) : b.nvm = a.nvm := by rw [h.rest]
theorem Raised.pending {a b : State} (h : Raised a b) : b.pending = a.pending := by rw [h.rest]
theorem Raised.fs_mode {a b : State} (h : Raised a b) : b.fs.mode = a.fs.mode := by rw [h.rest]
theorem Raised.fs_place {a b : State} (h : Raised a b) : b.fs.place = a.fs.place := by rw [h.rest]
theorem Raised.fs_bufs {a b : State} (h : Raised a b) : b.fs.bufs = a.fs.bufs := by rw [h.rest]
theorem Raised.fs_mem {a b : State} (h : Raised a b) : b.fs.mem = a.fs.mem := by rw [h.rest]
theorem Raised.fs_writes {a b : State} (h : Raised a b) : b.fs.writes = a.fs.writes := by rw [h.rest]
theorem Raised.fs_chans {a b : State} (h : Raised a b) : b.fs.chans = a.fs.chans := by rw [h.rest]
theorem Raised.fs_sweep {a b : State} (h : Raised a b) : b.fs.sweep = a.fs.sweep := by rw [h.rest]
theorem Raised.fs_genBase {a b : State} (h : Raised a b) : b.fs.genBase = a.fs.genBase := by rw [h.rest]
theorem Raised.fs_overPools {a b : State} (h : Raised a b) : b.fs.overPools = a.fs.overPools := by rw [h.rest]
theorem Raised.fs_fetches {a b : State} (h : Raised a b) : b.fs.fetches = a.fs.fetches := by rw [h.rest]
theorem Raised.fs_fetchSum {a b : State} (h : Raised a b) : b.fs.fetchSum = a.fs.fetchSum := by rw [h.rest]
theorem Raised.aud_running {a b : State} (h : Raised a b) : b.aud.running = a.aud.running := by rw [h.rest]
theorem Raised.aud_bind {a b : State} (h : Raised a b) : b.aud.bind = a.aud.bind := by rw [h.rest]
theorem Raised.aud_waiting {a b : State} (h : Raised a b) : b.aud.waiting = a.aud.waiting := by rw [h.rest]
theorem Raised.aud_tdm {a b : State} (h : Raised a b) : b.aud.tdm = a.aud.tdm := by rw [h.rest]
theorem Raised.aud_ins {a b : State} (h : Raised a b) : b.aud.ins = a.aud.ins := by rw [h.rest]
theorem Raised.aud_chimeMem {a b : State} (h : Raised a b) : b.aud.chimeMem = a.aud.chimeMem := by rw [h.rest]
theorem Raised.aud_missing {a b : State} (h : Raised a b) : b.aud.missing = a.aud.missing := by rw [h.rest]
theorem Raised.aud_muteSince {a b : State} (h : Raised a b) : b.aud.muteSince = a.aud.muteSince := by rw [h.rest]
theorem Raised.aud_muted {a b : State} (h : Raised a b) : b.aud.muted = a.aud.muted := by rw [h.rest]
theorem Raised.dap_sessions {a b : State} (h : Raised a b) : b.dap.sessions = a.dap.sessions := by rw [h.rest]
theorem Raised.dap_kept {a b : State} (h : Raised a b) : b.dap.kept = a.dap.kept := by rw [h.rest]
theorem Raised.dap_staged {a b : State} (h : Raised a b) : b.dap.staged = a.dap.staged := by rw [h.rest]
theorem Raised.dap_snaps {a b : State} (h : Raised a b) : b.dap.snaps = a.dap.snaps := by rw [h.rest]
theorem Raised.dap_paths {a b : State} (h : Raised a b) : b.dap.paths = a.dap.paths := by rw [h.rest]
theorem Raised.dap_places {a b : State} (h : Raised a b) : b.dap.places = a.dap.places := by rw [h.rest]
theorem Raised.dap_reasm {a b : State} (h : Raised a b) : b.dap.reasm = a.dap.reasm := by rw [h.rest]
theorem Raised.dap_ways {a b : State} (h : Raised a b) : b.dap.ways = a.dap.ways := by rw [h.rest]
theorem Raised.dap_can {a b : State} (h : Raised a b) : b.dap.can = a.dap.can := by rw [h.rest]
theorem Raised.dap_netLink {a b : State} (h : Raised a b) : b.dap.netLink = a.dap.netLink := by rw [h.rest]
theorem Raised.dap_datagrams {a b : State} (h : Raised a b) : b.dap.datagrams = a.dap.datagrams := by rw [h.rest]
theorem Raised.dap_save {a b : State} (h : Raised a b) : b.dap.save = a.dap.save := by rw [h.rest]
theorem Raised.dap_waiting {a b : State} (h : Raised a b) : b.dap.waiting = a.dap.waiting := by rw [h.rest]
theorem Raised.dap_lockMsg {a b : State} (h : Raised a b) : b.dap.lockMsg = a.dap.lockMsg := by rw [h.rest]

@[simp] theorem raise_dt (s : State) (id : Nat) (items : List Nat) : (s.raise id items).dt = s.dt := (raised_raise _ _ _).dt
@[simp] theorem raise_out (s : State) (id : Nat) (items : List Nat) : (s.raise id items).out = s.out := (raised_raise _ _ _).out
@[simp] theorem raise_free (s : State) (id : Nat) (items : List Nat) : (s.raise id items).free = s.free := (raised_raise _ _ _).free
@[simp] theorem raise_inForce (s : State) (id : Nat) (items : List Nat) : (s.raise id items).inForce = s.inForce := (raised_raise _ _ _).inForce
@[simp] theorem raise_sup (s : State) (id : Nat) (items : List Nat) : (s.raise id items).sup = s.sup := (raised_raise _ _ _).sup
@[simp] theorem raise_phy (s : State) (id : Nat) (items : List Nat) : (s.raise id items).phy = s.phy := (raised_raise _ _ _).phy
@[simp] theorem raise_lnk (s : State) (id : Nat) (items : List Nat) : (s.raise id items).lnk = s.lnk := (raised_raise _ _ _).lnk
@[simp] theorem raise_eps (s : State) (id : Nat) (items : List Nat) : (s.raise id items).eps = s.eps := (raised_raise _ _ _).eps
@[simp] theorem raise_str (s : State) (id : Nat) (items : List Nat) : (s.raise id items).str = s.str := (raised_raise _ _ _).str
@[simp] theorem raise_fab (s : State) (id : Nat) (items : List Nat) : (s.raise id items).fab = s.fab := (raised_raise _ _ _).fab
@[simp] theorem raise_conv (s : State) (id : Nat) (items : List Nat) : (s.raise id items).conv = s.conv := (raised_raise _ _ _).conv
@[simp] theorem raise_cmp (s : State) (id : Nat) (items : List Nat) : (s.raise id items).cmp = s.cmp := (raised_raise _ _ _).cmp
@[simp] theorem raise_comp (s : State) (id : Nat) (items : List Nat) : (s.raise id items).comp = s.comp := (raised_raise _ _ _).comp
@[simp] theorem raise_clk (s : State) (id : Nat) (items : List Nat) : (s.raise id items).clk = s.clk := (raised_raise _ _ _).clk
@[simp] theorem raise_sec (s : State) (id : Nat) (items : List Nat) : (s.raise id items).sec = s.sec := (raised_raise _ _ _).sec
@[simp] theorem raise_start (s : State) (id : Nat) (items : List Nat) : (s.raise id items).start = s.start := (raised_raise _ _ _).start
@[simp] theorem raise_pwr (s : State) (id : Nat) (items : List Nat) : (s.raise id items).pwr = s.pwr := (raised_raise _ _ _).pwr
@[simp] theorem raise_nvm (s : State) (id : Nat) (items : List Nat) : (s.raise id items).nvm = s.nvm := (raised_raise _ _ _).nvm
@[simp] theorem raise_pending (s : State) (id : Nat) (items : List Nat) : (s.raise id items).pending = s.pending := (raised_raise _ _ _).pending
@[simp] theorem raise_fs_mode (s : State) (id : Nat) (items : List Nat) : (s.raise id items).fs.mode = s.fs.mode := (raised_raise _ _ _).fs_mode
@[simp] theorem raise_fs_place (s : State) (id : Nat) (items : List Nat) : (s.raise id items).fs.place = s.fs.place := (raised_raise _ _ _).fs_place
@[simp] theorem raise_fs_bufs (s : State) (id : Nat) (items : List Nat) : (s.raise id items).fs.bufs = s.fs.bufs := (raised_raise _ _ _).fs_bufs
@[simp] theorem raise_fs_mem (s : State) (id : Nat) (items : List Nat) : (s.raise id items).fs.mem = s.fs.mem := (raised_raise _ _ _).fs_mem
@[simp] theorem raise_fs_writes (s : State) (id : Nat) (items : List Nat) : (s.raise id items).fs.writes = s.fs.writes := (raised_raise _ _ _).fs_writes
@[simp] theorem raise_fs_chans (s : State) (id : Nat) (items : List Nat) : (s.raise id items).fs.chans = s.fs.chans := (raised_raise _ _ _).fs_chans
@[simp] theorem raise_fs_sweep (s : State) (id : Nat) (items : List Nat) : (s.raise id items).fs.sweep = s.fs.sweep := (raised_raise _ _ _).fs_sweep
@[simp] theorem raise_fs_genBase (s : State) (id : Nat) (items : List Nat) : (s.raise id items).fs.genBase = s.fs.genBase := (raised_raise _ _ _).fs_genBase
@[simp] theorem raise_fs_overPools (s : State) (id : Nat) (items : List Nat) : (s.raise id items).fs.overPools = s.fs.overPools := (raised_raise _ _ _).fs_overPools
@[simp] theorem raise_fs_fetches (s : State) (id : Nat) (items : List Nat) : (s.raise id items).fs.fetches = s.fs.fetches := (raised_raise _ _ _).fs_fetches
@[simp] theorem raise_fs_fetchSum (s : State) (id : Nat) (items : List Nat) : (s.raise id items).fs.fetchSum = s.fs.fetchSum := (raised_raise _ _ _).fs_fetchSum
@[simp] theorem raise_aud_running (s : State) (id : Nat) (items : List Nat) : (s.raise id items).aud.running = s.aud.running := (raised_raise _ _ _).aud_running
@[simp] theorem raise_aud_bind (s : State) (id : Nat) (items : List Nat) : (s.raise id items).aud.bind = s.aud.bind := (raised_raise _ _ _).aud_bind
@[simp] theorem raise_aud_waiting (s : State) (id : Nat) (items : List Nat) : (s.raise id items).aud.waiting = s.aud.waiting := (raised_raise _ _ _).aud_waiting
@[simp] theorem raise_aud_tdm (s : State) (id : Nat) (items : List Nat) : (s.raise id items).aud.tdm = s.aud.tdm := (raised_raise _ _ _).aud_tdm
@[simp] theorem raise_aud_ins (s : State) (id : Nat) (items : List Nat) : (s.raise id items).aud.ins = s.aud.ins := (raised_raise _ _ _).aud_ins
@[simp] theorem raise_aud_chimeMem (s : State) (id : Nat) (items : List Nat) : (s.raise id items).aud.chimeMem = s.aud.chimeMem := (raised_raise _ _ _).aud_chimeMem
@[simp] theorem raise_aud_missing (s : State) (id : Nat) (items : List Nat) : (s.raise id items).aud.missing = s.aud.missing := (raised_raise _ _ _).aud_missing
@[simp] theorem raise_aud_muteSince (s : State) (id : Nat) (items : List Nat) : (s.raise id items).aud.muteSince = s.aud.muteSince := (raised_raise _ _ _).aud_muteSince
@[simp] theorem raise_aud_muted (s : State) (id : Nat) (items : List Nat) : (s.raise id items).aud.muted = s.aud.muted := (raised_raise _ _ _).aud_muted
@[simp] theorem raise_dap_sessions (s : State) (id : Nat) (items : List Nat) : (s.raise id items).dap.sessions = s.dap.sessions := (raised_raise _ _ _).dap_sessions
@[simp] theorem raise_dap_kept (s : State) (id : Nat) (items : List Nat) : (s.raise id items).dap.kept = s.dap.kept := (raised_raise _ _ _).dap_kept
@[simp] theorem raise_dap_staged (s : State) (id : Nat) (items : List Nat) : (s.raise id items).dap.staged = s.dap.staged := (raised_raise _ _ _).dap_staged
@[simp] theorem raise_dap_snaps (s : State) (id : Nat) (items : List Nat) : (s.raise id items).dap.snaps = s.dap.snaps := (raised_raise _ _ _).dap_snaps
@[simp] theorem raise_dap_paths (s : State) (id : Nat) (items : List Nat) : (s.raise id items).dap.paths = s.dap.paths := (raised_raise _ _ _).dap_paths
@[simp] theorem raise_dap_places (s : State) (id : Nat) (items : List Nat) : (s.raise id items).dap.places = s.dap.places := (raised_raise _ _ _).dap_places
@[simp] theorem raise_dap_reasm (s : State) (id : Nat) (items : List Nat) : (s.raise id items).dap.reasm = s.dap.reasm := (raised_raise _ _ _).dap_reasm
@[simp] theorem raise_dap_ways (s : State) (id : Nat) (items : List Nat) : (s.raise id items).dap.ways = s.dap.ways := (raised_raise _ _ _).dap_ways
@[simp] theorem raise_dap_can (s : State) (id : Nat) (items : List Nat) : (s.raise id items).dap.can = s.dap.can := (raised_raise _ _ _).dap_can
@[simp] theorem raise_dap_netLink (s : State) (id : Nat) (items : List Nat) : (s.raise id items).dap.netLink = s.dap.netLink := (raised_raise _ _ _).dap_netLink
@[simp] theorem raise_dap_datagrams (s : State) (id : Nat) (items : List Nat) : (s.raise id items).dap.datagrams = s.dap.datagrams := (raised_raise _ _ _).dap_datagrams
@[simp] theorem raise_dap_save (s : State) (id : Nat) (items : List Nat) : (s.raise id items).dap.save = s.dap.save := (raised_raise _ _ _).dap_save
@[simp] theorem raise_dap_waiting (s : State) (id : Nat) (items : List Nat) : (s.raise id items).dap.waiting = s.dap.waiting := (raised_raise _ _ _).dap_waiting
@[simp] theorem raise_dap_lockMsg (s : State) (id : Nat) (items : List Nat) : (s.raise id items).dap.lockMsg = s.dap.lockMsg := (raised_raise _ _ _).dap_lockMsg
theorem raise_reg (s : State) (id : Nat) (items : List Nat) (k : Nat) (h : k ∉ raiseCounts) : (s.raise id items).reg k = s.reg k := (raised_raise _ _ _).reg k h

@[simp] theorem raiseAs_dt (s : State) (id : Nat) (items : List Nat) (mode : RecMode) : (s.raiseAs id items mode).dt = s.dt := (raised_raiseAs _ _ _ _).dt
@[simp] theorem raiseAs_out (s : State) (id : Nat) (items : List Nat) (mode : RecMode) : (s.raiseAs id items mode).out = s.out := (raised_raiseAs _ _ _ _).out
@[simp] theorem raiseAs_free (s : State) (id : Nat) (items : List Nat) (mode : RecMode) : (s.raiseAs id items mode).free = s.free := (raised_raiseAs _ _ _ _).free
@[simp] theorem raiseAs_inForce (s : State) (id : Nat) (items : List Nat) (mode : RecMode) : (s.raiseAs id items mode).inForce = s.inForce := (raised_raiseAs _ _ _ _).inForce
@[simp] theorem raiseAs_sup (s : State) (id : Nat) (items : List Nat) (mode : RecMode) : (s.raiseAs id items mode).sup = s.sup := (raised_raiseAs _ _ _ _).sup
@[simp] theorem raiseAs_phy (s : State) (id : Nat) (items : List Nat) (mode : RecMode) : (s.raiseAs id items mode).phy = s.phy := (raised_raiseAs _ _ _ _).phy
@[simp] theorem raiseAs_lnk (s : State) (id : Nat) (items : List Nat) (mode : RecMode) : (s.raiseAs id items mode).lnk = s.lnk := (raised_raiseAs _ _ _ _).lnk
@[simp] theorem raiseAs_eps (s : State) (id : Nat) (items : List Nat) (mode : RecMode) : (s.raiseAs id items mode).eps = s.eps := (raised_raiseAs _ _ _ _).eps
@[simp] theorem raiseAs_str (s : State) (id : Nat) (items : List Nat) (mode : RecMode) : (s.raiseAs id items mode).str = s.str := (raised_raiseAs _ _ _ _).str
@[simp] theorem raiseAs_fab (s : State) (id : Nat) (items : List Nat) (mode : RecMode) : (s.raiseAs id items mode).fab = s.fab := (raised_raiseAs _ _ _ _).fab
@[simp] theorem raiseAs_conv (s : State) (id : Nat) (items : List Nat) (mode : RecMode) : (s.raiseAs id items mode).conv = s.conv := (raised_raiseAs _ _ _ _).conv
@[simp] theorem raiseAs_cmp (s : State) (id : Nat) (items : List Nat) (mode : RecMode) : (s.raiseAs id items mode).cmp = s.cmp := (raised_raiseAs _ _ _ _).cmp
@[simp] theorem raiseAs_comp (s : State) (id : Nat) (items : List Nat) (mode : RecMode) : (s.raiseAs id items mode).comp = s.comp := (raised_raiseAs _ _ _ _).comp
@[simp] theorem raiseAs_clk (s : State) (id : Nat) (items : List Nat) (mode : RecMode) : (s.raiseAs id items mode).clk = s.clk := (raised_raiseAs _ _ _ _).clk
@[simp] theorem raiseAs_sec (s : State) (id : Nat) (items : List Nat) (mode : RecMode) : (s.raiseAs id items mode).sec = s.sec := (raised_raiseAs _ _ _ _).sec
@[simp] theorem raiseAs_start (s : State) (id : Nat) (items : List Nat) (mode : RecMode) : (s.raiseAs id items mode).start = s.start := (raised_raiseAs _ _ _ _).start
@[simp] theorem raiseAs_pwr (s : State) (id : Nat) (items : List Nat) (mode : RecMode) : (s.raiseAs id items mode).pwr = s.pwr := (raised_raiseAs _ _ _ _).pwr
@[simp] theorem raiseAs_nvm (s : State) (id : Nat) (items : List Nat) (mode : RecMode) : (s.raiseAs id items mode).nvm = s.nvm := (raised_raiseAs _ _ _ _).nvm
@[simp] theorem raiseAs_pending (s : State) (id : Nat) (items : List Nat) (mode : RecMode) : (s.raiseAs id items mode).pending = s.pending := (raised_raiseAs _ _ _ _).pending
@[simp] theorem raiseAs_fs_mode (s : State) (id : Nat) (items : List Nat) (mode : RecMode) : (s.raiseAs id items mode).fs.mode = s.fs.mode := (raised_raiseAs _ _ _ _).fs_mode
@[simp] theorem raiseAs_fs_place (s : State) (id : Nat) (items : List Nat) (mode : RecMode) : (s.raiseAs id items mode).fs.place = s.fs.place := (raised_raiseAs _ _ _ _).fs_place
@[simp] theorem raiseAs_fs_bufs (s : State) (id : Nat) (items : List Nat) (mode : RecMode) : (s.raiseAs id items mode).fs.bufs = s.fs.bufs := (raised_raiseAs _ _ _ _).fs_bufs
@[simp] theorem raiseAs_fs_mem (s : State) (id : Nat) (items : List Nat) (mode : RecMode) : (s.raiseAs id items mode).fs.mem = s.fs.mem := (raised_raiseAs _ _ _ _).fs_mem
@[simp] theorem raiseAs_fs_writes (s : State) (id : Nat) (items : List Nat) (mode : RecMode) : (s.raiseAs id items mode).fs.writes = s.fs.writes := (raised_raiseAs _ _ _ _).fs_writes
@[simp] theorem raiseAs_fs_chans (s : State) (id : Nat) (items : List Nat) (mode : RecMode) : (s.raiseAs id items mode).fs.chans = s.fs.chans := (raised_raiseAs _ _ _ _).fs_chans
@[simp] theorem raiseAs_fs_sweep (s : State) (id : Nat) (items : List Nat) (mode : RecMode) : (s.raiseAs id items mode).fs.sweep = s.fs.sweep := (raised_raiseAs _ _ _ _).fs_sweep
@[simp] theorem raiseAs_fs_genBase (s : State) (id : Nat) (items : List Nat) (mode : RecMode) : (s.raiseAs id items mode).fs.genBase = s.fs.genBase := (raised_raiseAs _ _ _ _).fs_genBase
@[simp] theorem raiseAs_fs_overPools (s : State) (id : Nat) (items : List Nat) (mode : RecMode) : (s.raiseAs id items mode).fs.overPools = s.fs.overPools := (raised_raiseAs _ _ _ _).fs_overPools
@[simp] theorem raiseAs_fs_fetches (s : State) (id : Nat) (items : List Nat) (mode : RecMode) : (s.raiseAs id items mode).fs.fetches = s.fs.fetches := (raised_raiseAs _ _ _ _).fs_fetches
@[simp] theorem raiseAs_fs_fetchSum (s : State) (id : Nat) (items : List Nat) (mode : RecMode) : (s.raiseAs id items mode).fs.fetchSum = s.fs.fetchSum := (raised_raiseAs _ _ _ _).fs_fetchSum
@[simp] theorem raiseAs_aud_running (s : State) (id : Nat) (items : List Nat) (mode : RecMode) : (s.raiseAs id items mode).aud.running = s.aud.running := (raised_raiseAs _ _ _ _).aud_running
@[simp] theorem raiseAs_aud_bind (s : State) (id : Nat) (items : List Nat) (mode : RecMode) : (s.raiseAs id items mode).aud.bind = s.aud.bind := (raised_raiseAs _ _ _ _).aud_bind
@[simp] theorem raiseAs_aud_waiting (s : State) (id : Nat) (items : List Nat) (mode : RecMode) : (s.raiseAs id items mode).aud.waiting = s.aud.waiting := (raised_raiseAs _ _ _ _).aud_waiting
@[simp] theorem raiseAs_aud_tdm (s : State) (id : Nat) (items : List Nat) (mode : RecMode) : (s.raiseAs id items mode).aud.tdm = s.aud.tdm := (raised_raiseAs _ _ _ _).aud_tdm
@[simp] theorem raiseAs_aud_ins (s : State) (id : Nat) (items : List Nat) (mode : RecMode) : (s.raiseAs id items mode).aud.ins = s.aud.ins := (raised_raiseAs _ _ _ _).aud_ins
@[simp] theorem raiseAs_aud_chimeMem (s : State) (id : Nat) (items : List Nat) (mode : RecMode) : (s.raiseAs id items mode).aud.chimeMem = s.aud.chimeMem := (raised_raiseAs _ _ _ _).aud_chimeMem
@[simp] theorem raiseAs_aud_missing (s : State) (id : Nat) (items : List Nat) (mode : RecMode) : (s.raiseAs id items mode).aud.missing = s.aud.missing := (raised_raiseAs _ _ _ _).aud_missing
@[simp] theorem raiseAs_aud_muteSince (s : State) (id : Nat) (items : List Nat) (mode : RecMode) : (s.raiseAs id items mode).aud.muteSince = s.aud.muteSince := (raised_raiseAs _ _ _ _).aud_muteSince
@[simp] theorem raiseAs_aud_muted (s : State) (id : Nat) (items : List Nat) (mode : RecMode) : (s.raiseAs id items mode).aud.muted = s.aud.muted := (raised_raiseAs _ _ _ _).aud_muted
@[simp] theorem raiseAs_dap_sessions (s : State) (id : Nat) (items : List Nat) (mode : RecMode) : (s.raiseAs id items mode).dap.sessions = s.dap.sessions := (raised_raiseAs _ _ _ _).dap_sessions
@[simp] theorem raiseAs_dap_kept (s : State) (id : Nat) (items : List Nat) (mode : RecMode) : (s.raiseAs id items mode).dap.kept = s.dap.kept := (raised_raiseAs _ _ _ _).dap_kept
@[simp] theorem raiseAs_dap_staged (s : State) (id : Nat) (items : List Nat) (mode : RecMode) : (s.raiseAs id items mode).dap.staged = s.dap.staged := (raised_raiseAs _ _ _ _).dap_staged
@[simp] theorem raiseAs_dap_snaps (s : State) (id : Nat) (items : List Nat) (mode : RecMode) : (s.raiseAs id items mode).dap.snaps = s.dap.snaps := (raised_raiseAs _ _ _ _).dap_snaps
@[simp] theorem raiseAs_dap_paths (s : State) (id : Nat) (items : List Nat) (mode : RecMode) : (s.raiseAs id items mode).dap.paths = s.dap.paths := (raised_raiseAs _ _ _ _).dap_paths
@[simp] theorem raiseAs_dap_places (s : State) (id : Nat) (items : List Nat) (mode : RecMode) : (s.raiseAs id items mode).dap.places = s.dap.places := (raised_raiseAs _ _ _ _).dap_places
@[simp] theorem raiseAs_dap_reasm (s : State) (id : Nat) (items : List Nat) (mode : RecMode) : (s.raiseAs id items mode).dap.reasm = s.dap.reasm := (raised_raiseAs _ _ _ _).dap_reasm
@[simp] theorem raiseAs_dap_ways (s : State) (id : Nat) (items : List Nat) (mode : RecMode) : (s.raiseAs id items mode).dap.ways = s.dap.ways := (raised_raiseAs _ _ _ _).dap_ways
@[simp] theorem raiseAs_dap_can (s : State) (id : Nat) (items : List Nat) (mode : RecMode) : (s.raiseAs id items mode).dap.can = s.dap.can := (raised_raiseAs _ _ _ _).dap_can
@[simp] theorem raiseAs_dap_netLink (s : State) (id : Nat) (items : List Nat) (mode : RecMode) : (s.raiseAs id items mode).dap.netLink = s.dap.netLink := (raised_raiseAs _ _ _ _).dap_netLink
@[simp] theorem raiseAs_dap_datagrams (s : State) (id : Nat) (items : List Nat) (mode : RecMode) : (s.raiseAs id items mode).dap.datagrams = s.dap.datagrams := (raised_raiseAs _ _ _ _).dap_datagrams
@[simp] theorem raiseAs_dap_save (s : State) (id : Nat) (items : List Nat) (mode : RecMode) : (s.raiseAs id items mode).dap.save = s.dap.save := (raised_raiseAs _ _ _ _).dap_save
@[simp] theorem raiseAs_dap_waiting (s : State) (id : Nat) (items : List Nat) (mode : RecMode) : (s.raiseAs id items mode).dap.waiting = s.dap.waiting := (raised_raiseAs _ _ _ _).dap_waiting
@[simp] theorem raiseAs_dap_lockMsg (s : State) (id : Nat) (items : List Nat) (mode : RecMode) : (s.raiseAs id items mode).dap.lockMsg = s.dap.lockMsg := (raised_raiseAs _ _ _ _).dap_lockMsg
theorem raiseAs_reg (s : State) (id : Nat) (items : List Nat) (mode : RecMode) (k : Nat) (h : k ∉ raiseCounts) : (s.raiseAs id items mode).reg k = s.reg k := (raised_raiseAs _ _ _ _).reg k h

@[simp] theorem raiseLimited_dt (s : State) (period id : Nat) (items : List Nat) : (s.raiseLimited period id items).dt = s.dt := (raised_raiseLimited _ _ _ _).dt
@[simp] theorem raiseLimited_out (s : State) (period id : Nat) (items : List Nat) : (s.raiseLimited period id items).out = s.out := (raised_raiseLimited _ _ _ _).out
@[simp] theorem raiseLimited_free (s : State) (period id : Nat) (items : List Nat) : (s.raiseLimited period id items).free = s.free := (raised_raiseLimited _ _ _ _).free
@[simp] theorem raiseLimited_inForce (s : State) (period id : Nat) (items : List Nat) : (s.raiseLimited period id items).inForce = s.inForce := (raised_raiseLimited _ _ _ _).inForce
@[simp] theorem raiseLimited_sup (s : State) (period id : Nat) (items : List Nat) : (s.raiseLimited period id items).sup = s.sup := (raised_raiseLimited _ _ _ _).sup
@[simp] theorem raiseLimited_phy (s : State) (period id : Nat) (items : List Nat) : (s.raiseLimited period id items).phy = s.phy := (raised_raiseLimited _ _ _ _).phy
@[simp] theorem raiseLimited_lnk (s : State) (period id : Nat) (items : List Nat) : (s.raiseLimited period id items).lnk = s.lnk := (raised_raiseLimited _ _ _ _).lnk
@[simp] theorem raiseLimited_eps (s : State) (period id : Nat) (items : List Nat) : (s.raiseLimited period id items).eps = s.eps := (raised_raiseLimited _ _ _ _).eps
@[simp] theorem raiseLimited_str (s : State) (period id : Nat) (items : List Nat) : (s.raiseLimited period id items).str = s.str := (raised_raiseLimited _ _ _ _).str
@[simp] theorem raiseLimited_fab (s : State) (period id : Nat) (items : List Nat) : (s.raiseLimited period id items).fab = s.fab := (raised_raiseLimited _ _ _ _).fab
@[simp] theorem raiseLimited_conv (s : State) (period id : Nat) (items : List Nat) : (s.raiseLimited period id items).conv = s.conv := (raised_raiseLimited _ _ _ _).conv
@[simp] theorem raiseLimited_cmp (s : State) (period id : Nat) (items : List Nat) : (s.raiseLimited period id items).cmp = s.cmp := (raised_raiseLimited _ _ _ _).cmp
@[simp] theorem raiseLimited_comp (s : State) (period id : Nat) (items : List Nat) : (s.raiseLimited period id items).comp = s.comp := (raised_raiseLimited _ _ _ _).comp
@[simp] theorem raiseLimited_clk (s : State) (period id : Nat) (items : List Nat) : (s.raiseLimited period id items).clk = s.clk := (raised_raiseLimited _ _ _ _).clk
@[simp] theorem raiseLimited_sec (s : State) (period id : Nat) (items : List Nat) : (s.raiseLimited period id items).sec = s.sec := (raised_raiseLimited _ _ _ _).sec
@[simp] theorem raiseLimited_start (s : State) (period id : Nat) (items : List Nat) : (s.raiseLimited period id items).start = s.start := (raised_raiseLimited _ _ _ _).start
@[simp] theorem raiseLimited_pwr (s : State) (period id : Nat) (items : List Nat) : (s.raiseLimited period id items).pwr = s.pwr := (raised_raiseLimited _ _ _ _).pwr
@[simp] theorem raiseLimited_nvm (s : State) (period id : Nat) (items : List Nat) : (s.raiseLimited period id items).nvm = s.nvm := (raised_raiseLimited _ _ _ _).nvm
@[simp] theorem raiseLimited_pending (s : State) (period id : Nat) (items : List Nat) : (s.raiseLimited period id items).pending = s.pending := (raised_raiseLimited _ _ _ _).pending
@[simp] theorem raiseLimited_fs_mode (s : State) (period id : Nat) (items : List Nat) : (s.raiseLimited period id items).fs.mode = s.fs.mode := (raised_raiseLimited _ _ _ _).fs_mode
@[simp] theorem raiseLimited_fs_place (s : State) (period id : Nat) (items : List Nat) : (s.raiseLimited period id items).fs.place = s.fs.place := (raised_raiseLimited _ _ _ _).fs_place
@[simp] theorem raiseLimited_fs_bufs (s : State) (period id : Nat) (items : List Nat) : (s.raiseLimited period id items).fs.bufs = s.fs.bufs := (raised_raiseLimited _ _ _ _).fs_bufs
@[simp] theorem raiseLimited_fs_mem (s : State) (period id : Nat) (items : List Nat) : (s.raiseLimited period id items).fs.mem = s.fs.mem := (raised_raiseLimited _ _ _ _).fs_mem
@[simp] theorem raiseLimited_fs_writes (s : State) (period id : Nat) (items : List Nat) : (s.raiseLimited period id items).fs.writes = s.fs.writes := (raised_raiseLimited _ _ _ _).fs_writes
@[simp] theorem raiseLimited_fs_chans (s : State) (period id : Nat) (items : List Nat) : (s.raiseLimited period id items).fs.chans = s.fs.chans := (raised_raiseLimited _ _ _ _).fs_chans
@[simp] theorem raiseLimited_fs_sweep (s : State) (period id : Nat) (items : List Nat) : (s.raiseLimited period id items).fs.sweep = s.fs.sweep := (raised_raiseLimited _ _ _ _).fs_sweep
@[simp] theorem raiseLimited_fs_genBase (s : State) (period id : Nat) (items : List Nat) : (s.raiseLimited period id items).fs.genBase = s.fs.genBase := (raised_raiseLimited _ _ _ _).fs_genBase
@[simp] theorem raiseLimited_fs_overPools (s : State) (period id : Nat) (items : List Nat) : (s.raiseLimited period id items).fs.overPools = s.fs.overPools := (raised_raiseLimited _ _ _ _).fs_overPools
@[simp] theorem raiseLimited_fs_fetches (s : State) (period id : Nat) (items : List Nat) : (s.raiseLimited period id items).fs.fetches = s.fs.fetches := (raised_raiseLimited _ _ _ _).fs_fetches
@[simp] theorem raiseLimited_fs_fetchSum (s : State) (period id : Nat) (items : List Nat) : (s.raiseLimited period id items).fs.fetchSum = s.fs.fetchSum := (raised_raiseLimited _ _ _ _).fs_fetchSum
@[simp] theorem raiseLimited_aud_running (s : State) (period id : Nat) (items : List Nat) : (s.raiseLimited period id items).aud.running = s.aud.running := (raised_raiseLimited _ _ _ _).aud_running
@[simp] theorem raiseLimited_aud_bind (s : State) (period id : Nat) (items : List Nat) : (s.raiseLimited period id items).aud.bind = s.aud.bind := (raised_raiseLimited _ _ _ _).aud_bind
@[simp] theorem raiseLimited_aud_waiting (s : State) (period id : Nat) (items : List Nat) : (s.raiseLimited period id items).aud.waiting = s.aud.waiting := (raised_raiseLimited _ _ _ _).aud_waiting
@[simp] theorem raiseLimited_aud_tdm (s : State) (period id : Nat) (items : List Nat) : (s.raiseLimited period id items).aud.tdm = s.aud.tdm := (raised_raiseLimited _ _ _ _).aud_tdm
@[simp] theorem raiseLimited_aud_ins (s : State) (period id : Nat) (items : List Nat) : (s.raiseLimited period id items).aud.ins = s.aud.ins := (raised_raiseLimited _ _ _ _).aud_ins
@[simp] theorem raiseLimited_aud_chimeMem (s : State) (period id : Nat) (items : List Nat) : (s.raiseLimited period id items).aud.chimeMem = s.aud.chimeMem := (raised_raiseLimited _ _ _ _).aud_chimeMem
@[simp] theorem raiseLimited_aud_missing (s : State) (period id : Nat) (items : List Nat) : (s.raiseLimited period id items).aud.missing = s.aud.missing := (raised_raiseLimited _ _ _ _).aud_missing
@[simp] theorem raiseLimited_aud_muteSince (s : State) (period id : Nat) (items : List Nat) : (s.raiseLimited period id items).aud.muteSince = s.aud.muteSince := (raised_raiseLimited _ _ _ _).aud_muteSince
@[simp] theorem raiseLimited_aud_muted (s : State) (period id : Nat) (items : List Nat) : (s.raiseLimited period id items).aud.muted = s.aud.muted := (raised_raiseLimited _ _ _ _).aud_muted
@[simp] theorem raiseLimited_dap_sessions (s : State) (period id : Nat) (items : List Nat) : (s.raiseLimited period id items).dap.sessions = s.dap.sessions := (raised_raiseLimited _ _ _ _).dap_sessions
@[simp] theorem raiseLimited_dap_kept (s : State) (period id : Nat) (items : List Nat) : (s.raiseLimited period id items).dap.kept = s.dap.kept := (raised_raiseLimited _ _ _ _).dap_kept
@[simp] theorem raiseLimited_dap_staged (s : State) (period id : Nat) (items : List Nat) : (s.raiseLimited period id items).dap.staged = s.dap.staged := (raised_raiseLimited _ _ _ _).dap_staged
@[simp] theorem raiseLimited_dap_snaps (s : State) (period id : Nat) (items : List Nat) : (s.raiseLimited period id items).dap.snaps = s.dap.snaps := (raised_raiseLimited _ _ _ _).dap_snaps
@[simp] theorem raiseLimited_dap_paths (s : State) (period id : Nat) (items : List Nat) : (s.raiseLimited period id items).dap.paths = s.dap.paths := (raised_raiseLimited _ _ _ _).dap_paths
@[simp] theorem raiseLimited_dap_places (s : State) (period id : Nat) (items : List Nat) : (s.raiseLimited period id items).dap.places = s.dap.places := (raised_raiseLimited _ _ _ _).dap_places
@[simp] theorem raiseLimited_dap_reasm (s : State) (period id : Nat) (items : List Nat) : (s.raiseLimited period id items).dap.reasm = s.dap.reasm := (raised_raiseLimited _ _ _ _).dap_reasm
@[simp] theorem raiseLimited_dap_ways (s : State) (period id : Nat) (items : List Nat) : (s.raiseLimited period id items).dap.ways = s.dap.ways := (raised_raiseLimited _ _ _ _).dap_ways
@[simp] theorem raiseLimited_dap_can (s : State) (period id : Nat) (items : List Nat) : (s.raiseLimited period id items).dap.can = s.dap.can := (raised_raiseLimited _ _ _ _).dap_can
@[simp] theorem raiseLimited_dap_netLink (s : State) (period id : Nat) (items : List Nat) : (s.raiseLimited period id items).dap.netLink = s.dap.netLink := (raised_raiseLimited _ _ _ _).dap_netLink
@[simp] theorem raiseLimited_dap_datagrams (s : State) (period id : Nat) (items : List Nat) : (s.raiseLimited period id items).dap.datagrams = s.dap.datagrams := (raised_raiseLimited _ _ _ _).dap_datagrams
@[simp] theorem raiseLimited_dap_save (s : State) (period id : Nat) (items : List Nat) : (s.raiseLimited period id items).dap.save = s.dap.save := (raised_raiseLimited _ _ _ _).dap_save
@[simp] theorem raiseLimited_dap_waiting (s : State) (period id : Nat) (items : List Nat) : (s.raiseLimited period id items).dap.waiting = s.dap.waiting := (raised_raiseLimited _ _ _ _).dap_waiting
@[simp] theorem raiseLimited_dap_lockMsg (s : State) (period id : Nat) (items : List Nat) : (s.raiseLimited period id items).dap.lockMsg = s.dap.lockMsg := (raised_raiseLimited _ _ _ _).dap_lockMsg
theorem raiseLimited_reg (s : State) (period id : Nat) (items : List Nat) (k : Nat) (h : k ∉ raiseCounts) : (s.raiseLimited period id items).reg k = s.reg k := (raised_raiseLimited _ _ _ _).reg k h

@[simp] theorem raiseN_dt (s : State) (fuel id : Nat) (items : List Nat) (test : Bool) (mode : RecMode) : (raiseN fuel id items test mode s).dt = s.dt := (raised_raiseN _ _ _ _ _ _).dt
@[simp] theorem raiseN_out (s : State) (fuel id : Nat) (items : List Nat) (test : Bool) (mode : RecMode) : (raiseN fuel id items test mode s).out = s.out := (raised_raiseN _ _ _ _ _ _).out
@[simp] theorem raiseN_free (s : State) (fuel id : Nat) (items : List Nat) (test : Bool) (mode : RecMode) : (raiseN fuel id items test mode s).free = s.free := (raised_raiseN _ _ _ _ _ _).free
@[simp] theorem raiseN_inForce (s : State) (fuel id : Nat) (items : List Nat) (test : Bool) (mode : RecMode) : (raiseN fuel id items test mode s).inForce = s.inForce := (raised_raiseN _ _ _ _ _ _).inForce
@[simp] theorem raiseN_sup (s : State) (fuel id : Nat) (items : List Nat) (test : Bool) (mode : RecMode) : (raiseN fuel id items test mode s).sup = s.sup := (raised_raiseN _ _ _ _ _ _).sup
@[simp] theorem raiseN_phy (s : State) (fuel id : Nat) (items : List Nat) (test : Bool) (mode : RecMode) : (raiseN fuel id items test mode s).phy = s.phy := (raised_raiseN _ _ _ _ _ _).phy
@[simp] theorem raiseN_lnk (s : State) (fuel id : Nat) (items : List Nat) (test : Bool) (mode : RecMode) : (raiseN fuel id items test mode s).lnk = s.lnk := (raised_raiseN _ _ _ _ _ _).lnk
@[simp] theorem raiseN_eps (s : State) (fuel id : Nat) (items : List Nat) (test : Bool) (mode : RecMode) : (raiseN fuel id items test mode s).eps = s.eps := (raised_raiseN _ _ _ _ _ _).eps
@[simp] theorem raiseN_str (s : State) (fuel id : Nat) (items : List Nat) (test : Bool) (mode : RecMode) : (raiseN fuel id items test mode s).str = s.str := (raised_raiseN _ _ _ _ _ _).str
@[simp] theorem raiseN_fab (s : State) (fuel id : Nat) (items : List Nat) (test : Bool) (mode : RecMode) : (raiseN fuel id items test mode s).fab = s.fab := (raised_raiseN _ _ _ _ _ _).fab
@[simp] theorem raiseN_conv (s : State) (fuel id : Nat) (items : List Nat) (test : Bool) (mode : RecMode) : (raiseN fuel id items test mode s).conv = s.conv := (raised_raiseN _ _ _ _ _ _).conv
@[simp] theorem raiseN_cmp (s : State) (fuel id : Nat) (items : List Nat) (test : Bool) (mode : RecMode) : (raiseN fuel id items test mode s).cmp = s.cmp := (raised_raiseN _ _ _ _ _ _).cmp
@[simp] theorem raiseN_comp (s : State) (fuel id : Nat) (items : List Nat) (test : Bool) (mode : RecMode) : (raiseN fuel id items test mode s).comp = s.comp := (raised_raiseN _ _ _ _ _ _).comp
@[simp] theorem raiseN_clk (s : State) (fuel id : Nat) (items : List Nat) (test : Bool) (mode : RecMode) : (raiseN fuel id items test mode s).clk = s.clk := (raised_raiseN _ _ _ _ _ _).clk
@[simp] theorem raiseN_sec (s : State) (fuel id : Nat) (items : List Nat) (test : Bool) (mode : RecMode) : (raiseN fuel id items test mode s).sec = s.sec := (raised_raiseN _ _ _ _ _ _).sec
@[simp] theorem raiseN_start (s : State) (fuel id : Nat) (items : List Nat) (test : Bool) (mode : RecMode) : (raiseN fuel id items test mode s).start = s.start := (raised_raiseN _ _ _ _ _ _).start
@[simp] theorem raiseN_pwr (s : State) (fuel id : Nat) (items : List Nat) (test : Bool) (mode : RecMode) : (raiseN fuel id items test mode s).pwr = s.pwr := (raised_raiseN _ _ _ _ _ _).pwr
@[simp] theorem raiseN_nvm (s : State) (fuel id : Nat) (items : List Nat) (test : Bool) (mode : RecMode) : (raiseN fuel id items test mode s).nvm = s.nvm := (raised_raiseN _ _ _ _ _ _).nvm
@[simp] theorem raiseN_pending (s : State) (fuel id : Nat) (items : List Nat) (test : Bool) (mode : RecMode) : (raiseN fuel id items test mode s).pending = s.pending := (raised_raiseN _ _ _ _ _ _).pending
@[simp] theorem raiseN_fs_mode (s : State) (fuel id : Nat) (items : List Nat) (test : Bool) (mode : RecMode) : (raiseN fuel id items test mode s).fs.mode = s.fs.mode := (raised_raiseN _ _ _ _ _ _).fs_mode
@[simp] theorem raiseN_fs_place (s : State) (fuel id : Nat) (items : List Nat) (test : Bool) (mode : RecMode) : (raiseN fuel id items test mode s).fs.place = s.fs.place := (raised_raiseN _ _ _ _ _ _).fs_place
@[simp] theorem raiseN_fs_bufs (s : State) (fuel id : Nat) (items : List Nat) (test : Bool) (mode : RecMode) : (raiseN fuel id items test mode s).fs.bufs = s.fs.bufs := (raised_raiseN _ _ _ _ _ _).fs_bufs
@[simp] theorem raiseN_fs_mem (s : State) (fuel id : Nat) (items : List Nat) (test : Bool) (mode : RecMode) : (raiseN fuel id items test mode s).fs.mem = s.fs.mem := (raised_raiseN _ _ _ _ _ _).fs_mem
@[simp] theorem raiseN_fs_writes (s : State) (fuel id : Nat) (items : List Nat) (test : Bool) (mode : RecMode) : (raiseN fuel id items test mode s).fs.writes = s.fs.writes := (raised_raiseN _ _ _ _ _ _).fs_writes
@[simp] theorem raiseN_fs_chans (s : State) (fuel id : Nat) (items : List Nat) (test : Bool) (mode : RecMode) : (raiseN fuel id items test mode s).fs.chans = s.fs.chans := (raised_raiseN _ _ _ _ _ _).fs_chans
@[simp] theorem raiseN_fs_sweep (s : State) (fuel id : Nat) (items : List Nat) (test : Bool) (mode : RecMode) : (raiseN fuel id items test mode s).fs.sweep = s.fs.sweep := (raised_raiseN _ _ _ _ _ _).fs_sweep
@[simp] theorem raiseN_fs_genBase (s : State) (fuel id : Nat) (items : List Nat) (test : Bool) (mode : RecMode) : (raiseN fuel id items test mode s).fs.genBase = s.fs.genBase := (raised_raiseN _ _ _ _ _ _).fs_genBase
@[simp] theorem raiseN_fs_overPools (s : State) (fuel id : Nat) (items : List Nat) (test : Bool) (mode : RecMode) : (raiseN fuel id items test mode s).fs.overPools = s.fs.overPools := (raised_raiseN _ _ _ _ _ _).fs_overPools
@[simp] theorem raiseN_fs_fetches (s : State) (fuel id : Nat) (items : List Nat) (test : Bool) (mode : RecMode) : (raiseN fuel id items test mode s).fs.fetches = s.fs.fetches := (raised_raiseN _ _ _ _ _ _).fs_fetches
@[simp] theorem raiseN_fs_fetchSum (s : State) (fuel id : Nat) (items : List Nat) (test : Bool) (mode : RecMode) : (raiseN fuel id items test mode s).fs.fetchSum = s.fs.fetchSum := (raised_raiseN _ _ _ _ _ _).fs_fetchSum
@[simp] theorem raiseN_aud_running (s : State) (fuel id : Nat) (items : List Nat) (test : Bool) (mode : RecMode) : (raiseN fuel id items test mode s).aud.running = s.aud.running := (raised_raiseN _ _ _ _ _ _).aud_running
@[simp] theorem raiseN_aud_bind (s : State) (fuel id : Nat) (items : List Nat) (test : Bool) (mode : RecMode) : (raiseN fuel id items test mode s).aud.bind = s.aud.bind := (raised_raiseN _ _ _ _ _ _).aud_bind
@[simp] theorem raiseN_aud_waiting (s : State) (fuel id : Nat) (items : List Nat) (test : Bool) (mode : RecMode) : (raiseN fuel id items test mode s).aud.waiting = s.aud.waiting := (raised_raiseN _ _ _ _ _ _).aud_waiting
@[simp] theorem raiseN_aud_tdm (s : State) (fuel id : Nat) (items : List Nat) (test : Bool) (mode : RecMode) : (raiseN fuel id items test mode s).aud.tdm = s.aud.tdm := (raised_raiseN _ _ _ _ _ _).aud_tdm
@[simp] theorem raiseN_aud_ins (s : State) (fuel id : Nat) (items : List Nat) (test : Bool) (mode : RecMode) : (raiseN fuel id items test mode s).aud.ins = s.aud.ins := (raised_raiseN _ _ _ _ _ _).aud_ins
@[simp] theorem raiseN_aud_chimeMem (s : State) (fuel id : Nat) (items : List Nat) (test : Bool) (mode : RecMode) : (raiseN fuel id items test mode s).aud.chimeMem = s.aud.chimeMem := (raised_raiseN _ _ _ _ _ _).aud_chimeMem
@[simp] theorem raiseN_aud_missing (s : State) (fuel id : Nat) (items : List Nat) (test : Bool) (mode : RecMode) : (raiseN fuel id items test mode s).aud.missing = s.aud.missing := (raised_raiseN _ _ _ _ _ _).aud_missing
@[simp] theorem raiseN_aud_muteSince (s : State) (fuel id : Nat) (items : List Nat) (test : Bool) (mode : RecMode) : (raiseN fuel id items test mode s).aud.muteSince = s.aud.muteSince := (raised_raiseN _ _ _ _ _ _).aud_muteSince
@[simp] theorem raiseN_aud_muted (s : State) (fuel id : Nat) (items : List Nat) (test : Bool) (mode : RecMode) : (raiseN fuel id items test mode s).aud.muted = s.aud.muted := (raised_raiseN _ _ _ _ _ _).aud_muted
@[simp] theorem raiseN_dap_sessions (s : State) (fuel id : Nat) (items : List Nat) (test : Bool) (mode : RecMode) : (raiseN fuel id items test mode s).dap.sessions = s.dap.sessions := (raised_raiseN _ _ _ _ _ _).dap_sessions
@[simp] theorem raiseN_dap_kept (s : State) (fuel id : Nat) (items : List Nat) (test : Bool) (mode : RecMode) : (raiseN fuel id items test mode s).dap.kept = s.dap.kept := (raised_raiseN _ _ _ _ _ _).dap_kept
@[simp] theorem raiseN_dap_staged (s : State) (fuel id : Nat) (items : List Nat) (test : Bool) (mode : RecMode) : (raiseN fuel id items test mode s).dap.staged = s.dap.staged := (raised_raiseN _ _ _ _ _ _).dap_staged
@[simp] theorem raiseN_dap_snaps (s : State) (fuel id : Nat) (items : List Nat) (test : Bool) (mode : RecMode) : (raiseN fuel id items test mode s).dap.snaps = s.dap.snaps := (raised_raiseN _ _ _ _ _ _).dap_snaps
@[simp] theorem raiseN_dap_paths (s : State) (fuel id : Nat) (items : List Nat) (test : Bool) (mode : RecMode) : (raiseN fuel id items test mode s).dap.paths = s.dap.paths := (raised_raiseN _ _ _ _ _ _).dap_paths
@[simp] theorem raiseN_dap_places (s : State) (fuel id : Nat) (items : List Nat) (test : Bool) (mode : RecMode) : (raiseN fuel id items test mode s).dap.places = s.dap.places := (raised_raiseN _ _ _ _ _ _).dap_places
@[simp] theorem raiseN_dap_reasm (s : State) (fuel id : Nat) (items : List Nat) (test : Bool) (mode : RecMode) : (raiseN fuel id items test mode s).dap.reasm = s.dap.reasm := (raised_raiseN _ _ _ _ _ _).dap_reasm
@[simp] theorem raiseN_dap_ways (s : State) (fuel id : Nat) (items : List Nat) (test : Bool) (mode : RecMode) : (raiseN fuel id items test mode s).dap.ways = s.dap.ways := (raised_raiseN _ _ _ _ _ _).dap_ways
@[simp] theorem raiseN_dap_can (s : State) (fuel id : Nat) (items : List Nat) (test : Bool) (mode : RecMode) : (raiseN fuel id items test mode s).dap.can = s.dap.can := (raised_raiseN _ _ _ _ _ _).dap_can
@[simp] theorem raiseN_dap_netLink (s : State) (fuel id : Nat) (items : List Nat) (test : Bool) (mode : RecMode) : (raiseN fuel id items test mode s).dap.netLink = s.dap.netLink := (raised_raiseN _ _ _ _ _ _).dap_netLink
@[simp] theorem raiseN_dap_datagrams (s : State) (fuel id : Nat) (items : List Nat) (test : Bool) (mode : RecMode) : (raiseN fuel id items test mode s).dap.datagrams = s.dap.datagrams := (raised_raiseN _ _ _ _ _ _).dap_datagrams
@[simp] theorem raiseN_dap_save (s : State) (fuel id : Nat) (items : List Nat) (test : Bool) (mode : RecMode) : (raiseN fuel id items test mode s).dap.save = s.dap.save := (raised_raiseN _ _ _ _ _ _).dap_save
@[simp] theorem raiseN_dap_waiting (s : State) (fuel id : Nat) (items : List Nat) (test : Bool) (mode : RecMode) : (raiseN fuel id items test mode s).dap.waiting = s.dap.waiting := (raised_raiseN _ _ _ _ _ _).dap_waiting
@[simp] theorem raiseN_dap_lockMsg (s : State) (fuel id : Nat) (items : List Nat) (test : Bool) (mode : RecMode) : (raiseN fuel id items test mode s).dap.lockMsg = s.dap.lockMsg := (raised_raiseN _ _ _ _ _ _).dap_lockMsg
theorem raiseN_reg (s : State) (fuel id : Nat) (items : List Nat) (test : Bool) (mode : RecMode) (k : Nat) (h : k ∉ raiseCounts) : (raiseN fuel id items test mode s).reg k = s.reg k := (raised_raiseN _ _ _ _ _ _).reg k h

@[simp] theorem cbWrite_dt (s : State) (type : Nat) (body : List Nat) : (cbWrite type body s).dt = s.dt := (raised_cbWrite _ _ _).dt
@[simp] theorem cbWrite_out (s : State) (type : Nat) (body : List Nat) : (cbWrite type body s).out = s.out := (raised_cbWrite _ _ _).out
@[simp] theorem cbWrite_free (s : State) (type : Nat) (body : List Nat) : (cbWrite type body s).free = s.free := (raised_cbWrite _ _ _).free
@[simp] theorem cbWrite_inForce (s : State) (type : Nat) (body : List Nat) : (cbWrite type body s).inForce = s.inForce := (raised_cbWrite _ _ _).inForce
@[simp] theorem cbWrite_sup (s : State) (type : Nat) (body : List Nat) : (cbWrite type body s).sup = s.sup := (raised_cbWrite _ _ _).sup
@[simp] theorem cbWrite_phy (s : State) (type : Nat) (body : List Nat) : (cbWrite type body s).phy = s.phy := (raised_cbWrite _ _ _).phy
@[simp] theorem cbWrite_lnk (s : State) (type : Nat) (body : List Nat) : (cbWrite type body s).lnk = s.lnk := (raised_cbWrite _ _ _).lnk
@[simp] theorem cbWrite_eps (s : State) (type : Nat) (body : List Nat) : (cbWrite type body s).eps = s.eps := (raised_cbWrite _ _ _).eps
@[simp] theorem cbWrite_str (s : State) (type : Nat) (body : List Nat) : (cbWrite type body s).str = s.str := (raised_cbWrite _ _ _).str
@[simp] theorem cbWrite_fab (s : State) (type : Nat) (body : List Nat) : (cbWrite type body s).fab = s.fab := (raised_cbWrite _ _ _).fab
@[simp] theorem cbWrite_conv (s : State) (type : Nat) (body : List Nat) : (cbWrite type body s).conv = s.conv := (raised_cbWrite _ _ _).conv
@[simp] theorem cbWrite_cmp (s : State) (type : Nat) (body : List Nat) : (cbWrite type body s).cmp = s.cmp := (raised_cbWrite _ _ _).cmp
@[simp] theorem cbWrite_comp (s : State) (type : Nat) (body : List Nat) : (cbWrite type body s).comp = s.comp := (raised_cbWrite _ _ _).comp
@[simp] theorem cbWrite_clk (s : State) (type : Nat) (body : List Nat) : (cbWrite type body s).clk = s.clk := (raised_cbWrite _ _ _).clk
@[simp] theorem cbWrite_sec (s : State) (type : Nat) (body : List Nat) : (cbWrite type body s).sec = s.sec := (raised_cbWrite _ _ _).sec
@[simp] theorem cbWrite_start (s : State) (type : Nat) (body : List Nat) : (cbWrite type body s).start = s.start := (raised_cbWrite _ _ _).start
@[simp] theorem cbWrite_pwr (s : State) (type : Nat) (body : List Nat) : (cbWrite type body s).pwr = s.pwr := (raised_cbWrite _ _ _).pwr
@[simp] theorem cbWrite_nvm (s : State) (type : Nat) (body : List Nat) : (cbWrite type body s).nvm = s.nvm := (raised_cbWrite _ _ _).nvm
@[simp] theorem cbWrite_pending (s : State) (type : Nat) (body : List Nat) : (cbWrite type body s).pending = s.pending := (raised_cbWrite _ _ _).pending
@[simp] theorem cbWrite_fs_mode (s : State) (type : Nat) (body : List Nat) : (cbWrite type body s).fs.mode = s.fs.mode := (raised_cbWrite _ _ _).fs_mode
@[simp] theorem cbWrite_fs_place (s : State) (type : Nat) (body : List Nat) : (cbWrite type body s).fs.place = s.fs.place := (raised_cbWrite _ _ _).fs_place
@[simp] theorem cbWrite_fs_bufs (s : State) (type : Nat) (body : List Nat) : (cbWrite type body s).fs.bufs = s.fs.bufs := (raised_cbWrite _ _ _).fs_bufs
@[simp] theorem cbWrite_fs_mem (s : State) (type : Nat) (body : List Nat) : (cbWrite type body s).fs.mem = s.fs.mem := (raised_cbWrite _ _ _).fs_mem
@[simp] theorem cbWrite_fs_writes (s : State) (type : Nat) (body : List Nat) : (cbWrite type body s).fs.writes = s.fs.writes := (raised_cbWrite _ _ _).fs_writes
@[simp] theorem cbWrite_fs_chans (s : State) (type : Nat) (body : List Nat) : (cbWrite type body s).fs.chans = s.fs.chans := (raised_cbWrite _ _ _).fs_chans
@[simp] theorem cbWrite_fs_sweep (s : State) (type : Nat) (body : List Nat) : (cbWrite type body s).fs.sweep = s.fs.sweep := (raised_cbWrite _ _ _).fs_sweep
@[simp] theorem cbWrite_fs_genBase (s : State) (type : Nat) (body : List Nat) : (cbWrite type body s).fs.genBase = s.fs.genBase := (raised_cbWrite _ _ _).fs_genBase
@[simp] theorem cbWrite_fs_overPools (s : State) (type : Nat) (body : List Nat) : (cbWrite type body s).fs.overPools = s.fs.overPools := (raised_cbWrite _ _ _).fs_overPools
@[simp] theorem cbWrite_fs_fetches (s : State) (type : Nat) (body : List Nat) : (cbWrite type body s).fs.fetches = s.fs.fetches := (raised_cbWrite _ _ _).fs_fetches
@[simp] theorem cbWrite_fs_fetchSum (s : State) (type : Nat) (body : List Nat) : (cbWrite type body s).fs.fetchSum = s.fs.fetchSum := (raised_cbWrite _ _ _).fs_fetchSum
@[simp] theorem cbWrite_aud_running (s : State) (type : Nat) (body : List Nat) : (cbWrite type body s).aud.running = s.aud.running := (raised_cbWrite _ _ _).aud_running
@[simp] theorem cbWrite_aud_bind (s : State) (type : Nat) (body : List Nat) : (cbWrite type body s).aud.bind = s.aud.bind := (raised_cbWrite _ _ _).aud_bind
@[simp] theorem cbWrite_aud_waiting (s : State) (type : Nat) (body : List Nat) : (cbWrite type body s).aud.waiting = s.aud.waiting := (raised_cbWrite _ _ _).aud_waiting
@[simp] theorem cbWrite_aud_tdm (s : State) (type : Nat) (body : List Nat) : (cbWrite type body s).aud.tdm = s.aud.tdm := (raised_cbWrite _ _ _).aud_tdm
@[simp] theorem cbWrite_aud_ins (s : State) (type : Nat) (body : List Nat) : (cbWrite type body s).aud.ins = s.aud.ins := (raised_cbWrite _ _ _).aud_ins
@[simp] theorem cbWrite_aud_chimeMem (s : State) (type : Nat) (body : List Nat) : (cbWrite type body s).aud.chimeMem = s.aud.chimeMem := (raised_cbWrite _ _ _).aud_chimeMem
@[simp] theorem cbWrite_aud_missing (s : State) (type : Nat) (body : List Nat) : (cbWrite type body s).aud.missing = s.aud.missing := (raised_cbWrite _ _ _).aud_missing
@[simp] theorem cbWrite_aud_muteSince (s : State) (type : Nat) (body : List Nat) : (cbWrite type body s).aud.muteSince = s.aud.muteSince := (raised_cbWrite _ _ _).aud_muteSince
@[simp] theorem cbWrite_aud_muted (s : State) (type : Nat) (body : List Nat) : (cbWrite type body s).aud.muted = s.aud.muted := (raised_cbWrite _ _ _).aud_muted
@[simp] theorem cbWrite_dap_sessions (s : State) (type : Nat) (body : List Nat) : (cbWrite type body s).dap.sessions = s.dap.sessions := (raised_cbWrite _ _ _).dap_sessions
@[simp] theorem cbWrite_dap_kept (s : State) (type : Nat) (body : List Nat) : (cbWrite type body s).dap.kept = s.dap.kept := (raised_cbWrite _ _ _).dap_kept
@[simp] theorem cbWrite_dap_staged (s : State) (type : Nat) (body : List Nat) : (cbWrite type body s).dap.staged = s.dap.staged := (raised_cbWrite _ _ _).dap_staged
@[simp] theorem cbWrite_dap_snaps (s : State) (type : Nat) (body : List Nat) : (cbWrite type body s).dap.snaps = s.dap.snaps := (raised_cbWrite _ _ _).dap_snaps
@[simp] theorem cbWrite_dap_paths (s : State) (type : Nat) (body : List Nat) : (cbWrite type body s).dap.paths = s.dap.paths := (raised_cbWrite _ _ _).dap_paths
@[simp] theorem cbWrite_dap_places (s : State) (type : Nat) (body : List Nat) : (cbWrite type body s).dap.places = s.dap.places := (raised_cbWrite _ _ _).dap_places
@[simp] theorem cbWrite_dap_reasm (s : State) (type : Nat) (body : List Nat) : (cbWrite type body s).dap.reasm = s.dap.reasm := (raised_cbWrite _ _ _).dap_reasm
@[simp] theorem cbWrite_dap_ways (s : State) (type : Nat) (body : List Nat) : (cbWrite type body s).dap.ways = s.dap.ways := (raised_cbWrite _ _ _).dap_ways
@[simp] theorem cbWrite_dap_can (s : State) (type : Nat) (body : List Nat) : (cbWrite type body s).dap.can = s.dap.can := (raised_cbWrite _ _ _).dap_can
@[simp] theorem cbWrite_dap_netLink (s : State) (type : Nat) (body : List Nat) : (cbWrite type body s).dap.netLink = s.dap.netLink := (raised_cbWrite _ _ _).dap_netLink
@[simp] theorem cbWrite_dap_datagrams (s : State) (type : Nat) (body : List Nat) : (cbWrite type body s).dap.datagrams = s.dap.datagrams := (raised_cbWrite _ _ _).dap_datagrams
@[simp] theorem cbWrite_dap_save (s : State) (type : Nat) (body : List Nat) : (cbWrite type body s).dap.save = s.dap.save := (raised_cbWrite _ _ _).dap_save
@[simp] theorem cbWrite_dap_waiting (s : State) (type : Nat) (body : List Nat) : (cbWrite type body s).dap.waiting = s.dap.waiting := (raised_cbWrite _ _ _).dap_waiting
@[simp] theorem cbWrite_dap_lockMsg (s : State) (type : Nat) (body : List Nat) : (cbWrite type body s).dap.lockMsg = s.dap.lockMsg := (raised_cbWrite _ _ _).dap_lockMsg
theorem cbWrite_reg (s : State) (type : Nat) (body : List Nat) (k : Nat) (h : k ∉ raiseCounts) : (cbWrite type body s).reg k = s.reg k := (raised_cbWrite _ _ _).reg k h

end Sys2Proof.Laws
end

