-- ==== Sys2Proof/Laws/Raises.lean ====
section
/-! SUPPORT. Which events a raise latches (R503): the operations that raise, in the terms of Raises. -/

namespace Sys2Proof

open Machine Laws

theorem bit_testBit (x i : Nat) : bit x i = x.testBit i := by
  unfold bit
  rw [Nat.testBit_eq_decide_div_mod_eq]
  rfl

theorem bit_setBit (x i j : Nat) : bit (setBit x i) j = (bit x j || decide (j = i)) := by
  rw [bit_testBit, bit_testBit, setBit, Nat.testBit_or, Nat.testBit_two_pow]
  congr 1
  exact decide_eq_decide.mpr ⟨Eq.symm, Eq.symm⟩

theorem raises_ite {ids : List Nat} {q : Prop} [Decidable q] {a b c : State} (h : Raises ids a b) (k : Raises ids a c) :
    Raises ids a (if q then b else c) := by
  split <;> assumption

/-- What of the event words Raises speaks of. -/
abbrev raiseWords (e : EvtState) : Nat × Nat × Nat × Nat × Nat × Bool :=
  (e.status, e.safeBits, e.count, e.enable, e.severity, e.startHold)

/-- Nothing of the event words changes, and nothing beside what a raise may change. -/
theorem raises_quiet {a b : State} (h : Raised a b) (w : raiseWords b.evt = raiseWords a.evt) : Raises [] a b := by
  simp only [raiseWords, Prod.mk.injEq] at w
  obtain ⟨w1, w2, w3, w4, w5, w6⟩ := w
  refine ⟨fun i x => ?_, fun i x => .inl (w1 ▸ x), fun i x => ?_, by simp [w3], ⟨w4, w5, w6⟩, h.rest, h.reg⟩
  · rcases x with x | x
    · rw [w1]; exact x
    · cases x
  · rcases x with x | x
    · rw [w2]; exact x
    · cases x.1

theorem Raises.refl (a : State) : Raises [] a a := raises_quiet (.refl a) rfl

theorem Raises.raised {ids : List Nat} {a b : State} (h : Raises ids a b) : Raised a b := ⟨h.rest, h.regs⟩

theorem Raises.trans {xs ys : List Nat} {a b c : State} (h : Raises xs a b) (k : Raises ys b c) : Raises (xs ++ ys) a c := by
  refine ⟨fun i x => ?_, fun i x => ?_, fun i x => ?_, ?_, ?_, (h.raised.trans k.raised).rest, (h.raised.trans k.raised).reg⟩
  · rcases x with x | x
    · exact k.latched i (.inl (h.latched i (.inl x)))
    · rcases List.mem_append.mp x with x | x
      · exact k.latched i (.inl (h.latched i (.inr x)))
      · exact k.latched i (.inr x)
  · rcases k.only i x with x | x | x
    · rcases h.only i x with x | x | x
      · exact .inl x
      · exact .inr (.inl (List.mem_append.mpr (.inl x)))
      · exact .inr (.inr x)
    · exact .inr (.inl (List.mem_append.mpr (.inr x)))
    · exact .inr (.inr x)
  · have e : b.severityOf i = a.severityOf i := by unfold State.severityOf; rw [h.words.2.1]
    rcases x with x | ⟨x, z⟩
    · exact k.safe i (.inl (h.safe i (.inl x)))
    · rcases List.mem_append.mp x with x | x
      · exact k.safe i (.inl (h.safe i (.inr ⟨x, z⟩)))
      · exact k.safe i (.inr ⟨x, e.trans z⟩)
  · have := h.count
    have := k.count
    simp only [List.length_append]
    omega
  · obtain ⟨h1, h2, h3⟩ := h.words
    obtain ⟨k1, k2, k3⟩ := k.words
    exact ⟨k1.trans h1, k2.trans h2, k3.trans h3⟩

/-- What the command sends after a raise. -/
theorem Raises.emit {ids : List Nat} {a b : State} (h : Raises ids a b) (o : Output) : Raises ids (a.emit o) (b.emit o) := by
  refine ⟨h.latched, h.only, h.safe, h.count, h.words, ?_, h.regs⟩
  have e := h.rest
  generalize hx : b.evt = x at *
  unfold State.emit
  rw [e]

theorem raises_either {xs ys : List Nat} {q : Prop} [Decidable q] {a b c : State} (h : Raises xs a b) (k : Raises ys a c) :
    Raises xs a (if q then b else c) ∨ Raises ys a (if q then b else c) := by
  split
  · exact .inl h
  · exact .inr k

/-- A raise after a change of what a raise may change, but of the event words. -/
theorem Raises.after {ids : List Nat} {a b c : State} (k : Raises ids b c) (h : Raised a b)
    (w : raiseWords b.evt = raiseWords a.evt) : Raises ids a c :=
  Raises.trans (xs := []) (raises_quiet h w) k

/-- Events that a raise brings with it need no name. -/
theorem Raises.weaken {xs ys : List Nat} {a b : State} (h : Raises xs a b) (sub : ∀ x ∈ ys, x ∈ xs)
    (len : ys.length ≤ xs.length) (extra : ∀ x ∈ xs, x ∈ ys ∨ x = Ev.cbRecordsLost ∨ ∃ g, x = Ev.chimePlayed g) : Raises ys a b := by
  refine ⟨fun i x => h.latched i (x.imp id (sub i)), fun i x => ?_, fun i x => h.safe i (x.imp id (.imp (sub i) id)), by have := h.count; omega, h.words, h.rest, h.regs⟩
  rcases h.only i x with x | x | x
  · exact .inl x
  · exact .inr (extra i x)
  · exact .inr (.inr x)

theorem raises_latchEvent (id : Nat) (test : Bool) (s : State) : Raises [id] s (latchEvent id test s) := by
  refine ⟨fun i x => ?_, fun i x => ?_, fun i x => ?_, Nat.le_refl _, ⟨rfl, rfl, rfl⟩, rfl, fun _ _ => rfl⟩
  · show bit (setBit s.evt.status id) i = true
    rw [bit_setBit]
    rcases x with x | x
    · rw [x]; rfl
    · rw [List.mem_singleton.mp x]; simp
  · have y : bit (setBit s.evt.status id) i = true := x
    rw [bit_setBit, Bool.or_eq_true, decide_eq_true_eq] at y
    exact y.imp (fun z => z) fun z => .inl (List.mem_singleton.mpr z)
  · show bit (if s.severityOf id = 0 then setBit s.evt.safeBits id else s.evt.safeBits) i = true
    rcases x with x | ⟨x, z⟩
    · split
      · rw [bit_setBit, x]; rfl
      · exact x
    · cases List.mem_singleton.mp x
      rw [if_pos z, bit_setBit]
      simp

theorem Raises.each {α : Type} {f : State → α → State} (h : ∀ s x, Raises [] s (f s x)) (l : List α) (s : State) :
    Raises [] s (s.each l f) := by
  unfold State.each
  induction l generalizing s with
  | nil => exact .refl s
  | cons x r ih => exact (h s x).trans (ih (f s x))

theorem raises_notifyOne (r : NotifyRec) (s : State) (key : Nat) : Raises [] s (notifyOne r s key) := by
  refine raises_quiet (raised_notifyOne r s key) ?_
  unfold notifyOne
  dsimp only
  split <;> rfl

theorem raises_raiseCore (id : Nat) (items : List Nat) (test : Bool) (s : State) : Raises [id] s (raiseCore id items test s) := by
  unfold raiseCore notifyAll
  refine Raises.trans (ys := []) (raises_latchEvent id test s) (raises_ite ?_ (.refl _))
  exact .each (fun s x => raises_notifyOne _ s x) _ _

/-- A record that makes the queue overflow raises CB_RECORDS_LOST. -/
theorem raises_cbQueue (i : CbItem) (s : State) : Raises [] s (cbQueue i s) := by
  unfold cbQueue cbLose
  dsimp only
  split
  · exact raises_quiet ⟨rfl, fun _ _ => rfl⟩ rfl
  · refine (Raises.trans (xs := []) (ys := [Ev.cbRecordsLost]) ?_ (raises_raiseCore _ _ _ _)).weaken
      (fun x hx => by cases hx) (Nat.zero_le _) fun x hx => .inr (.inl (List.mem_singleton.mp hx))
    exact raises_quiet (.withCb (.withCb (.count (by decide) _ _))) rfl

theorem raises_cbWrite (type : Nat) (body : List Nat) (s : State) : Raises [] s (cbWrite type body s) := raises_cbQueue _ s

theorem raises_eventRecord (id sev : Nat) (items : List Nat) (s : State) : Raises [] s (eventRecord id sev items s) := by
  unfold eventRecord
  refine raises_ite ((raises_cbQueue _ _).after ⟨rfl, fun _ _ => rfl⟩ rfl) ?_
  exact raises_quiet ⟨rfl, fun _ _ => rfl⟩ rfl

theorem raises_recordRaise (id sev : Nat) (items : List Nat) (test : Bool) (mode : RecMode) (s : State) :
    Raises [] s (recordRaise id sev items test mode s) := by
  unfold recordRaise
  dsimp only
  repeat' split
  all_goals first
    | exact raises_cbQueue _ s
    | exact raises_eventRecord _ _ _ s
    | exact .refl s

theorem raises_winOnSafe (s : State) : Raises [] s (winOnSafe s) := by
  refine .each (fun s w => ?_) _ _
  unfold winTrigger
  dsimp only
  split
  · exact raises_quiet ⟨rfl, fun _ _ => rfl⟩ rfl
  · exact .refl s

theorem raises_duckAll (g : Nat) (s : State) : Raises [] s (duckAll g s) := by
  refine .each (fun s o => ?_) _ _
  unfold duckChannel
  dsimp only
  split
  · exact raises_quiet ⟨rfl, fun _ _ => rfl⟩ rfl
  · exact .refl s

theorem count_evt (s : State) (k n : Nat) : (s.count k n).evt = s.evt := rfl

theorem raises_chimeBegin (g : Nat) (s : State) : Raises [] s (chimeBegin g s) := by
  unfold chimeBegin
  refine Raises.trans (xs := []) (ys := []) (raises_quiet ?_ ?_) (raises_duckAll g _)
  · refine Raised.trans ?_ (Raised.setReg (by decide) _ _)
    exact Raised.trans (b := s.setChime g _) ⟨rfl, fun _ _ => rfl⟩ (Raised.setReg (by decide) _ _)
  · rw [setReg_evt, count_evt, setChime_evt]

/-- The chimes that a raise starts, each with its CHIME_PLAYED. -/
theorem raises_chimes {f : State → Nat → State}
    (h : ∀ s g, ∃ ids, Raises ids s (f s g) ∧ ∀ x ∈ ids, x = Ev.cbRecordsLost ∨ ∃ g, x = Ev.chimePlayed g) (l : List Nat) (s : State) :
    Raises [] s (s.each l f) := by
  refine .each (fun s x => ?_) l s
  obtain ⟨ids, r, c⟩ := h s x
  exact r.weaken (fun x hx => by cases hx) (Nat.zero_le _) fun x hx => .inr (c x hx)

theorem raises_raiseN_le (fuel id : Nat) (items : List Nat) (test : Bool) (mode : RecMode) (s : State) :
    Raises (if fuel = 0 then [] else [id]) s (raiseN fuel id items test mode s) := by
  induction fuel generalizing id items test mode s with
  | zero => exact .refl s
  | succ n ih =>
    rw [if_neg (Nat.succ_ne_zero n)]
    unfold raiseN
    dsimp only
    have h := Raises.trans (ys := []) (raises_raiseCore id items test s)
      (raises_recordRaise id (s.severityOf id) items test mode _)
    refine Raises.trans (xs := [id]) (ys := []) ?_ (raises_chimes (fun s g => ⟨_, (raises_chimeBegin g s).trans (ih _ _ _ _ _), ?_⟩) _ _)
    · split
      · exact Raises.trans (ys := []) h (raises_winOnSafe _)
      · exact h
    · intro x hx
      simp only [List.nil_append] at hx
      split at hx
      · cases hx
      · exact .inr ⟨g, List.mem_singleton.mp hx⟩

theorem raises_raiseN (fuel id : Nat) (items : List Nat) (test : Bool) (mode : RecMode) (s : State) :
    Raises [id] s (raiseN (fuel + 1) id items test mode s) := raises_raiseN_le (fuel + 1) _ _ _ _ s

/-- An event raised latches its bit and is counted (R503). -/
theorem raises_raise (s : State) (id : Nat) (items : List Nat) : Raises [id] s (s.raise id items) := raises_raiseN 32 _ _ _ _ s

theorem raises_raiseAs (s : State) (id : Nat) (items : List Nat) (mode : RecMode) : Raises [id] s (s.raiseAs id items mode) :=
  raises_raiseN 32 _ _ _ _ s

/-- An event whose reports are limited latches nothing within the limit. -/
theorem raises_raiseLimited (s : State) (period id : Nat) (items : List Nat) :
    Raises [id] s (s.raiseLimited period id items) ∨ Raises [] s (s.raiseLimited period id items) := by
  unfold State.raiseLimited
  refine raises_either ((raises_raise _ _ _).after ⟨rfl, fun _ _ => rfl⟩ rfl) ?_
  exact raises_quiet ⟨rfl, fun _ _ => rfl⟩ rfl

end Sys2Proof
end

