-- ==== Sys2Proof/Laws/Words.lean ====
section
/-! SUPPORT. Bits and fields of carried numbers after an update of them, and a command of the host that the gate lets
through. -/

namespace Sys2Proof.Laws

open Machine

/-- A command that the gate lets through runs its operation and is answered with the operation's status. -/
theorem answer_done (src : Src) (key : Nat) (commit : Bool) (op : State → State × Nat) (s : State)
    (h : gate src key commit s = stDone) : answer src key commit op s = (op s).1.emit (.status src.who (op s).2) := by
  simp [answer, h]

theorem bit_clearMask (x m i : Nat) : bit (clearMask x m) i = (bit x i && !bit m i) := by
  simp only [bit_testBit, clearMask, Nat.testBit_xor, Nat.testBit_and]
  cases x.testBit i <;> cases m.testBit i <;> rfl

theorem bit_and (x y i : Nat) : bit (x &&& y) i = (bit x i && bit y i) := by
  simp only [bit_testBit, Nat.testBit_and]

theorem bit_two_pow (n i : Nat) : bit (2 ^ n) i = decide (i = n) := by
  rw [bit_testBit, Nat.testBit_two_pow]
  exact decide_eq_decide.mpr ⟨Eq.symm, Eq.symm⟩

theorem bit_fld (x hi lo i : Nat) (h : i < hi + 1 - lo) : bit (fld x hi lo) i = bit x (lo + i) := by
  simp only [bit_testBit, fld, Nat.testBit_mod_two_pow, Nat.testBit_div_two_pow, h, decide_true, Bool.true_and, Nat.add_comm]

theorem bit_fld_ge (x hi lo i : Nat) (h : hi + 1 - lo ≤ i) : bit (fld x hi lo) i = false := by
  simp only [bit_testBit, fld, Nat.testBit_mod_two_pow]
  simp [Nat.not_lt.mpr h]

theorem bit_ext {x y : Nat} (h : ∀ i, bit x i = bit y i) : x = y :=
  Nat.eq_of_testBit_eq fun i => by rw [← bit_testBit, ← bit_testBit]; exact h i

/-- A bit of a number one of whose fields is replaced. -/
theorem bit_putFld (x hi lo v i : Nat) (h : lo ≤ hi) :
    bit (putFld x hi lo v) i = if lo ≤ i ∧ i ≤ hi then bit v (i - lo) else bit x i := by
  have l : x % 2 ^ lo < 2 ^ lo := Nat.mod_lt _ (Nat.two_pow_pos _)
  have m : v % 2 ^ (hi + 1 - lo) < 2 ^ (hi + 1 - lo) := Nat.mod_lt _ (Nat.two_pow_pos _)
  have e : hi + 1 = lo + (hi + 1 - lo) := by omega
  have f : putFld x hi lo v = 2 ^ lo * (2 ^ (hi + 1 - lo) * (x / 2 ^ (hi + 1)) + v % 2 ^ (hi + 1 - lo)) + x % 2 ^ lo := by
    unfold putFld
    generalize hi + 1 - lo = n at e ⊢
    rw [e, Nat.pow_add]
    generalize x / (2 ^ lo * 2 ^ n) = q
    generalize v % 2 ^ n = r
    rw [Nat.mul_add, Nat.mul_comm q, Nat.mul_assoc, Nat.mul_comm r]
  rw [bit_testBit, f, Nat.testBit_two_pow_mul_add _ l, bit_testBit, bit_testBit]
  by_cases h1 : i < lo
  · have : ¬ (lo ≤ i ∧ i ≤ hi) := by omega
    rw [if_pos h1, if_neg this, Nat.testBit_mod_two_pow]
    simp [h1]
  · rw [if_neg h1, Nat.testBit_two_pow_mul_add _ m]
    by_cases h2 : i ≤ hi
    · have : lo ≤ i ∧ i ≤ hi := by omega
      have k : i - lo < hi + 1 - lo := by omega
      rw [if_pos k, if_pos this, Nat.testBit_mod_two_pow]
      simp [k]
    · have : ¬ (lo ≤ i ∧ i ≤ hi) := by omega
      have k : ¬ i - lo < hi + 1 - lo := by omega
      rw [if_neg k, if_neg this, Nat.testBit_div_two_pow]
      congr 1
      omega

/-- The value of a word at bit 32w, seen bit by bit. -/
theorem bit_word (v w i : Nat) (hv : v < 2 ^ 32) : bit (v * 2 ^ (32 * w)) i = (decide (i / 32 = w) && bit v (i % 32)) := by
  simp only [bit_testBit, Nat.testBit_mul_two_pow]
  by_cases h : i / 32 = w
  · subst h
    have a : 32 * (i / 32) ≤ i := by omega
    have b : i - 32 * (i / 32) = i % 32 := by omega
    simp [a, b]
  · simp only [h, decide_false, Bool.false_and]
    by_cases k : 32 * w ≤ i
    · have a : 32 ≤ i - 32 * w := by omega
      have b : v.testBit (i - 32 * w) = false :=
        Nat.testBit_lt_two_pow (Nat.lt_of_lt_of_le hv (Nat.pow_le_pow_right (by decide) a))
      simp [b]
    · simp [k]

/-- The pins after an update of the event block (R488). -/
theorem updatePins_safeN (s : State) : (updatePins s).evt.safeN = false ↔
    s.evt.startHold = true ∨ s.evt.safeBits ≠ 0 ∨ ∃ e, s.evt.minLow = some e ∧ s.dt < e := by
  unfold updatePins EvtState.minRunning
  cases h : s.evt.minLow <;> by_cases k : s.evt.safeBits = 0 <;> cases g : s.evt.startHold <;> simp [h, k, g]

end Sys2Proof.Laws
end

