-- ==== Sys2Proof/Laws/Messages.lean ====
section
/-! SUPPORT. A request that executes at once (R475, R476), and its response (R469, R479). -/

namespace Sys2Proof

open Machine Laws

theorem OnlyAnswered.refl (who : Requester) (a : State) : OnlyAnswered who a a := ⟨rfl, fun _ => rfl, fun _ _ => rfl, fun _ _ => rfl⟩

theorem OnlyAnswered.trans {who : Requester} {a b c : State} (h : OnlyAnswered who a b) (k : OnlyAnswered who b c) :
    OnlyAnswered who a c :=
  ⟨by rw [k.rest, h.rest], fun x => (k.lanes x).trans (h.lanes x), fun n x => (k.links n x).trans (h.links n x),
    fun j x => (k.others j x).trans (h.others j x)⟩

theorem OnlyAnswered.each {α : Type} {who : Requester} {f : State → α → State} (h : ∀ s x, OnlyAnswered who s (f s x)) (l : List α)
    (s : State) : OnlyAnswered who s (s.each l f) := by
  unfold State.each
  induction l generalizing s with
  | nil => exact .refl who s
  | cons x r ih => exact (h s x).trans (ih (f s x))

/-- Sending changes nothing but what is sent, and on a lane the folios that wait. -/
theorem onlyAnswered_send (who : Requester) (bytes : List Nat) (s : State) : OnlyAnswered who s (sendDap who bytes s) := by
  unfold sendDap sendMessage
  split
  · refine .each (fun s x => ?_) _ _
    exact ⟨rfl, fun _ => rfl, fun _ _ => rfl, fun _ _ => rfl⟩
  · split
    · refine .each (fun s x => ?_) _ _
      exact ⟨rfl, fun _ => rfl, fun _ _ => rfl, fun _ _ => rfl⟩
    · refine .each (fun s x => ?_) _ _
      unfold pushCtl
      split
      · refine ⟨rfl, fun h => absurd h (by omega), fun n h => ?_, fun _ _ => rfl⟩
        exact tget_tset_other _ _ _ _ _ (by omega)
      · exact .refl who s

theorem each_dap {α : Type} {f : State → α → State} (h : ∀ s x, (f s x).dap = s.dap) (l : List α) (s : State) :
    (s.each l f).dap = s.dap := by
  unfold State.each
  induction l generalizing s with
  | nil => rfl
  | cons x r ih => exact (ih (f s x)).trans (h s x)

theorem send_kept (who : Requester) (bytes : List Nat) (s : State) : (sendDap who bytes s).dap = s.dap := by
  unfold sendDap sendMessage
  split
  · refine each_dap (fun s x => ?_) _ _
    rfl
  · split
    · refine each_dap (fun s x => ?_) _ _
      rfl
    · refine each_dap (fun s x => ?_) _ _
      unfold pushCtl
      split <;> rfl

/-- A table whose value at k is not the default is read back after a write of it. -/
theorem kept_set (m : Tbl (List Kept)) (k : Nat) (l : List Kept) (h : l ≠ []) :
    tget (fun _ => []) (tset (fun _ => []) m k l) k = l := tget_tset_set _ _ _ _ h

/-- The newest response is kept (R476). -/
theorem keepResponse_mem (who : Requester) (k : Kept) (s : State) :
    k ∈ tget (fun _ => []) (keepResponse who k s).dap.kept (reqKey who) := by
  unfold keepResponse
  dsimp only
  generalize tget (fun _ => []) s.dap.kept (reqKey who) = l
  have h : k ∈ (l ++ [k]).drop ((l ++ [k]).length - 16) := by
    rw [List.drop_append, List.mem_append]
    right
    simp only [List.length_append, List.length_singleton]
    rw [show l.length + 1 - 16 - l.length = 0 by omega]
    simp
  rw [kept_set _ _ _ (List.ne_nil_of_mem h)]
  exact h

theorem onlyAnswered_keep (who : Requester) (k : Kept) (s : State) : OnlyAnswered who s (keepResponse who k s) :=
  ⟨rfl, fun _ => rfl, fun _ _ => rfl, fun _ h => tget_tset_other _ _ _ _ _ h⟩

/-- A response that no session authenticates. -/
theorem respond_plain (who : Requester) (m : Msg) (status : Nat) (data : List Nat) (final : Bool) (s : State) :
    Answered who m status (if final then 2 ^ flEnd else 0) data (respond who m none status data final s) ∧
    OnlyAnswered who (if status = 0 then s else errorCounted who s) (respond who m none status data final s) := by
  refine ⟨?_, ?_⟩
  · unfold respond Answered
    dsimp only
    rw [send_kept]
    exact ⟨_, keepResponse_mem _ _ _, rfl, rfl, by simp⟩
  · unfold respond
    dsimp only
    exact (onlyAnswered_keep _ _ _).trans (onlyAnswered_send _ _ _)

/-- A request that executes at once and that no session authenticates is carried out in the state as it arrived. -/
theorem message_plain {t : Nat} {who : Requester} {m : Msg} {ok : Bool} {s : State} (h : Executes who m s) (p : plainRequest m)
    (act : Proven → State → Reply) :
    dapMessage who m ok act (s.begin t) =
      if (act none (arrived t who s)).later then (act none (arrived t who s)).state
      else respond who m none (act none (arrived t who s)).status (act none (arrived t who s)).data
        (act none (arrived t who s)).final (act none (arrived t who s)).state := by
  obtain ⟨h1, h2, h3, h4, h5⟩ := h
  have a1 : pathServes (s.begin t) who.path = true := h1
  have a4 : keptFor who m (arrived t who s) = none := by
    rw [← h4]; unfold arrived; dsimp only; split <;> rfl
  have a5 : headerCode (arrived t who s) who m = stDone := by
    rw [← h5]; unfold arrived; dsimp only; split <;> rfl
  have a2 : (arrived t who s).dap.save = none := by
    rw [← h2]; unfold arrived; dsimp only; split <;> rfl
  have a3 : (arrived t who s).dap.waiting = [] := by
    rw [← h3]; unfold arrived; dsimp only; split <;> rfl
  have w : waitsFor who (arrived t who s) = false := by simp [waitsFor, a2, a3]
  have e : dapMessage who m ok act (s.begin t) =
      (let a := arrived t who s
       let b := if a.dap.save.isNone then runWaiting a.dap.waiting.length a else a
       if waitsFor who b then
         if 7 ≤ (b.dap.waiting.filter fun w => w.who == who).length then respond who m none stResources [] false b
         else { b with dap := { b.dap with waiting := b.dap.waiting ++ [⟨who, m, ok⟩] } }
       else dapExecute who m act b) := by
    unfold dapMessage
    rw [if_neg (by simp [a1])]
    rfl
  rw [e]
  dsimp only
  rw [a2, a3]
  simp only [Option.isNone_none, if_true, List.length_nil, runWaiting, w, Bool.false_eq_true, if_false]
  unfold dapExecute
  rw [a4]
  have au : authenticate who m (arrived t who s) = (stDone, none, arrived t who s) := by
    unfold authenticate
    rw [if_neg (by rw [p]; decide)]
  simp [a5, au]

/-- The response under a session that stands. -/
theorem respond_proved (who : Requester) (m : Msg) (n : Nat) (x y : Session) (status : Nat) (data : List Nat) (s : State)
    (h : oget s.dap.sessions n = some y) (z : status = 0) :
    AnsweredBy who m n x status data (respond who m (some (n, x)) status data false s) ∧
    oget (respond who m (some (n, x)) status data false s).dap.sessions n = some { y with devSeq := x.devSeq + 1 } ∧
    OnlyAnswered who { s with dap := { s.dap with sessions := oset s.dap.sessions n (some { y with devSeq := x.devSeq + 1 }) } }
      (respond who m (some (n, x)) status data false s) := by
  unfold respond AnsweredBy
  simp only [z, if_true, h]
  refine ⟨?_, ?_, ?_⟩
  · rw [send_kept]
    exact ⟨_, keepResponse_mem _ _ _, rfl, rfl, by simp⟩
  · rw [send_kept]
    exact tget_tset_set _ _ _ _ (by simp)
  · exact (onlyAnswered_keep _ _ _).trans (onlyAnswered_send _ _ _)

/-- A request that executes at once under session n is carried out in the state as it arrived. -/
theorem message_proved {t : Nat} {who : Requester} {m : Msg} {ok : Bool} {s : State} {n : Nat} {x : Session}
    (h : Executes who m s) (p : Proves who m n x s) (act : Proven → State → Reply) :
    ∃ q, m.trailer.map (·.seq) = some q ∧
    dapMessage who m ok act (s.begin t) =
      (let r := act (some (n, { x with hostSeq := q })) (arrivedBy t who m n x s)
       if r.later then r.state else respond who m (some (n, { x with hostSeq := q })) r.status r.data r.final r.state) := by
  obtain ⟨h1, h2, h3, h4, h5⟩ := h
  obtain ⟨p1, ⟨tr, p2, p3, p4, p5⟩, p6, p7, p8⟩ := p
  refine ⟨tr.seq, by rw [p2]; rfl, ?_⟩
  have a1 : pathServes (s.begin t) who.path = true := h1
  have a4 : keptFor who m (arrived t who s) = none := by
    rw [← h4]; unfold arrived; dsimp only; split <;> rfl
  have a5 : headerCode (arrived t who s) who m = stDone := by
    rw [← h5]; unfold arrived; dsimp only; split <;> rfl
  have a2 : (arrived t who s).dap.save = none := by
    rw [← h2]; unfold arrived; dsimp only; split <;> rfl
  have a3 : (arrived t who s).dap.waiting = [] := by
    rw [← h3]; unfold arrived; dsimp only; split <;> rfl
  have a6 : oget (arrived t who s).dap.sessions n = some x := by
    rw [← p6]; unfold arrived; dsimp only; split <;> rfl
  have a7 : (arrived t who s).dt = max s.dt t := by
    unfold arrived; dsimp only; split <;> rfl
  have w : waitsFor who (arrived t who s) = false := by simp [waitsFor, a2, a3]
  have e : dapMessage who m ok act (s.begin t) =
      (let a := arrived t who s
       let b := if a.dap.save.isNone then runWaiting a.dap.waiting.length a else a
       if waitsFor who b then
         if 7 ≤ (b.dap.waiting.filter fun w => w.who == who).length then respond who m none stResources [] false b
         else { b with dap := { b.dap with waiting := b.dap.waiting ++ [⟨who, m, ok⟩] } }
       else dapExecute who m act b) := by
    unfold dapMessage
    rw [if_neg (by simp [a1])]
    rfl
  rw [e]
  dsimp only
  rw [a2, a3]
  simp only [Option.isNone_none, if_true, List.length_nil, runWaiting, w, Bool.false_eq_true, if_false]
  unfold dapExecute
  rw [a4]
  have au : authenticate who m (arrived t who s) =
      (stDone, some (n, { x with hostSeq := tr.seq }), arrivedBy t who m n x s) := by
    have nz : messageMac x.key (headerBytes m m.op 0 m.flags m.length) m.data (trailerTail n tr.seq) = tr.mac := p5.symm
    unfold authenticate
    rw [if_pos p1, p2]
    simp only [p3, dapSession, a6, p7, if_true, p8, nz, Bool.not_true, bne_self_eq_false, Bool.or_self, Bool.false_eq_true,
      if_false, Nat.not_le.mpr p4, touchSession, a7]
    subst p7
    simp [arrivedBy, p2, p8, a7]
  simp [a5, au]

theorem OnlyAnswered.dap {who : Requester} {a b : State} (h : OnlyAnswered who a b) : b.dap = { a.dap with kept := b.dap.kept } :=
  congrArg State.dap h.rest

theorem OnlyAnswered.sessions {who : Requester} {a b : State} (h : OnlyAnswered who a b) : b.dap.sessions = a.dap.sessions :=
  by
  rw [h.dap]

theorem OnlyAnswered.places {who : Requester} {a b : State} (h : OnlyAnswered who a b) : b.dap.places = a.dap.places :=
  by
  rw [h.dap]

theorem OnlyAnswered.queues {who : Requester} {a b : State} (h : OnlyAnswered who a b) : b.dap.queues = a.dap.queues :=
  by
  rw [h.dap]

theorem arrived_eq (t : Nat) (who : Requester) (s : State) : arrived t who s = { s with
    dt := max s.dt t, out := []
    dap := { s.dap with paths := (arrived t who s).dap.paths, lockMsg := (arrived t who s).dap.lockMsg } } := by
  unfold arrived
  dsimp only
  split <;> rfl

end Sys2Proof
end

