-- ==== Sys2Proof/Laws/Step.lean ====
section
/-! SUPPORT. What every command keeps: exec and step in the terms of Keep. -/

namespace Sys2Proof.Laws

open Machine

variable {p : Prop} {a b c : State}

/-- A command that comes about keeps what Keep says; device time falls at power-on alone. -/
theorem keep_exec (i : Instr) (hp : ∀ t good straps, i = .powerOn t good straps → p) (e : exec i b = .next c) (h : Keep p a b) :
    Keep p a c := by
  cases i with
  | registerWrite x1 x2 x3 x4 x5 => exact keep_execRegisterWrite x1 x2 x3 x4 x5 e h
  | dapRead x1 x2 x3 => exact keep_execDapRead x1 x2 x3 e h
  | dapWrite x1 x2 x3 x4 => exact keep_execDapWrite x1 x2 x3 x4 e h
  | dapHello x1 x2 x3 => exact keep_execDapHello x1 x2 x3 e h
  | dapSave x1 x2 x3 => exact keep_execDapSave x1 x2 x3 e h
  | saveCommitWord x1 x2 => exact keep_execSaveCommitWord x1 x2 e h
  | restoreDefaults x1 x2 x3 => exact keep_execRestoreDefaults x1 x2 x3 e h
  | sessionOpen x1 x2 x3 => exact keep_execSessionOpen x1 x2 x3 e h
  | sessionProve x1 x2 x3 => exact keep_execSessionProve x1 x2 x3 e h
  | sessionClose x1 x2 x3 => exact keep_execSessionClose x1 x2 x3 e h
  | dapAbort x1 x2 x3 => exact keep_execDapAbort x1 x2 x3 e h
  | stagedWriteTimeout x1 x2 => exact keep_execStagedWriteTimeout x1 x2 e h
  | sessionIdleTimeout x1 x2 => exact keep_execSessionIdleTimeout x1 x2 e h
  | dapLockWrite x1 x2 x3 => exact keep_execDapLockWrite x1 x2 x3 e h
  | lockTimeoutExpired x1 => exact keep_execLockTimeoutExpired x1 e h
  | snapshotDiscard x1 x2 => exact keep_execSnapshotDiscard x1 x2 e h
  | keptResponseExpiry x1 x2 => exact keep_execKeptResponseExpiry x1 x2 e h
  | proofLockoutEnd x1 x2 => exact keep_execProofLockoutEnd x1 x2 e h
  | subscriptionExpiry x1 x2 => exact keep_execSubscriptionExpiry x1 x2 e h
  | notifySend x1 x2 x3 => exact keep_execNotifySend x1 x2 x3 e h
  | canSegment x1 x2 x3 x4 => exact keep_execCanSegment x1 x2 x3 x4 e h
  | canReassemblyAbort x1 x2 x3 => exact keep_execCanReassemblyAbort x1 x2 x3 e h
  | canReassemblyTimeout x1 x2 x3 => exact keep_execCanReassemblyTimeout x1 x2 x3 e h
  | netDatagram x1 x2 x3 x4 => exact keep_execNetDatagram x1 x2 x3 x4 e h
  | netReassemblyTimeout x1 x2 => exact keep_execNetReassemblyTimeout x1 x2 e h
  | arpRequest x1 x2 x3 x4 => exact keep_execArpRequest x1 x2 x3 x4 e h
  | icmpEcho x1 x2 x3 x4 => exact keep_execIcmpEcho x1 x2 x3 x4 e h
  | laneDapSegment x1 x2 x3 x4 => exact keep_execLaneDapSegment x1 x2 x3 x4 e h
  | canApplySetup x1 x2 x3 => exact keep_execCanApplySetup x1 x2 x3 e h
  | canLeaveBusOff x1 x2 x3 => exact keep_execCanLeaveBusOff x1 x2 x3 e h
  | netApplySetup x1 x2 => exact keep_execNetApplySetup x1 x2 e h
  | netRestartPhy x1 x2 => exact keep_execNetRestartPhy x1 x2 e h
  | dapStatsClear x1 x2 => exact keep_execDapStatsClear x1 x2 e h
  | evtStatusClear x1 x2 x3 x4 => exact keep_execEvtStatusClear x1 x2 x3 x4 e h
  | evtEnableWrite x1 x2 x3 x4 => exact keep_execEvtEnableWrite x1 x2 x3 x4 e h
  | evtSeverityWrite x1 x2 x3 x4 => exact keep_execEvtSeverityWrite x1 x2 x3 x4 e h
  | evtClearAll x1 x2 => exact keep_execEvtClearAll x1 x2 e h
  | evtClearId x1 x2 x3 => exact keep_execEvtClearId x1 x2 x3 e h
  | evtTest x1 x2 x3 => exact keep_execEvtTest x1 x2 x3 e h
  | evtDefaults x1 x2 => exact keep_execEvtDefaults x1 x2 e h
  | safeMinLowExpiry x1 => exact keep_execSafeMinLowExpiry x1 e h
  | endpointRecord x1 x2 x3 => exact keep_execEndpointRecord x1 x2 x3 e h
  | streamRecord x1 x2 x3 => exact keep_execStreamRecord x1 x2 x3 e h
  | withdrawFolio x1 x2 x3 => exact keep_execWithdrawFolio x1 x2 x3 e h
  | heartbeatFolio x1 x2 x3 => exact keep_execHeartbeatFolio x1 x2 x3 e h
  | heartbeatWindowEnd x1 x2 => exact keep_execHeartbeatWindowEnd x1 x2 e h
  | deviceHeartbeatSend x1 => exact keep_execDeviceHeartbeatSend x1 e h
  | streamRecordRepeat x1 => exact keep_execStreamRecordRepeat x1 e h
  | stallTimeout x1 x2 => exact keep_execStallTimeout x1 x2 e h
  | inputFrameStart x1 x2 => exact keep_execInputFrameStart x1 x2 e h
  | dataFolio x1 x2 x3 x4 => exact keep_execDataFolio x1 x2 x3 x4 e h
  | lineCheckFolio x1 x2 x3 => exact keep_execLineCheckFolio x1 x2 x3 e h
  | poisonFolio x1 x2 x3 => exact keep_execPoisonFolio x1 x2 x3 e h
  | tagFolio x1 x2 x3 => exact keep_execTagFolio x1 x2 x3 e h
  | audioFolio x1 x2 x3 => exact keep_execAudioFolio x1 x2 x3 e h
  | strCommit x1 x2 => exact keep_execStrCommit x1 x2 e h
  | stvClear x1 x2 => exact keep_execStvClear x1 x2 e h
  | takeGroup x1 x2 x3 => exact keep_execTakeGroup x1 x2 x3 e h
  | takeCancel x1 x2 x3 => exact keep_execTakeCancel x1 x2 x3 e h
  | takeEffectiveDt x1 x2 => exact keep_execTakeEffectiveDt x1 x2 e h
  | c0TakeOverdue x1 x2 x3 => exact keep_execC0TakeOverdue x1 x2 x3 e h
  | takeStatsClear x1 x2 => exact keep_execTakeStatsClear x1 x2 e h
  | holdExpired x1 x2 => exact keep_execHoldExpired x1 x2 e h
  | restoreDelayExpired x1 x2 => exact keep_execRestoreDelayExpired x1 x2 e h
  | safeSetCommit x1 x2 x3 => exact keep_execSafeSetCommit x1 x2 x3 e h
  | outputFrameBoundary x1 x2 => exact keep_execOutputFrameBoundary x1 x2 e h
  | firstActiveLine x1 x2 => exact keep_execFirstActiveLine x1 x2 e h
  | outputLineStart x1 x2 x3 x4 => exact keep_execOutputLineStart x1 x2 x3 x4 e h
  | pushDone x1 x2 => exact keep_execPushDone x1 x2 e h
  | syncEvent x1 x2 => exact keep_execSyncEvent x1 x2 e h
  | syncTimeout x1 x2 => exact keep_execSyncTimeout x1 x2 e h
  | outCommit x1 x2 x3 => exact keep_execOutCommit x1 x2 x3 e h
  | rasterClearLate x1 x2 x3 => exact keep_execRasterClearLate x1 x2 x3 e h
  | rasterClearCounts x1 x2 x3 => exact keep_execRasterClearCounts x1 x2 x3 e h
  | rasterResetRegions x1 x2 x3 => exact keep_execRasterResetRegions x1 x2 x3 e h
  | outCompDisable x1 x2 x3 => exact keep_execOutCompDisable x1 x2 x3 e h
  | outCompEnable x1 x2 x3 => exact keep_execOutCompEnable x1 x2 x3 e h
  | outCompRetest x1 x2 x3 x4 => exact keep_execOutCompRetest x1 x2 x3 x4 e h
  | outCompClearCounters x1 x2 x3 => exact keep_execOutCompClearCounters x1 x2 x3 e h
  | fabPortRestore x1 x2 x3 => exact keep_execFabPortRestore x1 x2 x3 e h
  | fabStatsClear x1 x2 => exact keep_execFabStatsClear x1 x2 e h
  | sharedFlitArrival x1 x2 x3 => exact keep_execSharedFlitArrival x1 x2 x3 e h
  | spineTransfer x1 x2 x3 => exact keep_execSpineTransfer x1 x2 x3 e h
  | handshakeTimeout x1 x2 x3 => exact keep_execHandshakeTimeout x1 x2 x3 e h
  | egressStall x1 x2 => exact keep_execEgressStall x1 x2 e h
  | fabSpeedUpdate x1 x2 => exact keep_execFabSpeedUpdate x1 x2 e h
  | convApply x1 x2 x3 => exact keep_execConvApply x1 x2 x3 e h
  | convDisable x1 x2 x3 => exact keep_execConvDisable x1 x2 x3 e h
  | convEnable x1 x2 x3 => exact keep_execConvEnable x1 x2 x3 e h
  | convRetest x1 x2 x3 x4 => exact keep_execConvRetest x1 x2 x3 x4 e h
  | convClearCounts x1 x2 x3 => exact keep_execConvClearCounts x1 x2 x3 e h
  | convSpeedUpdate x1 x2 => exact keep_execConvSpeedUpdate x1 x2 e h
  | fsPoolCommit x1 x2 => exact keep_execFsPoolCommit x1 x2 e h
  | fsAlloc x1 x2 x3 => exact keep_execFsAlloc x1 x2 x3 e h
  | fsFree x1 x2 x3 => exact keep_execFsFree x1 x2 x3 e h
  | fsCancelQueued x1 x2 x3 => exact keep_execFsCancelQueued x1 x2 x3 e h
  | fsBufWrite x1 x2 x3 x4 => exact keep_execFsBufWrite x1 x2 x3 x4 e h
  | fsBufRead x1 x2 => exact keep_execFsBufRead x1 x2 e h
  | queuedWriteTimeout x1 x2 => exact keep_execQueuedWriteTimeout x1 x2 e h
  | fsChRetire x1 x2 x3 => exact keep_execFsChRetire x1 x2 x3 e h
  | fsChRestore x1 x2 x3 => exact keep_execFsChRestore x1 x2 x3 e h
  | fsChSweep x1 x2 x3 => exact keep_execFsChSweep x1 x2 x3 e h
  | marginSweepStart x1 x2 => exact keep_execMarginSweepStart x1 x2 e h
  | sweepPartDone x1 x2 => exact keep_execSweepPartDone x1 x2 e h
  | evacuationDone x1 x2 => exact keep_execEvacuationDone x1 x2 e h
  | evacuationRetry x1 x2 => exact keep_execEvacuationRetry x1 x2 e h
  | channelRetrainDone x1 x2 x3 x4 x5 => exact keep_execChannelRetrainDone x1 x2 x3 x4 x5 e h
  | dramBurstRead x1 x2 x3 x4 x5 => exact keep_execDramBurstRead x1 x2 x3 x4 x5 e h
  | fsWinCommit x1 x2 => exact keep_execFsWinCommit x1 x2 e h
  | fsWinTrigger x1 x2 x3 => exact keep_execFsWinTrigger x1 x2 x3 e h
  | fsWinRelease x1 x2 x3 => exact keep_execFsWinRelease x1 x2 x3 e h
  | fsWinRestart x1 x2 x3 => exact keep_execFsWinRestart x1 x2 x3 e h
  | windowPostExpiry x1 x2 => exact keep_execWindowPostExpiry x1 x2 e h
  | fsStatsClear x1 x2 => exact keep_execFsStatsClear x1 x2 e h
  | cmpApply x1 x2 x3 => exact keep_execCmpApply x1 x2 x3 e h
  | cmpDisable x1 x2 x3 => exact keep_execCmpDisable x1 x2 x3 e h
  | cmpEnable x1 x2 x3 => exact keep_execCmpEnable x1 x2 x3 e h
  | cmpRetest x1 x2 x3 x4 => exact keep_execCmpRetest x1 x2 x3 x4 e h
  | cmpClearCounters x1 x2 x3 => exact keep_execCmpClearCounters x1 x2 x3 e h
  | cmpStatsClear x1 x2 => exact keep_execCmpStatsClear x1 x2 e h
  | audCommit x1 x2 => exact keep_execAudCommit x1 x2 e h
  | audioBlockBoundary x1 x2 x3 => exact keep_execAudioBlockBoundary x1 x2 x3 e h
  | chimeStart x1 x2 x3 x4 => exact keep_execChimeStart x1 x2 x3 x4 e h
  | chimeStop x1 x2 x3 => exact keep_execChimeStop x1 x2 x3 e h
  | chimeStopAll x1 x2 => exact keep_execChimeStopAll x1 x2 e h
  | chimePatternStep x1 x2 => exact keep_execChimePatternStep x1 x2 e h
  | tdmFrame x1 x2 x3 => exact keep_execTdmFrame x1 x2 x3 e h
  | tdmClockTimeout x1 x2 => exact keep_execTdmClockTimeout x1 x2 e h
  | tdmClearCounts x1 x2 x3 => exact keep_execTdmClearCounts x1 x2 x3 e h
  | tdmResync x1 x2 x3 => exact keep_execTdmResync x1 x2 x3 e h
  | audMuteAll x1 x2 x3 => exact keep_execAudMuteAll x1 x2 x3 e h
  | audStatsClear x1 x2 => exact keep_execAudStatsClear x1 x2 e h
  | soundWrite x1 x2 x3 x4 => exact keep_execSoundWrite x1 x2 x3 x4 e h
  | soundDelete x1 x2 x3 => exact keep_execSoundDelete x1 x2 x3 e h
  | phyApply x1 x2 x3 => exact keep_execPhyApply x1 x2 x3 e h
  | phyRetrain x1 x2 x3 => exact keep_execPhyRetrain x1 x2 x3 e h
  | phyQuiet x1 x2 x3 => exact keep_execPhyQuiet x1 x2 x3 e h
  | phyDormant x1 x2 x3 => exact keep_execPhyDormant x1 x2 x3 e h
  | phyWake x1 x2 x3 => exact keep_execPhyWake x1 x2 x3 e h
  | phyLoopStart x1 x2 x3 => exact keep_execPhyLoopStart x1 x2 x3 e h
  | phyLoopStop x1 x2 x3 => exact keep_execPhyLoopStop x1 x2 x3 e h
  | phySweep x1 x2 x3 => exact keep_execPhySweep x1 x2 x3 e h
  | phyClearCounts x1 x2 x3 => exact keep_execPhyClearCounts x1 x2 x3 e h
  | calibrationDone x1 x2 => exact keep_execCalibrationDone x1 x2 e h
  | trainingDone x1 x2 x3 x4 => exact keep_execTrainingDone x1 x2 x3 x4 e h
  | noSignalTimeout x1 x2 => exact keep_execNoSignalTimeout x1 x2 e h
  | signalLoss x1 x2 => exact keep_execSignalLoss x1 x2 e h
  | relockDone x1 x2 x3 x4 x5 => exact keep_execRelockDone x1 x2 x3 x4 x5 e h
  | failedRetry x1 x2 => exact keep_execFailedRetry x1 x2 e h
  | quietDelayExpiry x1 x2 => exact keep_execQuietDelayExpiry x1 x2 e h
  | dormantDelayExpiry x1 x2 => exact keep_execDormantDelayExpiry x1 x2 e h
  | wakeBurst x1 x2 => exact keep_execWakeBurst x1 x2 e h
  | wakeDone x1 x2 x3 => exact keep_execWakeDone x1 x2 x3 e h
  | loopDurationExpiry x1 x2 x3 x4 => exact keep_execLoopDurationExpiry x1 x2 x3 x4 e h
  | loopSyncTimeout x1 x2 => exact keep_execLoopSyncTimeout x1 x2 e h
  | histogramWindow x1 x2 x3 => exact keep_execHistogramWindow x1 x2 x3 e h
  | idleRun x1 x2 => exact keep_execIdleRun x1 x2 e h
  | phyrefLoss x1 => exact keep_execPhyrefLoss x1 e h
  | turnFolio x1 x2 x3 x4 => exact keep_execTurnFolio x1 x2 x3 x4 e h
  | skipFolio x1 x2 => exact keep_execSkipFolio x1 x2 e h
  | idleFolio x1 x2 x3 => exact keep_execIdleFolio x1 x2 x3 e h
  | invalidHeader x1 x2 x3 => exact keep_execInvalidHeader x1 x2 x3 e h
  | txTurnStart x1 x2 => exact keep_execTxTurnStart x1 x2 e h
  | calendarSegment x1 x2 x3 => exact keep_execCalendarSegment x1 x2 x3 e h
  | calendarCommit x1 x2 x3 => exact keep_execCalendarCommit x1 x2 x3 e h
  | calendarAck x1 x2 x3 => exact keep_execCalendarAck x1 x2 x3 e h
  | calendarRefuse x1 x2 x3 => exact keep_execCalendarRefuse x1 x2 x3 e h
  | colophonPart0 x1 x2 x3 => exact keep_execColophonPart0 x1 x2 x3 e h
  | colophonPart1 x1 x2 x3 => exact keep_execColophonPart1 x1 x2 x3 e h
  | colophonPart2 x1 x2 x3 => exact keep_execColophonPart2 x1 x2 x3 e h
  | colophonResponse x1 x2 x3 x4 => exact keep_execColophonResponse x1 x2 x3 x4 e h
  | colophonTimeout x1 x2 => exact keep_execColophonTimeout x1 x2 e h
  | authTimeout x1 x2 => exact keep_execAuthTimeout x1 x2 e h
  | resumeTimeout x1 x2 => exact keep_execResumeTimeout x1 x2 e h
  | rateRequestFolio x1 x2 x3 => exact keep_execRateRequestFolio x1 x2 x3 e h
  | rateAcceptFolio x1 x2 x3 => exact keep_execRateAcceptFolio x1 x2 x3 e h
  | rateRefuseFolio x1 x2 x3 => exact keep_execRateRefuseFolio x1 x2 x3 e h
  | quietRequestFolio x1 x2 => exact keep_execQuietRequestFolio x1 x2 e h
  | dormantRequestFolio x1 x2 => exact keep_execDormantRequestFolio x1 x2 e h
  | lpAcceptFolio x1 x2 => exact keep_execLpAcceptFolio x1 x2 e h
  | lpRefuseFolio x1 x2 => exact keep_execLpRefuseFolio x1 x2 e h
  | loopRequestFolio x1 x2 x3 => exact keep_execLoopRequestFolio x1 x2 x3 e h
  | loopAcceptFolio x1 x2 => exact keep_execLoopAcceptFolio x1 x2 e h
  | loopRefuseFolio x1 x2 => exact keep_execLoopRefuseFolio x1 x2 e h
  | loopEndFolio x1 x2 => exact keep_execLoopEndFolio x1 x2 e h
  | bondMemberLost x1 x2 x3 => exact keep_execBondMemberLost x1 x2 x3 e h
  | bondMemberWithdrawn x1 x2 x3 => exact keep_execBondMemberWithdrawn x1 x2 x3 e h
  | bondMemberReady x1 x2 x3 => exact keep_execBondMemberReady x1 x2 x3 e h
  | lnkApplySetup x1 x2 x3 => exact keep_execLnkApplySetup x1 x2 x3 e h
  | lnkAnnounceCalendar x1 x2 x3 => exact keep_execLnkAnnounceCalendar x1 x2 x3 e h
  | lnkRenegotiate x1 x2 x3 => exact keep_execLnkRenegotiate x1 x2 x3 e h
  | lnkCancelCalendar x1 x2 x3 => exact keep_execLnkCancelCalendar x1 x2 x3 e h
  | lnkClearCounts x1 x2 x3 => exact keep_execLnkClearCounts x1 x2 x3 e h
  | lnkRateRequest x1 x2 x3 x4 => exact keep_execLnkRateRequest x1 x2 x3 x4 e h
  | lnkStatsClear x1 x2 => exact keep_execLnkStatsClear x1 x2 e h
  | epochAdvance x1 x2 => exact keep_execEpochAdvance x1 x2 e h
  | orphanEpochEnd x1 x2 => exact keep_execOrphanEpochEnd x1 x2 e h
  | reauthRetry x1 x2 => exact keep_execReauthRetry x1 x2 e h
  | refApply x1 x2 x3 => exact keep_execRefApply x1 x2 x3 e h
  | refRequalify x1 x2 x3 => exact keep_execRefRequalify x1 x2 x3 e h
  | refClearCounts x1 x2 x3 => exact keep_execRefClearCounts x1 x2 x3 e h
  | domApply x1 x2 x3 x4 => exact keep_execDomApply x1 x2 x3 x4 e h
  | domClearHistory x1 x2 x3 => exact keep_execDomClearHistory x1 x2 x3 e h
  | domClearCounts x1 x2 x3 => exact keep_execDomClearCounts x1 x2 x3 e h
  | refStatsClear x1 x2 => exact keep_execRefStatsClear x1 x2 e h
  | refActivityTimeout x1 x2 => exact keep_execRefActivityTimeout x1 x2 e h
  | refPulseEdge x1 x2 => exact keep_execRefPulseEdge x1 x2 e h
  | refWindowEnd x1 x2 x3 x4 => exact keep_execRefWindowEnd x1 x2 x3 x4 e h
  | refQualTimeExpiry x1 x2 => exact keep_execRefQualTimeExpiry x1 x2 e h
  | selectionEval x1 x2 => exact keep_execSelectionEval x1 x2 e h
  | historyTick x1 x2 => exact keep_execHistoryTick x1 x2 e h
  | domFramePulse x1 x2 => exact keep_execDomFramePulse x1 x2 e h
  | dtDomainWrite x1 x2 x3 => exact keep_execDtDomainWrite x1 x2 x3 e h
  | gptpSync x1 x2 x3 => exact keep_execGptpSync x1 x2 x3 e h
  | netMapLatch x1 x2 x3 => exact keep_execNetMapLatch x1 x2 x3 e h
  | xoLoss x1 x2 => exact keep_execXoLoss x1 x2 e h
  | secUpdate x1 x2 x3 x4 => exact keep_execSecUpdate x1 x2 x3 x4 e h
  | secChallenge x1 x2 x3 => exact keep_execSecChallenge x1 x2 x3 e h
  | secStatsClear x1 x2 => exact keep_execSecStatsClear x1 x2 e h
  | tamperTrip x1 x2 => exact keep_execTamperTrip x1 x2 e h
  | remaskTick x1 x2 => exact keep_execRemaskTick x1 x2 e h
  | transportKeyLoad x1 x2 => exact keep_execTransportKeyLoad x1 x2 e h
  | recoveryWaitEnd x1 => exact keep_execRecoveryWaitEnd x1 e h
  | railGood x1 x2 x3 => exact keep_execRailGood x1 x2 x3 e h
  | keeperRailFail x1 x2 x3 => exact keep_execKeeperRailFail x1 x2 x3 e h
  | bulkRailFail x1 x2 x3 => exact keep_execBulkRailFail x1 x2 x3 e h
  | railHigh x1 x2 x3 => exact keep_execRailHigh x1 x2 x3 e h
  | mainQualified x1 => exact keep_execMainQualified x1 e h
  | sideAQualified x1 => exact keep_execSideAQualified x1 e h
  | holdupEntry x1 => exact keep_execHoldupEntry x1 e h
  | holdupIndicatorTick x1 x2 => exact keep_execHoldupIndicatorTick x1 x2 e h
  | thermalTrip x1 x2 => exact keep_execThermalTrip x1 x2 e h
  | thermalReturn x1 x2 => exact keep_execThermalReturn x1 x2 e h
  | tjRangeCrossing x1 x2 => exact keep_execTjRangeCrossing x1 x2 e h
  | govApply x1 x2 => exact keep_execGovApply x1 x2 e h
  | govPause x1 x2 => exact keep_execGovPause x1 x2 e h
  | govResume x1 x2 => exact keep_execGovResume x1 x2 e h
  | govClearFault x1 x2 => exact keep_execGovClearFault x1 x2 e h
  | govInterval x1 => exact keep_execGovInterval x1 e h
  | govWaitTimeout x1 => exact keep_execGovWaitTimeout x1 e h
  | avsTransactionDone x1 x2 => exact keep_execAvsTransactionDone x1 x2 e h
  | pwrStatsClear x1 x2 => exact keep_execPwrStatsClear x1 x2 e h
  | powerOn t good straps => exact keep_execPowerOn t good straps (hp t good straps rfl) e h
  | resetNAssert x1 => exact keep_execResetNAssert x1 e h
  | resetNRelease x1 x2 => exact keep_execResetNRelease x1 x2 e h
  | rstCold x1 x2 => exact keep_execRstCold x1 x2 e h
  | rstWarm x1 x2 => exact keep_execRstWarm x1 x2 e h
  | rstProcRestart x1 x2 => exact keep_execRstProcRestart x1 x2 e h
  | rstSubsystem x1 x2 x3 x4 => exact keep_execRstSubsystem x1 x2 x3 x4 e h
  | rstProceed x1 x2 => exact keep_execRstProceed x1 x2 e h
  | warmHoldExpiry x1 => exact keep_execWarmHoldExpiry x1 e h
  | startFailedClear x1 x2 => exact keep_execStartFailedClear x1 x2 e h
  | startS0Supply x1 x2 x3 => exact keep_execStartS0Supply x1 x2 x3 e h
  | startS1Osc x1 x2 x3 => exact keep_execStartS1Osc x1 x2 x3 e h
  | startS2Nvm x1 x2 => exact keep_execStartS2Nvm x1 x2 e h
  | startS3Root x1 x2 x3 => exact keep_execStartS3Root x1 x2 x3 e h
  | startS4Firmware x1 x2 x3 => exact keep_execStartS4Firmware x1 x2 x3 e h
  | startS5Keeper x1 x2 x3 x4 => exact keep_execStartS5Keeper x1 x2 x3 x4 e h
  | startS6Firstlight x1 => exact keep_execStartS6Firstlight x1 e h
  | startS7DramTrain x1 x2 => exact keep_execStartS7DramTrain x1 x2 e h
  | startS8DramWipe x1 x2 => exact keep_execStartS8DramWipe x1 x2 e h
  | startS9Lanes x1 => exact keep_execStartS9Lanes x1 e h
  | startS10Config x1 x2 => exact keep_execStartS10Config x1 x2 e h
  | startS11Routes x1 => exact keep_execStartS11Routes x1 e h
  | lcRequest x1 x2 x3 x4 => exact keep_execLcRequest x1 x2 x3 x4 e h
  | cbCommit x1 x2 => exact keep_execCbCommit x1 x2 e h
  | cbNote x1 x2 x3 => exact keep_execCbNote x1 x2 x3 e h
  | cbStatsClear x1 x2 => exact keep_execCbStatsClear x1 x2 e h
  | cbDigestTick x1 => exact keep_execCbDigestTick x1 e h
  | cbNvmRetry x1 x2 => exact keep_execCbNvmRetry x1 x2 e h
  | cbRead x1 x2 x3 => exact keep_execCbRead x1 x2 x3 e h
  | busWatchdogExpiry x1 x2 => exact keep_execBusWatchdogExpiry x1 x2 e h
  | assetWrite x1 x2 x3 x4 => exact keep_execAssetWrite x1 x2 x3 x4 e h
  | assetDelete x1 x2 x3 => exact keep_execAssetDelete x1 x2 x3 e h
  | svcWindowAccess x1 x2 x3 => exact keep_execSvcWindowAccess x1 x2 x3 e h
  | fwImageWrite x1 x2 x3 x4 => exact keep_execFwImageWrite x1 x2 x3 x4 e h
  | fwTrial x1 x2 => exact keep_execFwTrial x1 x2 e h
  | fwConfirm x1 x2 => exact keep_execFwConfirm x1 x2 e h
  | fwRevert x1 x2 => exact keep_execFwRevert x1 x2 e h
  | fwConfirmTimeout x1 => exact keep_execFwConfirmTimeout x1 e h
  | procWatchdogExpiry x1 => exact keep_execProcWatchdogExpiry x1 e h
  | drainDone x1 x2 x3 => exact keep_execDrainDone x1 x2 x3 e h
  | drainLimit x1 x2 x3 x4 => exact keep_execDrainLimit x1 x2 x3 x4 e h
  | busStatsClear x1 x2 => exact keep_execBusStatsClear x1 x2 e h
  | clockSourceActive x1 x2 => exact keep_execClockSourceActive x1 x2 e h
  | holdInFail x1 x2 => exact keep_execHoldInFail x1 x2 e h
  | holdupStoreExhausted x1 => exact keep_execHoldupStoreExhausted x1 e h
  | asrcUnlock x1 x2 x3 x4 => exact keep_execAsrcUnlock x1 x2 x3 x4 e h
  | netLinkChange x1 x2 => exact keep_execNetLinkChange x1 x2 e h
  | canBusError x1 x2 x3 x4 => exact keep_execCanBusError x1 x2 x3 x4 e h
  | canBusOffRecovery x1 x2 => exact keep_execCanBusOffRecovery x1 x2 e h
  | vddqAboveVdd2 x1 x2 x3 => exact keep_execVddqAboveVdd2 x1 x2 x3 e h
  | unknownControlFolio x1 x2 x3 x4 => exact keep_execUnknownControlFolio x1 x2 x3 x4 e h

/-- A step that answers a next state is idle, with an empty queue, or the command at the front of the queue. -/
theorem step_next {s t : State} (e : step s = .next t) :
    (s.pending = [] ∧ t = s) ∨ ∃ i rest, s.pending = i :: rest ∧ exec i { s with pending := rest } = .next t := by
  unfold step at e
  split at e
  · exact .inl ⟨‹_›, (Host.Outcome.next.inj e).symm⟩
  · exact .inr ⟨_, _, ‹_›, e⟩

end Sys2Proof.Laws
end

