-- ==== Sys2Proof/Machine/Lands.lean ====
section
/-! DEFINITION. The lands (18_package_electrical.md): the grid and what each land carries (R608 to R611), the states that the low-speed
lands hold (R618), what the test access port answers (R621), and the ordering codes (R626). -/

namespace Sys2Proof.Machine

/-- The low-speed signals of R610. -/
inductive Signal where
  | phyref (neg : Bool)
  | xoIn
  | refIn (k : Nat)
  | syncIn (k : Nat)
  | canTxd (p : Nat)
  | canRxd (p : Nat)
  | rmiiRefClk
  | rmiiTxd (k : Nat)
  | rmiiTxEn
  | rmiiRxd (k : Nat)
  | rmiiCrsDv
  | mdc
  | mdio
  | avsClk
  | avsMdata
  | avsSdata
  | evtN
  | safeN
  | resetN
  | tamperN
  | nodeId (k : Nat)
  | svcRecoverN
  | tck
  | tms
  | tdi
  | tdo
  | trstN
  | holdIn
  | tdmBclk (p : Nat)
  | tdmFs (p : Nat)
  | tdmDin (p : Nat)
  | tdmDout (p : Nat)
  deriving DecidableEq, Repr

/-- What a land carries; a rail by its bit of PWR_GOOD (R545). -/
inductive Land where
  | vss
  | reserved
  | supply (rail : Nat)
  | lane (n : Nat) (rx neg : Bool)
  | signal (x : Signal)
  deriving DecidableEq, Repr

/-! The grid (R608): rows and columns 1 to 58. -/

/-- The letters of a row: A to Y without I, O, Q, R, S, X and Z, then AA to AY, BA to BY and CA. -/
def rowName (i : Nat) : String :=
  let second : List String := ["A", "B", "C", "D", "E", "F", "G", "H", "J", "K", "L", "M", "N", "P", "T", "U", "V", "W", "Y"]
  nth ["", "A", "B", "C"] ((i - 1) / 19) "" ++ nth second ((i - 1) % 19) ""

/-- The rail of an interior region (R609); none in the east guard. -/
def regionRail (i j : Nat) : Option Nat :=
  if i ≤ 10 ∨ 49 ≤ i then some 7
  else if i ≤ 14 then some 9
  else if 45 ≤ i then some 8
  else
    let side := if i ≤ 29 then 0 else 1
    if 15 ≤ j ∧ j ≤ 44 then some 6
    else if j ≤ 10 then some (2 + side)
    else if j ≤ 14 then some side
    else if j ≤ 48 then some (4 + side)
    else none

/-- A land of the interior: the supply of its region where i + j is even. -/
def interiorLand (i j : Nat) : Land :=
  match regionRail i j with
  | some rail => if (i + j) % 2 = 0 then .supply rail else .vss
  | none => .vss

/-- The lane lands of the north and south edges and of the west edge (R610). -/
def laneLand (i j : Nat) : Option Land :=
  let n := (j - 4) / 4
  let k := (i - 10) / 3
  if (i = 1 ∨ i = 4) ∧ 4 ≤ j ∧ n < 12 ∧ j % 4 < 2 then some (.lane n (i == 4) (j % 4 == 1))
  else if (i = 58 ∨ i = 56) ∧ 4 ≤ j ∧ n < 12 ∧ j % 4 < 2 then some (.lane (12 + n) (i == 56) (j % 4 == 1))
  else if (j = 1 ∨ j = 4) ∧ 10 ≤ i ∧ k < 8 ∧ (i - 10) % 3 < 2 then some (.lane (24 + k) (j == 4) ((i - 10) % 3 == 1))
  else none

/-- The signals of columns 54 to 57, by row (R610). -/
def signalRow (i : Nat) : List (Option Signal) :=
  match i with
  | 10 => [none, none, some (.phyref false), some (.phyref true)]
  | 12 => [none, none, some .xoIn, none]
  | 13 => (List.range 4).map fun k => some (.refIn k)
  | 14 => (List.range 4).map fun k => some (.syncIn k)
  | 15 => [some (.canTxd 0), some (.canRxd 0), some (.canTxd 1), some (.canRxd 1)]
  | 16 => [some .rmiiRefClk, some (.rmiiTxd 0), some (.rmiiTxd 1), some .rmiiTxEn]
  | 17 => [some (.rmiiRxd 0), some (.rmiiRxd 1), some .rmiiCrsDv, some .mdc]
  | 18 => [some .mdio, some .avsClk, some .avsMdata, some .avsSdata]
  | 19 => [some .evtN, some .safeN, some .resetN, some .tamperN]
  | 20 => (List.range 4).map fun k => some (.nodeId k)
  | 21 => [some (.nodeId 4), some (.nodeId 5), some (.nodeId 6), some .svcRecoverN]
  | 22 => [some .tck, some .tms, some .tdi, some .tdo]
  | 23 => [some .trstN, none, some .holdIn, some .holdIn]
  | _ =>
    if 25 ≤ i ∧ i ≤ 32 then [some (.tdmBclk (i - 25)), some (.tdmFs (i - 25)), some (.tdmDin (i - 25)), some (.tdmDout (i - 25))]
    else []

/-- What the land at row index i and column index j carries (R609 to R611). -/
def land (i j : Nat) : Land :=
  if 7 ≤ i ∧ i ≤ 52 ∧ 7 ≤ j ∧ j ≤ 52 then interiorLand i j
  else if (i = 6 ∨ i = 53) ∧ 20 ≤ j ∧ j ≤ 34 then .reserved
  else match laneLand i j, (if 54 ≤ j then nth (signalRow i) (j - 54) none else none) with
    | some x, _ => x
    | none, some x => .signal x
    | none, none => .vss

/-! The states of the lands (R618). -/

inductive LandState where
  | low
  | released
  | driven
  | highZ
  | input
  deriving DecidableEq, Repr

/-- RESET_N is low, or the start has not come to S4. -/
def State.beforeS4 (s : State) : Bool := s.start.held || decide (s.start.next < 4)

/-- The state of an open-drain land; true is released. -/
def drain (level : Bool) : LandState := if level then .released else .low

/-- The state of a land that R618 names; none for one that it does not name. -/
def landState (s : State) (x : Signal) : Option LandState :=
  match x with
  | .safeN => some (if s.beforeS4 then .low else drain s.evt.safeN)
  | .evtN => some (if s.beforeS4 then .released else drain s.evt.evtN)
  | .canTxd _ | .rmiiTxd _ | .rmiiTxEn | .mdc => some (if s.beforeS4 then .highZ else .driven)
  | .tdmBclk _ | .tdmFs _ | .tdmDout _ | .avsClk | .avsMdata =>
    some (if s.beforeS4 || s.inReserve then .highZ else .driven)
  | .resetN | .tamperN | .nodeId _ | .svcRecoverN | .trstN => some .input
  | _ => none

/-- The internal pull of a land, true upwards; none for one without (R618). -/
def landPull (x : Signal) : Option Bool :=
  match x with
  | .resetN | .tamperN | .nodeId _ | .svcRecoverN => some true
  | .trstN | .tdmBclk _ | .tdmFs _ | .tdmDout _ | .avsClk | .avsMdata => some false
  | _ => none

/-! The test access port (R621). -/

/-- IDCODE: version, part, and the manufacturer of bits [10:0] of ID_VENDOR. -/
def idcode (s : State) : Nat := pack [(4, 0xB), (16, 0x3264), (11, s.reg Reg.idVendor), (1, 1)]

/-- Instructions of the port. -/
inductive TapInstr where
  | idcode
  | bypass
  | other (k : Nat)
  deriving DecidableEq, Repr

/-- What an instruction acts as: outside the states and windows of R574 and R575 every one but IDCODE is BYPASS. -/
def tapActs (s : State) (x : TapInstr) : TapInstr :=
  match x with
  | .other k => if s.scanRecovers || s.nvm.lc == 0 || s.nvm.lc == 3 then .other k else .bypass
  | x => x

/-! Ordering codes (R626). -/

/-- U3264B0-LG-M and U3264B0-LG-P. -/
inductive OrderCode where
  | m
  | p
  deriving DecidableEq, Repr

/-- The life-cycle state at shipment, and whether slots 30 and 31 are loaded. -/
def OrderCode.shipped : OrderCode → Nat × Bool
  | .m => (0, false)
  | .p => (1, true)

end Sys2Proof.Machine
end

