-- ==== Sys2Proof/WellFormed.lean ====
section
/-! DEFINITION. Which commands are well formed: every instance number within the instances that the U3264 has (R12, R461),
every carried field within its width, every message with the OP of its row. -/

namespace Sys2Proof

def bytesOk (l : List Nat) : Bool := l.all fun b => decide (b < 256)

/-- A requester of a path (R461): HOST 0 to 126 on CAN, IPv4 address and UDP port on Ethernet, one on a lane. -/
def requesterOk (w : Requester) : Bool :=
  if w.path < 2 then decide (w.id ≤ 126) else if w.path = 2 then decide (w.id < 2 ^ 48)
  else decide (w.path < 35) && w.id == 0

def srcOk (c : Src) : Bool := requesterOk c.who

/-- The fields of a message fit the header and the trailer (R469, R479). -/
def msgFits (m : Msg) : Bool :=
  decide (m.tag < 2 ^ 16 ∧ m.op < 2 ^ 8 ∧ m.index < 2 ^ 16 ∧ m.sub < 2 ^ 8 ∧ m.flags < 2 ^ 8 ∧ m.offset < 2 ^ 32 ∧
    m.rev < 2 ^ 4 ∧ m.length < 2 ^ 28) && bytesOk m.data &&
    (match m.trailer with
      | some t => decide (t.session < 2 ^ 8 ∧ t.seq < 2 ^ 32 ∧ t.mac < 2 ^ 128)
      | none => true)

/-- A message of an OP: LENGTH counts its data, but for a READ, which has none, and the trailer follows when AUTH is set. -/
def msgOk (op : Nat) (w : Requester) (m : Msg) : Bool :=
  requesterOk w && msgFits m && m.op == op && (if op = 1 then m.data == [] else m.length == m.data.length) &&
    (m.trailer.isSome == (m.flags / 128 == 1))

/-- A CAN frame: the identifier of its format, and at most 64 bytes, 8 without FD. -/
def frameOk (f : CanFrame) : Bool :=
  decide (f.ident < (if f.ext then 2 ^ 29 else 2 ^ 11) ∧ f.data.length ≤ (if f.fd then 64 else 8)) && bytesOk f.data

def bndOk : Bnd → Bool
  | .output n => decide (n < 64)
  | .stream k => decide (k < 256)
  | .window w => decide (w < 64)

def useOk : BurstUse → Bool
  | .video handle offset => decide (handle < 2 ^ 32 ∧ offset < 2 ^ 32)
  | .delay out => decide (out < 512)
  | .asset id => decide (1 ≤ id ∧ id ≤ 0xFFF)

def laneOk (n : Nat) : Bool := decide (n < 32)

/-- A control folio's body (R395). -/
def folioOk (lane body : Nat) : Bool := decide (lane < 32 ∧ body < 2 ^ 120)

/-- Pairs whose first numbers an instance of n. -/
def pairsOk {α : Type} (n : Nat) (l : List (Nat × α)) : Bool := l.all fun p => decide (p.1 < n)

/-- What a flit serves names routes that exist. -/
def flitUseOk (u : FlitUse) : Bool :=
  match u with
  | .data r | .write r _ _ _ | .memory r _ => decide (r < 2048)
  | .dap _ | .upload _ | .diagnostics _ => true

/-- A command is well formed. -/
def wf : Instr → Bool
  | .registerWrite _ c index sub data => srcOk c && decide (index < 2 ^ 16 ∧ sub < 2 ^ 8) && bytesOk data
  | .dapRead _ w m => msgOk 1 w m
  | .dapWrite _ w m _ => msgOk 2 w m
  | .dapHello _ w m => msgOk 3 w m
  | .dapSave _ w m => msgOk 4 w m
  | .restoreDefaults _ w m => msgOk 5 w m
  | .sessionOpen _ w m => msgOk 6 w m
  | .sessionProve _ w m => msgOk 7 w m
  | .sessionClose _ w m => msgOk 8 w m
  | .dapAbort _ w m => msgOk 9 w m
  | .stagedWriteTimeout _ w | .snapshotDiscard _ w | .keptResponseExpiry _ w | .fsBufRead _ w => requesterOk w
  | .sessionIdleTimeout _ n => decide (1 ≤ n ∧ n ≤ 8)
  | .dapLockWrite _ c v | .audMuteAll _ c v | .dtDomainWrite _ c v => srcOk c && decide (v < 2 ^ 8)
  | .proofLockoutEnd _ p => decide (p < 35)
  | .subscriptionExpiry _ p => decide (p < 4)
  | .notifySend _ w n => (if w.path < 2 then w.id == 0x7F else requesterOk w) && decide (1 ≤ n ∧ n ≤ 16)
  | .canSegment _ p f _ | .canReassemblyAbort _ p f => decide (p < 2) && frameOk f
  | .canReassemblyTimeout _ p h => decide (p < 2 ∧ h ≤ 126)
  | .netDatagram _ w data _ => w.path == 2 && requesterOk w && bytesOk data
  | .netReassemblyTimeout _ w => w.path == 2 && requesterOk w
  | .arpRequest _ target ip mac => decide (target < 2 ^ 32 ∧ ip < 2 ^ 32 ∧ mac < 2 ^ 48)
  | .icmpEcho _ a b data => decide (a < 2 ^ 32 ∧ b < 2 ^ 32) && bytesOk data
  | .laneDapSegment _ l b _ => folioOk l b
  | .canApplySetup _ c p | .canLeaveBusOff _ c p => srcOk c && decide (p < 2)
  | .netApplySetup _ c | .netRestartPhy _ c | .dapStatsClear _ c | .evtClearAll _ c | .evtDefaults _ c | .strCommit _ c
  | .stvClear _ c | .takeStatsClear _ c | .fabStatsClear _ c | .fsPoolCommit _ c | .fsWinCommit _ c | .fsStatsClear _ c
  | .cmpStatsClear _ c | .audCommit _ c | .chimeStopAll _ c | .audStatsClear _ c | .lnkStatsClear _ c | .refStatsClear _ c
  | .secStatsClear _ c | .govApply _ c | .govPause _ c | .govResume _ c | .govClearFault _ c | .pwrStatsClear _ c
  | .rstCold _ c | .rstWarm _ c | .rstProcRestart _ c | .rstProceed _ c | .startFailedClear _ c | .cbStatsClear _ c
  | .fwTrial _ c | .fwConfirm _ c | .fwRevert _ c | .busStatsClear _ c => srcOk c
  | .safeSetCommit _ c _ | .fabPortRestore _ c _ => srcOk c
  | .evtStatusClear _ c w v | .evtEnableWrite _ c w v => srcOk c && decide (w < 36 ∧ v < 2 ^ 32)
  | .evtSeverityWrite _ c w v => srcOk c && decide (w < 36 ∧ v < 2 ^ 64)
  | .evtClearId _ c id | .evtTest _ c id | .takeCancel _ c id | .assetDelete _ c id | .soundDelete _ c id =>
    srcOk c && decide (id < 2 ^ 16)
  | .rstSubsystem _ c v _ => srcOk c && decide (v < 2 ^ 16)
  | .saveCommitWord _ _ | .lockTimeoutExpired _ | .safeMinLowExpiry _ | .deviceHeartbeatSend _ | .streamRecordRepeat _
  | .phyrefLoss _ | .recoveryWaitEnd _ | .mainQualified _ | .sideAQualified _ | .holdupEntry _ | .govInterval _
  | .govWaitTimeout _ | .resetNAssert _ | .warmHoldExpiry _ | .startS1Osc _ _ _ | .startS2Nvm _ _ | .startS3Root _ _ _
  | .startS4Firmware _ _ _ | .startS6Firstlight _ | .startS9Lanes _ | .startS10Config _ _ | .startS11Routes _
  | .cbCommit _ _ | .cbDigestTick _ | .cbNvmRetry _ _ | .fwConfirmTimeout _ | .procWatchdogExpiry _
  | .holdupStoreExhausted _ | .netLinkChange _ _ | .xoLoss _ _ => true
  | .endpointRecord _ l b | .streamRecord _ l b | .withdrawFolio _ l b | .heartbeatFolio _ l b | .lineCheckFolio _ l b
  | .poisonFolio _ l b | .tagFolio _ l b | .audioFolio _ l b
  | .calendarSegment _ l b | .calendarCommit _ l b | .calendarAck _ l b | .calendarRefuse _ l b | .colophonPart0 _ l b
  | .colophonPart1 _ l b | .colophonPart2 _ l b | .rateRequestFolio _ l b | .rateAcceptFolio _ l b | .rateRefuseFolio _ l b
  | .loopRequestFolio _ l b | .bondMemberLost _ l b | .bondMemberWithdrawn _ l b | .bondMemberReady _ l b => folioOk l b
  | .heartbeatWindowEnd _ ep => decide (ep < 1024)
  | .stallTimeout _ k | .inputFrameStart _ k => decide (k < 512)
  | .dataFolio _ l slot payload => decide (l < 32 ∧ 1 ≤ slot ∧ slot ≤ 511 ∧ payload < 2 ^ 128)
  | .takeGroup _ c d | .secUpdate _ c d _ | .secChallenge _ c d | .lcRequest _ c d _ | .cbNote _ c d
  | .assetWrite _ c d _ | .fwImageWrite _ c d _ | .soundWrite _ c d _ => srcOk c && bytesOk d
  | .takeEffectiveDt _ id => decide (id < 2 ^ 16)
  | .c0TakeOverdue _ id r => decide (id < 2 ^ 16 ∧ r < 2048)
  | .holdExpired _ r | .restoreDelayExpired _ r => decide (r < 2048)
  | .outputFrameBoundary _ b | .firstActiveLine _ b => bndOk b
  | .outputLineStart _ n _ late => decide (n < 64) && late.all fun i => decide (i < 24)
  | .pushDone _ n | .syncEvent _ n | .syncTimeout _ n => decide (n < 64)
  | .outCommit _ c n | .rasterClearLate _ c n | .rasterClearCounts _ c n | .rasterResetRegions _ c n
  | .outCompDisable _ c n | .outCompEnable _ c n | .outCompClearCounters _ c n => srcOk c && decide (n < 64)
  | .outCompRetest _ c n _ => srcOk c && decide (n < 64)
  | .sharedFlitArrival _ p l => decide (p < 128) && l.all fun f =>
    decide (f.ingress < 128 ∧ f.dest < 128 ∧ f.pos < 4 ∧ f.payload < 2 ^ 256 ∧ f.flips < 2 ^ 288) && flitUseOk f.use
  | .spineTransfer _ e l => decide (e < 104) && l.all fun x =>
    decide (x.ingress < 89 ∧ x.slot < 512 ∧ x.payload < 2 ^ 128 ∧ x.crc < 2 ^ 8 ∧ x.route < 2048)
  | .handshakeTimeout _ spine p => if spine then decide (p < 89 ∨ 128 ≤ p ∧ p < 232) else decide (p < 128)
  | .egressStall _ p => decide (p < 128)
  | .fabSpeedUpdate _ speeds => speeds.length == 4 && speeds.all fun v => decide (v < 2 ^ 16)
  | .convApply _ c u | .convDisable _ c u | .convEnable _ c u | .convClearCounts _ c u => srcOk c && decide (u < 48)
  | .convRetest _ c u _ => srcOk c && decide (u < 48)
  | .convSpeedUpdate _ speeds => speeds.all fun v => decide (v < 2 ^ 16)
  | .fsAlloc _ c v | .fsFree _ c v | .fsCancelQueued _ c v => srcOk c && decide (v < 2 ^ 64)
  | .fsBufWrite _ c h d => srcOk c && decide (h < 2 ^ 128) && bytesOk d
  | .queuedWriteTimeout _ h => decide (h < 2 ^ 32)
  | .fsChRetire _ c k | .fsChRestore _ c k | .fsChSweep _ c k => srcOk c && decide (k < 8)
  | .marginSweepStart _ load => decide (load ≤ 100)
  | .sweepPartDone _ margin => decide (margin < 2 ^ 8)
  | .evacuationDone _ k | .evacuationRetry _ k => decide (k < 8)
  | .channelRetrainDone _ k _ _ margin => decide (k < 8 ∧ margin < 2 ^ 8)
  | .dramBurstRead _ k use _ reads => decide (k < 8 ∧ 1 ≤ reads.length ∧ reads.length ≤ 3) && useOk use
  | .fsWinTrigger _ c w | .fsWinRelease _ c w | .fsWinRestart _ c w => srcOk c && decide (w < 64)
  | .windowPostExpiry _ w => decide (w < 64)
  | .cmpApply _ c e | .cmpDisable _ c e | .cmpEnable _ c e | .cmpClearCounters _ c e => srcOk c && decide (e < 16)
  | .cmpRetest _ c e _ => srcOk c && decide (e < 16)
  | .audioBlockBoundary _ clipped readings => pairsOk 512 clipped && pairsOk 2048 readings
  | .chimeStart _ c g _ => srcOk c && decide (g < 32)
  | .chimeStop _ c g => srcOk c && decide (g < 32)
  | .chimePatternStep _ g => decide (g < 32)
  | .tdmFrame _ p _ => decide (p < 8)
  | .tdmClockTimeout _ p => decide (p < 8)
  | .tdmClearCounts _ c p | .tdmResync _ c p => srcOk c && decide (p < 8)
  | .phyApply _ c l | .phyRetrain _ c l | .phyQuiet _ c l | .phyDormant _ c l | .phyWake _ c l | .phyLoopStart _ c l
  | .phyLoopStop _ c l | .phySweep _ c l | .phyClearCounts _ c l | .lnkApplySetup _ c l | .lnkAnnounceCalendar _ c l
  | .lnkRenegotiate _ c l | .lnkCancelCalendar _ c l | .lnkClearCounts _ c l => srcOk c && laneOk l
  | .calibrationDone _ l | .noSignalTimeout _ l | .signalLoss _ l | .failedRetry _ l | .quietDelayExpiry _ l
  | .dormantDelayExpiry _ l | .wakeBurst _ l | .loopSyncTimeout _ l | .idleRun _ l | .skipFolio _ l | .colophonTimeout _ l
  | .authTimeout _ l | .resumeTimeout _ l | .quietRequestFolio _ l | .dormantRequestFolio _ l | .lpAcceptFolio _ l
  | .lpRefuseFolio _ l | .loopAcceptFolio _ l | .loopRefuseFolio _ l | .loopEndFolio _ l | .epochAdvance _ l
  | .reauthRetry _ l => laneOk l
  | .trainingDone _ l _ _ => laneOk l
  | .relockDone _ l _ _ _ => laneOk l
  | .wakeDone _ l _ => laneOk l
  | .loopDurationExpiry _ l _ _ => laneOk l
  | .histogramWindow _ l levels => laneOk l && (levels.length == 2 || levels.length == 4)
  | .turnFolio _ l _ symbols => laneOk l && symbols.all fun x => decide (-3 ≤ x ∧ x ≤ 3)
  | .idleFolio _ l slot | .invalidHeader _ l slot => decide (l < 32 ∧ slot ≤ 511)
  | .txTurnStart _ l => laneOk l
  | .colophonResponse _ l a b => decide (l < 32 ∧ a < 2 ^ 120 ∧ b < 2 ^ 120)
  | .lnkRateRequest _ c l rate => srcOk c && decide (l < 32 ∧ rate < 2 ^ 8)
  | .orphanEpochEnd _ w => decide (w < 32 ∨ 33 ≤ w ∧ w ≤ 40)
  | .refApply _ c n | .refRequalify _ c n | .refClearCounts _ c n => srcOk c && decide (n < 12)
  | .domApply _ c n build => srcOk c && decide (n < 16) && pairsOk 16 build
  | .domClearHistory _ c n | .domClearCounts _ c n => srcOk c && decide (n < 16)
  | .refActivityTimeout _ n | .refPulseEdge _ n | .refQualTimeExpiry _ n | .clockSourceActive _ n => decide (n < 12)
  | .refWindowEnd _ n _ doms => decide (n < 12) && pairsOk 16 doms
  | .selectionEval _ build => pairsOk 16 build
  | .historyTick _ freqs => pairsOk 16 freqs
  | .domFramePulse _ n => decide (n < 16)
  | .gptpSync _ gm delay => decide (gm < 2 ^ 64 ∧ delay < 2 ^ 32)
  | .netMapLatch _ seconds nanos => decide (seconds < 2 ^ 48 ∧ nanos < 10 ^ 9)
  | .tamperTrip _ source => decide (source < 4)
  | .remaskTick _ slot => decide (slot < 32)
  | .transportKeyLoad _ key => key.length == 32 && bytesOk key
  | .railGood _ r _ | .railHigh _ r _ => decide (r < 11)
  | .keeperRailFail _ r _ => decide (r < 6)
  | .bulkRailFail _ r _ => decide (6 ≤ r ∧ r ≤ 9)
  | .holdupIndicatorTick _ mv | .holdInFail _ mv => decide (mv < 2 ^ 16)
  | .thermalTrip _ l | .thermalReturn _ l | .tjRangeCrossing _ l => l.length == 8
  | .avsTransactionDone _ read => (match read with
    | some mv => decide (mv < 2 ^ 16)
    | none => true)
  | .powerOn _ good straps => decide (good < 2 ^ 16 ∧ straps < 2 ^ 16)
  | .resetNRelease _ straps => decide (straps < 2 ^ 16)
  | .startS0Supply _ good mv => decide (good < 2 ^ 16) && mv.length == 11
  | .startS5Keeper _ failed _ _ => decide (failed < 2 ^ 16)
  | .startS7DramTrain _ results => results.length == 8 && results.all fun r => decide (r.1 ≤ 2)
  | .startS8DramWipe _ failed => decide (failed < 2 ^ 8)
  | .cbRead _ w _ => requesterOk w
  | .busWatchdogExpiry _ h => decide (h.master < 6 ∧ h.target < 8)
  | .svcWindowAccess _ c data => srcOk c && (match data with
    | some d => bytesOk d
    | none => true)
  | .drainDone _ kind inst | .drainLimit _ kind inst _ => decide (1 ≤ kind ∧ kind ≤ 8 ∧ inst < 256)
  | .asrcUnlock _ i o _ => decide (i < 2048 ∧ o < 512)
  | .canBusError _ p _ _ => decide (p < 2)
  | .canBusOffRecovery _ p => decide (p < 2)
  | .vddqAboveVdd2 _ _ _ => true
  | .unknownControlFolio _ l slot type => decide (l < 32 ∧ slot ≤ 511 ∧ type < 2 ^ 8)

end Sys2Proof
end

