-- ==== Sys2Proof/Tests/Slice0.lean ====
section
/-! SUPPORT. The model's own tests. `witness_…` show for each statement with hypotheses a concrete state and operands that
meet them, the hypotheses of its clauses one after the other; `smoke_…` are ill-formed terms that WellFormed refuses;
`test_…` hold the model against the worked examples of the spec. -/

namespace Sys2Proof.Tests

/-! The tests are checked one after the other: side by side they would need more threads than the check has memory for. -/

set_option Elab.async false

open Sys2Proof Sys2Proof.Machine

/-! Commands of the host in service: every gate that a statement names lets the host of Ethernet pass. -/

def host : Src := ⟨⟨2, 5⟩, true⟩

/-- The machine in service: State.reset at the end of its start. -/
def ready : State := { State.reset with start := { next := 12 } }

def opened (k : Nat) (commit : Bool) : Bool := gate host k commit (ready.begin 1) == stDone
theorem witness_gate_control : ([Reg.canControl, Reg.netControl, Reg.strCommit, Reg.safeSetCommit, Reg.audCommit,
    Reg.fsPoolCommit, Reg.fsWinCommit, Reg.govControl].all fun k => opened k true) = true := by decide
theorem witness_gate_commands : ([Reg.assetDelete, Reg.assetWrite, Reg.audMuteAll, Reg.audStatsClear, Reg.busStatsClear,
    Reg.canControl, Reg.cbNote, Reg.cbStatsClear, Reg.chimeCmd, Reg.cmpStatsClear, Reg.dapLock, Reg.dapStatsClear,
    Reg.dtDomain, Reg.evtClearAll, Reg.evtClearId, Reg.evtDefaults, Reg.evtTest].all fun k => opened k false) = true := by decide
theorem witness_gate_commands2 : ([Reg.fabPortRestore, Reg.fabStatsClear,
    Reg.fsBufCmd, Reg.fsBufWrite, Reg.fsChCmd, Reg.fsStatsClear, Reg.fsWinCmd, Reg.fwActivate, Reg.fwImage, Reg.govControl,
    Reg.lcRequest, Reg.lnkStatsClear, Reg.netControl, Reg.pwrStatsClear, Reg.refStatsClear, Reg.rstCmd, Reg.rstProceed].all fun k => opened k false) = true := by decide
theorem witness_gate_commands3 : ([Reg.rstSubsystem, Reg.secChallenge, Reg.secStatsClear, Reg.secUpdate, Reg.soundDelete, Reg.soundWrite,
    Reg.startFailedClear, Reg.stvClear, Reg.svcWindowData, Reg.takeCancel, Reg.takeGroup, Reg.takeStatsClear].all fun k => opened k false) = true := by decide
theorem witness_gate_inst : ([0, 63].all fun n => opened (Reg.outCommit n) true && opened (Reg.outCompControl n) false && opened (Reg.outRasterControl n) false) = true := by decide
theorem witness_gate_inst2 : ([0, 31].all fun n => opened (Reg.phyControl n) true && opened (Reg.phyControl n) false && opened (Reg.lnkControl n) true && opened (Reg.lnkControl n) false && opened (Reg.lnkRateRequest n) false) = true := by decide
theorem witness_gate_inst3 : ([0, 11].all fun n => opened (Reg.refControl n) true && opened (Reg.refControl n) false) = true ∧
  ([0, 15].all fun n => opened (Reg.domControl n) true && opened (Reg.domControl n) false && opened (Reg.cmpControl n) true && opened (Reg.cmpControl n) false) = true ∧
  ([0, 47].all fun n => opened (Reg.convControl n) true && opened (Reg.convControl n) false) = true ∧
  ([0, 7].all fun n => opened (Reg.tdmControl n) false) = true ∧ ([0, 35].all fun n => opened (Reg.evtStatus n) false && opened (Reg.evtEnable n) false && opened (Reg.evtSeverity n) false) = true := by decide
/-! Control paths. The requester is HOST 1 on CAN0. -/

def can1 : Requester := ⟨0, 1⟩

def req (op flags : Nat) (data : List Nat) : Msg :=
  { tag := 7, op, index := 0x4000, sub := 3, flags, offset := 0, rev := 2, length := data.length, data, trailer := none }

/-- A session of can1 that is proved, with slot 1 behind it. -/
def proven : Session := { who := can1, slot := 1, hostNonce := [], devNonce := [], proved := true, key := [1] }

/-- A request under session 2 with a MAC. -/
def signed (op mac : Nat) : Msg := { req op 128 [] with trailer := some ⟨2, 1, mac⟩ }

def withSession (x : Session) : State :=
  { ready with
    dap := { ready.dap with sessions := [(2, some x)] }
    nvm := { ready.nvm with keys := { slots := [(1, ⟨[5], [0], 2 ^ 31 + 2 ^ 30, 0⟩)] } } }

theorem witness_gate_refuses : keyEntry (ekey 0xFFFF 1) = none ∧
    ((keyEntry Reg.idNodeId).map (·.right) = some .ro ∨ (keyEntry Reg.idNodeId).map (·.right) = some .const) ∧
    (keyEntry Reg.fwImage).map (·.right) = some .rws ∧ (keyEntry (Reg.phySetup 0)).map (·.right) = some .rwc ∧
    (ready.setReg Reg.pwrState 1).reg Reg.pwrState = 1 ∧ (ready.setReg Reg.dapLock 1).reg Reg.dapLock = 1 ∧
    State.reset.start.next < 5 ∧ gate host Reg.idNodeId false ready ≠ stDone := by decide

theorem witness_event_clears : gate host Reg.evtClearId false (ready.begin 1) = stDone ∧ 1151 < 1152 := by decide

theorem witness_severity : bit evtAssigned Ev.supplyOutOfRange = true ∧ Ev.supplyOutOfRange / 32 < 36 ∧
    fld evtDefaultSeverity (2 * Ev.supplyOutOfRange + 1) (2 * Ev.supplyOutOfRange) = 0 := by decide +kernel

theorem witness_event_test : bit evtAssigned Ev.authFailedDap = true ∧ bit evtAssigned 2000 = false ∧ ready.nvm.lc = 0 ∧
    bit evtAssigned Ev.supplyOutOfRange = true ∧ ready.severityOf Ev.supplyOutOfRange = 0 := by decide +kernel

theorem witness_min_low : ({ ready with evt := { ready.evt with minLow := some 5 } } : State).evt.minLow = some 5 ∧
    5 ≤ max ready.dt 5 := by decide

theorem witness_executes (op flags : Nat) (h : headerCode ready can1 (req op flags []) = stDone) :
    Executes can1 (req op flags []) ready :=
  ⟨by decide, rfl, rfl, rfl, h⟩

theorem witness_hello : Executes can1 (req 3 0 []) ready ∧ plainRequest (req 3 0 []) := ⟨witness_executes _ _ (by decide), by unfold plainRequest; decide⟩

theorem witness_abort : let s : State := { ready with dap := { ready.dap with staged := [(reqKey can1, some ⟨0x4000, 1, [], 0⟩)] } }
    Executes can1 (req 9 0 []) s ∧ oget s.dap.staged (reqKey can1) = some ⟨0x4000, 1, [], 0⟩ ∧ ekey 0x4000 1 ≠ Reg.fwImage :=
  ⟨⟨by decide, rfl, rfl, rfl, by decide⟩, by decide, by decide⟩

theorem witness_subscribe : let s : State := { ready with dap := { ready.dap with netLink := true } }
    let m := req 3 (2 ^ flSubscribe) []
    Executes host.who m s ∧ plainRequest m ∧ bit m.flags flSubscribe = true ∧ oget s.dap.places 0 = none :=
  ⟨⟨by decide, rfl, rfl, rfl, by decide⟩, by unfold plainRequest; decide, by decide, by decide⟩

theorem witness_read : Executes can1 (req 1 0 []) ready ∧ plainRequest (req 1 0 []) ∧ bit (req 1 0 []).flags flSnapshot = false ∧
    (∃ e, keyEntry Reg.strStallTime = some e ∧ e.right ≠ .wo ∧ e.varying = false) ∧ measured Reg.strStallTime = false ∧
    actsOnly Reg.strStallTime = false ∧ (∃ e, keyEntry Reg.takeGroup = some e ∧ e.right = .wo) ∧ ready.inReserve = false ∧
    (∃ e, keyEntry (Reg.phySetup 0) = some e ∧ e.right = .rwc) ∧ Reg.phySetup 0 % 256 ≠ 4 ∧
    ∀ v, withRoFields ready 0 (Reg.phySetup 0) v = v :=
  ⟨witness_executes _ _ (by decide), by unfold plainRequest; decide, by decide, ⟨_, rfl, by decide, by decide⟩, by decide, by decide,
    ⟨_, rfl, by decide⟩, by decide, ⟨_, rfl, by decide⟩, by decide, fun _ => rfl⟩

theorem witness_staged : (∃ e, keyEntry Reg.takeGroup = some e ∧ isDomain e = true) ∧
    gate ⟨can1, false⟩ Reg.takeGroup false (arrived 1 can1 ready) = stDone := ⟨⟨_, rfl, by decide⟩, by decide⟩

theorem witness_proves (op : Nat) : ∃ mac, Proves can1 (signed op mac) 2 proven (withSession proven) ∧ (signed op mac).op = op :=
  ⟨messageMac [1] (headerBytes (req op 128 []) op 0 128 0) [] (trailerTail 2 1),
    ⟨by show bit 128 flAuth = true; decide, ⟨_, rfl, rfl, Nat.zero_lt_one, by
      generalize hm : messageMac [1] (headerBytes (req op 128 []) op 0 128 0) [] (trailerTail 2 1) = mac
      exact hm.symm⟩, rfl, rfl, rfl⟩, rfl⟩

theorem witness_save (mac : Nat) : Executes can1 (signed 4 mac) (withSession proven) ∧ Executes can1 (signed 5 mac) (withSession proven) ∧
    (withSession proven).inReserve = false ∧ (withSession proven).nvm.lc ≠ 4 ∧ 11 ≤ (withSession proven).start.next :=
  ⟨⟨by decide, rfl, rfl, rfl, rfl⟩, ⟨by decide, rfl, rfl, rfl, rfl⟩, by decide, by decide, by decide⟩

theorem witness_session_open : let s := withSession proven
    let m := req 6 0 (1 :: List.replicate 15 0)
    Executes can1 m s ∧ m.data.length = 16 ∧ s.slotAuth (nth m.data 0 0) = true ∧
    oget s.dap.sessions 1 = none ∧ (s.path 0).lockout = none :=
  ⟨⟨by decide, rfl, rfl, rfl, by decide⟩, by decide, by decide, by decide, by decide⟩

theorem witness_session_close : let s := withSession proven
    let m := req 8 0 [2, 0, 0, 0]
    Executes can1 m s ∧ m.data.length = 4 ∧ oget s.dap.sessions (nth m.data 0 0) = some proven ∧ proven.who = can1 :=
  ⟨⟨by decide, rfl, rfl, rfl, by decide⟩, by decide, by decide, by decide⟩

theorem length_shaRound (h : List Nat) (kw : Nat × Nat) (e : h.length = 8) : (shaRound h kw).length = 8 := by
  unfold shaRound
  split
  · rfl
  · exact e

theorem length_shaRounds (l : List (Nat × Nat)) (h : List Nat) (e : h.length = 8) : (l.foldl shaRound h).length = 8 := by
  induction l generalizing h with
  | nil => exact e
  | cons a l ih => exact ih _ (length_shaRound _ _ e)

theorem length_shaBlocks (n : Nat) (h ws : List Nat) (e : h.length = 8) : (shaBlocks n h ws).length = 8 := by
  induction n generalizing h ws with
  | zero => exact e
  | succ n ih => exact ih _ _ (by simp [shaBlock, length_shaRounds _ _ e, e])

theorem length_beBytes4 (n : Nat) : (beBytes 4 n).length = 4 := by simp [beBytes, leBytes]

theorem length_hmac128 (key m : List Nat) : (hmac128 key m).length = 16 := by
  have h : ∀ l : List Nat, (l.flatMap (beBytes 4)).length = 4 * l.length := fun l => by
    induction l with
    | nil => rfl
    | cons a l ih => simp only [List.flatMap_cons, List.length_append, ih, length_beBytes4, List.length_cons]; omega
  simp [hmac128, hmac, sha256, h, length_shaBlocks _ shaInit _ rfl]

/-- Session 2 waits for its proof. -/
def waiting : Session := { who := can1, slot := 1, hostNonce := [], devNonce := [] }

theorem witness_session_prove : let s := withSession waiting
    let m := req 7 0 ([2, 0, 0, 0] ++ dapProof s "DAP-HOST" 2 waiting)
    m.data.length = 20 ∧ nth m.data 0 0 = 2 ∧ oget s.dap.sessions 2 = some waiting ∧ s.slotAuth waiting.slot = true ∧
    m.data.drop 4 = dapProof s "DAP-HOST" 2 waiting :=
  ⟨by simp [req, dapProof, length_hmac128], rfl, by decide, by decide, List.drop_left' rfl⟩

theorem witness_times : oget [(reqKey can1, some (⟨0x4000, 1, [], 0⟩ : Staged))] (reqKey can1) = some ⟨0x4000, 1, [], 0⟩ ∧
    oget [(0, some (5, 0))] 0 = some ((5 : Nat), (0 : Time)) ∧ oget [(2, some proven)] 2 = some proven := by decide

theorem witness_lock : gate host Reg.dapLock false (ready.begin 1) = stDone ∧ ready.reg Reg.dapLock = 0xFF ∧
    gate host Reg.dapLock false ((ready.setReg Reg.dapLock 2).begin 1) = stDone ∧
    gate host Reg.dapLock false ((ready.setReg Reg.dapLock 3).begin 1) = stDone := by decide

theorem witness_register_write : (∃ e, keyEntry Reg.strStallTime = some e ∧ e.right = .rw ∧ e.varying = false ∧
      [100, 0].length = e.size) ∧ actsOnWrite Reg.strStallTime = false ∧
    gate host Reg.strStallTime (commitWrite Reg.strStallTime (leNat [100, 0])) (ready.begin 1) = stDone ∧
    valueOk (ready.begin 1) Reg.strStallTime (storedValue Reg.strStallTime (leNat [100, 0])) = true ∧
    (∃ v, v < 65536 ∧ valueOk (ready.begin 1) Reg.strStallTime v = false) :=
  ⟨⟨_, rfl, by decide, by decide, by decide⟩, by decide, by decide, by decide, ⟨0, by decide, by decide⟩⟩

/-- A frame of HOST 1 to node 0 with the segment header h. -/
def canFrame (kind h : Nat) : CanFrame := { fd := true, ext := true, ident := 1 * 2 ^ 11 + kind * 2 ^ 8, data := [h] }

theorem witness_can : canUp ready 0 = true ∧ pathServes ready 0 = true ∧ canForUs ready (canFrame 0 128).ident = true ∧
    canForUs ready (canFrame 2 0).ident = true ∧ fld (canFrame 2 0).ident 10 8 = 2 ∧ fld (canFrame 0 128).ident 10 8 = 0 ∧
    bit (nth (canFrame 0 128).data 0 0) 7 = true ∧ fld 128 5 0 = 0 ∧ fld (canFrame 0 128).ident 24 18 = ready.reg Reg.idNodeId := by
  decide

theorem witness_last_segment : let r : Reasm := ⟨headerBytes (req 3 0 []) 3 0 0 0, 1, 0, 0⟩
    let s : State := { ready with dap := { ready.dap with reasm := [(reqKey can1, some r)] } }
    oget s.dap.reasm (reqKey can1) = some r ∧ bit 65 7 = false ∧ bit 65 6 = true ∧ fld 65 5 0 = r.next ∧
    (parseMsg (r.bytes ++ (([65] : List Nat).drop 1).map (· % 256))).isSome = true ∧ pathServes s 0 = true := by decide

theorem witness_notify : let s : State := { ready with dap := { ready.dap with queues := [(127, ⟨[⟨1009, 1, 0, 0, false⟩], 0, false⟩)] } }
    (s.queue (reqKey ⟨0, 0x7F⟩)).recs ≠ [] ∧ (notifyKeys s).contains (reqKey ⟨0, 0x7F⟩) = true := by decide

theorem witness_ports : canSetupOk (ready.reg (Reg.canSetup 0)) = true ∧ canSetupOk 0 = false ∧
    netSetupOk (ready.reg Reg.netSetup) = true ∧ netSetupOk 0 = false ∧ bit (ready.force (Reg.canSetup 1)) 63 = true ∧
    (ready.can 1).busOff = false ∧ controlStarted ready = true ∧
    netUp { ready with dap := { ready.dap with netLink := true } } = true := by decide

theorem witness_event_raise : (∀ g, g < 32 → ready.chimeUsable g = false) ∧ cbUsed ready.cb.queue + 72 ≤ 262144 ∧
    reqKey ⟨0, 0x7F⟩ ∈ notifyKeys ready ∧ (ready.queue (reqKey ⟨0, 0x7F⟩)).recs.length < 64 ∧
    bit ready.evt.enable Ev.supplyOutOfRange = true ∧ bit ({ ready.evt with enable := 0 } : EvtState).enable Ev.supplyOutOfRange = false ∧
    (let s := (ready.setWin 0 { mode := .recording }).setForce Reg.fsWinTable (2 ^ 127 + 2 ^ 118);
      bit (s.winRec 0) 127 = true ∧ bit (s.winRec 0) 118 = true ∧ (s.win 0).mode = .recording) := by decide +kernel
theorem witness_pins : PinsOk ready.evt := ⟨by decide +kernel, by decide, by decide, by decide⟩

/-- A READ of the pool table, a DOMAIN, from OFFSET on. -/
def readTable (flags offset : Nat) : Msg :=
  { req 1 flags [] with index := Reg.fsPoolTable / 256, sub := Reg.fsPoolTable % 256, offset }

theorem witness_read_domain : let p : Snapshot := ⟨Reg.fsPoolTable / 256, Reg.fsPoolTable % 256, [1, 2], 0⟩
    let s : State := { ready with dap := { ready.dap with snaps := [(reqKey can1, some p)] } }
    (∃ e, keyEntry Reg.fsPoolTable = some e ∧ isDomain e = true) ∧
    Executes can1 (readTable 0 5) ready ∧ Executes can1 (readTable (2 ^ flSnapshot) 1) s ∧ plainRequest (readTable (2 ^ flSnapshot) 1) ∧
    bit (readTable (2 ^ flSnapshot) 1).flags flSnapshot = true ∧ oget s.dap.snaps (reqKey can1) = some p ∧ 1 ≤ p.data.length ∧
    (entryBytes can1 false false Reg.fsPoolTable (arrived 1 can1 ready)).1 = stDone ∧
    5 ≤ (entryBytes can1 false false Reg.fsPoolTable (arrived 1 can1 ready)).2.1.length ∧
    (entryBytes can1 false false Reg.fsPoolTable (arrived 1 can1 ready)).2.1.length ≤ 262144 ∧
    (entryBytes can1 false false Reg.takeGroup (arrived 1 can1 ready)).1 ≠ stDone :=
  ⟨⟨_, rfl, by decide⟩, ⟨by decide, rfl, rfl, rfl, by decide⟩, ⟨by decide, rfl, rfl, rfl, by decide⟩, by unfold plainRequest; decide,
    by decide, by decide, by decide, by decide +kernel, by decide +kernel, by decide +kernel, by decide +kernel⟩

/-- The READ under session 2 that Proves asks for; a small entry. -/
theorem witness_read_session (mac : Nat) : Executes can1 (signed 1 mac) (withSession proven) ∧ (signed 1 mac).op = 1 ∧
    (signed 1 mac).sub < 256 ∧ bit (signed 1 mac).flags flSnapshot = false ∧ (signed 1 mac).offset = 0 ∧
    (entryBytes can1 true false (ekey 0x4000 3) (arrivedBy 1 can1 (signed 1 mac) 2 proven (withSession proven))).1 = stDone :=
  ⟨⟨by decide, rfl, rfl, rfl, rfl⟩, rfl, by show 3 < 256; decide, by show bit 128 flSnapshot = false; decide, rfl, rfl⟩

theorem witness_save_ends (mac : Nat) : let m := signed 4 mac
    let s := (withSession proven)
    let r : State := { s with dap := { s.dap with save := some ⟨can1, m, [], 0⟩ } }
    r.dap.save = some ⟨can1, m, [], 0⟩ ∧ m.trailer = some ⟨2, 1, mac⟩ ∧ oget r.dap.sessions 2 = some proven ∧ proven.who = can1 ∧
    (let g : State := { r with dap := { r.dap with sessions := [] } }; g.dap.save.isSome = true ∧ oget g.dap.sessions 2 = none) ∧
    (let v := s.setReg Reg.pwrState 2; v.inReserve = true ∧ v.nvm.lc ≠ 4 ∧ 11 ≤ v.start.next ∧
      Executes can1 m v) ∧ Executes can1 (req 4 0 []) ready ∧ Executes can1 (req 5 0 []) ready ∧ plainRequest (req 4 0 []) :=
  ⟨rfl, rfl, rfl, rfl, ⟨rfl, rfl⟩, ⟨by decide, by decide, by decide, by decide, rfl, rfl, rfl, rfl⟩,
    witness_executes _ _ (by decide), witness_executes _ _ (by decide), by unfold plainRequest; decide⟩

/-! Lanes and links, on lane 0. -/

def onLane (l : PhyLane) : State := ready.setLane 0 l
def onLink (k : LinkLane) : State := (onLane { mode := .ready }).setLink 0 k
def onEnd (s : State) (n : Nat) : State := s.setForce (Reg.phySetup 0) n

theorem witness_lane_alone (l : PhyLane) : LaneAlone 0 (onLane l) where
  clock := by show ∀ n ∈ [8, 9, 10], rsEnable (ready.refSetup n) = true → rsLane (ready.refSetup n) ≠ 0; decide
  phase := by show ∀ n, n < 32 → (ready.phase n).source ≠ some 0; decide
  streams := fun _ he => by cases he
  pushes := fun _ he => by cases he
  change := by show ready.sup.inservice ≠ _; decide
  link := by show (ready.link 0).mode = _; decide

theorem witness_lane_modes : ([PhyMode.calibrating, .training, .ready, .quiet, .dormant, .waking, .loop, .retraining, .failed].all
    fun m => let l := (onLane { mode := m, attempts := 2, emptySince := some 0, loop := ⟨1, 0, some 0, 0, 0, 1⟩ }).lane 0
      decide (l.mode = m ∧ l.nextSetup = none ∧ 2 ≤ l.attempts ∧ l.emptySince = some 0 ∧ l.loop.until_ = some 0 ∧
        l.loop.kind ≠ 3 ∧ l.loop.lstate = 1 ∧ l.holdReason = 0)) = true ∧
    ((onLane { mode := .training, attempts := 1 }).lane 0).attempts < 2 ∧
    0 < psRateMin (ready.phySetup 0) ∧ psRateMin ((onEnd ready 0).phySetup 0) ≤ 0 ∧
    ((onLane { initial := true }).lane 0).initial = true := by decide

theorem witness_lane_sleeps : let s := onEnd (onLink { mode := .up, rev := 3, peer0 := 2 ^ 120 - 1, capsOffered := 2 ^ 16 - 1 }) (2 ^ 98)
    sleepAskable s 0 3 = true ∧ sleepAskable s 0 4 = true ∧ laneHasData s 0 = false ∧ (s.lane 0).mode = .ready ∧ (s.link 0).mode = .up ∧ psLowPower (s.phySetup 0) ≠ 0 ∧
    psLowPower ((onEnd ready (2 ^ 99)).phySetup 0) = 2 ∧
    laneHasData (onLink { mode := .up, txCal := 0x8000 }) 0 = true := by decide +kernel

theorem witness_lane_commands : let v := ready.reg (Reg.phySetup 0)
    phySetupOk v = true ∧ psEnable v = true ∧ phySetupOk 0 = false ∧ laneUsed (onLink {}) 0 = false ∧
    lanePending (onLink {}) 0 = false ∧ laneHasC0 (onLink {}) 0 = false ∧ ready.bondOf 0 = none ∧ ready.sup.inservice = none ∧
    ready.sup.waiting = [] ∧ (let s := (onLink {}).setReg (Reg.phyLoop 0) (2 ^ 62);
      fld (s.reg (Reg.phyLoop 0)) 63 62 = 1 ∧ fld (s.reg (Reg.phyLoop 0)) 61 59 ≤ 4) ∧
    fld (ready.reg (Reg.phyLoop 0)) 63 62 = 0 ∧ levelsOk 5 [500] = true ∧ levelsOk 5 [400] = false ∧
    ({ ready with fs := { ready.fs with sweep := { paused := true } } } : State).fs.sweep.paused = true := by decide +kernel

theorem witness_report_due (id : Nat) : reportDue sec id 0 ready ∧
    ¬ reportDue sec id 1 { ready with evt := { ready.evt with limits := [(id, { last := some 1 })] } } :=
  ⟨fun _ h => by simp [ready, State.reset, tget] at h, fun h => by
    have := h 1 (by simp [tget]); revert this; decide⟩

theorem witness_link_turns : ready.bondOf 0 = none ∧
    ([LinkMode.aligning, .up, .turnHunt, .negotiating, .authenticating, .incompatible].all fun m =>
      decide (((onLink { mode := m }).link 0).mode = m)) = true ∧
    slotFlow (onLink { mode := .up }) 0 1 = none ∧ popCount 128 ((0 * 2 + 1) % 2 ^ 128) < 16 ∧
    16 ≤ popCount 128 (((2 ^ 16 - 1) * 2 + 1) % 2 ^ 128) := by decide +kernel

theorem spine_idle (s : State) (cal : Nat) (h : s.liveImages ++ s.waitingImages = []) (none_ : s.force Reg.strOutTable = 0) :
    spineCrowded s cal = false := by
  have f : ∀ flow, chimesFeed s flow = false := fun flow => by
    have d : s.outDesc flow = 0 := by simp [State.outDesc, none_, record]
    have e : dEngineDriven 0 = false := by decide
    simp [chimesFeed, d, e]
  simp only [spineCrowded, h, spineFeeds, f, List.filter_nil, List.flatMap_nil, ite_self, Bool.false_eq_true, if_false,
    List.append_nil]
  refine List.any_eq_false.mpr fun i _ => ?_
  have all : ∀ x ∈ (([] : List Nat) :: (calList cal).map fun _ => ([] : List Nat)), x = [] := fun x hx => by
    rcases List.mem_cons.mp hx with hx | hx
    · exact hx
    · obtain ⟨_, _, rfl⟩ := List.mem_map.mp hx; rfl
  rw [List.flatten_eq_nil_iff.mpr fun x hx => ?_]
  · decide
  · rcases List.mem_append.mp (List.mem_of_mem_drop (List.mem_of_mem_take hx)) with hx | hx
    · exact all x hx
    · exact all x (List.mem_of_mem_take hx)

theorem witness_link_calendar_stands : txCalCode ((onLink { mode := .up }).setReg (Reg.lnkTxCalendar 0) factoryCalendar) 0
    factoryCalendar = 0 := by
  unfold txCalCode
  rw [if_neg (by decide +kernel), if_neg (by decide +kernel), if_neg (by decide +kernel), if_neg (by decide +kernel),
    if_neg (by rw [spine_idle _ _ (by decide) (by decide)]; decide), if_neg (by decide +kernel)]

theorem witness_link_calendars :
    let s := (onLink { mode := .up }).setReg (Reg.lnkTxCalendar 0) factoryCalendar
    s.reg (Reg.lnkTxCalendar 0) = factoryCalendar ∧ txCalCode s 0 0 ≠ 0 ∧
    (let k := (onLink { mode := .up, txChange := some ⟨3, 0, 5, true, false, false⟩, txTurn := 3 }).link 0;
      k.txChange = some ⟨3, 0, 5, true, false, false⟩ ∧ 2 ≤ turnsAhead 5 3 ∧ turnsAhead 5 3 < 2 ^ 31 ∧ turnsAhead 5 4 < 2 ∧
      fld (3 * 2 ^ 110) 117 110 = 3 ∧ fld (2 ^ 102) 109 102 = 1 ∧ fld (2 ^ 103) 109 102 ≠ 1) ∧
    rxCalCode (onLink { mode := .up }) 0 0 ≠ 0 ∧
    (fld (6 * 2 ^ 98 + 2 ^ 101) 100 98 = 6 ∧ fld (6 * 2 ^ 98 + 2 ^ 101) 109 101 = 1) := by decide +kernel

theorem crc32c_lt (l : List Nat) : crc32c l < 2 ^ 32 := by
  have bitLt : ∀ (c : Nat) (b : Bool), c < 2 ^ 32 → crc32cBit c b < 2 ^ 32 := fun c b h => by
    unfold crc32cBit
    split
    · exact Nat.xor_lt_two_pow (by omega) (by decide)
    · omega
  have bits : ∀ (bs : List Bool) (c : Nat), c < 2 ^ 32 → bs.foldl crc32cBit c < 2 ^ 32 := fun bs => by
    induction bs with
    | nil => exact fun _ h => h
    | cons b bs ih => exact fun c h => ih _ (bitLt c b h)
  have bytes : ∀ (l : List Nat) (c : Nat), c < 2 ^ 32 → l.foldl crc32cByte c < 2 ^ 32 := fun l => by
    induction l with
    | nil => exact fun _ h => h
    | cons b l ih => exact fun c h => ih _ (bits _ c h)
  exact Nat.xor_lt_two_pow (bytes l _ (by decide)) (by decide)

/-- The factory calendar as the partner's segments bring it. -/
def partnersCalendar : RxChange := ⟨1, [(1, 0x4000), (129, 0x4000), (257, 0x4000), (385, 0x4000)], none⟩

theorem witness_link_commit : ∃ body, rxCalCode (onLink { mode := .up, lastTurn := some 0, rxChange := some partnersCalendar }) 0 body = 0 := by
  have key : ∀ d, d < 2 ^ 32 → calDigest (gotCal partnersCalendar.got) = d →
      rxCalCode (onLink { mode := .up, lastTurn := some 0, rxChange := some partnersCalendar }) 0
        (2 ^ 110 + 5000 * 2 ^ 78 + d * 2 ^ 46) = 0 := fun d h e => by
    have e1 : fld (2 ^ 110 + 5000 * 2 ^ 78 + d * 2 ^ 46) 77 46 = d := by simp only [fld]; omega
    have e2 : fld (2 ^ 110 + 5000 * 2 ^ 78 + d * 2 ^ 46) 117 110 = 1 := by simp only [fld]; omega
    have e3 : fld (2 ^ 110 + 5000 * 2 ^ 78 + d * 2 ^ 46) 109 78 = 5000 := by simp only [fld]; omega
    have link : (onLink { mode := .up, lastTurn := some 0, rxChange := some partnersCalendar }).link 0 =
      { mode := .up, lastTurn := some 0, rxChange := some partnersCalendar } := by decide +kernel
    unfold rxCalCode
    simp only [link, e, e1, e2, e3]
    rw [if_neg (by decide +kernel), if_neg (by decide), if_neg (by simp [partnersCalendar]), if_neg (by decide +kernel),
      if_neg (by decide +kernel), if_neg (by decide)]
  exact ⟨_, key _ (crc32c_lt _) rfl⟩

theorem witness_link_negotiates : min (ready.reg Reg.lnkRevMax) (fld (3 * 2 ^ 109 + 2 ^ 113) 112 109) = 3 ∧
    max (ready.reg Reg.lnkRevMin) (fld (3 * 2 ^ 109 + 2 ^ 113) 116 113) ≤ 3 ∧ fld (3 * 2 ^ 105) 108 105 = 3 ∧
    fld (15 * 2 ^ 105) 108 105 = 0xF ∧ ready.reg Reg.lnkRevMin = 1 ∧ fld 0 112 109 = 0 ∧
    ({ ready with nvm := { ready.nvm with keys := { slots := [(1, ⟨[5], [0], 2 ^ 31 + 2 ^ 30, 0⟩)] } } } : State).slotAuth 1 = true ∧
    ready.slotAuth 1 = false ∧ (let k := (onLink { mode := .authenticating, policy := 3, leftAt := some 0 }).link 0;
      k.policy = 3 ∧ k.leftAt = some 0 ∧ k.reauth = false ∧ k.peerValid = false ∧ k.seen0 = false) := by decide +kernel

theorem witness_tag_epochs : (let x : TagSession := { txSince := 0, slot := 1, retryAt := some 5 };
    ((onLink { session := some x }).link 0).session = some x ∧ x.orphaned = false ∧ x.txSince + sec ≤ sec ∧ x.advances < 255) ∧
    (let s : State := { ready with nvm := { ready.nvm with keys := { slots := [(1, ⟨[5], [0], 2 ^ 31 + 2 ^ 30, 0⟩)] } } };
      s.slotValid 1 = true ∧ kaOrphaned (s.keySlot 1).attr = false) := by decide +kernel

theorem witness_link_requests : let k : LinkLane := { mode := .up, rev := 3, peer0 := 2 ^ 120 - 1, capsOffered := 2 ^ 16 - 1, peer1 := 2 ^ 120 - 1 }
    let s := onEnd (onLink k) (5 * 2 ^ 121 + 2 ^ 96)
    rateRefused s 0 5 = false ∧ rateRefused s 0 7 = true ∧ calHasData k.txCal = false ∧ capInUse k 2 = true ∧ capInUse k 3 = true ∧
    calendarPending s 0 = false ∧ psEcho (s.phySetup 0) = true ∧ laneUsed s 0 = false ∧ lanePending s 0 = false ∧
    rateOutside s 0 5 = false ∧ rateOutside s 0 6 = true ∧ k.rateAsked = none ∧ fld (5 * 2 ^ 113) 115 113 = 5 ∧
    psEcho 0 = false ∧
    ({ ready with eps := { ready.eps with bonds := [(0, 2 ^ 31 + 2 ^ 23)] } } : State).bondOf 0 = some (0, 2) := by decide +kernel

theorem witness_lane_loop_kinds :
    let s (kind : Nat) (k : LinkLane) := (onLink k).setReg (Reg.phyLoop 0) (kind * 2 ^ 62)
    (∀ kind, kind ∈ [1, 2, 3] → fld ((s kind {}).reg (Reg.phyLoop 0)) 63 62 = kind) ∧
    laneUsed (s 3 {}) 0 = false ∧ lanePending (s 3 {}) 0 = false ∧ ((s 3 {}).lane 0).mode = .ready ∧
    (let k : LinkLane := { mode := .up, rev := 3, peer0 := 2 ^ 120 - 1, capsOffered := 2 ^ 16 - 1, peer1 := 2 ^ 120 - 1 };
      ((s 3 k).link 0).mode = .up ∧ capUsed ((s 3 k).link 0) 4 = true ∧ laneUsed (s 3 k) 0 = false ∧ lanePending (s 3 k) 0 = false) ∧
    (let e := (onLane { mode := .quiet }).setReg (Reg.phySetup 0) ((ready.reg (Reg.phySetup 0)) - 2 ^ 127);
      phySetupOk (e.reg (Reg.phySetup 0)) = true ∧ psEnable (e.reg (Reg.phySetup 0)) = false ∧ laneUsed e 0 = false ∧
      twf (fun _ => ({} : PhyLane)) e.phy = true) ∧
    (let l := (onLane { mode := .loop, loop := ⟨3, 0, none, 0, 0, 1⟩ }).lane 0; l.mode = .loop ∧ l.loop.kind = 3 ∧ l.nextSetup = none) ∧
    sweepNow ready = none ∧ ready.fs.sweep.paused = false ∧ ready.fs.sweep.single = [] ∧ ready.reg Reg.govState ≠ 2 ∧
    (let h := (onLane { mode := .ready, holdReason := 1, heldData := 256, rate := 5 }).lane 0;
      h.mode = .ready ∧ h.holdReason = 1 ∧ 256 ≤ h.heldData ∧ levelsOk h.rate [500] = true) ∧
    ((onLane { mode := .ready, lpEntry := 1 }).setLink 0 { mode := .lowPower } |>.link 0).mode = .lowPower := by decide +kernel

/-- The TURN number 7, alone on the wire of a lane without history, is read back; its one stuff symbol goes. -/
theorem witness_turn_received : let body := pack [(32, 7), (8, 3), (32, 1), (5, 0), (43, 0)]
    let s := onLink { mode := .up, lastTurn := some 6, rxChange := some ⟨3, [(1, 0x4000)], some 7⟩ }
    let c := turnReceived s 0 (wireFolio (ratePam4 (s.lane 0).rate) {} (controlFolio 0x01 body)).1
    fld (folioBody c.folio) 119 88 = (6 + 1) % 2 ^ 32 ∧ fld (folioBody c.folio) 87 80 = 3 ∧ c.deleted = 1 ∧
    (s.lane 0).mode = .ready ∧ (s.lane 0).retrainDue = false ∧ (∀ slot, slot < 2 → tget (fun _ => 0) [(1, 0x4000)] slot < 2 ^ 16) := by
  decide +kernel
theorem witness_turn_sent : let s := onLink { mode := .up }
    (s.lane 0).lpEntry = 0 ∧ (s.link 0).rateAgreed = none ∧ (s.link 0).txCleared = 0 ∧ (s.link 0).txReturning = 0 ∧
    (s.lane 0).mode = .ready ∧ (s.link 0).txChange = none ∧ (s.phase 0).source = none ∧
    twf (fun _ => ({} : OutSend)) s.str.sends = true := by decide +kernel

theorem leNat_lt (l : List Nat) : leNat l < 256 ^ l.length := by
  induction l with
  | nil => decide
  | cons b l ih => simp only [leNat, List.length_cons, Nat.pow_succ]; omega

theorem witness_link_response (key nonce : List Nat) (a b : Nat) :
    ∃ part3 part4, fld part3 116 53 * 2 ^ 64 + fld part4 116 53 = linkResponse key nonce a b := by
  have h : linkResponse key nonce a b < 2 ^ 128 := by
    have := leNat_lt (hmac128 key (ascii "PHOKIS-AUTH" ++ nonce ++ beBytes 8 a ++ beBytes 8 b)).reverse
    rw [List.length_reverse, length_hmac128] at this
    exact Nat.lt_of_lt_of_le this (by decide)
  exact ⟨linkResponse key nonce a b / 2 ^ 64 * 2 ^ 53, linkResponse key nonce a b * 2 ^ 53, by simp only [fld]; omega⟩

/-! Endpoints, streams, takes and routes, on the UP lane 0. -/

def linkUp : State := onLink { mode := .up }

/-- Endpoint 0, EP 5 of lane 0, and stream 0 of its flow 9, LIVE: 5 × 1 at 4:4:4 8 bit. -/
def endpoint0 : Endpoint := { sink := false, lane := 0, ep := 5, streams := 1, identity := 77 }
def stream0 : InStream := { mode := .live, desc := 5 * 2 ^ 90 + 2 ^ 76, identity := 77, number := 3, flow := 9 }
def joined (i : InStream) : State := (linkUp.setEndpoint 0 (some endpoint0)).setIns 0 i

theorem witness_endpoints : let s := linkUp.setEndpoint 0 (some endpoint0)
    let body := 5 * 2 ^ 109 + 77 * 2 ^ 77
    s.bondOf 0 = none ∧ (s.link 0).mode = .up ∧ linkUp.endpointAt 0 (sbEp body) = none ∧ linkUp.keptAt 0 (sbEp body) = none ∧
    linkUp.eps.table = [] ∧ s.endpoint 0 = some endpoint0 ∧ fld body 108 77 = endpoint0.identity ∧
    sbEp (6 * 2 ^ 109) ≠ endpoint0.ep ∧ s.endpointAt 0 (fld (5 * 2 ^ 110 + 255 * 2 ^ 102) 119 110) = some 0 ∧
    fld (5 * 2 ^ 110 + 255 * 2 ^ 102) 109 102 = 0xFF ∧ s.streamsOf 0 = [] ∧ windowsCount s 0 = true ∧
    windowsCount (onLink { held := true }) 0 = false ∧ endpoint0.windowEnd ≤ max s.dt 1 ∧ s.eps.nextHeartbeat ≤ max s.dt 1 ∧
    s.eps.nextRepeat ≤ max s.dt 1 ∧ outUsed (({ s with dt := 1 } : State).outDesc 0) = false ∧
    outUsed ((s.setForce Reg.strOutTable (2 ^ 126)).outDesc 0) = true := by decide +kernel

theorem witness_streams : let s := linkUp.setEndpoint 0 (some endpoint0)
    let body := 5 * 2 ^ 109 + 3 * 2 ^ 101 + 9 * 2 ^ 92 + 64 * 2 ^ 75 + 64 * 2 ^ 61 + 100 * 2 ^ 31
    s.str.routes = [] ∧ s.endpointAt 0 (sbEp body) = some 0 ∧ s.boundId endpoint0.identity (fld body 108 101) = none ∧
    (s.ins 0).mode = .absent ∧ s.str.safeWait = [] ∧ endpoint0.identity ≠ 0 ∧ formatAccepted (recordDesc s 0 0 body) = true ∧
    dCompressed (recordDesc s 0 0 body) = false ∧ formatAccepted (recordDesc s 0 0 (5 * 2 ^ 109)) = false := by decide +kernel

theorem witness_stream_leaves : let s := joined stream0
    (s.streamsOf 0).filter (fun j => (s.ins j).number == fld (5 * 2 ^ 110 + 3 * 2 ^ 102) 109 102) = [0] ∧
    s.endpointAt 0 (fld (5 * 2 ^ 110 + 3 * 2 ^ 102) 119 110) = some 0 ∧ (s.ins 0).mode = .live ∧ (s.ins 0).frame = none ∧
    s.reg Reg.strEndpointKeep = 0 ∧ (s.ins 0).lastStart + s.reg Reg.strStallTime * ms ≤ 100 * ms := by decide +kernel

/-- The one line of its frame is arriving on stream0. -/
def arriving : Arrival := { payloads := List.replicate (streamLineFolios stream0) 0 }

theorem witness_frames : let i := { stream0 with frame := some arriving }
    let s := joined i
    let body := 9 * 2 ^ 111 + crc16Line arriving.payloads * 2 ^ 63
    s.bondOf 0 = none ∧ s.str.routes = [] ∧ s.streamPool 0 = none ∧ (s.lane 0).holdReason = 0 ∧ intakeOpen s 0 = true ∧
    dMedia i.desc ≠ 1 ∧ dInterlaced i.desc = false ∧ dAuth i.desc = false ∧ arriving.line < dHeight i.desc ∧
    flowStream s 0 (fld body 119 111) = some 0 ∧ fld body 110 97 = arriving.line ∧ fld body 94 79 = arriving.number ∧
    arriving.payloads.length = streamLineFolios i ∧ arriving.line + 1 = dHeight i.desc ∧ bit (body + 2 ^ 95) 95 = true ∧
    slotFlow (onLink { mode := .up, rxCal := 0x8009 }) 0 1 = some 9 ∧ oget s.aud.bind 0 = none := by decide +kernel

theorem witness_frame_folio : crc16Line arriving.payloads < 2 ^ 16 ∧
    fld (9 * 2 ^ 111 + crc16Line arriving.payloads * 2 ^ 63) 78 63 = crc16Line arriving.payloads := by decide +kernel

theorem witness_tag : let v : Untagged := ⟨0, [], []⟩
    let s := joined { stream0 with untagged := some v }
    (s.ins 0).untagged = some v ∧ tagValid s 0 (9 * 2 ^ 111) v = false := by decide +kernel

/-- With a session, the MAC of the frame is its valid tag. -/
theorem witness_tag_valid : ∃ body, tagValid ((joined { stream0 with untagged := some ⟨0, [], []⟩ }).setLink 0
    { mode := .up, session := some { root := [1] } }) 0 body ⟨0, [], []⟩ = true ∧ fld body 119 111 = 9 := by
  have h : ∀ m, m < 2 ^ 64 → frameTag { root := [1] } true 9 0 0 [] = m →
      tagValid ((joined { stream0 with untagged := some ⟨0, [], []⟩ }).setLink 0
        { mode := .up, session := some { root := [1] } }) 0 (9 * 2 ^ 111 + m) ⟨0, [], []⟩ = true ∧
      fld (9 * 2 ^ 111 + m) 119 111 = 9 := fun m hm e => by
    have session : ((joined { stream0 with untagged := some ⟨0, [], []⟩ }).setLink 0
      { mode := .up, session := some { root := [1] } }).tagSession 0 = some { root := [1] } := by decide +kernel
    have f1 : fld (9 * 2 ^ 111 + m) 119 111 = 9 := by simp only [fld]; omega
    have f2 : fld (9 * 2 ^ 111 + m) 110 95 = 0 := by simp only [fld]; omega
    have f3 : fld (9 * 2 ^ 111 + m) 94 87 = 0 := by simp only [fld]; omega
    have f4 : fld (9 * 2 ^ 111 + m) 63 0 = m := by simp only [fld]; omega
    generalize 9 * 2 ^ 111 + m = b at f1 f2 f3 f4 ⊢
    simp [tagValid, session, f1, f2, f3, f4, e]
  exact ⟨_, h _ (Nat.mod_lt _ (by decide)) rfl⟩

theorem witness_stream_commit : let s := ready.setReg Reg.strOutTable (2 ^ 126 + 2 ^ 14)
    let t := ready.setReg Reg.strTileTable (2 ^ 95)
    s.strWaiting = false ∧ ({ ready with str := { ready.str with outWait := [(0, some 1)] } } : State).strWaiting = true ∧
    outDescCode s 0 (record (s.reg Reg.strOutTable) 0 128 0) ≠ 0 ∧
    changedRecords (t.reg Reg.strTileTable) (t.force Reg.strTileTable) 96 1 = [0] ∧
    (let d := 2 ^ 126 + 64 * 2 ^ 90 + 64 * 2 ^ 76 + 100 * 2 ^ 46;
      outDescCode (ready.setReg Reg.strOutTable d) 0 d = 0 ∧ outTiming ready 0 = false) ∧
    ready.safeCount = 0 ∧ (((ready.setReg Reg.safeSet (3 * 2 ^ 247)).setReg (2 ^ 24 + Reg.safeSet) 32).safeCount = 1) := by
  decide +kernel

/-- A SET of route 7 to asset 5, at once. -/
def overlay : Nat := 3 * 2 ^ 251 + 3 * 2 ^ 249 + 3 * 2 ^ 247 + 31 * 2 ^ 227 + 5 * 2 ^ 200
def group : List Nat := leBytes 16 (2 ^ 112 + 2 ^ 104 + 2 ^ 96) ++ leBytes 36 (overlay + 7 * 2 ^ 277)
def powered : State :=
  { ready with
    pwr := { ready.pwr with bulk := true }
    nvm := { ready.nvm with assets := [(5, some ⟨16, 16, 0, [], 0⟩)] } }
def waitingGroup (done : Bool) : Group := { id := 1, moved := false, eff := 5, takes := [{ route := 7, op := 0, image := overlay, flipped := done }] }

theorem witness_take_group : let s := powered.setReg Reg.takeNotify 0
    groupCode (s.begin 1) group = (0, 0xFF) ∧ ghCount (groupHeader group) = 1 ∧
    trOp (takeRecord group 0) = 0 ∧ s.reg Reg.takeNotify = 0 ∧ (groupCode (ready.begin 1) group).1 ≠ 0 ∧
    (s.route (trRoute (takeRecord group 0))).mode = .empty := by decide +kernel

theorem witness_takes : let g := waitingGroup false
    let s : State := { powered with str := { powered.str with groups := [g] } }
    s.str.groups.find? (fun g => !g.restore && g.id == 1 && decide (max s.dt 1 < g.eff)) = some g ∧
    s.str.groups.find? (fun g => !g.restore && g.id == 1 && decide (max s.dt 5 < g.eff)) = none ∧
    (s.route 7).mode ≠ .pending ∧ g.eff ≤ max s.dt 5 ∧ (g.takes.any fun k => k.op != 1 && !k.flipped) = true ∧
    s.str.groups.any (fun g => g.takes.any (dueOverdue (s.begin 1) 1 7 g)) = false := by decide +kernel

theorem witness_take_overdue : let g : Group := { waitingGroup false with takes := [{
      route := 7, op := 0, image := overlay, c0 := true, applied := some 5, bnd := some (.output 0) }], latched := true }
    let s : State := { powered with str := { powered.str with groups := [g] } }
    s.str.groups.any (fun g => g.takes.any (dueOverdue (s.begin (10 * sec)) 1 7 g)) = true := by decide +kernel

theorem witness_routes : let s := powered.setRoute 7 { mode := .hold, holdEnd := some 5, image := overlay, usableSince := some 0 }
    (s.route 7).mode = .hold ∧ (s.route 7).holdEnd = some 5 ∧ s.fs.bufs = [] ∧ s.fallbackUsable (s.route 7).image = false ∧
    rToLayer (s.route 7).image = true ∧ rToLayer emptyImage = false ∧ s.fallbackUsable (overlay + 3 * 2 ^ 142 + 5 * 2 ^ 104) = true ∧
    rtOrphaned (s.route 7).mode = true ∧ (s.route 7).usableSince = some 0 := by decide +kernel

theorem witness_endpoint_known : let s := linkUp.setEndpoint 0 (some endpoint0)
    let body := 5 * 2 ^ 109 + 77 * 2 ^ 77 + 2 * 2 ^ 68
    s.endpointAt 0 (sbEp body) = some 0 ∧ s.endpoint 0 = some endpoint0 ∧ endpoint0.identity = fld body 108 77 ∧
    endpoint0.lane = 0 ∧ endpoint0.ep = sbEp body ∧ s.eps.table = [(0, some endpoint0)] ∧
    fld body 76 68 ≠ endpoint0.streams ∧ linkUp.endpoint 0 = none ∧
    linkUp.eps.table = [] ∧
    (let h := { endpoint0 with heard := true };
      h.heard = true ∧ endpoint0.heard = false ∧ ({ endpoint0 with missed := 7 } : Endpoint).missed = 7) := by decide +kernel

/-- Stream 0 of a partner that is authenticated. -/
def joinedAuth (i : InStream) : State := (joined i).setLink 0 { mode := .up, authenticated := true }

theorem witness_second_field : let f : Arrival := { start := 1 }
    let i := { stream0 with frame := some f, secondNext := true }
    let s := joined i
    intakeOpen s 0 = true ∧ dMedia i.desc ≠ 1 ∧ (s.ins 0).frame = some f ∧ (s.ins 0).secondNext = true ∧ f.buf = none ∧ f.wins = [] ∧
    (let o := joined stream0; intakeOpen o 0 = true ∧ intakeBegins o 0 = true ∧ (o.ins 0).frame = none ∧ (o.ins 0).untagged = none ∧
      (o.ins 0).secondNext = false ∧ o.streamAuth 0 = false) ∧
    (∀ f ∈ [arriving], f.lost = false ∧ f.broken = false ∧ f.second = false) := by decide +kernel

theorem witness_tag_auth : let v : Untagged := ⟨0, [], []⟩
    let s := joinedAuth { stream0 with untagged := some v }
    (s.ins 0).untagged = some v ∧ v.bufs = [] ∧ s.streamAuth 0 = true ∧ flowStream s 0 (fld (9 * 2 ^ 111) 119 111) = some 0 ∧
    tagValid s 0 (9 * 2 ^ 111) v = false := by decide +kernel

theorem witness_take_cancel : let g := waitingGroup false
    let s : State := ({ powered with str := { powered.str with groups := [g] } } : State).setRoute 7 { mode := .pending }
    s.str.groups.find? (fun g => !g.restore && g.id == 1 && decide (max s.dt 1 < g.eff)) = some g ∧ 0 < max s.dt 1 ∧
    s.str.groups.erase g = [] ∧ (s.route 7).mode = .pending ∧ (∃ k ∈ g.takes, k.route = 7) ∧ g.restore = false ∧ g.latched = false ∧
    g.eff ≤ max s.dt 5 ∧ (∃ k ∈ g.takes.map (latchTake (s.begin 5) [] g.eff), k.flipped = false) ∧
    (∀ k ∈ g.takes.map (latchTake (s.begin 5) [] g.eff), k.first = none) ∧ (∃ k ∈ g.takes, k.op = 0 ∧ rKind k.image ≠ 2) ∧
    s.reg Reg.strEndpointKeep = 0 := by decide +kernel

/-! Outputs, converter units, engines and the fabric. -/

def onOut (o : OutState) : State := powered.setOutp 0 o

/-- Output 0 under a raster of 64 × 64 at MODE m, which drives output stream 0. -/
def rastered (m : Nat) (o : OutState) : State :=
  ((onOut o).setForce (Reg.outRaster 0) (m * 2 ^ 126 + 64 * 2 ^ 99 + 64 * 2 ^ 85 + 70 * 2 ^ 71 + 6000 * 2 ^ 55)).setForce Reg.strOutTable
    (2 ^ 126 + 2 ^ 14)

theorem witness_output_commit : let z := powered.begin 1
    let plan (m : Nat) : OutQueued := if m = 0 then z.outShadows 0 else z.outPlan m
    (powered.outp 0).queued = none ∧ (powered.outp 0).raster = .off ∧ outputCode z plan (plannedImages z.planned) 0 = 0 ∧
    outputCode z plan z.liveImages 0 = 0 ∧ switchLacking z 0 (raMode (z.outShadows 0).raster) = false ∧
    (z.outShadows 0).spine = z.force (Reg.outSpineTable 0) ∧ raSafety (z.outShadows 0).raster = false ∧
    raSafety (z.rasterOf 0) = false ∧ powered.engineStream 0 = none := by decide +kernel

/-- A gang of two from output 1 is refused with 0x05. -/
theorem witness_output_refused : let z := (powered.setReg (Reg.outCompSetup 1)
      (putFld (powered.reg (Reg.outCompSetup 1)) 127 126 1)).begin 1
    outputCode z (fun m => if m = 1 then z.outShadows 1 else z.outPlan m) [] 1 = 0x05 ∧ z.planned = [] ∧ z.liveImages = [] := by
  decide +kernel

theorem witness_output_window : let s := rastered 1 { raster := .locked, boundary := some 5 }
    (∃ c, windowClose s 0 = some c) ∧ ((onOut { comp := .member }).outp 0).comp = .member ∧ raLines (s.rasterOf 0) 1 ≠ 0 ∧ ((onOut { raster := .toLocked }).outp 0).raster = .toLocked ∧
    twf (fun _ => ({} : OutState)) s.comp.outs = true ∧ twf (fun _ => ({} : Region)) (s.outp 0).regions = true ∧
    raSafety (2 ^ 113) = true := ⟨⟨_, rfl⟩, by decide +kernel, by decide +kernel, by decide +kernel, by decide +kernel, by decide +kernel, by decide +kernel⟩

theorem witness_output_frames : let s := rastered 1 { raster := .locked, comp := .active, boundary := some 5, lastSync := some 5 }
    s.str.routes = [] ∧ s.str.groups = [] ∧ (s.outp 0).raster = .locked ∧ raMode (s.rasterOf 0) = 1 ∧ (s.outp 0).comp = .active ∧
    (s.outp 0).boundary = some 5 ∧ rasterRuns (s.outp 0) = true ∧ rasterRuns (powered.outp 0) = false ∧ 0 < raHeight (s.rasterOf 0) ∧
    (∀ i, i < 24 → lrEnable (s.layerOf 0 i) = false) ∧ s.zonesOf 0 = [] ∧ csGang (s.force (Reg.outCompSetup 0)) = 1 ∧
    s.engineStream 0 = some 0 ∧ (∀ r, r < 8 → waMode (watchRec (s.force (Reg.outWatchTable 0)) r) = 0) ∧
    inPull (s.rasterOf 0) (raPeriod (s.rasterOf 0)) = true ∧ inPull (s.rasterOf 0) 0 = false ∧
    raCut (s.rasterOf 0) = false ∧ raCut (2 ^ 114) = true ∧ raMode ((rastered 2 {}).rasterOf 0) = 2 ∧
    dEngineDriven (powered.outDesc 0) = false ∧ s.str.outHeld = [] ∧ s.conv.units = [] ∧ s.cmp = [] ∧
    (s.link (dLane (record (putFld (s.force Reg.strOutTable) 127 0 7) 0 128 0))).mode ≠ .up := by decide +kernel

theorem witness_output_controls : ([CompMode.active, .draining, .idle, .isolated].all fun m => decide (((onOut { comp := m }).outp 0).comp = m)) = true ∧
    powered.zonesOf 0 = [] ∧ powered.liveImages = [] ∧ (powered.port 104).isolated = false ∧ powered.fab.spineIsolated = [] ∧
    (let s := powered.setRoute 7 { mode := .active, image := 2 ^ 255 + overlay };
      (s.liveImages.any fun r => rToLayer r && rEngine r == 0 && rClass r == 0) = true) ∧
    twf (fun _ => ({} : Layer)) (powered.outp 0).layers = true := by decide +kernel

/-- Unit 0 held by route 7, of class C1 and of class C0. -/
def onUnit (image : Nat) (u : ConvUnit) : State := (powered.setUnit 0 { u with holder := some 7 }).setRoute 7 { image := image }

theorem witness_converters : let v := powered.reg (Reg.convSetup 0)
    convSetupOk v = true ∧ convTablesOk v (powered.reg (Reg.convTables 0)) = true ∧ convSetupOk 0 = false ∧
    unitImage (onUnit (2 ^ 253) {}) 0 = some (2 ^ 253) ∧ rClass (2 ^ 253) ≠ 0 ∧ rClass 0 = 0 ∧ rConvFirst (2 ^ 194) ≠ 0 ∧
    ([QsMode.active, .draining, .idle, .isolated].all fun m => decide (((powered.setUnit 0 { mode := m }).unit 0).mode = m ∧
      (powered.setUnit 0 { mode := m }).str.routes = [])) = true ∧ (powered.unit 0).holder = none ∧ (powered.port 32).isolated = false ∧
    powered.pwr.bulk = true ∧ ready.pwr.bulk = false ∧ powered.conv.units = [] ∧
    twf (fun _ => ({} : ConvCluster)) powered.conv.clusters = true ∧ ((onUnit 0 {}).unit 0).holder = some 7 ∧
    (∀ i, i < 4 → 0 < i → ((onUnit 0 {}).unit i).holder = none) ∧ ((onUnit 0 {}).convCluster 0).speed ≤ 1667 := by decide +kernel

theorem witness_engines : powered.str.ins = [] ∧ cmpSetupOk 0 = false ∧ cmpSetupOk (5 * 2 ^ 120) = true ∧
    ([QsMode.active, .draining, .idle, .isolated].all fun m => decide (((powered.setEngine 0 { mode := m }).engine 0).mode = m)) = true ∧
    (powered.port 80).isolated = false ∧ ((powered.setEngine 0 { mode := .draining }).engine 0).resetDue = false ∧
    ((powered.setUnit 0 { mode := .draining }).unit 0).resetDue = false ∧ ((onOut { comp := .draining }).outp 0).resetDue = false := by decide +kernel

theorem witness_fabric : let p := powered.setPort 0 { isolated := true }
    powered.pwr.bulk = true ∧ (p.port 0).isolated = true ∧ (powered.port 0).isolated = false ∧ portOwner powered 0 ≠ 2 ∧
    portOwner (powered.setUnit 0 { mode := .idle }) 32 = 2 ∧ fld (crc8 (bitsUp 256 0 ++ bitsUp 24 0)) 7 0 = crc8 (bitsUp 256 0 ++ bitsUp 24 0) ∧
    fld (crc8 (bitsUp 256 0 ++ bitsUp 24 0) + 1) 7 0 ≠ crc8 (bitsUp 256 0 ++ bitsUp 24 0) ∧
    (recentWith 1 []).length < powered.reg Reg.fabCrcLimit ∧ (powered.setReg Reg.fabCrcLimit 1).reg Reg.fabCrcLimit ≤ (recentWith 1 []).length ∧
    powered.fab.spineIsolated = [] ∧ powered.reg Reg.spineProbeRoute ≠ 7 ∧
    (powered.setReg Reg.spineProbeRoute 7).reg Reg.spineProbeRoute = 7 ∧ rClass 0 = 0 ∧ rKind 0 = 0 ∧ rDstType 0 = 0 ∧
    ((powered.setRoute 7 { mode := .active, image := 0 }).route 7).mode ≠ .empty ∧
    (let s := p.setReg Reg.fabPortSelect 0; (s.port (s.reg Reg.fabPortSelect)).isolated = true ∧ s.str.routes = []) ∧
    twf (fun _ => ({} : Port)) p.fab.ports = true := by decide +kernel

/-- Output stream 0 is under a running output; its new descriptor waits. -/
theorem witness_stream_waits : let s := (rastered 1 { raster := .locked, boundary := some 5 }).setReg Reg.strOutTable (2 ^ 126 + 2 ^ 14 + 1)
    outTiming s 0 = true ∧ changedRecords (s.reg Reg.strOutTable) (s.force Reg.strOutTable) 128 1 = [0] ∧ s.strWaiting = false ∧
    s.str.routes = [] ∧ s.reg Reg.strEndpointKeep = 0 := by decide +kernel

theorem witness_retests_with_ports :
    (∀ p ∈ [32, 80, 104], ((powered.setPort p { isolated := true }).port p).isolated = true) ∧
    ((powered.setUnit 0 { mode := .isolated }).unit 0).mode = .isolated ∧ powered.str.routes = [] ∧
    (∀ x ∈ spinePorts 32 ++ spinePorts 104, x ∉ powered.fab.spineIsolated) ∧
    (let s : State := { powered with fab := { powered.fab with spineIsolated := [32, 160] } };
      (∃ x ∈ spinePorts 32, x ∈ s.fab.spineIsolated) ∧ ∃ x ∈ spinePorts 104, x ∈ s.fab.spineIsolated) := by decide +kernel

/-- A converted route of class C1 on unit 0. -/
def oneUnit : Nat := 2 ^ 253 + 2 ^ 251 + 2 ^ 200

theorem witness_unit_routes : let s := onUnit oneUnit {}
    let setup := s.reg (Reg.convSetup 0)
    unitImage s 0 = some oneUnit ∧ rKind oneUnit = 1 ∧ rClass oneUnit ≠ 0 ∧ cvDeint (putFld setup 127 0 0) ≠ 2 ∧
    (0 ∈ rUnits oneUnit → (s.unit 0).mode = .active) ∧
    (1667 < 1700 ∧ (s.convCluster 0).speed ≤ 1667) ∧ (s.convCluster 0).negative + 1 ≠ 10 ∧
    ((powered.setConvCluster 0 { speed := 1700, slack := -1, negative := 9 }).convCluster 0).negative + 1 = 10 := by decide +kernel

theorem witness_engine_drains : powered.fs.bufs = [] ∧ powered.str.ins = [] ∧
    engineUsed powered 0 = false ∧ ((powered.setEngine 0 { mode := .isolated }).engine 0).mode = .isolated ∧
    ((powered.setPort 80 { isolated := true }).port 80).isolated = true := by decide +kernel

/-- Lane 0 is up and the shared plane has power; route 7 is a pass-through of class C1, or of class C0, to output stream 0. -/
def fabricOn (k : LinkLane) : State := { onLink k with pwr := powered.pwr }
def routed (image : Nat) : State := (fabricOn { mode := .up, txCal := 0x8000 }).setRoute 7 { mode := .active, image := image }

def dapFlit : Flit := ⟨120, 40, 0, .dap 1, 5, 0⟩

theorem witness_flits : let s := fabricOn { mode := .up }
    s.pwr.bulk = true ∧ s.fab.queues = [] ∧ useClass s dapFlit.use = 1 ∧ useClass (routed 0) (.data 7) = 0 ∧
    useClass (routed (2 ^ 253)) (.data 7) = 1 ∧
    (∀ p ∈ [40, 120], (s.port p).isolated = false ∧ portOwner s p = 0) ∧ onSpine s 8 = false ∧
    fld (flitHeader s dapFlit) 7 0 = crc8 (bitsUp 256 5 ++ bitsUp 24 (flitHeader s dapFlit / 256)) ∧
    (let wrong := flitHeader s dapFlit ^^^ 1; fld wrong 7 0 ≠ crc8 (bitsUp 256 5 ++ bitsUp 24 (wrong / 256))) ∧
    (s.port 40).degraded = false ∧ (recentWith 1 (s.port 40).recent).length < s.reg Reg.fabCrcLimit ∧
    (s.setReg Reg.fabCrcLimit 1).reg Reg.fabCrcLimit ≤ (recentWith 1 (s.port 40).recent).length ∧
    ((s.setPort 40 { isolated := true }).port 40).isolated = true ∧ (s.lane 0).mode = .ready ∧
    (((s.setLane 0 { mode := .off }).lane 0).mode ≠ .ready) ∧
    portOwner (s.setUnit 8 { mode := .draining }) 40 = 1 ∧ dapFlit.pos ≠ 1 ∧ (40, 120, useFlow dapFlit.use) ∉ s.fab.begun := by
  decide +kernel

theorem witness_data_flits : let s := routed (2 ^ 253)
    let image := (s.route 7).image
    rKind image = 0 ∧ rDstType image = 0 ∧ 0 ∈ dLanes (s.outDesc (fld (rDst image) 7 0)) ∧
    fld (flitHeader s ⟨1, 0, 0, .data 7, 5, 0⟩) 22 21 < 2 ∧ 2 ≤ fld (flitHeader s ⟨1, 0, 2, .data 7, 5, 0⟩) 22 21 ∧
    (routed (2 ^ 253 + 2 ^ 251)).route 7 ≠ s.route 7 ∧
    (let i := (joined stream0).str.ins;
      let t : State := { s with str := { s.str with ins := i } };
      t.srcStream (rSrcType image) (rSrc image) = some 0 ∧ streamLineFolios (t.ins 0) % 2 = 1) := by decide +kernel

theorem witness_spine : let s := routed 0
    let x : Transfer := ⟨1, 1, 5, crc8 (bitsUp 128 5 ++ bitsUp 9 1), 7, 250, false⟩
    spineOpen s 128 = true ∧ spineOpen s x.ingress = true ∧ s.fab.held = [] ∧ x.ingress ≤ 88 ∧ (s.route 7).mode ≠ .empty ∧
    x.crc = crc8 (bitsUp 128 x.payload ++ bitsUp 9 x.slot) ∧ x.crc + 1 ≠ crc8 (bitsUp 128 x.payload ++ bitsUp 9 x.slot) ∧
    x.slot ∈ c0Slots (s.entries true 0) (fld (rDst 0) 7 0) ∧ s.fab.lag = [] ∧ spineOpen powered 208 = false ∧
    spineOpen s (128 + 96) = true ∧ s.fab.spineDegraded = [] ∧
    (({ s with fab := { s.fab with held := [(3, [x])] } } : State).fab.held ≠ []) := by decide +kernel

theorem witness_stalls : let s := powered.setRound 40 { idle := some 0 }
    let q : Queued := ⟨1, flitHeader s dapFlit, 5, dapFlit.use⟩
    (s.round 40).idle = some 0 ∧ 0 + s.reg Reg.fabStallLimit * us ≤ 10 * ms ∧ (s.port 40).isolated = false ∧
    ¬ (0 + s.reg Reg.fabStallLimit * us ≤ 1) ∧
    (s.setFlitQueue 40 120 [q]).flitQueue 40 120 = [q] ∧ (∀ j, j < 120 → (s.setFlitQueue 40 120 [q]).flitQueue 40 j = []) := by
  decide +kernel

/-! The frame store, audio, references and domains. -/

/-- Pool 0 of one host buffer of 64 × 4, and its buffer 0 in state m. -/
def hostPool : Nat := 2 ^ 127 + 255 * 2 ^ 116 + 31 * 2 ^ 111 + 2 ^ 93 + 64 * 2 ^ 79 + 4 * 2 ^ 65 + 2 ^ 40
def stored (b : Buffer) : State :=
  let s := (powered.setForce Reg.fsPoolTable hostPool).setBuf 0 b
  { s with fs := { s.fs with mode := .inService } }

theorem witness_buffers : let s := stored {}
    let a := stored { mode := .allocated, born := 1 }
    let b := stored { mode := .allocated, born := 1, tokens := [.host 1] }
    s.storeActive = true ∧ powered.storeActive = false ∧ cmdBad (2 ^ 56 + 0x3FFFF * 2 ^ 8) 1 = false ∧ cmdBad 0 1 = true ∧
    pValid (s.poolRec 0) = true ∧ pStream (s.poolRec 0) = false ∧ fld (0x3FFFF * 2 ^ 8) 25 8 = 0x3FFFF ∧ s.freeBuf 0 = some 0 ∧
    a.freeBuf 0 = none ∧ pValid (s.poolRec 1) = false ∧ 0 < pCount (s.poolRec 0) ∧ (s.buf 0).mode = .free ∧
    handleCode a (a.bufGen 0) = 0 ∧ a.bufGen 0 / 256 = 0 ∧ handleCode a 0xFF ≠ 0 ∧ (a.buf 0).mode = .allocated ∧
    (a.buf 0).tokens = [] ∧ (b.buf 0).tokens ≠ [] ∧ a.fs.writes = [] ∧ a.str.routes = [] ∧ 16 ≤ a.poolFrame (a.poolRec 0) ∧
    0 < pDepthQueue (a.poolRec 0) ∧ twf (fun _ => (0 : BitVec 8)) a.fs.mem = true ∧ stagingUsed a + 1 ≤ 512 * 1024 * 1024 := by
  decide +kernel

theorem witness_buffer_read : let a := stored { mode := .allocated, born := 1 }
    let s := a.setReg Reg.fsBufReadSel (a.bufGen 0 * 2 ^ 64 + 16)
    s.inReserve = false ∧ handleCode s (fld (s.reg Reg.fsBufReadSel) 95 64) = 0 ∧ fld (s.reg Reg.fsBufReadSel) 31 0 = 16 ∧
    fld (s.reg Reg.fsBufReadSel) 63 32 + 16 ≤ s.poolFrame (s.poolRec 0) := by decide +kernel

theorem witness_queued_write : let w : QWrite := ⟨0, 0, [1], false, 0⟩
    let s : State := { powered with fs := { powered.fs with writes := [w] } }
    s.fs.writes.filter (fun x => x.key == 0) = [w] ∧ w.at_ + s.reg Reg.fsWqTimeout * ms ≤ 100 * sec := by decide +kernel

theorem witness_pools : let s := (stored {}).setReg Reg.fsPoolTable hostPool
    s.storeActive = true ∧ ((List.range 64).filter fun p =>
      poolFields (record (s.reg Reg.fsPoolTable) 0 128 p) != poolFields (s.poolRec p)) = [] ∧ (applyPools (s.begin 1)).2 = 0 ∧
    poolRefused s (2 ^ 127) = true ∧ poolChangeBad s 1 hostPool = false := by decide +kernel

theorem witness_windows : powered.pwr.warmPending = none ∧ winOk powered (powered.reg Reg.fsWinTable) 0 = true ∧
    winOk powered (2 ^ 127) 0 = false ∧ powered.fs.wins = [] ∧ powered.fs.bufs = [] ∧ bit (powered.winRec 0) 127 = false ∧
    bit ((powered.setForce Reg.fsWinTable (2 ^ 127)).winRec 0) 127 = true ∧
    ([WinMode.idle, .recording, .frozen, .post].all fun m => decide (((powered.setWin 0 { mode := m }).win 0).mode = m ∧
      (powered.setWin 0 { mode := m }).fs.bufs = [])) = true ∧ ((powered.setWin 0 { mode := .post }).win 0).postEnd ≤ max powered.dt 1 := by
  decide +kernel

theorem witness_channels : let s (c : Chan) : State := powered.setChan 0 c
    ([ChanMode.fast, .slow, .retired, .evacuating, .retraining, .sweeping].all fun m =>
      decide (((s { mode := m }).chan 0).mode = m ∧ ((s { mode := m }).chan 0).restoring = false ∧ ((s { mode := m }).chan 0).retiring = false ∧
        ((s { mode := m }).chan 0).fails = 0 ∧ evacFits 0 (s { mode := m }) = true)) = true ∧
    powered.sup.waiting = [] ∧ powered.sup.inservice = none ∧ powered.pwr.vddqHold = false ∧ sweepNow powered = none ∧
    powered.fs.sweep.paused = false ∧ powered.fs.sweep.single = [] ∧ powered.reg Reg.govState ≠ 2 ∧ powered.reg Reg.govState ≠ 3 ∧
    powered.fs.sweep.state = 0 ∧ powered.sup.trial = none ∧ powered.reg Reg.fsSweepLoad * 10 < 2000 ∧ powered.reg Reg.fsMarginMin ≤ 100 ∧
    0 < powered.reg Reg.fsMarginMin ∧ powered.fs.place = [] ∧ powered.fs.overPools = [] ∧ psMarginMin (powered.phySetup 0) ≤ 100 ∧
    1 < powered.reg Reg.fsCrcRetireLimit ∧ pStream (powered.poolRec 0) = false ∧
    (let p := (powered.setForce Reg.fsPoolTable (hostPool + 2 ^ 124)).poolRec 0; pStream p = true ∧ 16 ≤ pComp p) := by decide +kernel

/-- The host buffer is ALLOCATED and a write for it is held. -/
def holding : State :=
  let a := stored { mode := .allocated, born := 1 }
  { a with fs := { a.fs with writes := [⟨0, 16, [1], true, 0⟩] } }

theorem witness_held_writes : (holding.buf 0).tokens = [] ∧ (∃ w ∈ holding.fs.writes, w.key = 0) ∧
    Memory.wf holding.fs.mem = true ∧ holding.str.routes = [] ∧ handleCode holding (holding.bufGen 0) = 0 ∧
    (holding.buf 0).mode = .allocated ∧ pStream (holding.poolRec 0) = false ∧ 0 + 1 ≤ holding.poolFrame (holding.poolRec 0) ∧
    (let s := holding.setReg Reg.fsReleaseNotify 1; s.reg Reg.fsReleaseNotify = 1 ∧ s.pwr.bulk = true) ∧
    (let s := holding.setReg Reg.fsReleaseNotify 0; s.reg Reg.fsReleaseNotify ≠ 1) ∧
    bit 0 0 = false ∧ pDepthQueue (holding.poolRec 0) ≠ 0 := by decide +kernel

/-- A pool of 64 × 6 that is compressed, and stream 0, interlaced at 64 × 6, which FS_STREAM_POOL gives to it. -/
theorem witness_pool_fields : let p := 2 ^ 127 + 2 ^ 124 + 2 ^ 93 + 64 * 2 ^ 79 + 6 * 2 ^ 65 + 2 ^ 40
    let i : InStream := { mode := .live, desc := 2 ^ 104 + 64 * 2 ^ 90 + 6 * 2 ^ 76 }
    let s := powered.setIns 0 i
    fieldsBad s (fun _ => p) 0 = true ∧ fieldsBad powered (fun _ => p) 0 = false := by decide +kernel

theorem witness_window_frames : let v : Window := { mode := .frozen }
    let b : Buffer := { mode := .complete, tokens := [.window 0, .dest 3] }
    let s := (powered.setWin 0 v).setBuf 5 b
    (s.win 0).mode = .frozen ∧ .window 0 ∈ (s.buf 5).tokens ∧ twf (fun _ => ({} : Buffer)) s.fs.bufs = true ∧
    s.pwr.warmPending = none ∧ (∀ e ∈ s.str.ins, e.2.frame = none) ∧
    ((powered.setWin 0 { mode := .post, frames := [(5, 0)] }).win 0).frames = [(5, 0)] := by decide +kernel

def channel (c : Chan) : State := powered.setChan 0 c
def changing (s : State) : State := { s with sup := { s.sup with inservice := some (dramChange 0) } }

theorem witness_channel_commands : let s := channel { mode := .fast }
    ((s.chan 0).mode = .fast ∧ s.sup.inservice = none ∧ (s.chan 0).restoring = false ∧
      evacFits 0 ((chCmdRuns 1 0 s).setChan 0 { mode := .fast, retiring := true }) = true) ∧
    (let a := channel { mode := .retired, restoring := false }; (a.chan 0).mode = .retired ∧ a.pwr.vddqHold = false) ∧
    (let b := changing (channel { mode := .evacuating, retiring := true });
      (b.chan 0).mode = .evacuating ∧ (b.chan 0).retiring = true ∧ b.sup.inservice = some (dramChange 0) ∧ b.fs.place = [] ∧
      b.fs.overPools = [] ∧ b.str.ins = [] ∧ b.fs.sweep.paused = false) ∧
    (let r := changing (channel { mode := .retraining, restoring := true });
      (r.chan 0).mode = .retraining ∧ (r.chan 0).restoring = true ∧ r.sup.inservice = some (dramChange 0) ∧ r.fs.place = []) ∧
    (let d := changing (channel { mode := .retraining, fails := 1 }); 1 ≤ (d.chan 0).fails ∧ (d.chan 0).restoring = false) ∧
    (let w := channel { mode := .fast, retryAt := some 5 }; (w.chan 0).retryAt = some 5 ∧ evacFits 0 (w.begin 5) = true) := by
  decide +kernel

theorem witness_sweeps : let s (single : List Nat) (k : ChanMode) : State :=
      let a := channel { mode := k }
      { a with fs := { a.fs with sweep := { a.fs.sweep with single := single } } }
    powered.fs.sweep.state = 0 ∧ 12 ≤ powered.start.next ∧ powered.sup.trial = none ∧ powered.pwr.bulk = true ∧
    powered.reg Reg.fsSweepLoad * 10 < 9000 ∧ (s [0x400] .fast).fs.sweep.single ≠ [] ∧ (s [] .fast).fs.sweep.single = [] ∧
    ((s [] .fast).chan 0).mode = .fast ∧ ((s [0x400] .sweeping).chan 0).mode = .sweeping ∧
    (s [0x400] .sweeping).fs.sweep.single = [0x400 + 0] ∧ (s [0x400] .sweeping).fs.sweep.due = false ∧
    (s [0x400] .sweeping).fs.sweep.state ≠ 1 ∧ (s [0x400] .sweeping).reg Reg.govState ≠ 3 ∧ sweepNow (s [] .fast) = none ∧
    0 < powered.reg Reg.fsMarginMin ∧ (onLane { mode := .ready } |>.lane 0).mode = .ready ∧
    evacFits 0 ((s [0x400] .sweeping).setChan 0 { mode := .fast, fails := 0 }) = true := by decide +kernel

/-- A burst that comes with one bit inverted, one from another address, and one that comes right but late. -/
def flipped : BurstRead := ⟨1, 0, 10⟩
def strayed : BurstRead := ⟨0, 1, 10⟩
def slow : BurstRead := ⟨0, 0, 2000⟩

theorem witness_bursts : burstBad flipped = true ∧ burstBad strayed = true ∧ burstBad slow = false ∧
    (([slow] : List BurstRead).take 3).takeWhile burstBad = [] ∧
    (let reads := [flipped, slow]; 0 < ((reads.take 3).takeWhile burstBad).length ∧
      ((reads.take 3).takeWhile burstBad).length < (reads.take 3).length) ∧
    (let reads := [flipped, strayed, flipped]; ((reads.take 3).takeWhile burstBad).length = (reads.take 3).length) ∧
    1000 < slow.time ∧ takesExtents ((channel { mode := .fast }).chan 0) = true ∧
    ((channel { mode := .fast }).chan 0).retiring = false ∧ 1 < powered.reg Reg.fsCrcRetireLimit ∧
    (powered.setReg Reg.fsCrcRetireLimit 1).reg Reg.fsCrcRetireLimit = 1 ∧
    pStream (powered.poolRec 0) = false ∧
    (let p := (powered.setForce Reg.fsPoolTable (hostPool + 2 ^ 124)).poolRec 0; pStream p = true ∧ 16 ≤ pComp p) ∧
    (let p := (powered.setForce Reg.fsPoolTable (hostPool + 2 ^ 124 - 31 * 2 ^ 111)).poolRec 0; pStream p = true ∧ pComp p < 16) := by
  decide +kernel

theorem witness_audio : twf (fun _ => ({} : AudOut)) ready.aud.outs = true ∧ ready.aud.running = false ∧
    (let s : State := { ready with aud := { ready.aud with running := true, waiting := some ⟨0, 0, 0, []⟩ } };
      s.aud.running = true ∧ s.aud.waiting = some ⟨0, 0, 0, []⟩) ∧ chimeEnable (ready.chimeRec 0) = false ∧
    (ready.setReg Reg.chimeTable (2 ^ 127)).chimeUsable 0 = true ∧
    ((ready.setChime 0 ⟨true, true, 1, 5⟩).chime 0).playing = true ∧ ((ready.setChime 0 ⟨true, true, 1, 5⟩).chime 0).left ≤ 1 ∧
    twf (fun _ => ({} : Chime)) (ready.setChime 0 ⟨true, true, 1, 5⟩).aud.chimes = true ∧
    ((ready.setTdm 0 { mode := .running }).tdm 0).mode = .running ∧ tsSlave ((ready.setForce (Reg.tdmSetup 0) (2 ^ 62)).tdmSetup 0) = true ∧
    tsSlave (ready.tdmSetup 0) = false ∧ 100000 < (toInt 32 200000).natAbs ∧ (toInt 32 5).natAbs ≤ 100000 ∧
    twf (fun _ => ({} : AudIn)) ready.aud.ins = true ∧ twf (fun _ => ({} : TdmPort)) ready.aud.tdm = true ∧
    (let data : List Nat := [1, 0, 0, 0, 0, 0, 0, 0, 0, 0, 0, 0] ++ leBytes 4 (crc32c [1, 0, 0, 0, 0, 0, 0, 0, 0, 0, 0, 0]);
      16 ≤ data.length ∧ leNat (data.take 2) = 1 ∧ crc32c (data.take 12 ++ data.drop 16) = leNat ((data.drop 12).take 4)) ∧
    ready.soundsUsed = 0 ∧ oget ready.nvm.sounds 1 = none ∧
    1 ∉ tableSounds (leNat ({ ready with nvm := { ready.nvm with sounds := [(1, some ⟨[], 0⟩)] } } : State).safeChimes) := by decide +kernel

theorem witness_audio_commit (s : State) (tdm : List Nat) (h : tdm.all tdmOk = true) : audCheck s 0 0 tdm = 0 := by
  have z : ∀ w k, record 0 0 w k = 0 := fun _ _ => by simp [record]
  have x0 : xpointOk 0 = true ∧ xpValid 0 = false ∧ audOutOk 0 = true ∧ aoValid 0 = false := by decide
  unfold audCheck
  simp only [z, h]
  generalize List.range 4096 = xs
  generalize List.range 512 = os
  have none_ : ∀ o : Nat, (xs.map fun _ => (0 : Nat)).filter (fun x => xpValid x && xpOut x == o) = [] := fun o => by simp [x0]
  have empty : os.filter (fun _ => false) = [] := by simp
  simp [x0, none_, List.filter_map, Function.comp_def, empty]

theorem witness_audio_tables : let s := (ready.setReg Reg.audXpointTable 0).setReg Reg.audOutTable 0
    s.reg Reg.audXpointTable = 0 ∧ s.reg Reg.audOutTable = 0 ∧
    (((List.range 8).map fun p => s.reg (Reg.tdmSetup p)).all tdmOk) = true ∧ tdmOk (2 ^ 64 - 1) = false := by decide +kernel

/-- Source n in a state, and domain 0. -/
def onSource (n : Nat) (v : RefSource) : State := ready.setSrc n v
def onDomain (v : Domain) : State := ready.setDom 0 v

theorem witness_sources : let new := 2 ^ 63 + 2 ^ 62
    let s := ready.setReg (Reg.refSetup 0) new
    twf (fun _ => ({} : RefSource)) s.clk.srcs = true ∧ refSetupOk 0 (s.reg (Reg.refSetup 0)) = true ∧ rsEnable new = true ∧
    refLimitsOk (s.reg (Reg.refLimits 0)) = true ∧ refLimitsOk 0 = false ∧ refSetupOk 4 0 = false ∧ rsEnable 0 = false ∧
    laneNamed s 8 0 = false ∧ refChanged 0 (s.refSetup 0) new = true ∧ refChanged 0 new new = false ∧ ready.srcType 0 = .clock ∧
    ((ready.setForce (Reg.refSetup 0) new).srcType 0 = .pps) ∧ ready.srcType 4 = .frame ∧ ready.srcType 8 = .lane ∧ ready.srcType 11 = .net ∧
    ([RefMode.disabled, .absent, .qualifying, .qualified, .marginal, .rejected, .outvoted].all fun m => let v : RefSource :=
        { mode := m, within := some 0, agree := some 0, runIn := 2 };
      decide (((onSource 0 v).src 0) = v ∧ (onSource 0 v).clk.doms = [])) = true ∧
    twf (fun _ => ({} : RefSource)) (onSource 0 { mode := .qualified }).clk.srcs = true ∧
    (∀ e, e < 16 → (ready.dom e).selected ≠ some 0) ∧ 2 ≤ pulseGood ready 0 ∧ (onSource 11 { mode := .qualifying, good := 1 }).reg Reg.refNetGm ≠ 5 ∧
    twf (fun _ => ({} : PhyLane)) ready.phy = true ∧ twf (fun _ => ({} : Domain)) ready.clk.doms = true := by decide +kernel

/-- A source whose rank is its own among the twelve. -/
theorem witness_rank : let s := ready.setForce (Reg.refSetup 0) (2 ^ 63 + 3 * 2 ^ 57)
    (∀ m, m < 12 → m ≠ 0 → rsRank (s.refSetup m) ≠ rsRank (s.refSetup 0)) ∧ refWithin s 0 5 0 1 = true ∧
    refWithin s 0 1000000 0 1 = false ∧ (rlReject (s.refLimits 0)).natAbs < 1000000 := by decide +kernel

theorem witness_domains : let new := ready.reg (Reg.domSetup 0)
    domSetupOk new = true ∧ domSetupOk 0 = false ∧ dsEnable 0 = false ∧ dsEnable (2 ^ 127) = true ∧ (ready.dom 0).mode = .off ∧
    (ready.dom 0).selected = none ∧ (∀ m, m < 12 → (ready.src m).mode ≠ .qualified) ∧ domNamed ready 5 = false ∧
    (∀ e, e < 16 → e ≠ 0 → ((onDomain { mode := .freeRun }).dom e).mode = .off) ∧ 12 ≤ dsForce (ready.domSetup 0) ∧
    ready.bestSource 0 = none ∧ ((onDomain { mode := .locked, selected := some 0 }).dom 0).selected = some 0 ∧
    (onDomain { mode := .locked, selected := some 0 }).holdSeconds 0 0 = [] ∧ bit ((ready.setForce (Reg.domSources 0) 3).force (Reg.domSources 0)) 0 = true := by decide +kernel

/-- Sources 0 and 1 enabled at ranks 3 and 2, and qualified; domain 0 selects 0. -/
def twoSources : State :=
  ((((onDomain { mode := .locked, selected := some 0 }).setSrc 0 { mode := .qualified }).setSrc 1 { mode := .qualified }).setForce
    (Reg.refSetup 0) (2 ^ 63 + 3 * 2 ^ 57)).setForce (Reg.refSetup 1) (2 ^ 63 + 2 * 2 ^ 57)

theorem witness_selection :
    let s := (twoSources.setForce (Reg.domSources 0) 3).setForce (Reg.domSetup 0) (15 * 2 ^ 118 + 2 ^ 127 + 2 ^ 123 + 2 ^ 40)
    s.eligible 0 0 = true ∧ (s.src 0).mode = .qualified ∧ s.bestSource 0 = some 1 ∧ dsRevertive (s.domSetup 0) = true ∧
    rsRank (s.refSetup 1) < rsRank (s.refSetup 0) ∧ (s.src 1).since + dsWtr (s.domSetup 0) ≤ s.dt := by decide +kernel

/-! Keys, supplies, the governor, resets and the start, the life-cycle, the casebook and supervision. -/

theorem leNat_leBytes8 (x : Nat) : leNat (leBytes 8 x) = x % 2 ^ 64 := by
  simp only [leBytes, leNat]; omega

theorem length_hmac (key m : List Nat) : (hmac key m).length = 32 := by
  have h : ∀ l : List Nat, (l.flatMap (beBytes 4)).length = 4 * l.length := fun l => by
    induction l with
    | nil => rfl
    | cons a l ih => simp only [List.flatMap_cons, List.length_append, ih, length_beBytes4, List.length_cons]; omega
  simp [hmac, sha256, h, length_shaBlocks _ shaInit _ rfl]

/-- Slots 30 and 31 hold keys, slot 1 may answer challenges, and the hold-up store is charged. -/
def keyed : State :=
  { ready with
    sec := { ready.sec with puf := some [] }
    regs := ((ready.setReg Reg.pwrHoldupUs 65000).setReg Reg.pwrHoldupCap 2200).regs
    nvm := { ready.nvm with keys := { ready.nvm.keys with
      slots := [(1, ⟨[5], [0], 2 ^ 31 + 2 ^ 30, 0⟩), (30, ⟨[6], [0], 2 ^ 31, 0⟩), (31, ⟨[7], [0], 2 ^ 31, 0⟩)] } } }

/-- The first 72 bytes of an update that clears slot 1, and the first 32 of a request for PROVISIONED, for this part. -/
def updateHead : List Nat := [1, 0, 3, 1] ++ leBytes 8 Config.deviceId ++ leBytes 8 1 ++ List.replicate 52 0
def requestHead : List Nat := [1, 0, 1, 0] ++ leBytes 8 Config.deviceId ++ leBytes 8 1 ++ List.replicate 12 0

theorem witness_update : ∃ d, updateCode keyed d true = 0 ∧ umOp d = 3 ∧ umSlot d = 1 := by
  have h : ∀ m : List Nat, m.length = 32 → hmac [6] updateHead = m → updateCode keyed (updateHead ++ m) true = 0 ∧
      umOp (updateHead ++ m) = 3 ∧ umSlot (updateHead ++ m) = 1 := fun m hl e => by
    have f1 : umDevice (updateHead ++ m) = Config.deviceId % 2 ^ 64 := leNat_leBytes8 Config.deviceId
    have f2 : umCounter (updateHead ++ m) = 1 := by
      rw [umCounter, show ((updateHead ++ m).drop 12).take 8 = leBytes 8 1 from rfl]; decide
    have f3 : (updateHead ++ m).take 72 = updateHead := List.take_left' rfl
    have f4 : umMac (updateHead ++ m) = m := by
      show ((updateHead ++ m).drop 72).take 32 = m
      rw [show (updateHead ++ m).drop 72 = m from List.drop_left' rfl, List.take_of_length_le (by omega)]
    have f5 : verifyKey keyed 1 = some [6] := by decide
    have f6 : umWellFormed (updateHead ++ m) = true := by
      have a : (updateHead ++ m).length = 104 := by rw [List.length_append, hl]; rfl
      have b : umFormat (updateHead ++ m) = 1 := rfl
      have c : allZero (((updateHead ++ m).drop 28).take 4) = true := rfl
      have e : umLabel (updateHead ++ m) = 0 := rfl
      have f : allZero (umWrapped (updateHead ++ m)) = true := rfl
      simp [umWellFormed, a, b, c, e, f]
    have f7 : umOp (updateHead ++ m) = 3 := rfl
    have f8 : umSlot (updateHead ++ m) = 1 := rfl
    have f9 : keyed.nvm.keys.counter = 0 ∧ ¬ keyed.holdupUs < keyed.reg Reg.secHoldupReq ∧ keyed.retired = false := by decide
    simp [updateCode, f1, f2, f3, f4, f5, f6, f7, f8, f9, e, umAllowed]
  exact ⟨updateHead ++ hmac [6] updateHead, h _ (length_hmac [6] updateHead) (Eq.refl (hmac [6] updateHead))⟩

theorem witness_life_cycle : ∃ d, lcCode keyed d true = 0 ∧ lrTarget d = 1 := by
  have h : ∀ m : List Nat, m.length = 32 → hmac [7] requestHead = m → lcCode keyed (requestHead ++ m) true = 0 ∧
      lrTarget (requestHead ++ m) = 1 := fun m hl e => by
    have f1 : lrDevice (requestHead ++ m) = Config.deviceId % 2 ^ 64 := leNat_leBytes8 Config.deviceId
    have f2 : lrCounter (requestHead ++ m) = 1 := by
      rw [lrCounter, show ((requestHead ++ m).drop 12).take 8 = leBytes 8 1 from rfl]; decide
    have f3 : (requestHead ++ m).take 32 = requestHead := List.take_left' rfl
    have f4 : lrMac (requestHead ++ m) = m := by
      show ((requestHead ++ m).drop 32).take 32 = m
      rw [show (requestHead ++ m).drop 32 = m from List.drop_left' rfl, List.take_of_length_le (by omega)]
    have f5 : keyed.slotValid 31 = true ∧ keyed.slotKey 31 = [7] := by decide
    have a : (requestHead ++ m).length = 64 := by rw [List.length_append, hl]; rfl
    have b : lrFormat (requestHead ++ m) = 1 := rfl
    have c : allZero (((requestHead ++ m).drop 3).take 1) = true := rfl
    have c' : allZero (((requestHead ++ m).drop 20).take 12) = true := rfl
    have f7 : lrTarget (requestHead ++ m) = 1 := rfl
    have f9 : keyed.nvm.keys.counter = 0 ∧ ¬ keyed.holdupUs < keyed.reg Reg.secHoldupReq ∧ keyed.nvm.lc = 0 ∧
      lcCondition keyed 0 1 = true ∧ lcPending keyed = false := by decide
    simp [lcCode, f1, f2, f3, f4, f5, a, b, c, c', f7, f9, e, lcAllowed]
  exact ⟨requestHead ++ hmac [7] requestHead, h _ (length_hmac [7] requestHead) (Eq.refl (hmac [7] requestHead))⟩

theorem witness_keys : updateCode keyed [] true ≠ 0 ∧ lcCode keyed [] true ≠ 0 ∧ keyed.start.recovery ≠ 2 ∧ keyed.slotAuth 1 = true ∧
    keyed.slotAuth 2 = false ∧ kaValid (keyed.keySlot 2).attr = false ∧ kaValid (keyed.keySlot 1).attr = true ∧
    kaNarrow (2 ^ 31 + 2 ^ 23) = true ∧ keyed.reg Reg.secState ≠ 2 ∧ keyed.nvm.lc = 0 ∧
    (∀ n, n < 32 → (keyed.link n).session = none) ∧
    twf (fun _ => ({} : KeyCells)) keyed.nvm.keys.slots = true := by decide +kernel

theorem witness_supplies : let s : State := { ready with pwr := { ready.pwr with qualified := true, bulk := true, mainSince := some 0, aSince := some 0 } }
    twf entryDefault s.regs = true ∧ s.pwr.holdup = false ∧ s.pwr.thermal = false ∧
    (let g := putBit (0x3F : Nat) 0 false; (bit g 1 && bit g 3 && bit g 5) = true) ∧
    (let r := ready.setReg Reg.pwrGood 0x3F; bit (r.reg Reg.pwrGood) 1 = true ∧ r.reg Reg.pwrKeeperSide = 0 ∧ twf entryDefault r.regs = true) ∧
    0 + s.reg Reg.pwrMainQual * ms ≤ 10 * sec ∧ (ready.setReg Reg.pwrState 2).reg Reg.pwrState = 2 ∧ s.start.next = 12 ∧
    s.fs.mode ≠ .inService ∧ holdupMicros 0 0 < s.reg Reg.secHoldupReq ∧ s.reg Reg.secHoldupReq ≤ 65535 := by decide +kernel

theorem witness_governor : let v := ready.reg Reg.govSetup
    (1 ≤ fld v 58 54 ∧ fld v 58 54 ≤ 20) ∧ (5 ≤ fld v 53 48 ∧ fld v 53 48 ≤ 50) ∧ (1 ≤ fld v 47 36 ∧ fld v 47 36 ≤ 1000) ∧
    fld v 35 24 ≤ 999 ∧ (1 ≤ fld v 23 16 ∧ fld v 23 16 ≤ 100) ∧ fld v 35 24 < fld v 47 36 ∧
    govEnabled ready ≠ govEnabled (ready.setForce Reg.govSetup (v ^^^ 2 ^ 63)) ∧ ready.start.next = 12 ∧
    ([0, 1, 2, 3, 4].all fun n => decide ((ready.setReg Reg.govState n).reg Reg.govState = n)) = true ∧
    (sweepNow ready).isSome = false ∧ ready.pwr.gov.misses < 2 ∧ ready.pwr.gov.mismatches = 0 ∧ ready.pwr.gov.run ≠ 9 ∧
    ready.fs.sweep.state = 0 := by decide +kernel

theorem witness_resets : ready.dap.staged = [] ∧ ready.dap.save = none ∧ ready.sup.trial = none ∧ ready.pwr.holdup = false ∧
    ready.start.held = false ∧ unexported ready = 0 ∧ (ready.setReg Reg.rstWarmHold 1000).reg Reg.rstWarmHold ≠ 0 ∧
    unexported (({ ready with fs := { ready.fs with wins := [(0, { mode := .frozen, released := false })] } } : State).setForce
      Reg.fsWinTable (2 ^ 127)) ≠ 0 ∧ ready.pwr.subsystem = none ∧ qsInstances qsAudio ≠ 0 ∧
    carriesC0 ready qsAudio 0 = false ∧ ready.inReserve = false := by decide +kernel

theorem witness_start : ((List.range 12).all fun k =>
      stepDue { State.reset with start := { next := k }, pwr := { ready.pwr with bulk := true } } k) = true ∧
    stepDue ready 0 = false ∧ twf entryDefault State.reset.regs = true ∧ (State.reset.bank 0).state = 0 ∧ State.reset.nvm.lc ≠ 4 ∧
    State.reset.start.working = false ∧ State.reset.start.keeperFailed = false ∧ State.reset.reg Reg.safeSetState ≠ 2 ∧
    State.reset.start.kind ≠ 2 ∧ State.reset.start.kind ≠ 3 ∧ State.reset.start.loop = false ∧ State.reset.nvm.image = none ∧
    imageRead [] = none ∧ State.reset.str.groups = [] ∧ State.reset.reg Reg.safeSetState ≠ 1 := by decide +kernel

theorem witness_casebook : let i : CbItem := ⟨1, [], 0, false, false⟩
    let s : State := { ready with cb := { ready.cb with mounted := true, queue := [i] } }
    s.cb.mounted = true ∧ s.pwr.holdup = false ∧ s.cb.queue = [i] ∧ s.cb.nvmFault = false ∧ s.cb.gap = none ∧
    utf8Ok [65] = true ∧ utf8Ok [0xFF] = false ∧ s.cb.digestTick + s.reg Reg.cbDigestInterval * sec ≤ 100000 * sec ∧
    s.cb.lastDigest = none := by decide +kernel

/-- The first 16 bytes of an image of release 0xFFFF without payload. -/
def imageHead : List Nat := [1, 0, 0x64, 0x32, 255, 255, 0, 0, 0, 0, 0, 0, 0, 0, 0, 0]

/-- A signed image is taken; which images are signed, Config.firmwareSigned keeps open. -/
theorem witness_firmware (rest : List Nat) (hl : rest.length = 112) (h : Config.firmwareSigned (imageHead ++ rest) = true) :
    fwCode ready (imageHead ++ rest) true = 0 := by
  have a : fiFormat (imageHead ++ rest) = 1 := rfl
  have b : fiProduct (imageHead ++ rest) = 0x3264 := by
    rw [fiProduct, show ((imageHead ++ rest).drop 2).take 2 = [0x64, 0x32] from rfl]; decide
  have c : fiLength (imageHead ++ rest) = 0 := rfl
  have e : fiRelease (imageHead ++ rest) = 0xFFFF := by
    rw [fiRelease, show ((imageHead ++ rest).drop 4).take 2 = [255, 255] from rfl]; decide
  have g : ready.sup.trial = none ∧ ¬ 0xFFFF < ready.reg Reg.fwMinRelease := by decide
  have l : (imageHead ++ rest).length = 128 := by rw [List.length_append, hl]; rfl
  simp [fwCode, a, b, c, e, g, h, l]

theorem witness_supervision : fwCode ready [] true = 1 ∧ fwCode { ready with sup := { ready.sup with trial := some (1, 0) } } [] true = 5 ∧
    ready.sup.inservice = none ∧ (ready.bank 1).state ≠ 1 ∧ ((ready.setBank 1 ⟨1, 0, 0, 0, 0⟩).bank 1).state = 1 ∧
    0 + ready.reg Reg.fwConfirmTime * sec ≤ 100000 * sec ∧ ready.nvm.lc ≠ 3 ∧ host.auth = true ∧
    fld (ready.reg Reg.unvAsset) 15 0 ≠ 5 ∧ ready.safeRecords = [] ∧ oget powered.nvm.assets 5 ≠ none ∧ oget ready.nvm.assets 5 = none ∧
    assetCode ready [] true ≠ 0 ∧ ready.sup.windowOpened = false := by decide +kernel

/-- An asset of one pixel with its CRC. -/
def assetHead : List Nat := [5, 0, 1, 0, 1, 0, 0, 0, 4, 0, 0, 0]
theorem witness_asset : let d := assetHead ++ leBytes 4 (crc32c (assetHead ++ [9, 9, 9, 9])) ++ [9, 9, 9, 9]
    assetCode ready d true = 0 ∧ assetCode ready d false = 5 := by decide +kernel

theorem witness_bandwidth : let s := (twoSources.setForce (Reg.domSources 0) 3).setReg (Reg.domSetup 0) (15 * 2 ^ 118 + 2 ^ 127 + 2 ^ 123 + 2 ^ 40)
    dsEnable (s.reg (Reg.domSetup 0)) = true ∧ 12 ≤ dsForce (s.reg (Reg.domSetup 0)) ∧ (s.dom 0).mode ≠ .off ∧
    (s.dom 0).selected = some 0 ∧ (s.src 0).mode = .qualified ∧
    (let r := (onDomain { mode := .locked, selected := some 0 }).setForce (Reg.refSetup 0) (2 ^ 63);
      refChanged 0 (r.refSetup 0) (2 ^ 63 + 2 ^ 62) = true ∧
      (List.range 16).filter (fun d => (r.dom d).selected == some 0) = [0]) := by decide +kernel

/-- The keys before the second start of a part that has its root, and a slot whose shares are old. -/
theorem witness_root : let k : KeyStore := { started := true, root := some [1], helper := some 2 }
    let s : State := { ready with nvm := { ready.nvm with keys := k } }
    s.nvm.keys.started = true ∧ s.nvm.keys.destroyed = false ∧ s.nvm.keys.torn = false ∧ s.nvm.keys.root.isSome = true ∧
    s.nvm.keys.helper = some 2 ∧ s.nvm.lc = 0 ∧
    (let n : State := { ready with nvm := { ready.nvm with keys := { slots := [(1, ⟨[5], [0], 2 ^ 31 + 2 ^ 23, 0⟩)] } } };
      kaValid (n.keySlot 1).attr = true ∧ kaNarrow (n.keySlot 1).attr = true ∧ (n.keySlot 1).key = [5] ∧
      tget (fun _ => 0) n.sec.masked 1 + 2 * n.reg Reg.secRemaskPeriod * ms < 10 ^ 15 ∧
      ¬ (tget (fun _ => 0) n.sec.masked 1 + 2 * n.reg Reg.secRemaskPeriod * ms < 1)) := by decide +kernel

/-- Reserved header bytes of a sound do not refuse it. -/
theorem witness_sound_reserved : let head : List Nat := [1, 0, 9, 9, 9, 9, 9, 9, 0, 0, 0, 0]
    let data := head ++ leBytes 4 (crc32c head)
    16 ≤ data.length ∧ leNat ((data.drop 8).take 4) = data.length - 16 ∧ leNat (data.take 2) = 1 ∧
    crc32c (data.take 12 ++ data.drop 16) = leNat ((data.drop 12).take 4) := by decide +kernel

theorem witness_digest : ready.cb.lastDigest ≠ some ready.rtDigest ∧
    ({ ready with cb := { ready.cb with lastDigest := some ready.rtDigest } } : State).cb.lastDigest = some ready.rtDigest :=
  ⟨nofun, rfl⟩

/-! The spec's worked examples, with the numbers they give. -/

/-- Event 370 is FREEZE of output O08 (14, worked example of EVT_N; 09, worked example of the chime). -/
theorem test_freeze_event : Ev.freeze 8 = 370 ∧ 370 / 32 = 11 ∧ 370 % 32 = 18 := by decide

/-- Port 99 at 368 Gbit/s, 1,400 ps and 1,780 ps: 497 and 360 per mille (03, worked example of quadrant slack; the text rounds
36.0 %). -/
theorem test_quad_slack : quadSlack 1400 [(99, 368 * 10 ^ 9)] 3 = 497 ∧ quadSlack 1780 [(99, 368 * 10 ^ 9)] 3 = 360 := by
  decide +kernel

/-- The mirror camera's flow: 300 folios a line, D = 20,365,560, 13 slots at 112 Gbit/s and 25 at 56 Gbit/s (11, worked example). -/
theorem test_mirror_camera :
    let d := pack [(14, 1920), (14, 1080), (14, 1125), (16, 6000), (2, 1), (2, 1), (19, 0), (6, 2), (2, 2), (15, 0)]
    lineFolios 1920 1 1 = 300 ∧ flowDemand d 300 true = 20365560 * 100 ∧ slotsNeeded (flowDemand d 300 true) 1 0 = 13 ∧
    slotsNeeded (flowDemand d 300 true) 1 1 = 25 := by decide +kernel

/-- The block of 06's worked example: two lines of 64 samples, BLOCK_WORDS 5, QMAX 4, K0 2. -/
def blockSamples : List Nat := [100, 102, 103, 103] ++ List.replicate 60 104 ++ [101, 102, 103, 104] ++ List.replicate 60 104
def blockBytes : List Nat := [0x22, 0xE4, 0x80] ++ List.replicate 7 0 ++ [0x0B] ++ List.replicate 9 0

/-- The encoder gives the 20 bytes of the example, and the decoder its column x'. -/
theorem test_block_encodes : (encodeBlock 8 20 4 2 blockSamples).data = blockBytes := by decide +kernel
theorem test_block_decodes : (decodeBlock 8 blockBytes).map (·.take 5) = some [100, 104, 104, 104, 104] ∧
    (decodeBlock 8 blockBytes).map (fun l => (l.drop 64).take 4) = some [100, 100, 104, 104] := by decide +kernel

/-- Bit pairs as PAM4 levels (11, R377); after 24 equal symbols a stuff symbol two levels away, which the receiver deletes (R378). -/
theorem test_levels : levels true [false, false, false, true, true, true, true, false] = [-3, -1, 1, 3] := by decide
theorem test_stuffing : (stuffed true (0, 0) (List.replicate 24 (-3))).1 = List.replicate 24 (-3) ++ [1] ∧
    (destuffed true (0, 0) 25 (List.replicate 24 (-3) ++ [1, 3])).taken = List.replicate 24 (-3) ++ [3] := by decide +kernel

/-- A message of 104 bytes travels in two CAN frames of 64 and 48 bytes, one of 16 in a frame of 20 (13, worked example). -/
theorem test_can_frames : ((segments 63 (List.replicate 104 0)).map fun x => canLength (x.2.2.length + 1)) = [64, 48] ∧
    canLength 17 = 20 := by decide +kernel

/-! The queue. -/

theorem test_idle : step State.reset = .next State.reset := rfl
theorem test_front : step (State.reset.withCommand (.phyrefLoss 1)) = exec (.phyrefLoss 1) State.reset := rfl
theorem test_no_word (nbits w : Nat) : decodeTableWord nbits w = none ∧ State.reset.withFetchWord nbits w = State.reset := ⟨rfl, rfl⟩

/-! Well-formed commands: one ill-formed term for each check, which the check refuses. -/

theorem smoke_src : wf (.evtClearAll 0 ⟨⟨35, 0⟩, false⟩) = false ∧ wf (.evtClearAll 0 host) = true := by decide
theorem smoke_requester : requesterOk ⟨0, 127⟩ = false ∧ requesterOk ⟨2, 2 ^ 48⟩ = false ∧ requesterOk ⟨3, 1⟩ = false ∧
    requesterOk ⟨0, 126⟩ = true := by decide
theorem smoke_message : wf (.dapRead 0 can1 (req 2 0 [])) = false ∧ wf (.dapRead 0 can1 (req 1 0 [5])) = false ∧
    wf (.dapHello 0 can1 (req 3 128 [])) = false ∧ wf (.dapWrite 0 can1 { req 2 0 [1] with length := 2 } true) = false ∧
    wf (.dapWrite 0 can1 (req 2 0 [256]) true) = false ∧ wf (.dapWrite 0 can1 (req 2 0 [1]) true) = true := by decide
theorem smoke_frame : frameOk ⟨true, true, 2 ^ 29, []⟩ = false ∧ frameOk ⟨true, false, 2 ^ 11, []⟩ = false ∧
    frameOk ⟨false, true, 0, List.replicate 9 0⟩ = false ∧ frameOk ⟨true, true, 0, List.replicate 64 0⟩ = true := by decide
theorem smoke_boundary : bndOk (.output 64) = false ∧ bndOk (.stream 256) = false ∧ bndOk (.window 64) = false ∧
    bndOk (.output 63) = true := by decide
theorem smoke_burst : useOk (.video (2 ^ 32) 0) = false ∧ useOk (.delay 512) = false ∧ useOk (.asset 0) = false ∧
    useOk (.asset 0xFFF) = true := by decide
theorem smoke_folio : folioOk 32 0 = false ∧ folioOk 0 (2 ^ 120) = false ∧ folioOk 31 (2 ^ 120 - 1) = true ∧
    laneOk 32 = false := by decide
theorem smoke_pairs : wf (.audioBlockBoundary 0 [(512, 1)] []) = false ∧ bytesOk [256] = false := by decide
theorem smoke_bounds : wf (.sessionIdleTimeout 0 9) = false ∧ wf (.proofLockoutEnd 0 35) = false ∧ wf (.subscriptionExpiry 0 4) = false ∧
    wf (.stallTimeout 0 512) = false ∧ wf (.holdExpired 0 2048) = false ∧ wf (.syncEvent 0 64) = false ∧ wf (.evacuationDone 0 8) = false ∧
    wf (.chimePatternStep 0 32) = false ∧ wf (.dataFolio 0 0 0 0) = false ∧ wf (.takeEffectiveDt 0 (2 ^ 16)) = false ∧
    wf (.evtStatusClear 0 host 36 0) = false ∧ wf (.canReassemblyTimeout 0 2 0) = false ∧ wf (.convEnable 0 host 48) = false ∧
    wf (.cmpEnable 0 host 16) = false ∧ wf (.fsWinTrigger 0 host 64) = false ∧ wf (.heartbeatWindowEnd 0 1024) = false := by decide

/-! Lands (18_package_electrical.md). -/

def countLands (p : Land → Bool) : Nat :=
  sumOf ((List.range 58).map fun i => ((List.range 58).filter fun j => p (land (i + 1) (j + 1))).length)

def isSupply : Land → Bool
  | .supply _ => true
  | _ => false

def isLane : Land → Bool
  | .lane _ _ _ => true
  | _ => false

/-- The totals of R611. -/
theorem test_land_totals : countLands isSupply = 998 ∧ countLands (· == .vss) = 2130 ∧ countLands isLane = 128 ∧
    countLands (· == .reserved) = 30 := by decide +kernel

/-- R608 names AJ54, and R610 gives it TDM3_BCLK; R621 gives the IDCODE; R626 the part of State.reset. -/
theorem test_lands : rowName 28 = "AJ" ∧ land 28 54 = .signal (.tdmBclk 3) ∧ land 1 4 = .lane 0 false false ∧
    idcode State.reset = 0xB3264E85 ∧ landState State.reset .safeN = some .low ∧
    (State.reset.nvm.lc, State.reset.slotValid 30) = OrderCode.m.shipped := by decide +kernel

end Sys2Proof.Tests
end

section
/-! Device time (R19), and plain writes of the host's registers (R8, R464, R466). -/

namespace Sys2Proof.Proofs

open Machine Laws

/-! Device time. -/

/-- A step whose command is no power-on does not turn device time back. -/
theorem dt_le_of_step {s u : State} (e : step s = .next u)
    (h : ∀ t good straps, s.pending.head? ≠ some (.powerOn t good straps)) : s.dt ≤ u.dt := by
  obtain ⟨-, rfl⟩ | ⟨i, rest, hs, hi⟩ := step_next e
  · exact Nat.le_refl _
  · have noPowerOn : ∀ t good straps, i = .powerOn t good straps → False := fun t good straps k =>
      h t good straps (by rw [hs, k, List.head?_cons])
    exact (keep_exec i noPowerOn hi (.refl False { s with pending := rest })).dt.resolve_left id

/-- Settles O5: every operation keeps device time from falling (Keep, R19), and a command begins at the later of device time
and its own time, which is the model's reading of the queue (log entry 1). -/
theorem deviceTimeNeverFalls : Obligations.DeviceTimeNeverFalls :=
  ⟨fun _ _ => dt_le_of_step, fun t s => begin_dt s t⟩

/-! The places of the dictionary at which a write runs an operation. -/

/-- A block of the dictionary: the indices from `lo` to below `hi`, at one sub-index. -/
structure Place where
  lo : Nat
  hi : Nat
  sub : Nat

/-- A key lies in the block. -/
def Place.Has (p : Place) (key : Nat) : Prop := p.lo ≤ key / 256 ∧ key / 256 < p.hi ∧ key % 256 = p.sub

/-- An entry's keys lie outside the block. -/
abbrev Place.Apart (p : Place) (e : Entry) : Prop :=
  p.hi ≤ e.index ∨ e.index + e.count ≤ p.lo ∨ p.sub < e.sub ∨ e.sub + e.subs ≤ p.sub

/-- The place of one key. -/
def placeOf (key : Nat) : Place := ⟨key / 256, key / 256 + 1, key % 256⟩

theorem placeOf_has (key : Nat) : (placeOf key).Has key := ⟨Nat.le_refl _, Nat.lt_succ_self _, rfl⟩

/-- The single entries whose write runs an operation, but those of `actsOnWrite`. -/
def commandKeys : List Nat :=
  [Reg.evtClearAll, Reg.evtClearId, Reg.evtTest, Reg.evtDefaults, Reg.pwrStatsClear, Reg.govControl, Reg.rstCmd,
    Reg.rstSubsystem, Reg.rstProceed, Reg.startFailedClear, Reg.lcRequest, Reg.cbNote, Reg.cbStatsClear, Reg.fwImage,
    Reg.fwActivate, Reg.busStatsClear, Reg.assetWrite, Reg.assetDelete, Reg.svcWindowData, Reg.secUpdate, Reg.secChallenge,
    Reg.secTamperEnable, Reg.secStatsClear, Reg.dapStatsClear, Reg.netControl, Reg.canControl, Reg.refStatsClear,
    Reg.lnkStatsClear, Reg.strCommit, Reg.stvClear, Reg.takeGroup, Reg.takeCancel, Reg.takeStatsClear, Reg.safeSet,
    Reg.safeOutTable, Reg.safeSetCommit, Reg.fabPortRestore, Reg.fabStatsClear, Reg.cmpStatsClear, Reg.fsPoolCommit,
    Reg.fsBufCmd, Reg.fsBufWrite, Reg.fsStatsClear, Reg.fsChCmd, Reg.fsWinCommit, Reg.fsWinCmd, Reg.audCommit,
    Reg.audStatsClear, Reg.chimeCmd, Reg.soundWrite, Reg.soundDelete]

/-- The families of such entries, one member to an index: references, domains, lanes (PHY and link), conversion units,
compression engines, outputs and TDM ports. -/
def commandPlaces : List Place :=
  [⟨0x2000, 0x200C, 0x0B⟩, ⟨0x2100, 0x2110, 0x0C⟩, ⟨0x3000, 0x3020, 9⟩, ⟨0x3000, 0x3020, 0x19⟩, ⟨0x5000, 0x5030, 6⟩,
    ⟨0x6100, 0x6110, 4⟩, ⟨0x7000, 0x7040, 6⟩, ⟨0x7000, 0x7040, 9⟩, ⟨0x7000, 0x7040, 0x0C⟩, ⟨0x7801, 0x7809, 3⟩]

/-- A write of the key runs no operation: it is no command entry, no severity word, and none of `actsOnWrite`. -/
structure OnlyKept (key : Nat) : Prop where
  single : ∀ k ∈ commandKeys, key ≠ k
  family : ∀ p ∈ commandPlaces, ¬ p.Has key
  severity : key / 256 ≠ 0x1302
  passive : actsOnWrite key = false

/-! RW and RWC entries lie apart from those places. -/

/-- Operations hang on WO and RWS entries, but for those of `actsOnWrite`. -/
theorem entries_apart : ∀ e ∈ entries, (e.right = .rw ∨ e.right = .rwc) →
    (∀ p ∈ commandPlaces, p.Apart e) ∧ (∀ k ∈ commandKeys, (placeOf k).Apart e) ∧
      (0x1302 < e.index ∨ e.index + e.count ≤ 0x1302) := by
  decide +kernel

theorem entriesNear_subset (index : Nat) : entriesNear index ⊆ entries := by
  unfold entriesNear entries
  split
  case h_21 => exact List.nil_subset _
  all_goals
    intro e he
    simp only [List.mem_append]
    simp only [he, true_or, or_true]

/-- The entry of a key is one of the dictionary, and the key is one of its own. -/
theorem keyEntry_some {key : Nat} {e : Entry} (h : keyEntry key = some e) :
    e ∈ entries ∧ e.index ≤ key / 256 ∧ key / 256 < e.index + e.count ∧ e.sub ≤ key % 256 ∧ key % 256 < e.sub + e.subs :=
  ⟨entriesNear_subset _ (List.mem_of_find?_eq_some h), of_decide_eq_true (List.find?_some h :)⟩

theorem not_has_of_apart {p : Place} {key : Nat} {e : Entry} (h : keyEntry key = some e) (k : p.Apart e) : ¬ p.Has key := by
  obtain ⟨-, indexLe, ltIndex, subLe, ltSub⟩ := keyEntry_some h
  rintro ⟨loLe, ltHi, atSub⟩
  unfold Place.Apart at k
  omega

/-- An RW or RWC entry that is none of `actsOnWrite` only keeps what is written. -/
theorem onlyKept_of_right {key : Nat} {e : Entry} (h : keyEntry key = some e) (hr : e.right = .rw ∨ e.right = .rwc)
    (ha : actsOnWrite key = false) : OnlyKept key := by
  obtain ⟨mem, indexLe, ltIndex, -, -⟩ := keyEntry_some h
  obtain ⟨places, keys, severity⟩ := entries_apart e mem hr
  exact {
    single := fun k hk same => not_has_of_apart h (keys k hk) (same ▸ placeOf_has key)
    family := fun p hp => not_has_of_apart h (places p hp)
    severity := by omega
    passive := ha }

/-! Their write keeps the value. -/

section
variable {key : Nat} (h : OnlyKept key) (src : Src) (v : Nat) (data : List Nat) (ok : Bool) (s : State)
include h

theorem OnlyKept.passive_ne : key / 256 ≠ 0x1300 ∧ key / 256 ≠ 0x1301 ∧
    ¬ (0x3000 ≤ key / 256 ∧ key / 256 < 0x3020 ∧ key % 256 = 0x18) ∧ key ≠ Reg.dapPathEnable ∧ key ≠ Reg.dapNotifyEnable ∧
    key ≠ Reg.dapLock ∧ key ≠ Reg.dtDomain ∧ key ≠ Reg.strEndpointKeep ∧ key ≠ Reg.audMuteAll ∧ key ≠ Reg.chimeTable := by
  simpa [actsOnWrite, and_assoc] using h.passive

/-- A rule for `simp (disch := decide)`: a key that only keeps is no command entry. -/
theorem OnlyKept.eq_command {k : Nat} (hk : k ∈ commandKeys) : (key = k) = False := eq_false (h.single k hk)

theorem writeManagement_eq_keepValue : writeManagement src key v data ok s = keepValue key v s := by
  simp (disch := decide) only [writeManagement, h.severity, h.eq_command, h.passive_ne, if_false]

theorem writeLink_eq_keepValue (lo : 0x2000 ≤ key / 256) : writeLink key v s = keepValue key v s := by
  have family := h.family
  simp only [commandPlaces, List.forall_mem_cons, Place.Has, lo, true_and] at family
  simp (disch := decide) only [writeLink, h.eq_command, h.passive_ne, family, if_false]

theorem writeRoutes_eq_keepValue : writeRoutes key v data ok s = keepValue key v s := by
  simp (disch := decide) only [writeRoutes, h.eq_command, h.passive_ne, or_self, if_false]

theorem writeStore_eq_keepValue (lo : 0x5000 ≤ key / 256) : writeStore key v data ok s = keepValue key v s := by
  have family := h.family
  simp only [commandPlaces, List.forall_mem_cons, Place.Has, lo, true_and] at family
  simp (disch := decide) only [writeStore, h.eq_command, family, if_false]

theorem writeOutput_eq_keepValue (lo : 0x7000 ≤ key / 256) : writeOutput key v data ok s = keepValue key v s := by
  have family := h.family
  simp only [commandPlaces, List.forall_mem_cons, Place.Has, lo, true_and] at family
  simp (disch := decide) only [writeOutput, h.eq_command, h.passive_ne, family, if_false]

theorem writeEffect_eq_keepValue : writeEffect src key data ok s = keepValue key (leNat data) s := by
  unfold writeEffect
  dsimp only
  split
  · exact writeManagement_eq_keepValue h ..
  split
  · exact writeLink_eq_keepValue h _ _ (by omega)
  split
  · exact writeRoutes_eq_keepValue h ..
  split
  · exact writeStore_eq_keepValue h _ _ _ _ (by omega)
  · exact writeOutput_eq_keepValue h _ _ _ _ (by omega)

theorem needsOutcome_of_onlyKept : needsOutcome key = false := by
  have units := h.family ⟨0x5000, 0x5030, 6⟩ (by simp [commandPlaces])
  have engines := h.family ⟨0x6100, 0x6110, 4⟩ (by simp [commandPlaces])
  have outputs := h.family ⟨0x7000, 0x7040, 6⟩ (by simp [commandPlaces])
  simpa (disch := decide) [needsOutcome, h.eq_command, and_assoc, Place.Has] using And.intro units (And.intro engines outputs)

theorem ownLength_of_onlyKept : ownLength key = false := by
  simp (disch := decide) [ownLength, h.eq_command]

end

/-- A length other than the entry's fixed one has a status of its own (R463, R472). -/
theorem lengthCode_ne {e : Entry} {key n : Nat} (own : ownLength key = false) (fixed : e.varying = false) (h : n ≠ e.size) :
    lengthCode e key n = stLength ∨ lengthCode e key n = stTooLong := by
  simp only [lengthCode, own, fixed, h, if_false, Bool.false_eq_true]
  split
  · exact .inr rfl
  · exact .inl rfl

theorem lengthCode_size {e : Entry} {key : Nat} (own : ownLength key = false) (fixed : e.varying = false) :
    lengthCode e key e.size = stDone := by
  simp [lengthCode, own, fixed]

/-- A write that the gate lets through of an entry that only keeps: the length is checked, then the value. -/
theorem writeEntry_of_onlyKept {key : Nat} {e : Entry} {src : Src} {data : List Nat} (h : OnlyKept key) (he : keyEntry key = some e)
    (hs : key % 256 ≠ 0) (ok : Bool) (s : State) (hg : gate src key (commitWrite key (leNat data)) s = stDone) :
    writeEntry src key data ok s =
      if lengthCode e key data.length ≠ stDone then (s, lengthCode e key data.length) else keepValue key (leNat data) s := by
  have window : key ≠ Reg.svcWindowData := h.single _ (by decide)
  simp only [writeEntry, hs, he, window, hg, writeEffect_eq_keepValue h, ne_eq, not_true_eq_false, if_false]

/-- REGISTER_WRITE of such an entry draws no free value. -/
theorem exec_registerWrite_of_onlyKept {index sub : Nat} (t : Nat) (src : Src) {data : List Nat} (s : State)
    (hi : index < 2 ^ 16) (hs : sub < 256) (hd : ∀ b ∈ data, b < 256) (h : OnlyKept (ekey index sub)) :
    exec (.registerWrite t src index sub data) s =
      .next ((writeEntry src (ekey index sub) data true (s.begin t)).1.emit
        (.status src.who (writeEntry src (ekey index sub) data true (s.begin t)).2)) := by
  have bytes : data.map (· % 256) = data := (List.map_congr_left fun b hb => Nat.mod_eq_of_lt (hd b hb)).trans data.map_id'
  simp only [exec, execRegisterWrite, bytes, Nat.mod_eq_of_lt hi, Nat.mod_eq_of_lt hs, needsOutcome_of_onlyKept h]
  rfl

/-- Settles O20: a plain entry is no command entry, so its write comes to the length, the range and the value kept, with the
reserved bits cleared (R8 and log entry 44). -/
theorem plainRegisterWrite : Obligations.PlainRegisterWrite := by
  intro t src index sub data e s hi hs hs' hd he hr fixed ha hg
  have only := onlyKept_of_right he hr ha
  have own := ownLength_of_onlyKept only
  have nonzero : ekey index sub % 256 ≠ 0 := by unfold ekey; omega
  have run := exec_registerWrite_of_onlyKept t src s hi hs' hd only
  rw [writeEntry_of_onlyKept only he nonzero true _ hg] at run
  refine ⟨fun size inRange => ?_, fun size outOfRange => ?_, fun other => ?_⟩
  · rw [run, size, lengthCode_size own fixed]
    simp only [keepValue, inRange]
    rfl
  · rw [run, size, lengthCode_size own fixed]
    simp only [keepValue, outOfRange]
    rfl
  · have code := lengthCode_ne own fixed other
    have refused : lengthCode e (ekey index sub) data.length ≠ stDone := by
      obtain code | code := code <;> rw [code] <;> decide
    rw [if_pos refused] at run
    exact ⟨_, code, run⟩

end Sys2Proof.Proofs
end

section
/-! Input frames and their folios (R46, R53, R387 to R394), on a stream that no route takes. -/

namespace Sys2Proof.Proofs

open Machine Laws

/-! Streams and lanes written and read. A value that is no default is read back from any table, canonical or not. -/

/-- A write over a value that is no default leaves nothing of it. -/
theorem tset_tset {α : Type} [DecidableEq α] (d : Nat → α) (m : Tbl α) (k : Nat) {v : α} (w : α) (h : v ≠ d k) :
    tset d (tset d m k v) k w = tset d m k w := by
  induction m with
  | nil => simp [tset, h]
  | cons x r ih =>
    obtain ⟨j, a⟩ := x
    rcases Nat.lt_trichotomy k j with below | rfl | above
    · simp [tset, h, below]
    · simp [tset, h]
    · have later : ¬ k < j := by omega
      have other : k ≠ j := by omega
      simp only [tset, later, other, if_false, ih]

theorem ins_setIns {k : Nat} {v : InStream} (s : State) (h : v ≠ {}) : (s.setIns k v).ins k = v := tget_tset_set _ _ _ _ h

theorem ins_setIns_other {j k : Nat} (v : InStream) (s : State) (h : j ≠ k) : (s.setIns k v).ins j = s.ins j :=
  tget_tset_other _ _ _ _ _ h

theorem setIns_setIns {k : Nat} {v : InStream} (w : InStream) (s : State) (h : v ≠ {}) :
    (s.setIns k v).setIns k w = s.setIns k w :=
  congrArg (fun m => ({ s with str := { s.str with ins := m } } : State)) (tset_tset (fun _ => {}) s.str.ins k w h)

theorem link_modLink {n : Nat} {g : LinkLane → LinkLane} {s : State} (h : g (s.link n) ≠ {}) :
    (s.modLink n g).link n = g (s.link n) := tget_tset_set _ _ _ _ h

theorem link_modLink_other {j n : Nat} (g : LinkLane → LinkLane) (s : State) (h : j ≠ n) : (s.modLink n g).link j = s.link j :=
  tget_tset_other _ _ _ _ _ h

theorem setLink_setLink {n : Nat} {l : LinkLane} (m : LinkLane) (s : State) (h : l ≠ {}) :
    (s.setLink n l).setLink n m = s.setLink n m :=
  congrArg (fun r => ({ s with lnk := r } : State)) (tset_tset (fun _ => {}) s.lnk n m h)

theorem modLink_modLink {n : Nat} {g : LinkLane → LinkLane} (g' : LinkLane → LinkLane) {s : State} (h : g (s.link n) ≠ {}) :
    (s.modLink n g).modLink n g' = s.modLink n fun l => g' (g l) := by
  rw [State.modLink, link_modLink h]
  exact setLink_setLink _ s h

/-- A stream with a frame is no default. -/
theorem ne_default_of_frame {i : InStream} {f : Arrival} (h : i.frame = some f) : i ≠ {} := by
  rintro rfl
  cases h

/-- A link that is UP is no default. -/
theorem ne_default_of_up {l : LinkLane} (h : l.mode = .up) : l ≠ {} := by
  rintro rfl
  cases h

theorem modCounts_modCounts {n : Nat} (p q : LinkCounts → LinkCounts) {s : State} (up : (s.link n).mode = .up) :
    (s.modCounts n p).modCounts n q = s.modCounts n fun c => q (p c) :=
  modLink_modLink _ (ne_default_of_up up)

/-! What routes do where there are none. -/

section
variable {s : State} (h : s.str.routes = [])
include h

theorem routeKeys_nil : s.routeKeys = [] := by simp [State.routeKeys, h]

theorem recheck_self : recheck s = s := by simp [recheck, routeKeys_nil h, State.each]

theorem passOuts_nil (k : Nat) : passOuts s k = [] := by simp [passOuts, passRoutes, routeKeys_nil h]

theorem forwardCheck_self (k body reason : Nat) (payloads sent : List Nat) : forwardCheck k body reason payloads sent s = s := by
  simp [forwardCheck, passRoutes, routeKeys_nil h, State.each]

theorem streamsFed_self (k : Nat) : streamsFed k s = s := by simp [streamsFed, routeKeys_nil h, State.each]

theorem winFeeds_nil (k : Nat) : winFeeds s k = [] := by simp [winFeeds, routeKeys_nil h]

end

/-! A folio on a link that is UP, outside any bond. -/

/-- The state with a valid header counted on a lane in service (R379). -/
def headed (lane : Nat) (s : State) : State := s.modLink lane fun l => { l with bad := l.bad * 2 % 2 ^ 128 }

section
variable {lane : Nat} {s : State}

theorem received_of_up (up : (s.link lane).mode = .up) (op : State → State) : received lane op s = op (headed lane s) := by
  simp [received, goodHeader, headed, State.modLink, linkHears, up]

theorem link_headed_other {n : Nat} (other : n ≠ lane) : (headed lane s).link n = s.link n := link_modLink_other _ s other

/-- Counting a header leaves the rest of every lane's link as it was. -/
theorem link_headed_field {β : Type} (field : LinkLane → β) (same : ∀ l b, field { l with bad := b } = field l)
    (up : (s.link lane).mode = .up) (j : Nat) : field ((headed lane s).link j) = field (s.link j) := by
  by_cases at_ : j = lane
  · rw [at_, headed, link_modLink (ne_default_of_up up)]
    exact same _ _
  · rw [link_headed_other at_]

theorem calLane_self (alone : s.bondOf lane = none) : s.calLane lane = lane := by simp [State.calLane, alone]

theorem countHeldData_self (noHold : (s.lane lane).holdReason = 0) : countHeldData lane s = s := by
  simp [countHeldData, noHold]

theorem slotFlow_headed (alone : s.bondOf lane = none) (up : (s.link lane).mode = .up) (slot : Nat) :
    slotFlow (headed lane s) lane slot = slotFlow s lane slot := by
  have cal : ((headed lane s).link lane).rxCal = (s.link lane).rxCal :=
    link_headed_field (lane := lane) (s := s) LinkLane.rxCal (fun _ _ => rfl) up lane
  have alone' : (headed lane s).bondOf lane = none := alone
  simp only [slotFlow, State.entries, State.calLane, alone, alone', cal, Bool.false_eq_true, if_false]

theorem streamAuth_headed (up : (s.link lane).mode = .up) (k : Nat) : (headed lane s).streamAuth k = s.streamAuth k := by
  have auth := link_headed_field (lane := lane) (s := s) LinkLane.authenticated (fun _ _ => rfl) up (s.calLane (dLane (s.ins k).desc))
  exact congrArg (fun b => (s.ins k).mode != .absent && (s.ins k).mode != .gone && b) auth

theorem tagSession_headed (up : (s.link lane).mode = .up) (n : Nat) : (headed lane s).tagSession n = s.tagSession n := by
  have session := link_headed_field (lane := lane) (s := s) LinkLane.session (fun _ _ => rfl) up (s.calLane n)
  exact congrArg (fun o : Option TagSession => match o with
    | some x => if x.root = [] then none else some x
    | none => none) session

theorem tagValid_headed (up : (s.link lane).mode = .up) (n body : Nat) (v : Untagged) :
    tagValid (headed lane s) n body v = tagValid s n body v := by
  simp only [tagValid, tagSession_headed up]

theorem sessionC0_headed (up : (s.link lane).mode = .up) (n : Nat) : sessionC0 (headed lane s) n = sessionC0 s n := by
  simp only [sessionC0, tagSession_headed up]
  rfl

end

/-! A limited report (R510), and an update of the streams after a raise. -/

theorem raises_raiseLimited_of_due {period id : Nat} {s : State} (items : List Nat) (h : reportDue period id s.dt s) :
    Raises [id] s (s.raiseLimited period id items) := by
  cases last : (tget (fun _ => {}) s.evt.limits id : Limit).last with
  | none =>
    simp only [State.raiseLimited, last, if_true]
    exact (raises_raise _ _ _).after ⟨rfl, fun _ _ => rfl⟩ rfl
  | some x =>
    simp only [State.raiseLimited, last, decide_eq_true (h x last), if_true]
    exact (raises_raise _ _ _).after ⟨rfl, fun _ _ => rfl⟩ rfl

theorem raises_raiseLimited_of_not_due {period id : Nat} {s : State} (items : List Nat) (h : ¬ reportDue period id s.dt s) :
    Raises [] s (s.raiseLimited period id items) := by
  obtain ⟨x, last, early⟩ : ∃ x, (tget (fun _ => {}) s.evt.limits id : Limit).last = some x ∧ ¬ x + period ≤ s.dt := by
    simpa [reportDue] using h
  simp only [State.raiseLimited, last, early, decide_false, Bool.false_eq_true, if_false]
  exact raises_quiet ⟨rfl, fun _ _ => rfl⟩ rfl

theorem raises_setIns {ids : List Nat} {a b : State} (h : Raises ids a b) (k : Nat) (v : InStream) :
    Raises ids (a.setIns k v) (b.setIns k v) := by
  refine ⟨h.latched, h.only, h.safe, h.count, h.words, ?_, h.regs⟩
  have e := h.rest
  generalize hx : b.evt = x at *
  unfold State.setIns
  rw [e]

/-! Lines (R387, R391). -/

/-- A frame on which only its stream waits: no buffer of the store and no window takes its lines. -/
structure Unstored (f : Arrival) : Prop where
  buf : f.buf = none
  wins : f.wins = []

/-- The frame with samples for its line under way. -/
def lineJoined (f : Arrival) (samples : List Nat) : Arrival :=
  { f with lines := f.lines ++ [samples], line := f.line + 1, payloads := [] }

/-- The frame with its line under way concealed from the frame before (R46). -/
def lineConcealed (i : InStream) (f : Arrival) : Arrival :=
  { lineJoined f (concealLine i 0 f.line) with bad := f.bad ++ [f.line] }

section
variable {s : State} {k : Nat} {f : Arrival} (arriving : (s.ins k).frame = some f)
include arriving

theorem modFrame_of_frame (g : Arrival → Arrival) : s.modFrame k g = s.setIns k { s.ins k with frame := some (g f) } := by
  simp [State.modFrame, State.modIns, arriving]

theorem linesMissed_self (lane : Nat) {n : Nat} (upto : Nat) (h : n ≤ f.line) : linesMissed lane k n upto s = s := by
  simp [linesMissed, arriving, h]

theorem storeArrived_self (unstored : Unstored f) (done : Nat) : storeArrived k done s = s := by
  simp [storeArrived, arriving, unstored.buf, unstored.wins, State.each]

/-- A line of a stream that is not compressed, in the first field of a frame that nothing stores. -/
theorem lineDone_plain (unstored : Unstored f) (first : f.second = false) (unlost : f.lost = false)
    (plain : dCompressed (s.ins k).desc = false) (samples : Option (List Nat)) (coded : List Nat) :
    lineDone k samples coded s = s.setIns k { s.ins k with
      frame := some (samples.elim (lineConcealed (s.ins k) f) (lineJoined f)) } := by
  have stays (i : InStream) (g : Arrival) (hg : Unstored g) :
      storeArrived k f.line (s.setIns k { i with frame := some g }) = s.setIns k { i with frame := some g } :=
    storeArrived_self (by rw [ins_setIns s (ne_default_of_frame rfl)]) hg _
  simp only [lineDone, arriving, plain, first, Bool.false_eq_true, if_false]
  rw [stays]
  · cases samples <;> simp [lineConcealed, lineJoined, first, unlost]
  · exact ⟨unstored.buf, unstored.wins⟩

end

/-- The frame with the samples of its line under way, as the folios bring them (R387). -/
def lineUnpacked (i : InStream) (f : Arrival) : Arrival :=
  lineJoined f (unpackLine (dWidth i.desc) (dChroma i.desc) (dDepth i.desc) f.payloads)

/-- The body of a LINE_CHECK or POISON ends the line under way of frame f, the one that stream k of a flow of the lane receives:
a progressive stream, neither compressed nor stored, of which no folio was lost. -/
structure EndsLine (lane body k : Nat) (f : Arrival) (s : State) : Prop where
  routes : s.str.routes = []
  flow : flowStream s lane (fld body 119 111) = some k
  opened : intakeOpen s k = true
  frame : (s.ins k).frame = some f
  noField : (s.ins k).secondNext = false
  plain : dCompressed (s.ins k).desc = false
  progressive : dInterlaced (s.ins k).desc = false
  unstored : Unstored f
  first : f.second = false
  unlost : f.lost = false
  unbroken : f.broken = false
  line : fld body 110 97 = f.line
  number : fld body 94 79 = f.number
  inside : f.line < dHeight (s.ins k).desc

namespace EndsLine

variable {lane body k : Nat} {f : Arrival} {s : State} (h : EndsLine lane body k f s)
include h

/-- What ends a line does not turn on the lane's link. -/
theorem setLink (n : Nat) (l : LinkLane) : EndsLine lane body k f (s.setLink n l) :=
  ⟨h.routes, h.flow, h.opened, h.frame, h.noField, h.plain, h.progressive, h.unstored, h.first, h.unlost, h.unbroken, h.line,
    h.number, h.inside⟩

theorem height : fieldHeight (s.ins k).desc = dHeight (s.ins k).desc := by simp [fieldHeight, h.progressive]

theorem lineField_self : lineField k body s = s := by
  simp [lineField, h.noField, h.frame, h.number]

/-- The frame takes its number from the check, which is the number it has. -/
theorem numbered : s.modFrame k (fun f => { f with number := fld body 94 79 }) = s.setIns k (s.ins k) := by
  rw [modFrame_of_frame h.frame, h.number]
  exact congrArg (s.setIns k) (congrArg (fun o => { s.ins k with frame := o }) h.frame.symm)

theorem ins_same : (s.setIns k (s.ins k)).ins k = s.ins k := ins_setIns s (ne_default_of_frame h.frame)

/-- A line is good, and its samples join the frame, where every folio of it came, the CRC is right and no POISON came in the place
of its check; else it fails (R46, R391). -/
theorem lineChecked_eq (poison : Option Nat) : lineChecked lane k body poison f s =
    if f.payloads.length = streamLineFolios (s.ins k) ∧ fld body 78 63 = crc16Line f.payloads ∧ poison = none then
      lineDone k (some (unpackLine (dWidth (s.ins k).desc) (dChroma (s.ins k).desc) (dDepth (s.ins k).desc) f.payloads))
        (f.payloads.flatMap (leBytes 16)) (s.setIns k (s.ins k))
    else lineDone k none [] (lineFailed lane k (poison.getD (if f.payloads.length = streamLineFolios (s.ins k) then 1 else 4))
      (s.setIns k (s.ins k))) := by
  have frame : ((s.setIns k (s.ins k)).ins k).frame = some f := h.ins_same.symm ▸ h.frame
  have routes : (s.setIns k (s.ins k)).str.routes = [] := h.routes
  have inside : f.line < fieldHeight (s.ins k).desc := h.height.symm ▸ h.inside
  simp only [lineChecked, h.numbered, h.ins_same, h.line, h.unlost, linesMissed_self frame _ _ (Nat.min_le_left ..),
    forwardCheck_self routes, State.whenever, inside, Nat.lt_irrefl, Nat.le_refl, Nat.sub_self, Nat.zero_add, Nat.one_mul]
  simp only [Bool.and_eq_true, decide_eq_true_eq, beq_iff_eq, Option.isNone_iff_eq_none, true_and, and_self, and_true, and_assoc,
    Bool.not_false, if_false, if_true]
  split <;> rfl

theorem endLine_eq (poison : Option Nat) :
    endLine lane body poison s = (lineChecked lane k body poison f s).whenever (bit body 95) (fieldDone k) := by
  simp [endLine, h.flow, h.opened, h.lineField_self, h.frame]

theorem lineEnds_eq (poison : Option Nat) (routes : (endLine lane body poison s).str.routes = []) :
    lineEnds lane body poison s = endLine lane body poison s := by
  simp [lineEnds, h.flow, streamsFed_self routes]

/-- A good LINE_CHECK adds the samples of its line to the frame (R387, R391). -/
theorem lineChecked_of_good (length : f.payloads.length = streamLineFolios (s.ins k)) (crc : fld body 78 63 = crc16Line f.payloads) :
    lineChecked lane k body none f s = s.setIns k { s.ins k with frame := some (lineUnpacked (s.ins k) f) } := by
  have frame : ((s.setIns k (s.ins k)).ins k).frame = some f := h.ins_same.symm ▸ h.frame
  rw [h.lineChecked_eq, if_pos ⟨length, crc, rfl⟩,
    lineDone_plain frame h.unstored h.first h.unlost (h.ins_same.symm ▸ h.plain), h.ins_same,
    setIns_setIns _ _ (ne_default_of_frame h.frame)]
  rfl

end EndsLine

theorem EndsLine.lineEnds_of_good {lane body k : Nat} {f : Arrival} {s : State} (h : EndsLine lane body k f s)
    (length : f.payloads.length = streamLineFolios (s.ins k)) (crc : fld body 78 63 = crc16Line f.payloads)
    (notLast : bit body 95 = false) :
    lineEnds lane body none s = s.setIns k { s.ins k with frame := some (lineUnpacked (s.ins k) f) } := by
  have ends := h.endLine_eq none
  rw [notLast, State.whenever, if_neg Bool.false_ne_true, h.lineChecked_of_good length crc] at ends
  rw [h.lineEnds_eq none (by rw [ends]; exact h.routes), ends]

/-! A line that fails is concealed, counted and reported (R46, R391). -/

/-- The stream with the line under way of its frame concealed. -/
def concealed (i : InStream) (f : Arrival) : InStream :=
  { i with lineFail := i.lineFail + 1, frame := some (lineConcealed i f) }

/-- A line that fails is counted on its lane too (R425). -/
def failCounted (c : LinkCounts) : LinkCounts := { c with lineFails := c.lineFails + 1 }

/-- A POISON is counted on its lane (R425). -/
def poisonCounted (c : LinkCounts) : LinkCounts := { c with poisonsRx := c.poisonsRx + 1 }

/-- What a failed line leaves beside its report: `a` is the state with the line concealed and counted. -/
structure FailReported (lane : Nat) (a u : State) : Prop where
  due : reportDue sec (Ev.lineCheckFailed lane) a.dt a → Raises [Ev.lineCheckFailed lane] a u
  notDue : ¬ reportDue sec (Ev.lineCheckFailed lane) a.dt a → Raises [] a u

theorem FailReported.raised {lane : Nat} {a u : State} (h : FailReported lane a u) : Raised a u := by
  by_cases due : reportDue sec (Ev.lineCheckFailed lane) a.dt a
  · exact (h.due due).raised
  · exact (h.notDue due).raised

theorem failReported_raiseLimited (lane k : Nat) (v : InStream) (items : List Nat) (s : State) :
    FailReported lane (s.setIns k v) ((s.raiseLimited sec (Ev.lineCheckFailed lane) items).setIns k v) where
  due h := raises_setIns (raises_raiseLimited_of_due (s := s) items h) k v
  notDue h := raises_setIns (raises_raiseLimited_of_not_due (s := s) items h) k v

/-- The state with a failed line counted on its stream and its lane, before the report. -/
def failNoted (lane k : Nat) (s : State) : State :=
  (s.modIns k fun i => { i with lineFail := i.lineFail + 1 }).modCounts lane failCounted

theorem lineFailed_eq (lane k reason : Nat) (s : State) :
    lineFailed lane k reason s = (failNoted lane k s).raiseLimited sec (Ev.lineCheckFailed lane) [reason] := rfl

section
variable {k : Nat} {f : Arrival} {s : State} (frame : (s.ins k).frame = some f)
include frame

theorem ins_failNoted (lane : Nat) : (failNoted lane k s).ins k = { s.ins k with lineFail := (s.ins k).lineFail + 1 } :=
  ins_setIns s (ne_default_of_frame frame)

theorem setIns_failNoted (lane : Nat) (v : InStream) :
    (failNoted lane k s).setIns k v = (s.setIns k v).modCounts lane failCounted :=
  congrArg (State.modCounts · lane failCounted)
    (setIns_setIns (v := { s.ins k with lineFail := (s.ins k).lineFail + 1 }) v s (ne_default_of_frame frame))

theorem failReported_concealed (lane : Nat) (unstored : Unstored f) (first : f.second = false) (unlost : f.lost = false)
    (plain : dCompressed (s.ins k).desc = false) (reason : Nat) :
    FailReported lane ((s.setIns k (concealed (s.ins k) f)).modCounts lane failCounted)
      (lineDone k none [] (lineFailed lane k reason s)) := by
  have ins : (lineFailed lane k reason s).ins k = { s.ins k with lineFail := (s.ins k).lineFail + 1 } := by
    rw [lineFailed_eq, State.ins, raiseLimited_str]
    exact ins_failNoted frame lane
  rw [lineDone_plain (by rw [ins, frame]) unstored first unlost (by rw [ins]; exact plain), ins,
    ← setIns_failNoted frame, lineFailed_eq]
  exact failReported_raiseLimited lane k _ _ _

end

theorem EndsLine.failReported {lane body k : Nat} {f : Arrival} {s : State} (h : EndsLine lane body k f s) {poison : Option Nat}
    (bad : ¬ (f.payloads.length = streamLineFolios (s.ins k) ∧ fld body 78 63 = crc16Line f.payloads ∧ poison = none))
    (notLast : bit body 95 = false) :
    FailReported lane ((s.setIns k (concealed (s.ins k) f)).modCounts lane failCounted) (lineEnds lane body poison s) := by
  have frame : ((s.setIns k (s.ins k)).ins k).frame = some f := h.ins_same.symm ▸ h.frame
  have report := failReported_concealed frame lane h.unstored h.first h.unlost (h.ins_same.symm ▸ h.plain)
    (poison.getD (if f.payloads.length = streamLineFolios (s.ins k) then 1 else 4))
  rw [h.ins_same, setIns_setIns _ _ (ne_default_of_frame h.frame)] at report
  have ends := h.endLine_eq poison
  rw [notLast, State.whenever, if_neg Bool.false_ne_true, h.lineChecked_eq, if_neg bad] at ends
  rw [h.lineEnds_eq poison, ends]
  · exact report
  · rw [ends, report.raised.str]
    exact h.routes

/-- A POISON fails its line, whatever its folios brought. -/
theorem EndsLine.failReported_poison {lane body k : Nat} {f : Arrival} {s : State} (h : EndsLine lane body k f s)
    (up : (s.link lane).mode = .up) (reason : Nat) (notLast : bit body 95 = false) :
    FailReported lane ((s.setIns k (concealed (s.ins k) f)).modCounts lane fun c => failCounted (poisonCounted c))
      (lineEnds lane body (some reason) (s.modCounts lane poisonCounted)) := by
  have counted : EndsLine lane body k f (s.modCounts lane poisonCounted) := h.setLink lane _
  rw [← modCounts_modCounts poisonCounted failCounted (s := s.setIns k _) up]
  exact counted.failReported (fun good => nomatch good.2.2) notLast

/-! The last line (R52, R53). -/

theorem rotate_eq (k : Nat) (s : State) : ∃ fs, rotate k s = { s with fs := fs } := by
  unfold rotate State.each
  generalize List.filter _ _ = frames
  induction frames generalizing s with
  | nil => exact ⟨s.fs, rfl⟩
  | cons b r ih => exact ih (bufFree b s)

/-- The stream with frame f complete, of a stream that joins or resumes. -/
def completed (i : InStream) (f : Arrival) (sigs : List (Nat × Nat)) : InStream :=
  { i with
    mode := .live, frame := none, secondNext := false, frames := i.frames + 1, last := f.lines, lastBad := f.bad
    signature := Config.inputSignature f.lines % 2 ^ 32, sigs := sigs, untagged := some ⟨f.number, f.sent, []⟩ }

theorem frameComplete_of_joining {k : Nat} {f : Arrival} {s : State} (routes : s.str.routes = []) (frame : (s.ins k).frame = some f)
    (unstored : Unstored f) (joins : (s.ins k).mode = .announced ∨ (s.ins k).mode = .stalled) :
    frameComplete k s = strChanged (rotate k (s.setIns k (completed (s.ins k) f (tileSignatures s k f.lines)))) := by
  obtain ⟨fs, rotated⟩ := rotate_eq k (s.setIns k (completed (s.ins k) f (tileSignatures s k f.lines)))
  have still : recheck (strChanged (rotate k (s.setIns k (completed (s.ins k) f (tileSignatures s k f.lines))))) = _ :=
    recheck_self (by rw [rotated]; exact routes)
  rw [← still]
  obtain mode | mode := joins <;>
    simp only [frameComplete, frame, unstored.buf, unstored.wins, mode] <;> rfl

theorem fieldDone_of_last {k : Nat} {f : Arrival} {s : State} (frame : (s.ins k).frame = some f)
    (progressive : dInterlaced (s.ins k).desc = false) (unbroken : f.broken = false) (last : f.line = dHeight (s.ins k).desc) :
    fieldDone k s = frameComplete k s := by
  simp [fieldDone, fieldHeight, frame, progressive, unbroken, last]

theorem completed_ne_default (i : InStream) (f : Arrival) (sigs : List (Nat × Nat)) : completed i f sigs ≠ {} := by
  intro h
  cases congrArg InStream.mode h

theorem ins_rotate (k j : Nat) (s : State) : (rotate k s).ins j = s.ins j := by
  obtain ⟨fs, rotated⟩ := rotate_eq k s
  rw [rotated]
  rfl

theorem reg_rotate (k j : Nat) (s : State) : (rotate k s).reg j = s.reg j := by
  obtain ⟨fs, rotated⟩ := rotate_eq k s
  rw [rotated]
  rfl

theorem ins_strChanged (j : Nat) (s : State) : (strChanged s).ins j = s.ins j := rfl

theorem reg_strChanged (s : State) : (strChanged s).reg Reg.strChangeSeq = s.reg Reg.strChangeSeq + 1 := by
  refine tget_tset_set _ _ _ _ ?_
  rw [show entryDefault Reg.strChangeSeq = 0 from by decide]
  exact Nat.succ_ne_zero _

/-- The last line of a frame that came whole completes it. -/
theorem EndsLine.lineEnds_of_last {lane body k : Nat} {f : Arrival} {s : State} (h : EndsLine lane body k f s)
    (length : f.payloads.length = streamLineFolios (s.ins k)) (crc : fld body 78 63 = crc16Line f.payloads)
    (isLast : bit body 95 = true) (whole : f.line + 1 = dHeight (s.ins k).desc)
    (joins : (s.ins k).mode = .announced ∨ (s.ins k).mode = .stalled) :
    ∃ sigs, lineEnds lane body none s =
      strChanged (rotate k (s.setIns k (completed (s.ins k) (lineUnpacked (s.ins k) f) sigs))) := by
  have added : { s.ins k with frame := some (lineUnpacked (s.ins k) f) } ≠ ({} : InStream) := ne_default_of_frame rfl
  have ins := ins_setIns (k := k) s added
  have frame := congrArg InStream.frame ins
  have ends := h.endLine_eq none
  rw [isLast, State.whenever, if_pos rfl, h.lineChecked_of_good length crc,
    fieldDone_of_last frame (ins.symm ▸ h.progressive) h.unbroken (ins.symm ▸ whole),
    frameComplete_of_joining (s := s.setIns k _) h.routes frame ⟨h.unstored.buf, h.unstored.wins⟩ (ins.symm ▸ joins), ins,
    setIns_setIns _ _ added] at ends
  refine ⟨_, (h.lineEnds_eq none ?_).trans ends⟩
  obtain ⟨fs, rotated⟩ := rotate_eq k (s.setIns k _)
  rw [ends, rotated]
  exact h.routes

/-- The frame counts on its stream alone, and STR_CHANGE_SEQ tells that the stream is LIVE (R52). -/
theorem EndsLine.last_completes {lane body k : Nat} {f : Arrival} {s : State} (h : EndsLine lane body k f s)
    (length : f.payloads.length = streamLineFolios (s.ins k)) (crc : fld body 78 63 = crc16Line f.payloads)
    (isLast : bit body 95 = true) (whole : f.line + 1 = dHeight (s.ins k).desc)
    (joins : (s.ins k).mode = .announced ∨ (s.ins k).mode = .stalled) :
    (∃ sigs, (lineEnds lane body none s).ins k = completed (s.ins k) (lineUnpacked (s.ins k) f) sigs) ∧
      (∀ j, j ≠ k → (lineEnds lane body none s).ins j = s.ins j) ∧
      (lineEnds lane body none s).reg Reg.strChangeSeq = s.reg Reg.strChangeSeq + 1 := by
  obtain ⟨sigs, done⟩ := h.lineEnds_of_last length crc isLast whole joins
  rw [done, reg_strChanged, reg_rotate]
  refine ⟨⟨sigs, ?_⟩, fun j other => ?_, rfl⟩
  · rw [ins_strChanged, ins_rotate, ins_setIns s (completed_ne_default _ _ _)]
  · rw [ins_strChanged, ins_rotate, ins_setIns_other _ s other]

/-! Frame starts (R53, R388). -/

section
variable {k : Nat} {s : State} (opened : intakeOpen s k = true) (media : dMedia (s.ins k).desc ≠ 1)
include opened media

/-- The first folio of a frame, on a stream that no buffer, window or missing tag holds. -/
theorem frameStart_opens (begins : intakeBegins s k = true) (noFrame : (s.ins k).frame = none)
    (noTag : (s.ins k).untagged = none) (noPool : s.streamPool k = none) (routes : s.str.routes = []) :
    frameStart k s = s.setIns k { s.ins k with
      frame := some { start := s.dt }, secondNext := false, prevStart := (s.ins k).lastStart, lastStart := s.dt
      lastSecond := 0, period := if (s.ins k).lastStart = 0 then 0 else s.dt - (s.ins k).lastStart } := by
  have noPool' (v : InStream) : (s.setIns k v).streamPool k = none := noPool
  have noFeeds (v : InStream) : winFeeds (s.setIns k v) k = [] := winFeeds_nil (s := s.setIns k v) routes k
  simp [frameStart, opened, media, noFrame, nextFrame, begins, State.whenever, openFrame, noTag, noPool', noFeeds, State.each]

/-- The first folio of the second field. -/
theorem frameStart_second {f : Arrival} (frame : (s.ins k).frame = some f) (second : (s.ins k).secondNext = true)
    (unstored : Unstored f) :
    frameStart k s = s.setIns k { s.ins k with
      lastSecond := s.dt, secondNext := false
      frame := some { f with second := true, line := 0, payloads := [], coded := [], lost := false } } := by
  simp [frameStart, opened, media, frame, second, unstored.buf, unstored.wins, State.each]

end

/-- A data folio joins the line under way of its flow's stream (R387). -/
theorem dataFolioOp_joins {lane k : Nat} {s : State} {slot flow : Nat} (data : slot ≠ 0)
    (slotted : slotFlow s lane slot = some flow) (stream : flowStream s lane flow = some k) {f : Arrival}
    (frame : (s.ins k).frame = some f) (noField : (s.ins k).secondNext = false) (payload : Nat) :
    dataFolioOp lane slot payload s = s.modFrame k fun f =>
      { f with payloads := f.payloads ++ [payload % 2 ^ 128], sent := f.sent ++ [payload % 2 ^ 128] } := by
  simp [dataFolioOp, data, slotted, stream, frame, noField]

/-! Tags (R77, R78, R394) and audio (R393). -/

/-- The stream with a right tag of its newest frame. -/
def verified (i : InStream) (c0 : Bool) : InStream :=
  { i with tagState := if c0 then 1 else 3, lapsed := false, bare := false, untagged := none }

theorem verified_ne_default (i : InStream) (c0 : Bool) : verified i c0 ≠ {} := by
  intro h
  have tag : (verified i c0).tagState = 0 := by rw [h]
  cases c0 <;> cases tag

theorem link_moveEpoch_other {lane n : Nat} {s : State} (alone : s.bondOf lane = none) (epoch : Nat) (other : n ≠ lane) :
    (moveEpoch lane epoch s).link n = s.link n :=
  link_modLink_other _ s (by rwa [calLane_self alone])

section
variable {s : State} (routes : s.str.routes = [])
include routes

theorem tagFailed_eq (k : Nat) : tagFailed k [] s =
    s.setIns k { s.ins k with tagFail := (s.ins k).tagFail + 1, tagState := 2, untagged := none } :=
  recheck_self (s := s.modIns k fun i => { i with tagFail := i.tagFail + 1, tagState := 2, untagged := none }) routes

theorem tagPassed_eq (k : Nat) (c0 : Bool) : tagPassed k c0 [] s = s.setIns k (verified (s.ins k) c0) :=
  recheck_self (s := s.modIns k fun i => verified i c0) routes

/-- A TAG of a frame that no buffer holds (R394, R529). -/
theorem tagFolioOp_eq {lane body k : Nat} {v : Untagged} (awaited : (s.ins k).untagged = some v) (unstored : v.bufs = [])
    (flow : flowStream s lane (fld body 119 111) = some k) :
    tagFolioOp lane body s =
      if s.streamAuth k = false then s
      else if tagValid s lane body v then
        (moveEpoch lane (fld body 94 87) s).setIns k (verified (s.ins k) (sessionC0 s lane))
      else s.setIns k { s.ins k with tagFail := (s.ins k).tagFail + 1, tagState := 2, untagged := none } := by
  have passed := tagPassed_eq (s := moveEpoch lane (fld body 94 87) s) routes k (sessionC0 s lane)
  simp only [tagFolioOp, flow, awaited, unstored, tagFailed_eq routes, passed, Bool.not_eq_true']
  rfl

/-- The session and its authentication are read as before the header was counted. -/
theorem tagFolioOp_headed {lane body k : Nat} {v : Untagged} (up : (s.link lane).mode = .up)
    (awaited : (s.ins k).untagged = some v) (unstored : v.bufs = []) (flow : flowStream s lane (fld body 119 111) = some k) :
    tagFolioOp lane body (headed lane s) =
      if s.streamAuth k = false then headed lane s
      else if tagValid s lane body v then
        (moveEpoch lane (fld body 94 87) (headed lane s)).setIns k (verified (s.ins k) (sessionC0 s lane))
      else (headed lane s).setIns k { s.ins k with tagFail := (s.ins k).tagFail + 1, tagState := 2, untagged := none } := by
  rw [← streamAuth_headed up, ← tagValid_headed up, ← sessionC0_headed up]
  exact tagFolioOp_eq (s := headed lane s) routes awaited unstored flow

theorem audioFolioOp_eq {lane body k : Nat} (flow : flowStream s lane (fld body 119 111) = some k)
    (unbound : oget s.aud.bind k = none) :
    audioFolioOp lane body s = s.setIns k { s.ins k with audioSeq := some ((fld body 102 96 + 1) % 128) } := by
  have noGap (v : InStream) : audioGap k (s.setIns k v) = s.setIns k v := by simp [audioGap, unbound]
  have noOuts (v : InStream) : passOuts (s.setIns k v) k = [] := passOuts_nil (s := s.setIns k v) routes k
  simp only [audioFolioOp, flow, State.modIns, noGap, ite_self, noOuts]
  rfl

end

/-! The commands. `headed lane (s.begin t)` is the state with the folio's header counted. -/

section
variable {lane k : Nat} {s : State} (t : Nat) (up : (s.link lane).mode = .up)
include up

theorem exec_lineCheckFolio_of_up (body : Nat) :
    exec (.lineCheckFolio t lane body) s = .next (lineEnds lane body none (headed lane (s.begin t))) :=
  congrArg Host.Outcome.next (received_of_up (s := s.begin t) up _)

theorem exec_poisonFolio_of_up (body : Nat) :
    exec (.poisonFolio t lane body) s = .next (lineEnds lane body (some (fld body 78 75))
      ((headed lane (s.begin t)).modCounts lane poisonCounted)) :=
  congrArg Host.Outcome.next (received_of_up (s := s.begin t) up _)

theorem exec_tagFolio_of_up (body : Nat) :
    exec (.tagFolio t lane body) s = .next (tagFolioOp lane body (headed lane (s.begin t))) :=
  congrArg Host.Outcome.next (received_of_up (s := s.begin t) up _)

theorem exec_audioFolio_of_up (body : Nat) :
    exec (.audioFolio t lane body) s = .next (audioFolioOp lane body (headed lane (s.begin t))) :=
  congrArg Host.Outcome.next (received_of_up (s := s.begin t) up _)

theorem exec_dataFolio_of_up (noHold : (s.lane lane).holdReason = 0) (slot payload : Nat) :
    exec (.dataFolio t lane slot payload) s = .next (dataFolioOp lane slot payload (headed lane (s.begin t))) :=
  congrArg Host.Outcome.next
    ((congrArg (received lane _) (countHeldData_self (s := s.begin t) noHold)).trans (received_of_up (s := s.begin t) up _))

end

/-- Settles O36: each folio comes to one operation on a stream that no route, buffer or window looks at, with the header counted
first; a line that fails is its concealment, a report of the limit and nothing else. -/
theorem framesArrive : Obligations.FramesArrive := by
  intro t lane s k alone up routes noPool noHold i z
  refine ⟨fun opened begins media noFrame noTag => ?_, fun f opened media frame second buf wins => ?_,
    fun f slot flow payload frame noField data slotted stream => ?_, ?_, fun body v awaited unstored flow => ?_,
    fun body flow unbound => ?_⟩
  · exact congrArg Host.Outcome.next (frameStart_opens (s := s.begin t) opened media begins noFrame noTag noPool routes)
  · exact congrArg Host.Outcome.next (frameStart_second (s := s.begin t) opened media frame second ⟨buf, wins⟩)
  · rw [exec_dataFolio_of_up t up noHold]
    exact congrArg Host.Outcome.next ((dataFolioOp_joins (s := z) data
      ((slotFlow_headed (s := s.begin t) alone up slot).trans slotted) stream frame noField payload).trans
      (modFrame_of_frame (s := z) frame _))
  · intro f body frame noField opened plain progressive buf wins first unlost unbroken flow line number inside samples
    have ends : EndsLine lane body k f z :=
      ⟨routes, flow, opened, frame, noField, plain, progressive, ⟨buf, wins⟩, first, unlost, unbroken, line, number, inside⟩
    refine ⟨fun length crc => ⟨fun notLast => ?_, fun isLast whole joins => ?_⟩, fun bad notLast => ?_, fun notLast => ?_⟩
    · rw [exec_lineCheckFolio_of_up t up]
      exact congrArg Host.Outcome.next (ends.lineEnds_of_good length crc notLast)
    · obtain ⟨⟨sigs, ins⟩, others, changed⟩ := ends.last_completes length crc isLast whole joins
      exact ⟨_, exec_lineCheckFolio_of_up t up body, congrArg InStream.mode ins, congrArg InStream.frame ins,
        congrArg InStream.frames ins, congrArg InStream.last ins, congrArg InStream.untagged ins, others, changed⟩
    · have report := ends.failReported (poison := none) (fun good => bad.elim (· good.1) (· good.2.1)) notLast
      exact ⟨_, exec_lineCheckFolio_of_up t up body, report.due, report.notDue⟩
    · have up' := (link_headed_field LinkLane.mode (fun _ _ => rfl) (s := s.begin t) up lane).trans up
      have report := ends.failReported_poison up' (fld body 78 75) notLast
      exact ⟨_, exec_poisonFolio_of_up t up body, report.due, report.notDue⟩
  · have run := tagFolioOp_headed (s := s.begin t) routes up awaited unstored flow
    rw [exec_tagFolio_of_up t up]
    refine ⟨fun off => ?_, fun on wrong => ?_, fun on right => ?_⟩
    · exact congrArg Host.Outcome.next (run.trans (if_pos off))
    · exact congrArg Host.Outcome.next
        (run.trans ((if_neg (ne_false_of_eq_true on)).trans (if_neg (ne_true_of_eq_false wrong))))
    · refine ⟨_, congrArg Host.Outcome.next (run.trans ((if_neg (ne_false_of_eq_true on)).trans (if_pos right))),
        ins_setIns _ (verified_ne_default i _), fun j other => ins_setIns_other _ (moveEpoch lane _ z) other, fun n other => ?_, rfl⟩
      exact (link_moveEpoch_other (s := z) alone _ other).trans (link_headed_other other)
  · rw [exec_audioFolio_of_up t up]
    exact congrArg Host.Outcome.next (audioFolioOp_eq (s := z) routes flow unbound)

end Sys2Proof.Proofs
end

section
/-! The orphan sequence of a route by time (R69, R72, R76). -/

namespace Sys2Proof.Proofs

open Machine Laws

/-! Routes written and read. A value that is no default is read back from any table, canonical or not. -/

theorem route_setRoute {r : Nat} {v : Route} (s : State) (h : v ≠ {}) : (s.setRoute r v).route r = v := tget_tset_set _ _ _ _ h

theorem route_setRoute_other {j r : Nat} (v : Route) (s : State) (h : j ≠ r) : (s.setRoute r v).route j = s.route j :=
  tget_tset_other _ _ _ _ _ h

theorem setRoute_setRoute {r : Nat} {v : Route} (w : Route) (s : State) (h : v ≠ {}) :
    (s.setRoute r v).setRoute r w = s.setRoute r w :=
  congrArg (fun m => ({ s with str := { s.str with routes := m } } : State)) (tset_tset (fun _ => {}) s.str.routes r w h)

/-- A route that is not EMPTY is no default. -/
theorem ne_default_of_mode {v : Route} (h : v.mode ≠ .empty) : v ≠ {} := by
  rintro rfl
  exact h rfl

/-! Whether a fallback is usable does not hang on the routes, nor on device time. -/

/-- The state at another device time, with other things sent and other routes. -/
def rerouted (dt : Nat) (out : List Output) (m : Tbl Route) (s : State) : State :=
  { s with dt := dt, out := out, str := { s.str with routes := m } }

section
variable (dt : Nat) (out : List Output) (m : Tbl Route) (s : State)

theorem outTables_rerouted : (rerouted dt out m s).outTables = s.outTables := rfl

theorem force_rerouted : (rerouted dt out m s).force = s.force := rfl

theorem deintOk_rerouted (r : Nat) : deintOk (rerouted dt out m s) r = deintOk s r := rfl

theorem ratioOk_rerouted (plan : Nat → OutQueued) (r : Nat) : ratioOk (rerouted dt out m s) plan r = ratioOk s plan r := rfl

theorem loadOk_rerouted (plan : Nat → OutQueued) (r setup : Nat) :
    loadOk (rerouted dt out m s) plan r setup = loadOk s plan r setup := by
  unfold loadOk
  rfl

theorem unitsFit_rerouted (r type src : Nat) : (rerouted dt out m s).unitsFit r type src = s.unitsFit r type src := by
  unfold State.unitsFit
  dsimp only
  rw [loadOk_rerouted, ratioOk_rerouted, deintOk_rerouted, outTables_rerouted, force_rerouted]

theorem misfit_rerouted (r type src k : Nat) : (rerouted dt out m s).misfit r type src k = s.misfit r type src k := by
  unfold State.misfit
  rw [unitsFit_rerouted]
  rfl

theorem streamReason_rerouted : (rerouted dt out m s).streamReason = s.streamReason := by
  funext r type src k
  unfold State.streamReason
  rw [misfit_rerouted]
  rfl

theorem srcReason_rerouted (r type src gen : Nat) :
    (rerouted dt out m s).srcReason r type src gen = s.srcReason r type src gen := by
  unfold State.srcReason
  rw [streamReason_rerouted]
  rfl

theorem fallbackUsable_rerouted (r : Nat) : (rerouted dt out m s).fallbackUsable r = s.fallbackUsable r := by
  unfold State.fallbackUsable
  rw [srcReason_rerouted]

end

theorem fallbackUsable_begin (t r : Nat) (s : State) : (s.begin t).fallbackUsable r = s.fallbackUsable r :=
  fallbackUsable_rerouted (max s.dt t) [] s.str.routes s r

theorem fallbackUsable_setRoute (n : Nat) (v : Route) (s : State) (r : Nat) :
    (s.setRoute n v).fallbackUsable r = s.fallbackUsable r :=
  fallbackUsable_rerouted s.dt s.out _ s r

/-! The end of a hold (R69, R72). -/

/-- The route r out of HOLD, with its reason. -/
def fallen (mode : RtMode) (r : Nat) (s : State) : State :=
  s.setRoute r { s.route r with mode := mode, since := s.dt, holdEnd := none }

section
variable {r : Nat} {s : State} (hold : (s.route r).mode = .hold) (noBufs : s.fs.bufs = [])
include hold noBufs

theorem rtEndHold_eq : rtEndHold r s = s.setRoute r { s.route r with holdEnd := none } := by
  simp [rtEndHold, hold, returnAll, noBufs, State.each, State.modRoute]

theorem rtMove_rtEndHold (mode : RtMode) : rtMove r mode (s.route r).reason (rtEndHold r s) = fallen mode r s := by
  have held : ({ s.route r with holdEnd := none } : Route) ≠ {} := ne_default_of_mode (by simp [hold])
  rw [rtEndHold_eq hold noBufs, rtMove, State.modRoute, route_setRoute s held, setRoute_setRoute _ s held]
  rfl

theorem fallbackUsable_rtEndHold (image : Nat) : (rtEndHold r s).fallbackUsable image = s.fallbackUsable image := by
  rw [rtEndHold_eq hold noBufs, fallbackUsable_setRoute]

/-- A hold that ends goes to the fallback, or where none is usable to COLOUR (R69, R74). -/
theorem rtFall_eq : rtFall r (s.route r).reason s =
    if s.fallbackUsable (s.route r).image then
      ((fallen .fallback r s).count Reg.rtFallbackTotal 1).raise Ev.routeFallback [r]
    else if rToLayer (s.route r).image then
      ((fallen .colour r s).raise Ev.routeFallback [r]).raise (Ev.noSource (rEngine (s.route r).image)) [r]
    else (fallen .colour r s).raise Ev.routeFallback [r] := by
  simp only [rtFall, fallbackUsable_rtEndHold hold noBufs, rtMove_rtEndHold hold noBufs]

/-- The events of the fall: ROUTE_FALLBACK, and NO_SOURCE of the engine whose layer is left without a source. -/
theorem raises_rtFall_fallback (usable : s.fallbackUsable (s.route r).image = true) :
    Raises [Ev.routeFallback] ((fallen .fallback r s).count Reg.rtFallbackTotal 1) (rtFall r (s.route r).reason s) := by
  rw [rtFall_eq hold noBufs, if_pos usable]
  exact raises_raise _ _ _

theorem raises_rtFall_colour (unusable : s.fallbackUsable (s.route r).image = false)
    (noLayer : rToLayer (s.route r).image = false) :
    Raises [Ev.routeFallback] (fallen .colour r s) (rtFall r (s.route r).reason s) := by
  rw [rtFall_eq hold noBufs, if_neg (ne_true_of_eq_false unusable), if_neg (ne_true_of_eq_false noLayer)]
  exact raises_raise _ _ _

theorem raises_rtFall_layer (unusable : s.fallbackUsable (s.route r).image = false)
    (layer : rToLayer (s.route r).image = true) :
    Raises [Ev.routeFallback, Ev.noSource (rEngine (s.route r).image)] (fallen .colour r s)
      (rtFall r (s.route r).reason s) := by
  rw [rtFall_eq hold noBufs, if_neg (ne_true_of_eq_false unusable), if_pos layer]
  exact (raises_raise _ _ _).trans (raises_raise _ _ _)

end

theorem exec_holdExpired {t r e : Nat} {s : State} (hold : (s.route r).mode = .hold)
    (holdEnd : (s.route r).holdEnd = some e) :
    exec (.holdExpired t r) s =
      .next (if e ≤ max s.dt t then rtFall r (s.route r).reason (s.begin t) else s.begin t) := by
  have mode : ((s.begin t).route r).mode = .hold := hold
  have ends : ((s.begin t).route r).holdEnd = some e := holdEnd
  show execHoldExpired t r s = _
  simp only [execHoldExpired, mode, ends, beq_self_eq_true, Bool.true_and, decide_eq_true_eq]
  rfl

theorem exec_restoreDelayExpired {t r since : Nat} {s : State} (orphaned : rtOrphaned (s.route r).mode = true)
    (usable : (s.route r).usableSince = some since) :
    exec (.restoreDelayExpired t r) s = .next (if since + s.reg Reg.rtRestoreDelay * ms ≤ max s.dt t
      then (s.begin t).setRoute r { s.route r with returnDue := true } else s.begin t) := by
  have mode : rtOrphaned ((s.begin t).route r).mode = true := orphaned
  have usable' : ((s.begin t).route r).usableSince = some since := usable
  show execRestoreDelayExpired t r s = _
  simp only [execRestoreDelayExpired, mode, usable', Bool.true_and, decide_eq_true_eq]
  rfl

/-- Settles O39: a hold whose end has come falls (`rtFall_eq`), with the events of the fall in their order; before that time, and
before the delay of a return, the command changes nothing. -/
theorem routesFallAndReturn : Obligations.RoutesFallAndReturn := by
  intro t r s x
  refine ⟨fun e hold holdEnd => ⟨fun early => ?_, fun due noBufs => ?_⟩,
    fun since orphaned usable => exec_restoreDelayExpired orphaned usable⟩
  · exact (exec_holdExpired hold holdEnd).trans (congrArg Host.Outcome.next (if_neg (Nat.not_le.mpr early)))
  · have run := (exec_holdExpired hold holdEnd).trans (congrArg Host.Outcome.next (if_pos due))
    have fallback := fallbackUsable_begin t x.image s
    exact ⟨fun usable => ⟨_, run, raises_rtFall_fallback (s := s.begin t) hold noBufs (fallback.trans usable)⟩,
      fun unusable noLayer => ⟨_, run, raises_rtFall_colour (s := s.begin t) hold noBufs (fallback.trans unusable) noLayer⟩,
      fun unusable layer => ⟨_, run, raises_rtFall_layer (s := s.begin t) hold noBufs (fallback.trans unusable) layer⟩⟩

end Sys2Proof.Proofs
end

section
/-! Input streams join, stall and leave (R49 to R53), while no route looks at any. -/

namespace Sys2Proof.Proofs

open Machine Laws

/-! What a change of a stream leaves undone where there is nothing to do. -/

theorem abandonFrame_self {k : Nat} {s : State} (noFrame : (s.ins k).frame = none) : abandonFrame k s = s := by
  simp [abandonFrame, noFrame]

theorem releaseUnnamed_self {s : State} (forget : s.reg Reg.strEndpointKeep = 0) : releaseUnnamed s = s := by
  simp [releaseUnnamed, forget]

theorem bindSafe_self {k : Nat} {s : State} (noSafe : s.str.safeWait = []) : bindSafe k s = s := by
  simp [bindSafe, noSafe, okeys, State.each]

/-- A stream that has entered STR_IN_TABLE is no default. -/
theorem ne_default_of_present {i : InStream} (h : i.mode ≠ .absent) : i ≠ {} := by
  rintro rfl
  exact h rfl

/-! WITHDRAW (R52). -/

/-- The stream gone at `now`. -/
def gone (now : Nat) (i : InStream) : InStream :=
  { i with
    mode := .gone, leftAt := now, engine := none, untagged := none, secondNext := false
    tagState := 0, lapsed := false, bare := false }

theorem streamLeft_eq {k : Nat} {s : State} (routes : s.str.routes = []) (live : (s.ins k).mode = .live)
    (noFrame : (s.ins k).frame = none) (forget : s.reg Reg.strEndpointKeep = 0) :
    streamLeft k s = (strChanged (s.setIns k (gone s.dt (s.ins k)))).raise Ev.streamLeft [k] := by
  have keep : ((strChanged (s.setIns k (gone s.dt (s.ins k)))).raise Ev.streamLeft [k]).reg Reg.strEndpointKeep = 0 := by
    rw [raise_reg _ _ _ _ (by decide)]
    exact (reg_setReg_other _ _ _ _ (by decide)).trans forget
  have still := (congrArg recheck (releaseUnnamed_self keep)).trans
    (recheck_self (s := (strChanged (s.setIns k (gone s.dt (s.ins k)))).raise Ev.streamLeft [k]) (by
      rw [raise_str]; exact routes))
  rw [← still]
  simp only [streamLeft, live, abandonFrame_self noFrame]
  rfl

theorem withdrawOp_eq {lane body e k : Nat} {s : State} (at_ : s.endpointAt lane (fld body 119 110) = some e)
    (one : fld body 109 102 ≠ 0xFF) (named : (s.streamsOf e).filter (fun j => (s.ins j).number == fld body 109 102) = [k]) :
    withdrawOp lane body s = streamLeft k s := by
  simp [withdrawOp, at_, one, named, State.each]

theorem exec_withdrawFolio_of_up {lane : Nat} {s : State} (t : Nat) (up : (s.link lane).mode = .up) (body : Nat) :
    exec (.withdrawFolio t lane body) s = .next (withdrawOp lane body (headed lane (s.begin t))) :=
  congrArg Host.Outcome.next (received_of_up (s := s.begin t) up _)

/-! STALL_TIMEOUT (R52). -/

theorem exec_stallTimeout {t k : Nat} {s : State} (routes : s.str.routes = []) (live : (s.ins k).mode = .live)
    (noFrame : (s.ins k).frame = none) :
    exec (.stallTimeout t k) s = .next (if (s.ins k).lastStart + s.reg Reg.strStallTime * ms ≤ max s.dt t then
      (strChanged ((s.begin t).setIns k { s.ins k with mode := .stalled })).raise Ev.streamStalled [k] else s.begin t) := by
  have live' : ((s.begin t).ins k).mode = .live := live
  have still : recheck ((strChanged ((s.begin t).setIns k { s.ins k with mode := .stalled })).raise Ev.streamStalled [k]) = _ :=
    recheck_self (by rw [raise_str]; exact routes)
  rw [← still]
  show execStallTimeout t k s = _
  simp only [execStallTimeout, live', true_and, abandonFrame_self (s := s.begin t) noFrame]
  rfl

/-! STREAM_RECORD of a new pair (R49 to R51). -/

/-- From s to u nothing but the audio channels of stream k is bound anew; where too few are free, AUDIO_CHANNELS_FULL tells it
(R317). -/
def AudioBound (k : Nat) (s u : State) : Prop := ∃ b, u = { s with aud := { s.aud with bind := b } } ∨
  u = ({ s with aud := { s.aud with bind := b } } : State).raise Ev.audioChannelsFull [k]

theorem AudioBound.ite {k : Nat} {s u v : State} {q : Prop} [Decidable q] (h : AudioBound k s u) (h' : AudioBound k s v) :
    AudioBound k s (if q then u else v) := by
  split
  · exact h
  · exact h'

theorem bindAudio_cases (k : Nat) (s : State) : AudioBound k s (bindAudio k s) := by
  unfold bindAudio
  refine .ite ⟨s.aud.bind, .inl rfl⟩ (.ite ⟨_, .inl rfl⟩ ?_)
  split
  · exact ⟨_, .inl rfl⟩
  · exact ⟨_, .inr rfl⟩

theorem bindAudio_str (k : Nat) (s : State) : (bindAudio k s).str = s.str := by
  obtain ⟨b, bound | bound⟩ := bindAudio_cases k s
  · rw [bound]
  · exact (congrArg State.str bound).trans (raise_str _ _ _)

theorem bindAudio_reg (k : Nat) {j : Nat} (s : State) (h : j ∉ raiseCounts) : (bindAudio k s).reg j = s.reg j := by
  obtain ⟨b, bound | bound⟩ := bindAudio_cases k s
  · exact congrArg (·.reg j) bound
  · exact (congrArg (·.reg j) bound).trans (raise_reg _ _ _ _ h)

theorem bindAudio_status (k : Nat) {j : Nat} {s : State} (h : bit s.evt.status j = true) :
    bit (bindAudio k s).evt.status j = true := by
  obtain ⟨b, bound | bound⟩ := bindAudio_cases k s
  · rw [bound]
    exact h
  · rw [bound]
    exact (raises_raise _ _ _).latched j (.inl h)

/-- The stream as its first record enters it: ANNOUNCED or UNSUPPORTED (R52). -/
def entered (ok : Bool) (desc flow words : Nat) (engine : Option Nat) (i : InStream) : InStream :=
  { i with
    mode := if ok then .announced else .unsupported
    desc := desc, flow := flow, blockWords := words, engine := engine, frame := none, untagged := none
    secondNext := false, lastSecond := 0, last := [], audioSeq := none }

/-- A format that is taken: an accepted one, and of a compressed one an engine decodes it (R221). -/
def formatTaken (desc : Nat) (engine : Option Nat) : Bool := formatAccepted desc && (!dCompressed desc || engine.isSome)

/-- The stream enters, and STREAM_JOINED or STREAM_UNSUPPORTED tells it. -/
def joinTold (ok : Bool) (k : Nat) (i : InStream) (s : State) : State :=
  (strChanged (s.setIns k i)).raise (if ok then Ev.streamJoined else Ev.streamUnsupported) [k]

theorem entered_ne_default (ok : Bool) (desc flow words : Nat) (engine : Option Nat) (i : InStream) :
    entered ok desc flow words engine i ≠ {} :=
  ne_default_of_present (by cases ok <;> simp [entered])

theorem str_joinTold (ok : Bool) (k : Nat) (i : InStream) (s : State) : (joinTold ok k i s).str = (s.setIns k i).str :=
  raise_str _ _ _

/-- Where no safe record waits and no route looks on, the audio channels are all that is left to bind. -/
theorem recheck_bindAudio {s : State} (k : Nat) (routes : s.str.routes = []) (noSafe : s.str.safeWait = []) :
    recheck (bindSafe k (bindAudio k s)) = bindAudio k s := by
  rw [bindSafe_self (by rw [bindAudio_str]; exact noSafe), recheck_self (by rw [bindAudio_str]; exact routes)]

/-- The engine that decodes a stream of this format, for a compressed one that it can decode (R221). -/
def decoder (desc : Nat) (s : State) : Option Nat :=
  if dCompressed desc && codedOk desc && formatAccepted desc then pickEngine s (streamDecodeLoad desc) else none

section
variable {k identity number : Nat} {s : State} (routes : s.str.routes = []) (noSafe : s.str.safeWait = [])
  (named : identity ≠ 0 ∨ number ≠ 0)
include routes noSafe named

theorem enterFormat_of_new (desc flow words : Nat) : ∃ engine,
    enterFormat k desc flow words true (s.setIns k { identity := identity, number := number }) =
      bindAudio k (joinTold (formatTaken desc engine) k
        (entered (formatTaken desc engine) desc flow words engine { identity := identity, number := number }) s) := by
  have new : ({ identity := identity, number := number } : InStream) ≠ {} := by
    simpa [Classical.or_iff_not_imp_left] using named
  have ins := ins_setIns (k := k) s new
  have noFrame := congrArg InStream.frame ins
  have notUnsupported : ¬ StrMode.absent = .unsupported := by decide
  refine ⟨decoder desc (s.setIns k { identity := identity, number := number }), ?_⟩
  rw [← recheck_bindAudio k (by rw [str_joinTold]; exact routes) (by rw [str_joinTold]; exact noSafe)]
  simp only [enterFormat, abandonFrame_self noFrame, State.modIns, ins, setIns_setIns _ s new, if_true, notUnsupported, if_false]
  exact congrArg (fun x => recheck (bindSafe k (bindAudio k x)))
    (apply_ite (fun event => State.raise (strChanged (s.setIns k _)) event [k]) _ _ _).symm

/-- What the record of a new pair leaves (R49 to R52). -/
theorem enterFormat_joins (desc flow words : Nat) {u : State}
    (enters : enterFormat k desc flow words true (s.setIns k { identity := identity, number := number }) = u) :
    (u.ins k).identity = identity ∧ (u.ins k).number = number ∧ (u.ins k).desc = desc ∧ (u.ins k).flow = flow ∧
      (u.ins k).frame = none ∧ (∀ j, j ≠ k → u.ins j = s.ins j) ∧
      u.reg Reg.strChangeSeq = s.reg Reg.strChangeSeq + 1 ∧
      (formatAccepted desc = true → dCompressed desc = false →
        (u.ins k).mode = .announced ∧ bit u.evt.status Ev.streamJoined = true) ∧
      (formatAccepted desc = false → (u.ins k).mode = .unsupported ∧ bit u.evt.status Ev.streamUnsupported = true) := by
  obtain ⟨engine, done⟩ := enterFormat_of_new routes noSafe named (k := k) desc flow words
  rw [enters] at done
  generalize taken : formatTaken desc engine = ok at done
  have str : u.str = (s.setIns k (entered ok desc flow words engine { identity := identity, number := number })).str := by
    rw [done, bindAudio_str, str_joinTold]
  have ins (j : Nat) : u.ins j = (s.setIns k (entered ok desc flow words engine
      { identity := identity, number := number })).ins j := by
    rw [State.ins, str]
    rfl
  have own := (ins k).trans (ins_setIns s (entered_ne_default _ _ _ _ _ _))
  have told : bit u.evt.status (if ok then Ev.streamJoined else Ev.streamUnsupported) = true := by
    rw [done]
    exact bindAudio_status k ((raises_raise _ _ _).latched _ (.inr (List.mem_singleton.mpr rfl)))
  refine ⟨congrArg (·.identity) own, congrArg (·.number) own, congrArg (·.desc) own, congrArg (·.flow) own,
    congrArg (·.frame) own, fun j other => (ins j).trans (ins_setIns_other _ s other), ?_, fun accepted plain => ?_, fun refused => ?_⟩
  · rw [done, bindAudio_reg k _ (by decide), joinTold, raise_reg _ _ _ _ (by decide), reg_strChanged]
    rfl
  · obtain rfl : true = ok := by rw [← taken]; simp [formatTaken, accepted, plain]
    exact ⟨congrArg (·.mode) own, told⟩
  · obtain rfl : false = ok := by rw [← taken]; simp [formatTaken, refused]
    exact ⟨congrArg (·.mode) own, told⟩

end

theorem lowest_eq_some {n k : Nat} {p : Nat → Bool} (inside : k < n) (holds : p k = true) (below : ∀ j, j < k → p j = false) :
    lowest n p = some k :=
  List.find?_range_eq_some.mpr ⟨holds, List.mem_range.mpr inside, fun j less => by rw [below j less]; rfl⟩

theorem newId_of_lowest {k : Nat} {s : State} (inside : k < 512) (absent : (s.ins k).mode = .absent)
    (below : ∀ j, j < k → (s.ins j).mode ≠ .absent) : newId s = some (k, s) := by
  have first : (lowest 512 fun k => (s.ins k).mode == .absent) = some k :=
    lowest_eq_some inside (beq_iff_eq.mpr absent) fun j less => beq_eq_false_iff_ne.mpr (below j less)
  unfold newId
  rw [first]

theorem streamRecordOp_of_new {lane b e k : Nat} {p : Endpoint} {s : State} (at_ : s.endpointAt lane (sbEp b) = some e)
    (endpoint : s.endpoint e = some p) (unbound : s.boundId p.identity (fld b 108 101) = none) (id : newId s = some (k, s)) :
    streamRecordOp lane b s = enterFormat k (recordDesc s lane e b) (fld b 100 92) (fld b 12 7) true
      (s.setIns k { identity := p.identity, number := fld b 108 101 }) := by
  unfold streamRecordOp
  dsimp only
  rw [show (okeys s.eps.table).find? _ = some e from at_]
  simp only [endpoint, unbound, id]

theorem exec_streamRecord_of_up {lane : Nat} {s : State} (t : Nat) (up : (s.link lane).mode = .up) (body : Nat) :
    exec (.streamRecord t lane body) s = .next (streamRecordOp lane body (headed lane (s.begin t))) :=
  congrArg Host.Outcome.next (received_of_up (s := s.begin t) up _)

/-- Settles O35: each of the three commands comes to one change of one stream, counted in STR_CHANGE_SEQ and told by its event;
no route, safe record or endpoint that is kept has a part in it. -/
theorem streamsJoinStallAndLeave : Obligations.StreamsJoinStallAndLeave := by
  intro t lane s alone up routes z
  refine ⟨fun body e p k at_ endpoint unbound inside absent below noSafe named => ?_,
    fun body e k at_ one named live noFrame forget => ?_, fun k live noFrame => ⟨fun early => ?_, fun late => ?_⟩⟩
  · intro desc
    have record := streamRecordOp_of_new (s := z) at_ endpoint unbound (newId_of_lowest (s := z) inside absent below)
    exact ⟨_, exec_streamRecord_of_up t up body, enterFormat_joins (s := z) routes noSafe named desc _ _ record.symm⟩
  · have left := (withdrawOp_eq (s := z) at_ one named).trans (streamLeft_eq (s := z) routes live noFrame forget)
    exact ⟨_, (exec_withdrawFolio_of_up t up body).trans (congrArg Host.Outcome.next left), raises_raise _ _ _⟩
  · exact (exec_stallTimeout routes live noFrame).trans (congrArg Host.Outcome.next (if_neg (Nat.not_le.mpr early)))
  · exact ⟨_, (exec_stallTimeout routes live noFrame).trans (congrArg Host.Outcome.next (if_pos late)), raises_raise _ _ _⟩

end Sys2Proof.Proofs
end

section
/-! Take groups are checked, wait, latch, are cancelled or are overdue (R81 to R88). -/

namespace Sys2Proof.Proofs

open Machine Laws

/-! Routes that takes move into a state. -/

/-- The routes of the takes move into one state. -/
def moveAll (mode : RtMode) (ks : List Take) (s : State) : State := s.each ks fun s k => rtMove k.route mode 0 s

theorem moveAll_cons (mode : RtMode) (k : Take) (ks : List Take) (s : State) :
    moveAll mode (k :: ks) s = moveAll mode ks (rtMove k.route mode 0 s) := rfl

/-- Nothing but the route table changes. -/
theorem moveAll_eq (mode : RtMode) (ks : List Take) (s : State) :
    moveAll mode ks s = { s with str := { s.str with routes := (moveAll mode ks s).str.routes } } := by
  induction ks generalizing s with
  | nil => rfl
  | cons k ks ih => exact ih (rtMove k.route mode 0 s)

theorem route_moveAll_other {mode : RtMode} {ks : List Take} {r : Nat} {s : State} (other : ∀ k ∈ ks, k.route ≠ r) :
    (moveAll mode ks s).route r = s.route r := by
  induction ks generalizing s with
  | nil => rfl
  | cons k ks ih =>
    rw [moveAll_cons, ih fun j mem => other j (List.mem_cons_of_mem _ mem)]
    exact route_setRoute_other _ s (Ne.symm (other k List.mem_cons_self))

/-- The state is told from that of a route that has never been used: by its name, or by the DT of its beginning. -/
theorem mode_rtMove {mode : RtMode} {s : State} (r reason : Nat) (told : mode ≠ .empty ∨ 0 < s.dt) :
    ((rtMove r mode reason s).route r).mode = mode := by
  have used : ({ s.route r with mode := mode, reason := reason, since := s.dt } : Route) ≠ {} := by
    intro unused
    rcases told with other | later
    · exact other (congrArg Route.mode unused)
    · exact absurd (congrArg Route.since unused) (Nat.ne_of_gt later)
  exact congrArg Route.mode (route_setRoute s used)

theorem mode_moveAll {mode : RtMode} {ks : List Take} {r : Nat} {s : State} (told : mode ≠ .empty ∨ 0 < s.dt)
    (mem : ∃ k ∈ ks, k.route = r) : ((moveAll mode ks s).route r).mode = mode := by
  induction ks generalizing s with
  | nil => simp at mem
  | cons k ks ih =>
    rw [moveAll_cons]
    by_cases later : ∃ j ∈ ks, j.route = r
    · exact ih (s := rtMove k.route mode 0 s) told later
    · have last : ∀ j ∈ ks, j.route ≠ r := fun j mem same => later ⟨j, mem, same⟩
      obtain rfl : k.route = r := by
        obtain ⟨j, mem, same⟩ := mem
        rcases List.mem_cons.mp mem with rfl | mem
        · exact same
        · exact absurd same (last j mem)
      rw [route_moveAll_other last]
      exact mode_rtMove _ _ told

/-! TAKE_GROUP (R81 to R84, R87). -/

/-- The result entries of R83. -/
def resulted (code index : Nat) (s : State) : State := (s.setReg Reg.takeLastResult code).setReg Reg.takeLastIndex index

/-- The group that a TAKE_GROUP brings (R84). -/
def acceptedGroup (data : List Nat) (s : State) : Group :=
  let h := groupHeader data
  let floor := s.dt + ms
  { id := ghId h, moved := !ghImmediate h && decide (ghEffective h < floor)
    eff := if ghImmediate h then floor else max floor (ghEffective h)
    takes := (List.range (ghCount h)).map fun i =>
      let k := takeRecord data i
      { route := trRoute k, op := trOp k
        image := takenImage s (trOp k) (plannedImage s.planned (trRoute k)) (trImage k) } }

/-- The takes whose routes an accepted group sets out of EMPTY (R69). -/
def settingTakes (takes : List Take) (s : State) : List Take :=
  takes.filter fun k => k.op == 0 && (s.route k.route).mode == .empty

theorem rClass_lt (r : Nat) : rClass r < 4 := Nat.mod_lt _ (by decide)

/-- TAKE_LAST_ID is no class default of AUTH_POLICY (R80). -/
theorem takenImage_setReg_takeLastId (id op old image : Nat) (s : State) :
    takenImage (s.setReg Reg.takeLastId id) op old image = takenImage s op old image := by
  have other (n : Nat) (small : n < 4) :
      (s.setReg Reg.takeLastId id).reg (Reg.strAuthDefault n) = s.reg (Reg.strAuthDefault n) :=
    reg_setReg_other _ _ _ _ (by show 0x400009 + n ≠ 0x410102; omega)
  have same (i : Nat) : setImage (s.setReg Reg.takeLastId id) i = setImage s i := by
    simp only [setImage, other _ (rClass_lt _)]
  unfold takenImage
  rw [same]

theorem takeGroupOp_refused {data : List Nat} {s : State} (bad : (groupCode s data).1 ≠ 0) :
    takeGroupOp data s = (refuseTake (ghId (groupHeader data)) (groupCode s data).1 (groupCode s data).2
        (s.setReg Reg.takeLastId (ghId (groupHeader data))), if (groupCode s data).1 = 0x01 then stLength else stValue) := by
  simp only [takeGroupOp, if_pos bad]

/-- The state with the group of a TAKE_GROUP in its place. -/
def groupJoins (data : List Nat) (s : State) : State :=
  { s.setReg Reg.takeLastId (ghId (groupHeader data)) with
    str := { s.str with groups := insertGroup (acceptedGroup data s) s.str.groups } }

/-- The group waits, the routes that it sets are PENDING, and the result entries are written. -/
def groupWaits (data : List Nat) (s : State) : State :=
  resulted 0 0xFF (moveAll .pending (settingTakes (acceptedGroup data s).takes s) (groupJoins data s))

theorem takeGroupOp_accepted {data : List Nat} {s : State} (good : (groupCode s data).1 = 0) :
    takeGroupOp data s = ((groupWaits data s).whenever (bit ((groupWaits data s).reg Reg.takeNotify) 0) fun u =>
      u.raise Ev.takeAccepted [ghId (groupHeader data), (acceptedGroup data s).eff], stDone) := by
  have none_ : ¬ (groupCode s data).1 ≠ 0 := fun bad => bad good
  simp only [takeGroupOp, if_neg none_, List.map_map, takenImage_setReg_takeLastId]
  rfl

theorem reg_resulted {k : Nat} (code index : Nat) (s : State) (h : k ≠ Reg.takeLastResult) (h' : k ≠ Reg.takeLastIndex) :
    (resulted code index s).reg k = s.reg k :=
  (reg_setReg_other _ _ _ _ h').trans (reg_setReg_other _ _ _ _ h)

theorem reg_moveAll (mode : RtMode) (ks : List Take) (s : State) (k : Nat) : (moveAll mode ks s).reg k = s.reg k := by
  rw [moveAll_eq]
  rfl

theorem groupWaits_eq (data : List Nat) (s : State) : groupWaits data s =
    { resulted 0 0xFF (s.setReg Reg.takeLastId (ghId (groupHeader data))) with
      str := { s.str with groups := insertGroup (acceptedGroup data s) s.str.groups, routes := (groupWaits data s).str.routes } } :=
  congrArg (resulted 0 0xFF) (moveAll_eq .pending (settingTakes (acceptedGroup data s).takes s) (groupJoins data s))

theorem reg_groupWaits_takeNotify (data : List Nat) (s : State) :
    (groupWaits data s).reg Reg.takeNotify = s.reg Reg.takeNotify := by
  unfold groupWaits
  rw [reg_resulted _ _ _ (by decide) (by decide), reg_moveAll]
  exact reg_setReg_other _ _ _ _ (by decide)

theorem exists_settingTakes {takes : List Take} {s : State} {r : Nat} :
    (∃ k ∈ settingTakes takes s, k.route = r) ↔ (s.route r).mode = .empty ∧ ∃ k ∈ takes, k.op = 0 ∧ k.route = r := by
  simp only [settingTakes, List.mem_filter, Bool.and_eq_true, beq_iff_eq]
  constructor
  · rintro ⟨k, ⟨mem, set, empty⟩, rfl⟩
    exact ⟨empty, k, mem, set, rfl⟩
  · rintro ⟨empty, k, mem, set, rfl⟩
    exact ⟨k, ⟨mem, set, empty⟩, rfl⟩

theorem mode_groupWaits {data : List Nat} {s : State} {r : Nat}
    (sets : (s.route r).mode = .empty ∧ ∃ k ∈ (acceptedGroup data s).takes, k.op = 0 ∧ k.route = r) :
    ((groupWaits data s).route r).mode = .pending :=
  mode_moveAll (.inl (by decide)) (exists_settingTakes.mpr sets)

theorem route_groupWaits_other {data : List Nat} {s : State} {r : Nat}
    (sets : ¬ ((s.route r).mode = .empty ∧ ∃ k ∈ (acceptedGroup data s).takes, k.op = 0 ∧ k.route = r)) :
    (groupWaits data s).route r = s.route r :=
  route_moveAll_other fun k mem same => sets (exists_settingTakes.mp ⟨k, mem, same⟩)

theorem raises_whenever_raise (q : Bool) (id : Nat) (items : List Nat) (s : State) :
    Raises (if q then [id] else []) s (s.whenever q fun u => u.raise id items) := by
  cases q
  · exact .refl s
  · exact raises_raise _ _ _

/-- What an accepted group leaves beside the group itself: its routes as `groupWaits` says, and TAKE_ACCEPTED where that is asked
for (R83, R87). -/
theorem takeGroupOp_waits {data : List Nat} {s : State} (good : (groupCode s data).1 = 0) :
    ∃ u, takeGroupOp data s = (u, stDone) ∧ u.str = (groupWaits data s).str ∧
      Raises (if bit (s.reg Reg.takeNotify) 0 then [Ev.takeAccepted] else []) (groupWaits data s) u := by
  refine ⟨_, takeGroupOp_accepted good, ?_, ?_⟩
  · unfold State.whenever
    split
    · exact raise_str _ _ _
    · rfl
  · rw [reg_groupWaits_takeNotify]
    exact raises_whenever_raise _ _ _ _

theorem exec_takeGroup {t : Nat} {src : Src} {s : State} (data : List Nat)
    (done : gate src Reg.takeGroup false (s.begin t) = stDone) :
    exec (.takeGroup t src data) s =
      .next ((takeGroupOp data (s.begin t)).1.emit (.status src.who (takeGroupOp data (s.begin t)).2)) :=
  congrArg Host.Outcome.next (answer_done _ _ _ _ _ done)

/-! TAKE_CANCEL (R88). -/

/-- The takes of a dropped group whose PENDING routes no other group sets. -/
def droppedTakes (g : Group) (s : State) : List Take :=
  g.takes.filter fun k => (s.route k.route).mode == .pending &&
    !s.str.groups.any fun x => x.takes.any fun y => y.route == k.route && y.op == 0

theorem dropGroup_eq (g : Group) (s : State) :
    let left : State := { s with str := { s.str with groups := s.str.groups.erase g } }
    dropGroup g s = moveAll .empty (droppedTakes g left) left := rfl

theorem exists_droppedTakes {g : Group} {s : State} {r : Nat} : (∃ k ∈ droppedTakes g s, k.route = r) ↔
    (s.route r).mode = .pending ∧ (∃ k ∈ g.takes, k.route = r) ∧
      ∀ x ∈ s.str.groups, ∀ k ∈ x.takes, k.op = 0 → k.route ≠ r := by
  have unset (r : Nat) : (!s.str.groups.any fun x => x.takes.any fun y => y.route == r && y.op == 0) = true ↔
      ∀ x ∈ s.str.groups, ∀ k ∈ x.takes, k.op = 0 → k.route ≠ r := by
    simp only [Bool.not_eq_true', List.any_eq_false, Bool.and_eq_true, beq_iff_eq, List.any_eq_true, not_exists, not_and]
    exact forall₄_congr fun _ _ _ _ => ⟨fun h set same => h same set, fun h same set => h set same⟩
  simp only [droppedTakes, List.mem_filter, Bool.and_eq_true, beq_iff_eq, unset]
  constructor
  · rintro ⟨k, ⟨mem, pending, none_⟩, rfl⟩
    exact ⟨pending, ⟨k, mem, rfl⟩, none_⟩
  · rintro ⟨pending, ⟨k, mem, rfl⟩, none_⟩
    exact ⟨k, ⟨mem, pending, none_⟩, rfl⟩

theorem takeCancelled_of_found {id : Nat} {g : Group} {s : State}
    (found : s.str.groups.find? (fun g => !g.restore && g.id == id && decide (s.dt < g.eff)) = some g)
    (forget : s.reg Reg.strEndpointKeep = 0) : takeCancelled id s = (resulted 0 0xFF (dropGroup g s), stDone) := by
  have still : releaseUnnamed (resulted 0 0xFF (dropGroup g s)) = resulted 0 0xFF (dropGroup g s) := by
    refine releaseUnnamed_self ?_
    rw [reg_resulted _ _ _ (by decide) (by decide), dropGroup_eq, reg_moveAll]
    exact forget
  have run : takeCancelOp id s = (resulted 0 0xFF (dropGroup g s), stDone) := by
    simp only [takeCancelOp, found]
    rfl
  rw [takeCancelled, run, still]

theorem takeCancelled_of_none {id : Nat} {s : State}
    (none_ : s.str.groups.find? (fun g => !g.restore && g.id == id && decide (s.dt < g.eff)) = none)
    (forget : s.reg Reg.strEndpointKeep = 0) : takeCancelled id s = (refuseTake id 0x0F 0xFF s, stValue) := by
  have still : releaseUnnamed (refuseTake id 0x0F 0xFF s) = refuseTake id 0x0F 0xFF s := by
    refine releaseUnnamed_self ((raise_reg _ _ _ _ (by decide)).trans ?_)
    exact (reg_resulted 0x0F 0xFF s (by decide) (by decide)).trans forget
  have run : takeCancelOp id s = (refuseTake id 0x0F 0xFF s, stValue) := by
    simp only [takeCancelOp, none_]
  rw [takeCancelled, run, still]

theorem exec_takeCancel {t : Nat} {src : Src} {s : State} (id : Nat)
    (done : gate src Reg.takeCancel false (s.begin t) = stDone) :
    exec (.takeCancel t src id) s =
      .next ((takeCancelled id (s.begin t)).1.emit (.status src.who (takeCancelled id (s.begin t)).2)) :=
  congrArg Host.Outcome.next (answer_done _ _ _ _ _ done)

/-! The latch (R86). -/

/-- The frame that a take chose is held for it. -/
def holdFrame (s : State) (k : Take) : State :=
  match k.first with
  | some b => takeToken b (.take k.route) s
  | none => s

/-- The frames that takes chose are held for them. -/
def holdFrames (ks : List Take) (s : State) : State := s.each ks holdFrame

theorem holdFrames_cons (k : Take) (ks : List Take) (s : State) : holdFrames (k :: ks) s = holdFrames ks (holdFrame s k) := rfl

theorem takeToken_eq (key : Nat) (who : Reader) (s : State) :
    ∃ bufs, takeToken key who s = { s with fs := { s.fs with bufs := bufs } } := by
  unfold takeToken
  dsimp only
  split
  · exact ⟨s.fs.bufs, rfl⟩
  · exact ⟨_, rfl⟩

theorem holdFrame_eq (s : State) (k : Take) : ∃ bufs, holdFrame s k = { s with fs := { s.fs with bufs := bufs } } := by
  unfold holdFrame
  split
  · exact takeToken_eq _ _ s
  · exact ⟨s.fs.bufs, rfl⟩

/-- Nothing but the buffers changes. -/
theorem holdFrames_eq (ks : List Take) (s : State) :
    holdFrames ks s = { s with fs := { s.fs with bufs := (holdFrames ks s).fs.bufs } } := by
  induction ks generalizing s with
  | nil => rfl
  | cons k ks ih =>
    obtain ⟨bufs, held⟩ := holdFrame_eq s k
    rw [holdFrames_cons, held]
    exact ih _

theorem holdFrames_self {ks : List Take} (s : State) (noFrame : ∀ k ∈ ks, k.first = none) : holdFrames ks s = s := by
  induction ks with
  | nil => rfl
  | cons k ks ih =>
    have idle : holdFrame s k = s := by simp only [holdFrame, noFrame k List.mem_cons_self]
    rw [holdFrames_cons, idle]
    exact ih fun j mem => noFrame j (List.mem_cons_of_mem _ mem)

theorem buf_setBuf {key : Nat} {b : Buffer} (s : State) (h : b ≠ {}) : (s.setBuf key b).buf key = b := tget_tset_set _ _ _ _ h

/-- A buffer grants a token, or stays as it was. -/
theorem buf_takeToken (key b : Nat) (who : Reader) (s : State) : (takeToken key who s).buf b = s.buf b ∨
    b = key ∧ (takeToken key who s).buf b = { s.buf b with tokens := (s.buf b).tokens ++ [who] } := by
  unfold takeToken
  dsimp only
  split
  · exact .inl rfl
  · by_cases same : b = key
    · subst same
      exact .inr ⟨rfl, buf_setBuf s fun unused => by simpa using congrArg Buffer.tokens unused⟩
    · exact .inl (tget_tset_other _ _ _ _ _ same)

theorem takeToken_granted {key : Nat} {s : State} (who : Reader) (complete : (s.buf key).mode = .complete) :
    who ∈ ((takeToken key who s).buf key).tokens := by
  have granted : takeToken key who s = s.setBuf key { s.buf key with tokens := (s.buf key).tokens ++ [who] } := by
    simp [takeToken, complete]
  rw [granted, buf_setBuf s fun unused => by simpa using congrArg Buffer.tokens unused]
  simp

/-- A buffer keeps its state and its tokens while others are granted. -/
theorem buf_holdFrame (s : State) (k : Take) (b : Nat) : ((holdFrame s k).buf b).mode = (s.buf b).mode ∧
    (s.buf b).tokens ⊆ ((holdFrame s k).buf b).tokens := by
  unfold holdFrame
  split
  · rename_i key _
    rcases buf_takeToken key b (.take k.route) s with same | ⟨-, granted⟩
    · rw [same]
      exact ⟨rfl, fun _ mem => mem⟩
    · rw [granted]
      exact ⟨rfl, List.subset_append_left _ _⟩
  · exact ⟨rfl, fun _ mem => mem⟩

theorem tokens_subset_holdFrames (ks : List Take) (s : State) (b : Nat) :
    (s.buf b).tokens ⊆ ((holdFrames ks s).buf b).tokens := by
  induction ks generalizing s with
  | nil => exact fun _ mem => mem
  | cons k ks ih => exact fun x mem => ih (holdFrame s k) ((buf_holdFrame s k b).2 mem)

/-- Each take holds the complete frame that it chose. -/
theorem holdFrames_holds {ks : List Take} {k : Take} {b : Nat} {s : State} (mem : k ∈ ks) (first : k.first = some b)
    (complete : (s.buf b).mode = .complete) : .take k.route ∈ ((holdFrames ks s).buf b).tokens := by
  induction ks generalizing s with
  | nil => simp at mem
  | cons j ks ih =>
    rw [holdFrames_cons]
    rcases List.mem_cons.mp mem with rfl | mem
    · refine tokens_subset_holdFrames ks _ b ?_
      simp only [holdFrame, first]
      exact takeToken_granted _ complete
    · exact ih mem ((buf_holdFrame s j b).1.trans complete)

/-- A group latched after those that run before it. -/
def latched (s : State) (g : Group) : Group := { g with latched := true, takes := g.takes.map (latchTake s [] g.eff) }

/-- The latch of the one group that waits. -/
theorem latchThose_one {g : Group} {s : State} (only : s.str.groups = [g]) (unlatched : g.latched = false) {p : Group → Bool}
    (picked : p g = true) : latchThose p s =
    holdFrames (latched s g).takes { s with str := { s.str with groups := [latched s g] } } := by
  have latch : latchList s p [] [g] = [latched s g] := by simp [latchList, picked, latchGroup, unlatched, latched]
  have fresh : [g].contains (latched s g) = false := by
    simp only [List.contains_cons, List.contains_nil, Bool.or_false, beq_eq_false_iff_ne]
    intro same
    exact absurd (congrArg Group.latched same) (by simp [latched, unlatched])
  have new : [latched s g].filter (fun x => x.latched && !([g].contains x)) = [latched s g] := by
    rw [List.filter_cons, fresh]
    rfl
  simp only [latchThose, only, latch, holdFirst, new, List.flatMap_cons, List.flatMap_nil, List.append_nil]
  rfl

/-- A group whose takes have not all flipped is not complete (R87). -/
theorem finishGroups_self {s : State} {g : Group} (only : s.str.groups = [g]) (waits : ∃ k ∈ g.takes, k.flipped = false) :
    finishGroups s = s := by
  have notAll : (g.takes.all fun k => k.flipped) = false := by simpa [List.all_eq_false] using waits
  simp [finishGroups, only, notAll, State.each]

/-- The effective DT of the one group that waits, some of whose takes have still to flip. -/
theorem exec_takeEffectiveDt_one {t : Nat} {g : Group} {s : State} (only : s.str.groups = [g]) (own : g.restore = false)
    (unlatched : g.latched = false) (due : g.eff ≤ max s.dt t)
    (waits : ∃ k ∈ (latched (s.begin t) g).takes, k.flipped = false) :
    exec (.takeEffectiveDt t g.id) s = .next (holdFrames (latched (s.begin t) g).takes
      { s.begin t with str := { s.str with groups := [latched (s.begin t) g] } }) := by
  have latch := latchThose_one (s := s.begin t) only unlatched
    (p := fun x => !x.restore && x.id == g.id && decide (x.eff ≤ (s.begin t).dt)) (by simp [own, due])
  have waiting : finishGroups (holdFrames (latched (s.begin t) g).takes
      { s.begin t with str := { s.str with groups := [latched (s.begin t) g] } }) = _ :=
    finishGroups_self (g := latched (s.begin t) g) (by rw [holdFrames_eq]) waits
  exact congrArg Host.Outcome.next ((congrArg finishGroups latch).trans waiting)

/-- A SET is latched with what its own image tells of source, fallback and first frame. -/
theorem latchTake_set (s : State) (earlier : List Group) (eff : Time) {k : Take} (set : k.op = 0) :
    latchTake s earlier eff k = { k with
      c0 := rClass k.image == 0, dest := k.image
      reason := if s.sourceReason k.image = 0 ∧ !(rUnits k.image).all s.unitActive then 6 else s.sourceReason k.image
      fallback := s.fallbackUsable k.image, first := firstFrame s k.image eff } := by
  simp [latchTake, takeIdle, takeImage, set]

/-- The reason of a latched SET: its source's, or that a unit which it names is not Active (R68, R86). -/
theorem latchTake_set_reason (s : State) (earlier : List Group) (eff : Time) {k : Take} (set : k.op = 0) :
    (s.sourceReason k.image ≠ 0 → (latchTake s earlier eff k).reason = s.sourceReason k.image) ∧
    (s.sourceReason k.image = 0 → (rUnits k.image).all s.unitActive = true → (latchTake s earlier eff k).reason = 0) ∧
    (s.sourceReason k.image = 0 → (rUnits k.image).all s.unitActive = false → (latchTake s earlier eff k).reason = 6) := by
  rw [latchTake_set s earlier eff set]
  refine ⟨fun lost => if_neg fun both => lost both.1, fun fine active => ?_,
    fun fine idle => if_pos ⟨fine, by rw [idle]; rfl⟩⟩
  exact (if_neg fun both => by simp [active] at both).trans fine

theorem firstFrame_of_kind {s : State} {r t : Nat} (h : rKind r ≠ 2) : firstFrame s r t = none := by
  simp [firstFrame, h]

/-- The frame that a take chooses is a complete one of its source, complete by the effective DT (R86). -/
theorem firstFrame_some {s : State} {r t b : Nat} (h : firstFrame s r t = some b) :
    b ∈ s.framesOf (s.srcStream (rSrcType r) (rSrc r)).get! ∧ (s.buf b).done ≤ t := by
  unfold firstFrame at h
  split at h
  · have mem := List.mem_of_find?_eq_some h
    have chosen := List.find?_some h
    simp only [Bool.and_eq_true, decide_eq_true_eq] at chosen
    refine ⟨?_, chosen.1.1⟩
    unfold storedFrames at mem
    split at mem
    · rename_i k source
      rw [source]
      exact (List.mem_filter.mp mem).1
    · simp at mem
  · simp at h

theorem exec_c0TakeOverdue (t id route : Nat) (s : State) : exec (.c0TakeOverdue t id route) s =
    .next (if s.str.groups.any fun g => g.takes.any (dueOverdue (s.begin t) id route g) then
      (({ s.begin t with str := { s.str with groups := s.str.groups.map (markOverdue (s.begin t) id route) } } : State).count
        Reg.takeOverdueCount 1).raiseAs Ev.c0TakeOverdue [id, route] .tied
    else s.begin t) := rfl

/-- Settles O38, clause by clause: a group refused or accepted (`takeGroupOp_refused`, `takeGroupOp_accepted`), cancelled or not
(`takeCancelled_of_found`, `takeCancelled_of_none`), latched (`latchThose_one`, `latchTake_set`), and overdue. -/
theorem takeGroups : Obligations.TakeGroups := by
  intro t src s replied result
  refine ⟨fun data done => ?_, fun id done forget => ⟨fun g found => ?_, fun none_ => ?_⟩, fun g only own unlatched due => ?_,
    fun g k only own mem set => ?_, fun id route => ⟨fun none_ => ?_, fun some_ => ?_⟩⟩
  · intro h named c
    refine ⟨fun bad => ?_, fun good => ?_⟩
    · have run := exec_takeGroup data done
      rw [takeGroupOp_refused bad] at run
      exact ⟨_, run, raises_raise _ _ _⟩
    · intro floor eff take g sets
      obtain ⟨u, accepted, str, raised⟩ := takeGroupOp_waits good
      have run := exec_takeGroup data done
      rw [accepted] at run
      have route (r : Nat) : u.route r = (groupWaits data (s.begin t)).route r := by
        rw [State.route, str]
        rfl
      refine ⟨_, run, fun r set => (congrArg Route.mode (route r)).trans (mode_groupWaits (s := s.begin t) set),
        fun r unset => (route r).trans (route_groupWaits_other (s := s.begin t) unset), ?_⟩
      have before := raised.emit (.status src.who stDone)
      rw [groupWaits_eq, ← str] at before
      exact before
  · intro left goes
    have run := exec_takeCancel id done
    rw [takeCancelled_of_found (s := s.begin t) found forget, dropGroup_eq] at run
    refine ⟨_, run, fun later r gone_ => mode_moveAll (.inr later) (exists_droppedTakes.mpr gone_),
      fun r stays => route_moveAll_other fun k mem same => stays (exists_droppedTakes.mp ⟨k, mem, same⟩), ?_⟩
    exact congrArg (fun x => (resulted 0 0xFF x).emit (.status src.who stDone)) (moveAll_eq _ _ _)
  · have run := exec_takeCancel id done
    rw [takeCancelled_of_none (s := s.begin t) none_ forget] at run
    exact ⟨_, run, raises_raise _ _ _⟩
  · intro takes waits
    have run := exec_takeEffectiveDt_one only own unlatched due waits
    refine ⟨_, run, fun k mem b first complete => holdFrames_holds mem first complete, holdFrames_eq _ _, fun noFrame => ?_⟩
    rw [holdFrames_self (ks := (latched (s.begin t) g).takes) _ noFrame]
    rfl
  · intro r x own_
    have latch := latchTake_set (s.begin t) [] g.eff set
    have first : x.first = firstFrame (s.begin t) r g.eff := congrArg Take.first latch
    obtain ⟨lost, fine, idle⟩ := latchTake_set_reason (s.begin t) [] g.eff set
    exact ⟨(congrArg Take.image latch :), (congrArg Take.route latch :), congrArg Take.c0 latch, congrArg Take.fallback latch,
      lost, fine, idle, fun other => first.trans (firstFrame_of_kind other),
      fun b chosen => firstFrame_some (first.symm.trans chosen)⟩
  · exact (exec_c0TakeOverdue t id route s).trans (congrArg Host.Outcome.next (if_neg (ne_true_of_eq_false none_)))
  · exact ⟨_, (exec_c0TakeOverdue t id route s).trans (congrArg Host.Outcome.next (if_pos some_)), raises_raiseAs _ _ _ _⟩

end Sys2Proof.Proofs
end

section
/-! STR_COMMIT on tables in force that are not canonical (R57 to R62). -/

namespace Sys2Proof.Proofs

open Machine

/-- The machine in service, with the tile table in force listed twice: not the canonical form of a table, which the statement does
not ask for. Its shadow holds no tile. -/
def tilesTwice : State :=
  { State.reset with start := { next := 12 }, inForce := [(Reg.strTileTable, 1), (Reg.strTileTable, 1)] }

/-- A host of Ethernet with a proved session. -/
def ethernetHost : Src := ⟨⟨2, 5⟩, true⟩

/-- The tile table in force in the next state. -/
def tilesAfter (o : Res) : Nat :=
  match o with
  | .next u => u.force Reg.strTileTable
  | _ => 0

/-- The commit takes the first listing out, as the empty table is the default, and the second is read in its place. -/
theorem tilesAfter_strCommit : tilesAfter (exec (.strCommit 0 ethernetHost) tilesTwice) = 1 := by decide +kernel

/-- Refutes O37: where the tables in force are not canonical, an emptied tile table does not come into force. On `tilesTwice` every
condition of the clause on an admitted STR_COMMIT holds, and the table in force after it is 1, while the shadow is 0. -/
theorem not_streamCommits : ¬ Obligations.StreamCommits := by
  intro holds
  obtain ⟨commit, -⟩ := holds 0 ethernetHost tilesTwice
  obtain ⟨-, -, admitted⟩ := commit (by decide)
  obtain ⟨u, run, -, -, -, tiles, -⟩ := admitted (by decide) (by decide +kernel) rfl (by decide)
  have shadow : tilesTwice.reg Reg.strTileTable = 0 := by decide
  have left := tilesAfter_strCommit
  rw [run] at left
  exact absurd (tiles.symm.trans left) (by rw [shadow]; decide)

end Sys2Proof.Proofs
end

section
/-! CMP_CONTROL (R239 to R243), and drains that no reset started (R595), while no input stream and no route is there. -/

namespace Sys2Proof.Proofs

open Machine Laws

/-! What a change of an engine leaves undone where no stream and no route waits for it. -/

section
variable {s : State} (ins : s.str.ins = [])
include ins

theorem longestFrame_nil (p : Nat → Bool) : longestFrame s p = 0 := by
  simp only [longestFrame, ins, List.filter_nil, List.foldl_nil]

theorem retryStreams_self : retryStreams s = s := by
  simp only [retryStreams, ins, List.filter_nil, List.map_nil, State.each, List.foldl_nil]

theorem recheck_retryStreams (routes : s.str.routes = []) : recheck (retryStreams s) = s := by
  rw [retryStreams_self ins, recheck_self routes]

theorem engineStops_self (e : Nat) (routes : s.str.routes = []) (noWrite : ∀ b ∈ s.fs.bufs, b.2.mode ≠ .writing) :
    engineStops e s = s := by
  have noCut : (s.fs.bufs.filter fun b => b.2.mode == .writing && pComp (s.poolRec (handlePool b.1)) == e) = [] :=
    List.filter_eq_nil_iff.mpr fun b mem both => noWrite b mem (eq_of_beq (Bool.and_eq_true_iff.mp both).1)
  simp only [engineStops, noCut, forgetBufs, ins, List.filter_nil, List.map_nil, State.each, List.foldl_nil, recheck_self routes]

end

/-! The operations of CMP_CONTROL. -/

/-- A command whose operation is known, once the gate has let it through. -/
theorem answered_of_run {src : Src} {key status : Nat} {commit : Bool} {op : State → State × Nat} {z u : State}
    (done : gate src key commit z = stDone) (run : op z = (u, status)) :
    (.next (answer src key commit op z) : Res) = .next (u.emit (.status src.who status)) := by
  rw [answer_done _ _ _ _ _ done, run]

/-- What CMP_APPLY refuses (R239). -/
def SetupRefused (e : Nat) (s : State) : Prop :=
  cmpSetupOk (s.reg (Reg.cmpSetup e)) = false ∨
    fld (s.reg (Reg.cmpSetup e)) 127 120 ≠ fld (s.force (Reg.cmpSetup e)) 127 120 ∧ engineUsed s e = true

/-- The test of `cmpApplyOp` is `SetupRefused`. -/
theorem setupRefused_iff (e : Nat) (s : State) : SetupRefused e s ↔
    (!cmpSetupOk (s.reg (Reg.cmpSetup e)) ||
      (fld (s.reg (Reg.cmpSetup e)) 127 120 != fld (s.force (Reg.cmpSetup e)) 127 120 && engineUsed s e)) = true := by
  simp only [SetupRefused, Bool.or_eq_true, Bool.not_eq_true', Bool.and_eq_true, bne_iff_ne]

section
variable {e : Nat} {s : State}

theorem cmpApplyOp_of_refused (refused : SetupRefused e s) : cmpApplyOp e s = (s, stValue) :=
  if_pos ((setupRefused_iff e s).mp refused)

theorem cmpApplyOp_of_admitted (ins : s.str.ins = []) (routes : s.str.routes = []) (admitted : ¬ SetupRefused e s) :
    cmpApplyOp e s = ((s.setEngine e { s.engine e with
      due := (engineUsers s e).map fun u => (u, s.userSetup e u) }).apply (Reg.cmpSetup e), stDone) :=
  (if_neg (mt (setupRefused_iff e s).mpr admitted)).trans (congrArg (·, stDone) (recheck_retryStreams ins routes))

theorem cmpDisableOp_of_active (ins : s.str.ins = []) (active : (s.engine e).mode = .active) :
    cmpDisableOp e s = (qsChanged qsCmp e
      (s.setEngine e { s.engine e with mode := .draining, drainEnd := s.dt + ms, reEnable := false }), stDone) := by
  simp only [cmpDisableOp, active, longestFrame_nil ins, Nat.zero_add]

theorem cmpDisableOp_of_draining (draining : (s.engine e).mode = .draining) :
    cmpDisableOp e s = (s.setEngine e { s.engine e with reEnable := false }, stDone) := by
  simp only [cmpDisableOp, draining]

theorem cmpDisableOp_of_off (off : (s.engine e).mode = .idle ∨ (s.engine e).mode = .isolated) : cmpDisableOp e s = (s, stDone) := by
  rcases off with mode | mode <;> simp only [cmpDisableOp, mode]

theorem cmpEnableOp_of_idle (ins : s.str.ins = []) (routes : s.str.routes = []) (idle : (s.engine e).mode = .idle) :
    cmpEnableOp e s = (qsChanged qsCmp e (s.setEngine e { s.engine e with mode := .active }), stDone) := by
  simp only [cmpEnableOp, idle]
  exact congrArg (·, stDone) (recheck_retryStreams ins routes)

theorem cmpEnableOp_of_draining (draining : (s.engine e).mode = .draining) :
    cmpEnableOp e s = (s.setEngine e { s.engine e with reEnable := true }, stDone) := by
  simp only [cmpEnableOp, draining]

theorem cmpEnableOp_of_other (other : (s.engine e).mode = .active ∨ (s.engine e).mode = .isolated) :
    cmpEnableOp e s = (s, stDone) := by
  rcases other with mode | mode <;> simp only [cmpEnableOp, mode]

theorem cmpRetestOp_of_not_isolated (pass : Bool) (inService : (s.engine e).mode ≠ .isolated) :
    cmpRetestOp e pass s = (s, stValue) := by
  simp only [cmpRetestOp, inService, false_and, if_false]

theorem cmpRetestOp_of_failed (isolated : (s.engine e).mode = .isolated) : cmpRetestOp e false s = (s, stDone) := by
  simp only [cmpRetestOp, isolated, Bool.false_eq_true, and_false, if_false, if_true]

/-- The engine in service again after its retest (R241). -/
def retested (e : Nat) (s : State) : State := qsChanged qsCmp e (s.setEngine e { s.engine e with mode := .active })

/-- Engines have no Spine port (R101). -/
theorem spinePorts_engine (inside : e < 16) : spinePorts (80 + e) = [] := by
  rw [spinePorts, if_neg (by omega), if_neg (by omega), if_neg (by omega), if_neg (by omega), if_neg (by omega)]

theorem portReturned_engine_self (inside : e < 16) (open_ : (s.port (80 + e)).isolated = false) : portReturned (80 + e) s = s := by
  simp only [portReturned, spinePorts_engine inside, open_, List.any_nil, Bool.or_self, Bool.false_eq_true, if_false]

theorem portReturned_engine (inside : e < 16) (shut : (s.port (80 + e)).isolated = true) :
    portReturned (80 + e) s =
      (s.setPort (80 + e) { s.port (80 + e) with isolated := false }).raise Ev.portRestored [80 + e] := by
  simp only [portReturned, spinePorts_engine inside, shut, Bool.true_or, if_true]
  rw [List.filter_eq_self.mpr]
  · rfl
  · exact fun _ _ => rfl

theorem cmpRetestOp_of_passed (isolated : (s.engine e).mode = .isolated)
    (ins : (portReturned (80 + e) (retested e s)).str.ins = []) (routes : (portReturned (80 + e) (retested e s)).str.routes = []) :
    cmpRetestOp e true s = (portReturned (80 + e) (retested e s), stDone) :=
  (if_pos ⟨isolated, rfl⟩).trans (congrArg (·, stDone) (recheck_retryStreams ins routes))

end

/-! An update of the state beside what a raise changes. -/

/-- The state a with what a raise may change taken from b. -/
def withRaised (b a : State) : State :=
  { a with
    evt := b.evt, cb := b.cb, regs := b.regs
    dap := { a.dap with queues := b.dap.queues }
    fs := { a.fs with wins := b.fs.wins }
    aud := { a.aud with chimes := b.aud.chimes, outs := b.aud.outs } }

/-- An update that has no part in what a raise changes may come before the raise or after it. -/
theorem raises_update {f : State → State} (apart : ∀ b a, f (withRaised b a) = withRaised b (f a)) {ids : List Nat} {a b : State}
    (h : Raises ids a b) : Raises ids (f a) (f b) := by
  have before : f a = withRaised a (f a) := apart a a
  have after : f b = withRaised b (f a) := (congrArg f h.rest).trans (apart b a)
  have evt_a : (f a).evt = a.evt := (congrArg State.evt before :)
  have evt_b : (f b).evt = b.evt := (congrArg State.evt after :)
  have reg_a (k : Nat) : (f a).reg k = a.reg k := (congrArg (·.reg k) before :)
  have reg_b (k : Nat) : (f b).reg k = b.reg k := (congrArg (·.reg k) after :)
  have severity (i : Nat) : (f a).severityOf i = a.severityOf i := by simp only [State.severityOf, evt_a]
  obtain ⟨latched, only, safe, count, words, -, regs⟩ := h
  refine ⟨?_, ?_, ?_, ?_, ?_, ?_, fun k apart => (reg_b k).trans ((regs k apart).trans (reg_a k).symm)⟩
  · simpa only [evt_a, evt_b] using latched
  · simpa only [evt_a, evt_b] using only
  · simpa only [evt_a, evt_b, severity] using safe
  · simpa only [evt_a, evt_b] using count
  · simpa only [evt_a, evt_b] using words
  · rw [after]
    rfl

/-! Drains (R595). -/

/-- A converter unit, compression engine or output engine drains for no reset; an engine writes no frame. -/
def Draining (kind e : Nat) (s : State) : Prop :=
  (kind = qsConv → (s.unit e).mode = .draining ∧ (s.unit e).resetDue = false) ∧
  (kind = qsCmp → (s.engine e).mode = .draining ∧ (s.engine e).resetDue = false ∧ ∀ b ∈ s.fs.bufs, b.2.mode ≠ .writing) ∧
  (kind = qsOut → (s.outp e).comp = .draining ∧ (s.outp e).resetDue = false)

/-- The drain has ended: the function is IDLE, or ACTIVE where an enable came meanwhile. -/
def drainEnds (kind e : Nat) (s : State) : State :=
  qsChanged kind e (
    if kind = qsConv then s.setUnit e { s.unit e with
      mode := if (s.unit e).reEnable then .active else .idle, reEnable := false }
    else if kind = qsCmp then s.setEngine e { s.engine e with
      mode := if (s.engine e).reEnable then .active else .idle, reEnable := false }
    else s.setOutp e { s.outp e with comp := if (s.outp e).reEnable then .active else .idle, reEnable := false })

/-- The limit of the drain that runs. -/
def drainEndOf (kind e : Nat) (s : State) : Time :=
  if kind = qsConv then (s.unit e).drainEnd else if kind = qsCmp then (s.engine e).drainEnd else (s.outp e).drainEnd

section
variable {kind e : Nat} {s : State}

theorem qsAfter_no_reset (pass reEnable : Bool) : qsAfter false pass reEnable = if reEnable then .active else .idle := rfl

theorem unitEnded_of_no_reset {v : ConvUnit} (noReset : v.resetDue = false) (m : QsMode) (b : Bool) :
    ({ v with mode := m, reEnable := b, resetDue := false } : ConvUnit) = { v with mode := m, reEnable := b } := by
  rw [← noReset]

theorem unitDrained_eq (routes : s.str.routes = []) (draining : (s.unit e).mode = .draining)
    (noReset : (s.unit e).resetDue = false) : unitDrained e s = drainEnds qsConv e s := by
  have ended : qsChanged qsConv e (s.setUnit e { s.unit e with
      mode := if (s.unit e).reEnable then .active else .idle, reEnable := false, resetDue := false }) = drainEnds qsConv e s :=
    congrArg (fun v => qsChanged qsConv e (s.setUnit e v)) (unitEnded_of_no_reset noReset _ false)
  have still : recheck (drainEnds qsConv e s) = drainEnds qsConv e s := recheck_self (s := drainEnds qsConv e s) routes
  simp only [unitDrained, draining, noReset, qsAfter_no_reset, ne_eq, not_true_eq_false, Bool.false_eq_true, if_false, ended, still]

theorem engineEnded_of_no_reset {v : CmpEngine} (noReset : v.resetDue = false) (m : QsMode) (b : Bool) :
    ({ v with mode := m, reEnable := b, resetDue := false } : CmpEngine) = { v with mode := m, reEnable := b } := by
  rw [← noReset]

theorem engineDrained_eq (ins : s.str.ins = []) (routes : s.str.routes = []) (draining : (s.engine e).mode = .draining)
    (noReset : (s.engine e).resetDue = false) (noWrite : ∀ b ∈ s.fs.bufs, b.2.mode ≠ .writing) :
    engineDrained e s = drainEnds qsCmp e s := by
  have stops : engineStops e (drainEnds qsCmp e s) = drainEnds qsCmp e s :=
    engineStops_self (s := drainEnds qsCmp e s) ins e routes noWrite
  have retried : recheck (retryStreams (drainEnds qsCmp e s)) = drainEnds qsCmp e s :=
    recheck_retryStreams (s := drainEnds qsCmp e s) ins routes
  have ended : qsChanged qsCmp e (s.setEngine e { s.engine e with
      mode := if (s.engine e).reEnable then .active else .idle, reEnable := false, resetDue := false }) = drainEnds qsCmp e s :=
    congrArg (fun v => qsChanged qsCmp e (s.setEngine e v)) (engineEnded_of_no_reset noReset _ false)
  simp only [engineDrained, draining, noReset, qsAfter_no_reset, ne_eq, not_true_eq_false, Bool.false_eq_true, if_false, ended, stops,
    retried, ite_self]

theorem outEnded_of_no_reset {v : OutState} (noReset : v.resetDue = false) (m : CompMode) (b : Bool) :
    ({ v with comp := m, reEnable := b, resetDue := false } : OutState) = { v with comp := m, reEnable := b } := by
  rw [← noReset]

theorem outDrained_eq (routes : s.str.routes = []) (draining : (s.outp e).comp = .draining)
    (noReset : (s.outp e).resetDue = false) : outDrained e s = drainEnds qsOut e s := by
  have ended : qsChanged qsOut e (s.setOutp e { s.outp e with
      comp := if (s.outp e).reEnable then .active else .idle, reEnable := false, resetDue := false }) = drainEnds qsOut e s :=
    congrArg (fun v => qsChanged qsOut e (s.setOutp e v)) (outEnded_of_no_reset noReset _ false)
  have still : recheck (drainEnds qsOut e s) = drainEnds qsOut e s := recheck_self (s := drainEnds qsOut e s) routes
  cases on : (s.outp e).reEnable
  all_goals
    simp only [on, if_true, Bool.false_eq_true, if_false] at ended
    simp only [outDrained, draining, noReset, on, qsAfter_no_reset, ne_eq, not_true_eq_false, Bool.false_eq_true, if_true,
      if_false, ended, still]

theorem drained_of_draining (shared : kind = qsConv ∨ kind = qsCmp ∨ kind = qsOut) (drains : Draining kind e s)
    (ins : s.str.ins = []) (routes : s.str.routes = []) : drained kind e s = drainEnds kind e s := by
  obtain ⟨unit, engine, out⟩ := drains
  rcases shared with rfl | rfl | rfl
  · obtain ⟨draining, noReset⟩ := unit rfl
    exact unitDrained_eq routes draining noReset
  · obtain ⟨draining, noReset, noWrite⟩ := engine rfl
    exact engineDrained_eq ins routes draining noReset noWrite
  · obtain ⟨draining, noReset⟩ := out rfl
    exact outDrained_eq routes draining noReset

theorem drainOver_of_draining (shared : kind = qsConv ∨ kind = qsCmp ∨ kind = qsOut) (drains : Draining kind e s) :
    drainOver s kind e = decide (drainEndOf kind e s ≤ s.dt) := by
  obtain ⟨unit, engine, out⟩ := drains
  rcases shared with rfl | rfl | rfl
  · obtain ⟨draining, -⟩ := unit rfl
    show ((s.unit e).mode == .draining && decide ((s.unit e).drainEnd ≤ s.dt)) = _
    rw [draining]
    rfl
  · obtain ⟨draining, -⟩ := engine rfl
    show ((s.engine e).mode == .draining && decide ((s.engine e).drainEnd ≤ s.dt)) = _
    rw [draining]
    rfl
  · obtain ⟨draining, -⟩ := out rfl
    show ((s.outp e).comp == .draining && decide ((s.outp e).drainEnd ≤ s.dt)) = _
    rw [draining]
    rfl

/-- Without a route no output stream has lines to conceal (R171). -/
theorem convCutOff_self (u : Nat) (routes : s.str.routes = []) : convCutOff u s = s := by
  have plain (r : Nat) : rKind (s.route r).image ≠ 1 := by
    have none_ : s.route r = {} := congrArg (tget (fun _ => ({} : Route)) · r) routes
    rw [none_]
    decide
  unfold convCutOff
  split
  · rfl
  · dsimp only
    split
    · exact if_neg fun h => plain _ h.1
    · rfl

/-- The work lost at the limit of a drain, counted for its function and in all. -/
def lossCounted (kind e lost : Nat) (s : State) : State :=
  ({ s with sup := { s.sup with
      qsDiscarded := tset (fun _ => 0) s.sup.qsDiscarded (qsKey kind e)
        (tget (fun _ => 0) s.sup.qsDiscarded (qsKey kind e) + lost) } } : State).count Reg.qsForcedCount 1

theorem raises_qsForced (lost : Nat) : Raises [Ev.quiesceForced] (lossCounted kind e lost s) (qsForced kind e lost s) :=
  raises_raise _ _ _

/-- A drain goes on while the loss is counted and told. -/
theorem draining_qsForced (lost : Nat) (drains : Draining kind e s) : Draining kind e (qsForced kind e lost s) := by
  have conv : (qsForced kind e lost s).conv = s.conv := raise_conv _ _ _
  have cmp : (qsForced kind e lost s).cmp = s.cmp := raise_cmp _ _ _
  have comp : (qsForced kind e lost s).comp = s.comp := raise_comp _ _ _
  have bufs : (qsForced kind e lost s).fs.bufs = s.fs.bufs := raise_fs_bufs _ _ _
  simpa only [Draining, State.unit, State.engine, State.outp, conv, cmp, comp, bufs] using drains

theorem drainEnds_withRaised (b a : State) : drainEnds kind e (withRaised b a) = withRaised b (drainEnds kind e a) := by
  unfold drainEnds
  by_cases unit : kind = qsConv
  · rw [if_pos unit, if_pos unit]
    rfl
  · by_cases engine : kind = qsCmp
    · rw [if_neg unit, if_pos engine, if_neg unit, if_pos engine]
      rfl
    · rw [if_neg unit, if_neg engine, if_neg unit, if_neg engine]
      rfl

theorem exec_drainLimit_early {t : Nat} (lost : Nat) (shared : kind = qsConv ∨ kind = qsCmp ∨ kind = qsOut)
    (drains : Draining kind e s) (early : max s.dt t < drainEndOf kind e s) :
    exec (.drainLimit t kind e lost) s = .next (s.begin t) := by
  have runs : drainOver (s.begin t) kind e = false :=
    (drainOver_of_draining (s := s.begin t) shared drains).trans (decide_eq_false (Nat.not_le.mpr early))
  have noStore : kind ≠ qsStore := by rcases shared with rfl | rfl | rfl <;> decide
  show execDrainLimit t kind e lost s = _
  simp only [execDrainLimit, runs, noStore, Bool.false_eq_true, false_and, if_false]

theorem exec_drainLimit_over {t : Nat} (lost : Nat) (shared : kind = qsConv ∨ kind = qsCmp ∨ kind = qsOut)
    (drains : Draining kind e s) (ins : s.str.ins = []) (routes : s.str.routes = []) (late : drainEndOf kind e s ≤ max s.dt t) :
    exec (.drainLimit t kind e lost) s = .next (drainEnds kind e (qsForced kind e lost (s.begin t))) := by
  have reached : drainOver (s.begin t) kind e = true :=
    (drainOver_of_draining (s := s.begin t) shared drains).trans (decide_eq_true late)
  have whole : (s.begin t).whenever (kind == qsConv) (convCutOff e) = s.begin t := by
    rw [State.whenever, convCutOff_self e (s := s.begin t) routes, ite_self]
  have str : (qsForced kind e lost (s.begin t)).str = s.str := raise_str _ _ _
  have ended := drained_of_draining shared (draining_qsForced (s := s.begin t) lost drains)
    ((congrArg StrState.ins str).trans ins) ((congrArg StrState.routes str).trans routes)
  show execDrainLimit t kind e lost s = _
  simp only [execDrainLimit, reached, if_true, whole, ended]

end

/-- Settles O44: with no input stream and no route nothing waits for the function, so each command is the change of its function
alone, and a loss at the limit of a drain is told before the drain ends as it would have been after. -/
theorem enginesAndDrains : Obligations.EnginesAndDrains := by
  intro t e src s ins routes z v replied new refused
  refine ⟨fun done => ⟨fun no => answered_of_run done (cmpApplyOp_of_refused no),
      fun yes => answered_of_run done (cmpApplyOp_of_admitted (s := z) ins routes yes)⟩,
    fun done => ⟨fun active => answered_of_run done (cmpDisableOp_of_active (s := z) ins active),
      fun draining => ⟨answered_of_run done (cmpDisableOp_of_draining (s := z) draining),
        answered_of_run done (cmpEnableOp_of_draining (s := z) draining)⟩,
      fun off => answered_of_run done (cmpDisableOp_of_off (s := z) off),
      fun other => answered_of_run done (cmpEnableOp_of_other (s := z) other),
      fun idle => answered_of_run done (cmpEnableOp_of_idle (s := z) ins routes idle),
      fun pass inService => answered_of_run done (cmpRetestOp_of_not_isolated (s := z) pass inService),
      fun isolated => answered_of_run done (cmpRetestOp_of_failed (s := z) isolated),
      fun isolated inside open_ => ?_, fun isolated inside shut => ?_, answered_of_run done rfl⟩,
    fun done => answered_of_run done rfl, ?_⟩
  · have back := portReturned_engine_self (s := retested e z) inside open_
    refine answered_of_run done ((cmpRetestOp_of_passed (s := z) isolated ?_ ?_).trans (congrArg (·, stDone) back))
    · exact (congrArg (·.str.ins) back).trans ins
    · exact (congrArg (·.str.routes) back).trans routes
  · have back := portReturned_engine (s := retested e z) inside shut
    have str : (portReturned (80 + e) (retested e z)).str = s.str := (congrArg State.str back).trans (raise_str _ _ _)
    have run := cmpRetestOp_of_passed (s := z) isolated ((congrArg StrState.ins str).trans ins)
      ((congrArg StrState.routes str).trans routes)
    exact ⟨_, answered_of_run done (run.trans (congrArg (·, stDone) back)), raises_raise _ _ _⟩
  · intro kind shared drains limit ends runs
    exact ⟨congrArg Host.Outcome.next (drained_of_draining (s := z) shared runs ins routes), fun lost =>
      ⟨fun early => exec_drainLimit_early lost shared runs early,
        fun late => ⟨_, exec_drainLimit_over lost shared runs ins routes late,
          raises_update drainEnds_withRaised (raises_qsForced (s := z) lost)⟩⟩⟩

end Sys2Proof.Proofs
end

section
/-! Firmware trials (R597, R598), hung masters (R592 to R594, R605), assets (R269, R271, R602) and the service window (R603). -/

namespace Sys2Proof.Proofs

open Machine Laws

/-! What stands while in-service changes come and go (R600). -/

/-- From a to b the firmware's trial and the bank to start from stay, and no latched event is lost. -/
structure TrialStands (a b : State) : Prop where
  trial : b.sup.trial = a.sup.trial
  startBank : b.nvm.startBank = a.nvm.startBank
  latched : ∀ i, bit a.evt.status i = true → bit b.evt.status i = true

namespace TrialStands

variable {a b c : State}

theorem same (trial : b.sup.trial = a.sup.trial) (startBank : b.nvm.startBank = a.nvm.startBank) (evt : b.evt = a.evt) :
    TrialStands a b :=
  ⟨trial, startBank, fun _ latched => evt ▸ latched⟩

theorem refl (a : State) : TrialStands a a := same rfl rfl rfl

theorem trans (h : TrialStands a b) (k : TrialStands b c) : TrialStands a c :=
  ⟨k.trial.trans h.trial, k.startBank.trans h.startBank, fun i latched => k.latched i (h.latched i latched)⟩

/-- `trans` for a last step whose start is read off from where it ends. -/
theorem before (k : TrialStands b c) (h : TrialStands a b) : TrialStands a c := h.trans k

theorem of_raises {ids : List Nat} (h : Raises ids a b) : TrialStands a b :=
  ⟨h.raised.sup ▸ rfl, h.raised.nvm ▸ rfl, fun i latched => h.latched i (.inl latched)⟩

theorem ite {q : Prop} [Decidable q] (h : TrialStands a b) (k : TrialStands a c) : TrialStands a (if q then b else c) := by
  split <;> assumption

theorem each {α : Type} {f : State → α → State} (h : ∀ s x, TrialStands s (f s x)) (l : List α) (s : State) :
    TrialStands s (s.each l f) := by
  unfold State.each
  induction l generalizing s with
  | nil => exact .refl s
  | cons x r ih => exact (h s x).trans (ih (f s x))

end TrialStands

/-! Sources of time and frames under way of a lane that leaves READY (R129, R432). -/

theorem trialStands_raise (s : State) (id : Nat) (items : List Nat) : TrialStands s (s.raise id items) :=
  .of_raises (raises_raise s id items)

theorem trialStands_refLostEvent (n reason : Nat) (s : State) : TrialStands s (refLostEvent n reason s) :=
  .ite (.refl s) (trialStands_raise _ _ _)

theorem trialStands_refInactive (n : Nat) (s : State) : TrialStands s (refInactive n s) :=
  .ite (.refl s) (.before (trialStands_refLostEvent n 1 _) (.same rfl rfl rfl))

theorem trialStands_refActive (n : Nat) (s : State) : TrialStands s (refActive n s) := .ite (.same rfl rfl rfl) (.refl s)

theorem trialStands_laneClock (lane : Nat) (ready : Bool) (s : State) : TrialStands s (laneClock lane ready s) :=
  .each (fun s n => .ite (.ite (trialStands_refActive n s) (trialStands_refInactive n s)) (.refl s)) _ s

theorem trialStands_breakFrames (lane : Nat) (s : State) : TrialStands s (breakFrames lane s) :=
  .ite (.refl s) (.each (fun x k => .same (b := x.modIns k _) rfl rfl rfl) _ s)

theorem trialStands_phaseLost (lane : Nat) (s : State) : TrialStands s (phaseLost lane s) :=
  .each (fun x n => .before (trialStands_raise _ Ev.phaseLost [n]) (.same (a := x) (b := x.setPhase n _) rfl rfl rfl)) _ s

theorem trialStands_leaveReady (lane : Nat) (s : State) : TrialStands s (leaveReady lane s) :=
  .ite (((trialStands_laneClock lane false s).trans (trialStands_breakFrames lane _)).trans (trialStands_phaseLost lane _)) (.refl s)

theorem trialStands_startTraining (lane : Nat) (s : State) : TrialStands s (startTraining lane s) := by
  refine (trialStands_leaveReady lane s).trans ?_
  unfold startTraining
  dsimp only
  split <;> exact .same rfl rfl rfl

/-! The link above it (R407, R418). -/

theorem trialStands_pushCtl (lane type body : Nat) (s : State) : TrialStands s (pushCtl lane type body s) :=
  .ite (.same rfl rfl rfl) (.refl s)

theorem trialStands_sendBond (op lane : Nat) (s : State) : TrialStands s (sendBond op lane s) := by
  unfold sendBond
  split
  · exact .refl s
  · split
    · exact trialStands_pushCtl _ _ _ s
    · exact .refl s

theorem trialStands_excludeMember (lane : Nat) (s : State) : TrialStands s (excludeMember lane s) := by
  unfold excludeMember
  split
  · exact .refl s
  · exact .ite (.refl s) (.before (trialStands_sendBond 0 lane _) (.same rfl rfl rfl))

/-- The end of a staged write touches the write, a bank of firmware and its registers. -/
theorem endStaged_eq (key : Nat) (s : State) : ∃ staged banks regs, endStaged key s = { s with
    regs := regs, dap := { s.dap with staged := staged }, nvm := { s.nvm with banks := banks } } := by
  unfold endStaged
  split
  · exact ⟨_, _, _, rfl⟩
  · dsimp only
    split <;> exact ⟨_, _, _, rfl⟩

theorem trialStands_endStaged (key : Nat) (s : State) : TrialStands s (endStaged key s) := by
  obtain ⟨_, _, _, eq⟩ := endStaged_eq key s
  rw [eq]
  exact .same rfl rfl rfl

theorem trialStands_pathDown (p : Nat) (s : State) : TrialStands s (pathDown p s) := by
  have sessions : TrialStands s (endSessions (fun x => x.who.path == p) s) := .same rfl rfl rfl
  have staged := sessions.trans (.each (fun s k => trialStands_endStaged k s)
    ((okeys (endSessions (fun x => x.who.path == p) s).dap.staged).filter fun k => (keyReq k).path == p) _)
  exact .ite (staged.trans (.same rfl rfl rfl)) (staged.trans (.same rfl rfl rfl))

theorem trialStands_leaveUp (lane : Nat) (s : State) : TrialStands s (leaveUp lane s) :=
  .before (trialStands_pathDown (3 + lane) _) (.same rfl rfl rfl)

theorem trialStands_linkPhyDown (lane : Nat) (s : State) : TrialStands s (linkPhyDown lane s) := by
  have left : TrialStands s (if (s.link lane).mode = .up then
      (leaveUp lane s).modLink lane fun l => { l with leftAt := some s.dt } else s) :=
    .ite ((trialStands_leaveUp lane s).trans (.same rfl rfl rfl)) (.refl s)
  exact .ite (.refl s) (.before (trialStands_excludeMember lane _) (left.trans (.same rfl rfl rfl)))

/-! In-service changes (R600). -/

theorem trialStands_laneRetrain (lane : Nat) (s : State) : TrialStands s (laneRetrain lane s) := by
  have trains (x : State) : TrialStands x (linkPhyDown lane (startTraining lane x)) :=
    (trialStands_startTraining lane x).trans (trialStands_linkPhyDown lane _)
  unfold laneRetrain
  dsimp only
  split
  · exact .before (.ite (trains _) ((trialStands_sendBond 1 lane _).trans (.same rfl rfl rfl))) (.same rfl rfl rfl)
  · exact .before (trains _) (.same rfl rfl rfl)

theorem trialStands_startEvac (k : Nat) (s : State) : TrialStands s (startEvac k s) :=
  .ite (.before (.ite (trialStands_raise _ _ _) (.refl _)) (.same rfl rfl rfl))
    (.ite (.same rfl rfl rfl) (.before (trialStands_raise _ _ _) (.same rfl rfl rfl)))

theorem trialStands_runChange (key : Nat) (s : State) : TrialStands s (runChange key s) :=
  .ite (trialStands_laneRetrain _ s) (.ite (.same rfl rfl rfl) (trialStands_startEvac _ s))

theorem trialStands_nextChange (n : Nat) (s : State) : TrialStands s (nextChange n s) := by
  induction n generalizing s with
  | zero => exact .refl s
  | succ n ih =>
    unfold nextChange
    split
    · next k ks _ _ =>
      have runs := (trialStands_runChange k { s with sup := { s.sup with inservice := some k, waiting := ks } }).before
        (.same (a := s) rfl rfl rfl)
      exact .ite (.before (ih _) (runs.trans (.same rfl rfl rfl))) runs
    · exact .refl s

theorem endChange_firmware (s : State) : endChange firmwareChange s =
    if s.sup.inservice = some firmwareChange then nextChange 64 { s with sup := { s.sup with inservice := none } }
    else { s with sup := { s.sup with waiting := s.sup.waiting.erase firmwareChange } } := by
  have noSweep : ¬ firmwareChange / 256 = 5 := by decide
  simp only [endChange, noSweep, false_and, if_false]

theorem trialStands_endChange_firmware (s : State) : TrialStands s (endChange firmwareChange s) := by
  rw [endChange_firmware]
  exact .ite (.before (trialStands_nextChange 64 _) (.same rfl rfl rfl)) (.same rfl rfl rfl)

theorem endChange_firmware_alone {s : State} (runs : s.sup.inservice = some firmwareChange) (alone : s.sup.waiting = []) :
    endChange firmwareChange s = { s with sup := { s.sup with inservice := none } } := by
  simp only [endChange_firmware, runs, if_true, nextChange, alone]

/-! An operation that the gate lets through. -/

/-- The answer to an operation that is known up to what P says of the state after it. -/
theorem answered_of_exists {src : Src} {key status : Nat} {commit : Bool} {op : State → State × Nat} {z : State} {P : State → Prop}
    (done : gate src key commit z = stDone) (run : ∃ u, op z = (u, status) ∧ P u) :
    ∃ u : State, (.next (answer src key commit op z) : Res) = .next (u.emit (.status src.who status)) ∧ P u := by
  obtain ⟨u, run, holds⟩ := run
  exact ⟨u, answered_of_run done run, holds⟩

/-! FW_IMAGE (R597). -/

theorem raises_firmwareEvent (id bank reason : Nat) (s : State) : Raises [id] s (firmwareEvent id bank reason s) :=
  raises_raiseAs _ _ _ _

section
variable {d : List Nat} {ok : Bool} {s : State}

theorem fwImageOp_of_verified (verified : fwCode s d ok = 0) : ∃ u, fwImageOp d ok s = (u, stDone) ∧ Raises [Ev.fwUpdateVerified]
    (((s.setReg Reg.fwUpdateResult (fwCode s d ok)).setBank s.idleBank
      ⟨1, fiRelease d, fiMinRelease d, fiBuild d, crc32c d⟩).setReg Reg.fwUpdateState 2) u :=
  ⟨_, if_pos verified, raises_firmwareEvent _ _ _ _⟩

/-- An image that comes during a trial leaves both banks as they were: the model's reading of R597. -/
theorem fwImageOp_of_trial (trial : fwCode s d ok = 5) : ∃ u, fwImageOp d ok s = (u, stBusy) ∧
    Raises [Ev.fwUpdateRefused] (s.setReg Reg.fwUpdateResult (fwCode s d ok)) u := by
  refine ⟨_, ?_, raises_firmwareEvent Ev.fwUpdateRefused s.idleBank (fwCode s d ok) _⟩
  simp only [fwImageOp, trial]
  rfl

theorem fwImageOp_of_refused (code : fwCode s d ok ≠ 0) (noTrial : fwCode s d ok ≠ 5) :
    ∃ u, fwImageOp d ok s = (u, if fwCode s d ok = 4 then stNvm else stValue) ∧ Raises [Ev.fwUpdateRefused]
      (((s.setReg Reg.fwUpdateResult (fwCode s d ok)).setBank s.idleBank
        { s.bank s.idleBank with state := 2 }).setReg Reg.fwUpdateState 0) u := by
  refine ⟨_, ?_, raises_firmwareEvent Ev.fwUpdateRefused s.idleBank (fwCode s d ok) _⟩
  simp only [fwImageOp, fwStatus, code, noTrial, if_false]
  rfl

end

/-! The processor restarts (R476, R482). -/

theorem endStaged_evt (key : Nat) (s : State) : (endStaged key s).evt = s.evt := by
  obtain ⟨_, _, _, eq⟩ := endStaged_eq key s
  rw [eq]

theorem endStaged_sup (key : Nat) (s : State) : (endStaged key s).sup = s.sup := by
  obtain ⟨_, _, _, eq⟩ := endStaged_eq key s
  rw [eq]

/-- A field that no step of a repetition touches. -/
theorem each_field {α β : Type} {f : State → α → State} {field : State → β} (h : ∀ s x, field (f s x) = field s) (l : List α)
    (s : State) : field (s.each l f) = field s := by
  unfold State.each
  induction l generalizing s with
  | nil => rfl
  | cons x r ih => exact (ih (f s x)).trans (h s x)

theorem abortSave_evt (s : State) : (abortSave s).evt = s.evt := by unfold abortSave; split <;> rfl

theorem abortSave_sup (s : State) : (abortSave s).sup = s.sup := by unfold abortSave; split <;> rfl

theorem abortSave_save (s : State) : (abortSave s).dap.save = none := by
  unfold abortSave
  split
  · rfl
  · next noSave => exact Option.not_isSome_iff_eq_none.mp noSave

theorem processorAnew_evt (s : State) : (processorAnew s).evt = s.evt :=
  (abortSave_evt _).trans (each_field (field := State.evt) (fun x k => endStaged_evt k x) _ s)

theorem processorAnew_sup (s : State) : (processorAnew s).sup = s.sup :=
  (abortSave_sup _).trans (each_field (field := State.sup) (fun x k => endStaged_sup k x) _ s)

theorem processorAnew_dap (s : State) :
    (processorAnew s).dap.save = none ∧ (processorAnew s).dap.kept = [] ∧ (processorAnew s).dap.waiting = [] :=
  ⟨abortSave_save _, rfl, rfl⟩

/-! Trials (R598). -/

/-- A trial is over, and its revert is told. -/
def Reverted (u : State) : Prop := u.sup.trial = none ∧ bit u.evt.status Ev.fwReverted = true

theorem Reverted.of_stands {a b : State} (h : TrialStands a b) (reverted : Reverted a) : Reverted b :=
  ⟨h.trial.trans reverted.1, h.latched _ reverted.2⟩

theorem reverted_firmwareEvent (bank : Nat) {s : State} (ended : s.sup.trial = none) :
    Reverted (firmwareEvent Ev.fwReverted bank 0 s) :=
  have told := raises_firmwareEvent Ev.fwReverted bank 0 s
  ⟨(TrialStands.of_raises told).trial.trans ended, told.latched _ (.inr (List.mem_singleton.mpr rfl))⟩

/-- The revert is told before the changes that waited for the trial run on. -/
theorem reverted_trialEnds {b x : Nat} {s : State} (trial : s.sup.trial = some (b, x)) : Reverted (trialEnds true s) := by
  simp only [trialEnds, trial, if_true]
  exact .of_stands (trialStands_endChange_firmware _) (reverted_firmwareEvent b rfl)

theorem reverted_procRestart {b x : Nat} {s : State} (trial : s.sup.trial = some (b, x)) : Reverted (procRestart s) :=
  reverted_trialEnds ((congrArg SupState.trial (processorAnew_sup s)).trans trial)

section
variable {s : State}

theorem fwTrialOp_of_busy (busy : s.sup.inservice.isSome = true) : fwTrialOp s = (s, stBusy) := if_pos busy

theorem fwTrialOp_of_unverified (free : s.sup.inservice = none) (unverified : (s.bank s.idleBank).state ≠ 1) :
    fwTrialOp s = (s, stValue) := by
  simp only [fwTrialOp, free, Option.isSome_none, Bool.false_eq_true, if_false, unverified, ne_eq, not_false_eq_true, if_true]

/-- A trial that begins, before the processor restarts into it. -/
def trialTold (s : State) : State :=
  firmwareEvent Ev.fwActivated s.idleBank 0
    (({ s with sup := { s.sup with trial := some (s.idleBank, s.dt), inservice := some firmwareChange } } : State).setReg
      Reg.fwUpdateState 3)

theorem fwTrialOp_of_verified (free : s.sup.inservice = none) (verified : (s.bank s.idleBank).state = 1) :
    fwTrialOp s = ((processorAnew (trialTold s)).setReg Reg.fwActiveBank s.idleBank, stDone) := by
  simp only [fwTrialOp, free, Option.isSome_none, Bool.false_eq_true, if_false, verified, ne_eq, not_true_eq_false]
  rfl

theorem trialTold_sup (s : State) : (trialTold s).sup =
    { s.sup with trial := some (s.idleBank, s.dt), inservice := some firmwareChange } :=
  (raises_firmwareEvent _ _ _ _).raised.sup

theorem trialTold_latched (s : State) : bit (trialTold s).evt.status Ev.fwActivated = true :=
  (raises_firmwareEvent _ _ _ _).latched _ (.inr (List.mem_singleton.mpr rfl))

/-- A trial that is confirmed, before the changes that waited for it run on. -/
def confirmed (b : Nat) (s : State) : State :=
  (({ s with
    sup := { s.sup with trial := none }
    nvm := { s.nvm with startBank := b } } : State).setReg Reg.fwMinRelease
      (max (s.reg Reg.fwMinRelease) (s.bank b).minRelease)).setReg Reg.fwUpdateState 4

theorem fwConfirmOp_of_trial {b x : Nat} (trial : s.sup.trial = some (b, x)) :
    fwConfirmOp s = (endChange firmwareChange (confirmed b s), stDone) := by
  simp only [fwConfirmOp, trial]
  rfl

theorem fwConfirmOp_of_none (noTrial : s.sup.trial = none) : fwConfirmOp s = (s, stValue) := by
  simp only [fwConfirmOp, noTrial]

theorem fwRevertOp_of_trial {b x : Nat} (trial : s.sup.trial = some (b, x)) : fwRevertOp s = (procRestart s, stDone) := by
  simp only [fwRevertOp, trial, Option.isSome_some, if_true]

theorem fwRevertOp_of_none (noTrial : s.sup.trial = none) : fwRevertOp s = (s, stValue) := by
  simp only [fwRevertOp, noTrial, Option.isSome_none, Bool.false_eq_true, if_false]

end

/-- FW_CONFIRM_TIME of a trial has passed at t. -/
def ConfirmDue (t : Nat) (s : State) : Prop :=
  ∃ b x, s.sup.trial = some (b, x) ∧ x + s.reg Reg.fwConfirmTime * sec ≤ max s.dt t

theorem exec_fwConfirmTimeout_of_trial {t b x : Nat} {s : State} (trial : s.sup.trial = some (b, x)) :
    exec (.fwConfirmTimeout t) s = .next (if x + s.reg Reg.fwConfirmTime * sec ≤ max s.dt t
      then procRestart (s.begin t) else s.begin t) := by
  have trial' : (s.begin t).sup.trial = some (b, x) := trial
  show execFwConfirmTimeout t s = _
  simp only [execFwConfirmTimeout, trial']
  rfl

theorem exec_fwConfirmTimeout_of_none {t : Nat} {s : State} (noTrial : s.sup.trial = none) :
    exec (.fwConfirmTimeout t) s = .next (s.begin t) := by
  have noTrial' : (s.begin t).sup.trial = none := noTrial
  show execFwConfirmTimeout t s = _
  simp only [execFwConfirmTimeout, noTrial']

theorem exec_fwConfirmTimeout_early {t : Nat} {s : State} (early : ¬ ConfirmDue t s) :
    exec (.fwConfirmTimeout t) s = .next (s.begin t) := by
  cases trial : s.sup.trial with
  | none => exact exec_fwConfirmTimeout_of_none trial
  | some p =>
    rw [exec_fwConfirmTimeout_of_trial (b := p.1) (x := p.2) trial, if_neg fun passed => early ⟨p.1, p.2, trial, passed⟩]

theorem exec_fwConfirmTimeout_due {t : Nat} {s : State} (due : ConfirmDue t s) :
    exec (.fwConfirmTimeout t) s = .next (procRestart (s.begin t)) ∧ Reverted (procRestart (s.begin t)) := by
  obtain ⟨b, x, trial, passed⟩ := due
  rw [exec_fwConfirmTimeout_of_trial trial, if_pos passed]
  exact ⟨rfl, reverted_procRestart (s := s.begin t) trial⟩

/-! The bus matrix (R592 to R594). -/

/-- A hang that is counted, before it is told. -/
def hangCounted (h : Hang) (s : State) : State :=
  let m := s.busMaster h.master
  let a := s.setBusMaster h.master { m with hangs := min 0xFFFF (m.hangs + 1) }
  ({ a with sup := { a.sup with lastHang := h } } : State).count Reg.busHangCount 1

/-- A hang that is told, before its master is reset. -/
def hangTold (h : Hang) (s : State) : State :=
  (hangCounted h s).raiseAs (Ev.busWatchdog h.master) [h.master] (.as 8 (leBytes 24 (hangNumber h)))

theorem raises_hangTold (h : Hang) (s : State) : Raises [Ev.busWatchdog h.master] (hangCounted h s) (hangTold h s) :=
  raises_raiseAs _ _ _ _

theorem exec_busWatchdogExpiry_of_master {h : Hang} (t : Nat) (s : State) (master : h.master < 6) :
    exec (.busWatchdogExpiry t h) s = .next (masterReset h (hangTold h (s.begin t))) :=
  congrArg Host.Outcome.next (if_pos master)

theorem exec_busWatchdogExpiry_of_no_master {h : Hang} (t : Nat) (s : State) (noMaster : 6 ≤ h.master) :
    exec (.busWatchdogExpiry t h) s = .next (s.begin t) :=
  congrArg Host.Outcome.next (if_neg (Nat.not_lt.mpr noMaster))

/-- A record written twice leaves the queue as it was, and takes no sequence number (R594). -/
theorem recordTwice_keeps (s : State) :
    (recordTwice s).cb.queue = s.cb.queue ∧ (recordTwice s).nvm.cb.nextSeq = s.nvm.cb.nextSeq := by
  unfold recordTwice
  split
  · exact ⟨rfl, rfl⟩
  · dsimp only
    split <;> exact ⟨rfl, rfl⟩

section
variable {h : Hang} (s : State)

theorem masterReset_processor (master : h.master = 0) : masterReset h s = procRestart s := by simp only [masterReset, master]

theorem masterReset_none (master : h.master = 1) : masterReset h s = s := by simp only [masterReset, master]

theorem masterReset_assetLoader (master : h.master = 2) : masterReset h s = s.setReg Reg.assetResult 5 := by
  simp only [masterReset, master]

theorem masterReset_casebook (master : h.master = 3) : masterReset h s = recordTwice s := by simp only [masterReset, master]

theorem masterReset_window (master : h.master = 4) : masterReset h s = s.setReg Reg.svcWindowState 2 := by
  simp only [masterReset, master]

/-- Which output's descriptors lie at an address is an uninterpreted function (log entry 32). -/
theorem masterReset_descriptors (master : h.master = 5) : masterReset h s =
    (let n := Config.descriptorOutput h.address % 64
    { s with sup := { s.sup with keepRecords := n :: s.sup.keepRecords.erase n } }) := by
  simp only [masterReset, master]

end

/-! Assets (R269, R271, R602). -/

section
variable {d : List Nat} {ok : Bool} {s : State}

/-- The asset that ASSET_WRITE carries takes its place, and no layer misses it. -/
def assetPut (d : List Nat) (s : State) : State := { s with
  nvm := { s.nvm with assets := oset s.nvm.assets (leNat (d.take 2)) (some
    ⟨leNat ((d.drop 2).take 2), leNat ((d.drop 4).take 2), nth d 6 0, d.drop 16, leNat ((d.drop 12).take 4)⟩) }
  comp := { s.comp with missing := s.comp.missing.erase (leNat (d.take 2)) } }

theorem assetWriteOp_of_good (good : assetCode s d ok = 0) : assetWriteOp d ok s =
    (recheck ((assetPut d (s.setReg Reg.assetResult (assetCode s d ok))).raise Ev.assetStored [leNat (d.take 2)]), stDone) :=
  if_pos good

theorem assetWriteOp_of_nvm (nvm : assetCode s d ok = 5) :
    assetWriteOp d ok s = (s.setReg Reg.assetResult (assetCode s d ok), stNvm) := by
  simp only [assetWriteOp, nvm]
  rfl

theorem assetWriteOp_of_refused (code : assetCode s d ok ≠ 0) (taken : assetCode s d ok ≠ 5) : assetWriteOp d ok s =
    ((s.setReg Reg.assetResult (assetCode s d ok)).raise Ev.assetRefused [leNat (d.take 2), assetCode s d ok], stValue) := by
  simp only [assetWriteOp, code, taken, if_false]

theorem assetProtected_iff (s : State) (id : Nat) :
    assetProtected s id = true ↔ fld (s.reg Reg.unvAsset) 15 0 = id ∨ ∃ r ∈ s.safeRecords, recordNames id r = true := by
  simp only [assetProtected, Bool.or_eq_true, beq_iff_eq, List.any_eq_true]

variable {id : Nat}

theorem assetDeleteOp_of_protected (kept : assetProtected s id = true) :
    assetDeleteOp id s = ((s.setReg Reg.assetResult 4).raise Ev.assetRefused [id, 4], stValue) := if_pos kept

theorem assetDeleteOp_of_absent (unkept : ¬ assetProtected s id = true) (absent : oget s.nvm.assets id = none) :
    assetDeleteOp id s = (s, stValue) :=
  (if_neg unkept).trans (if_pos (Option.isNone_iff_eq_none.mpr absent))

theorem assetDeleteOp_of_stored (unkept : ¬ assetProtected s id = true) (stored : (oget s.nvm.assets id).isSome = true) :
    assetDeleteOp id s = (recheck { s with nvm := { s.nvm with assets := oset s.nvm.assets id none } }, stDone) :=
  have present : ¬ (oget s.nvm.assets id).isNone = true := mt Option.isNone_iff_eq_none.mp (Option.isSome_iff_ne_none.mp stored)
  (if_neg unkept).trans (if_neg present)

end

/-! The service window (R603). -/

/-- From s to u the window serves an access, and the first is told. What lies at a raw address is outside the model: a write
changes nothing else (log entry 32). -/
def WindowOpened (s u : State) : Prop :=
  (s.sup.windowOpened = true → u = s.setReg Reg.svcWindowState 1) ∧
  (s.sup.windowOpened = false → Raises [Ev.serviceWindowOpen]
    { s.setReg Reg.svcWindowState 1 with sup := { s.sup with windowOpened := true } } u)

theorem windowOpened_windowOpens (s : State) : WindowOpened s (windowOpens s) := by
  refine ⟨fun again => if_pos again, fun first => ?_⟩
  have opens : windowOpens s =
      ({ s.setReg Reg.svcWindowState 1 with sup := { s.sup with windowOpened := true } } : State).raise Ev.serviceWindowOpen [4] :=
    if_neg (by rw [setReg_sup, first]; exact Bool.false_ne_true)
  rw [opens]
  exact raises_raise _ _ _

theorem windowOpens_free (s : State) : (windowOpens s).free = s.free := by
  unfold windowOpens
  dsimp only
  split
  · rfl
  · exact raise_free _ _ _

/-- The window serves no access of this requester. -/
def WindowClosed (src : Src) (s : State) : Prop := s.nvm.lc ≠ 3 ∨ src.auth = false

/-- The selected range is none that an access may reach. -/
def RangeForbidden (write : Bool) (s : State) : Prop :=
  swLength (s.reg Reg.svcWindowSel) = 0 ∨
    Config.windowForbids (swAddress (s.reg Reg.svcWindowSel)) (swLength (s.reg Reg.svcWindowSel)) write = true

section
variable {src : Src} {write : Bool} {s : State}

theorem windowClosed_iff : WindowClosed src s ↔ s.nvm.lc ≠ 3 ∨ (!src.auth) = true := by
  rw [WindowClosed, Bool.not_eq_true']

theorem windowCode_of_closed (closed : WindowClosed src s) : windowCode s src.auth write = stNotNow :=
  if_pos (windowClosed_iff.mp closed)

theorem windowCode_of_forbidden (opened : ¬ WindowClosed src s) (forbidden : RangeForbidden write s) :
    windowCode s src.auth write = stValue :=
  (if_neg (mt windowClosed_iff.mpr opened)).trans (if_pos forbidden)

theorem windowCode_of_permitted (opened : ¬ WindowClosed src s) (permitted : ¬ RangeForbidden write s) :
    windowCode s src.auth write = stDone :=
  (if_neg (mt windowClosed_iff.mpr opened)).trans (if_neg permitted)

end

section
variable {t : Nat} {src : Src} {s : State}

theorem exec_svcWindowAccess_of_refused {data : Option (List Nat)} {status : Nat} (refused : status ≠ stDone)
    (code : windowCode (s.begin t) src.auth data.isSome = status) :
    exec (.svcWindowAccess t src data) s = .next ((s.begin t).emit (.status src.who status)) := by
  subst code
  exact congrArg Host.Outcome.next (if_pos refused)

theorem exec_svcWindowAccess_write {d : List Nat} (served : windowCode (s.begin t) src.auth true = stDone) :
    exec (.svcWindowAccess t src (some d)) s =
      .next (answer src Reg.svcWindowData false (windowWriteOp d) (s.begin t)) :=
  congrArg Host.Outcome.next (if_neg (not_not_intro served))

theorem exec_svcWindowAccess_read (served : windowCode (s.begin t) src.auth false = stDone) :
    exec (.svcWindowAccess t src none) s = .next ((windowReadOp (s.begin t)).2.emit (.bytes src.who (windowReadOp (s.begin t)).1)) :=
  congrArg Host.Outcome.next (if_neg (not_not_intro served))

theorem windowWriteOp_of_other_length {d : List Nat} (other : d.length ≠ swLength (s.reg Reg.svcWindowSel)) :
    windowWriteOp d s = (s, stLength) := if_pos other

theorem windowWriteOp_of_length {d : List Nat} (whole : d.length = swLength (s.reg Reg.svcWindowSel)) :
    windowWriteOp d s = (windowOpens s, stDone) := if_neg (not_not_intro whole)

theorem windowReadOp_eq (s : State) : ∃ bytes, bytes.length = swLength (s.reg Reg.svcWindowSel) ∧ windowReadOp s =
    (bytes, { windowOpens s with free := s.free + swLength (s.reg Reg.svcWindowSel) }) := by
  refine ⟨(windowReadOp s).1, ?_, ?_⟩
  · rw [windowReadOp, State.drawBytes, List.length_map, List.length_range]
  · rw [← windowOpens_free s]
    rfl

end

/-- Settles O60: each command is its operation, case by case. Where a trial ends, the changes that waited for it run on, and they
spare what its end has settled: no trial, the start bank and every latched event (`trialStands_endChange_firmware`). -/
theorem firmwareAssetsAndBus : Obligations.FirmwareAssetsAndBus := by
  intro t src s now z replied idle reverted
  refine ⟨fun d ok done => ?image, fun done => ?trial, ?confirmTime, fun h => ?hang, fun done => answered_of_run done rfl,
    fun d ok done => ?write, fun id done => ?delete, fun data => ?window⟩
  case image =>
    exact ⟨fun verified => answered_of_exists done (fwImageOp_of_verified verified),
      fun trial => answered_of_exists done (fwImageOp_of_trial trial),
      fun code noTrial => answered_of_exists done (fwImageOp_of_refused code noTrial)⟩
  case trial =>
    refine ⟨fun busy => answered_of_run done (fwTrialOp_of_busy (s := z) busy),
      fun free unverified => answered_of_run done (fwTrialOp_of_unverified (s := z) free unverified),
      fun free verified => ?_, fun noTrial => ⟨answered_of_run done (fwConfirmOp_of_none (s := z) noTrial),
        answered_of_run done (fwRevertOp_of_none (s := z) noTrial)⟩, fun b x trial => ⟨?_, fun runs alone => ?_, ?_⟩⟩
    · have sup := (processorAnew_sup (trialTold z)).trans (trialTold_sup z)
      obtain ⟨save, kept, waiting⟩ := processorAnew_dap (trialTold z)
      refine ⟨_, answered_of_run done (fwTrialOp_of_verified (s := z) free verified), congrArg SupState.trial sup,
        congrArg SupState.inservice sup, save, kept, waiting, ?_⟩
      rw [processorAnew_evt]
      exact trialTold_latched z
    · have stands := trialStands_endChange_firmware (confirmed b z)
      exact ⟨_, answered_of_run done (fwConfirmOp_of_trial (s := z) trial), stands.trial, stands.startBank⟩
    · exact answered_of_run done ((fwConfirmOp_of_trial (s := z) trial).trans
        (congrArg (·, stDone) (endChange_firmware_alone (s := confirmed b z) runs alone)))
    · exact ⟨_, answered_of_run done (fwRevertOp_of_trial (s := z) trial), reverted_procRestart (s := z) trial⟩
  case confirmTime => exact ⟨exec_fwConfirmTimeout_early, fun due => ⟨_, exec_fwConfirmTimeout_due due⟩⟩
  case hang =>
    refine ⟨exec_busWatchdogExpiry_of_no_master t s, fun master => ⟨hangTold h z, raises_hangTold h z, ?_⟩⟩
    have run := exec_busWatchdogExpiry_of_master t s master
    have told : (hangTold h z).sup.keepRecords = (hangCounted h z).sup.keepRecords :=
      congrArg SupState.keepRecords (raises_hangTold h z).raised.sup
    have nvm : (hangTold h z).nvm = s.nvm := (raises_hangTold h z).raised.nvm
    refine ⟨fun m => ?_, fun m => ?_, fun m => ?_, fun m => ⟨_, run, ?_⟩, fun m => ?_, fun m => ?_⟩
    · rw [run, masterReset_processor _ m]
    · rw [run, masterReset_none _ m]
    · rw [run, masterReset_assetLoader _ m]
    · rw [masterReset_casebook _ m, ← nvm]
      exact recordTwice_keeps _
    · rw [run, masterReset_window _ m]
    · rw [run, masterReset_descriptors _ m, told]
      rfl
  case write =>
    exact ⟨fun good => ⟨_, answered_of_run done (assetWriteOp_of_good good), raises_raise _ _ _⟩,
      fun nvm => answered_of_run done (assetWriteOp_of_nvm nvm),
      fun code taken => ⟨_, answered_of_run done (assetWriteOp_of_refused code taken), raises_raise _ _ _⟩⟩
  case delete =>
    have protected_iff := assetProtected_iff z (id % 2 ^ 16)
    exact ⟨fun kept => ⟨_, answered_of_run done (assetDeleteOp_of_protected (protected_iff.mpr kept)), raises_raise _ _ _⟩,
      fun unkept absent => answered_of_run done (assetDeleteOp_of_absent (mt protected_iff.mp unkept) absent),
      fun unkept stored => answered_of_run done (assetDeleteOp_of_stored (mt protected_iff.mp unkept) stored)⟩
  case window =>
    refine ⟨fun closed => exec_svcWindowAccess_of_refused (by decide) (windowCode_of_closed (s := z) closed),
      fun opened forbidden => exec_svcWindowAccess_of_refused (by decide) (windowCode_of_forbidden (s := z) opened forbidden),
      fun opened permitted => ⟨?_, ?_⟩⟩
    · rintro d rfl done
      have run := exec_svcWindowAccess_write (d := d) (windowCode_of_permitted (s := z) opened permitted)
      exact ⟨fun other => run.trans (answered_of_run done (windowWriteOp_of_other_length other)),
        fun whole => ⟨_, run.trans (answered_of_run done (windowWriteOp_of_length whole)), windowOpened_windowOpens z⟩⟩
    · rintro rfl
      obtain ⟨bytes, length, read⟩ := windowReadOp_eq z
      have run := exec_svcWindowAccess_read (windowCode_of_permitted (s := z) opened permitted)
      exact ⟨windowOpens z, bytes, windowOpened_windowOpens z, length, run.trans (by rw [read]; rfl)⟩

end Sys2Proof.Proofs
end

section
/-! OUT_COMMIT and the boundary of an output stream on tables in force that are not canonical (R62, R299, R302). -/

namespace Sys2Proof.Proofs

open Machine

/-! OUT_COMMIT of a raster that is OFF. -/

/-- The machine in service, with the raster record of output 0 in force listed twice, at MODE 1: not the canonical form of a table,
which the statement does not ask for. The raster is OFF, and its shadow asks for MODE 0, the default. -/
def rasterTwice : State :=
  { State.reset with
    start := { next := 12 }, inForce := [(Reg.outRaster 0, 2 ^ 126), (Reg.outRaster 0, 2 ^ 126)] }

/-- The raster of output 0 in the next state. -/
def rasterAfter (o : Res) : RasterMode :=
  match o with
  | .next u => (u.outp 0).raster
  | _ => .off

/-- The shadows of output 0 break no rule, with the routes planned and with those in force. -/
theorem outputCode_rasterTwice :
    let z := rasterTwice.begin 0
    let plan (m : Nat) : OutQueued := if m = 0 then z.outShadows 0 else z.outPlan m
    outputCode z plan (plannedImages z.planned) 0 = 0 ∧ outputCode z plan z.liveImages 0 = 0 ∧
      switchLacking z 0 (raMode (z.outShadows 0).raster) = false := by decide +kernel

/-- The commit takes the first listing out, as the shadow is the default, and the raster follows MODE of the second. -/
theorem rasterAfter_outCommit : rasterAfter (exec (.outCommit 0 ethernetHost 0) rasterTwice) = .starting := by decide +kernel

/-- Refutes O40: where the tables in force are not canonical, a raster that is OFF does not follow the MODE that is committed. On
`rasterTwice` every condition of the clause on such a raster holds and MODE of the snapshot is 0, yet the raster starts. -/
theorem not_outputCommits : ¬ Obligations.OutputCommits := by
  intro holds
  obtain ⟨-, commit, -⟩ := holds 0 0 ethernetHost rasterTwice
  obtain ⟨-, -, -, -, off⟩ := commit (by decide +kernel) (by decide)
  obtain ⟨planned, live, offered⟩ := outputCode_rasterTwice
  have noCommit : (rasterTwice.outp 0).queued = none := rfl
  have rasterOff : (rasterTwice.outp 0).raster = .off := rfl
  obtain ⟨u, run, -, -, -, -, raster, -⟩ := off
    (by simp [noCommit, rasterOff]) (by simp only [planned, live, offered]; decide) rasterOff (by decide +kernel) (by decide)
  have modeZero : raMode ((rasterTwice.begin 0).outShadows 0).raster = 0 := by decide +kernel
  have starts := rasterAfter_outCommit
  rw [run] at starts
  rw [modeZero] at raster
  exact absurd (raster.symm.trans starts) (by decide)

/-! The boundary of an output stream for which a descriptor waits. -/

/-- A descriptor in use: output stream 0 leaves on lane 1, without an engine. -/
def lane1Stream : Nat := 2 ^ 126 + 2 ^ 109

/-- The machine after reset with the link of lane 1 UP and the output table in force listed twice, output stream 0 in use on that lane;
an empty descriptor waits for the stream's boundary. -/
def outputsTwice : State :=
  { State.reset with
    inForce := [(Reg.strOutTable, lane1Stream), (Reg.strOutTable, lane1Stream)]
    lnk := [(1, { mode := .up })]
    str := { State.reset.str with outWait := [(0, some 0)] } }

/-- How many control folios wait on lane 1 in the next state. -/
def foliosAfter (o : Res) : Nat :=
  match o with
  | .next u => (u.link 1).queue.length
  | _ => 0

/-- The boundary takes the first listing out, as the table that comes into force is the default, and the descriptor of the second is
announced on its lane. -/
theorem foliosAfter_outputFrameBoundary : foliosAfter (exec (.outputFrameBoundary 0 (.stream 0)) outputsTwice) = 1 := by
  decide +kernel

/-- Refutes O41: where the tables in force are not canonical, the boundary of an output stream announces a descriptor that is not
the one that waited. On `outputsTwice` every condition of the clause on a waiting descriptor holds, among them that the link of its
lane is not UP, yet a folio is sent on lane 1. -/
theorem not_outputFrames : ¬ Obligations.OutputFrames := by
  intro holds
  obtain ⟨-, -, -, boundary, -⟩ := holds 0 0 outputsTwice (by decide) rfl rfl
  have run := boundary 0 0 rfl (by decide +kernel) rfl rfl rfl (by decide +kernel) (by decide +kernel)
  have sent := foliosAfter_outputFrameBoundary
  rw [run] at sent
  exact absurd sent (by decide)

end Sys2Proof.Proofs
end

section
/-! The audio engine (R319 to R335). When a crossfade is taken up, at a block boundary or at once by a command, is the model's
choice (log entry 71). -/

namespace Sys2Proof.Proofs

open Machine Laws

/-! The tables of the engine written and read. -/

theorem each_nil {α : Type} (s : State) (f : State → α → State) : s.each [] f = s := rfl

theorem tget_of_not_listed {α : Type} (d : Nat → α) {m : Tbl α} {k : Nat} (h : k ∉ m.map (·.1)) : tget d m k = d k := by
  induction m with
  | nil => rfl
  | cons x r ih =>
    simp only [List.map_cons, List.mem_cons, not_or] at h
    rw [tget, if_neg (Ne.symm h.1), ih h.2]

/-- In a canonical table the value just written is read back. -/
theorem tget_tset_canonical {α : Type} [DecidableEq α] {d : Nat → α} {m : Tbl α} (canonical : twf d m = true) (k : Nat) (v : α) :
    tget d (tset d m k v) k = v := by
  simp only [twf, Bool.and_eq_true] at canonical
  exact tget_tset_same d m k v canonical.1

theorem tget_tset_canonical_at {α : Type} [DecidableEq α] {d : Nat → α} {m : Tbl α} (canonical : twf d m = true) (k j : Nat)
    (v : α) : tget d (tset d m k v) j = if j = k then v else tget d m j := by
  split
  · next same => rw [same, tget_tset_canonical canonical]
  · next other => exact tget_tset_other d m k j v other

/-- The values at the keys of a list changed by g, one after the other. -/
def tmapAt {α : Type} [DecidableEq α] (d : Nat → α) (g : α → α) (m : Tbl α) (l : List Nat) : Tbl α :=
  l.foldl (fun m k => tset d m k (g (tget d m k))) m

theorem tmapAt_cons {α : Type} [DecidableEq α] (d : Nat → α) (g : α → α) (m : Tbl α) (k : Nat) (l : List Nat) :
    tmapAt d g m (k :: l) = tmapAt d g (tset d m k (g (tget d m k))) l := rfl

/-- A change that does nothing the second time takes place at every key of the list, and at no other. -/
theorem tget_tmapAt {α : Type} [DecidableEq α] {d : Nat → α} {g : α → α} (once : ∀ v, g (g v) = g v) (l : List Nat) {m : Tbl α}
    (canonical : twf d m = true) (j : Nat) : tget d (tmapAt d g m l) j = if j ∈ l then g (tget d m j) else tget d m j := by
  induction l generalizing m with
  | nil => simp [tmapAt]
  | cons k l ih =>
    rw [tmapAt_cons, ih (twf_tset d m k _ canonical), tget_tset_canonical_at canonical]
    by_cases same : j = k
    · simp [same, once]
    · simp [same]

/-- Where the default is unchanged, a change at the listed keys is a change at all. -/
theorem tget_tmapAt_listed {α : Type} [DecidableEq α] {d : Nat → α} {g : α → α} (once : ∀ v, g (g v) = g v)
    (still : ∀ k, g (d k) = d k) {m : Tbl α} (canonical : twf d m = true) (j : Nat) :
    tget d (tmapAt d g m (m.map (·.1))) j = g (tget d m j) := by
  rw [tget_tmapAt once _ canonical]
  split
  · rfl
  · next unlisted => rw [tget_of_not_listed d unlisted, still]

theorem audOut_setAudOut {s : State} (canonical : twf (fun _ => ({} : AudOut)) s.aud.outs = true) (o j : Nat) (v : AudOut) :
    (s.setAudOut o v).audOut j = if j = o then v else s.audOut j := tget_tset_canonical_at canonical o j v

theorem chime_setChime {s : State} (canonical : twf (fun _ => ({} : Chime)) s.aud.chimes = true) (g j : Nat) (c : Chime) :
    (s.setChime g c).chime j = if j = g then c else s.chime j := tget_tset_canonical_at canonical g j c

/-- A port that has counted a frame is no default, so it is read back from any table. -/
theorem tdm_setTdm {v : TdmPort} (s : State) (p : Nat) (framed : v.frames ≠ 0) : (s.setTdm p v).tdm p = v :=
  tget_tset_set _ _ _ _ fun e => framed (congrArg TdmPort.frames e)

theorem setTdm_setTdm {v : TdmPort} (w : TdmPort) (s : State) (p : Nat) (framed : v.frames ≠ 0) :
    (s.setTdm p v).setTdm p w = s.setTdm p w :=
  congrArg (fun m => ({ s with aud := { s.aud with tdm := m } } : State))
    (tset_tset (fun _ => {}) s.aud.tdm p w fun e => framed (congrArg TdmPort.frames e))

/-! Output channels follow what they hear (R323, R325). -/

/-- What output channel o hears through crosspoints. -/
def heardBy (xs : List Nat) (s : State) (o : Nat) : List (Nat × Nat) := if s.audCarries o then s.hears xs o else []

/-- The sound of an output channel has changed, or its delay. -/
def hearsAnew (xs moved : List Nat) (s : State) (o : Nat) : Bool := heardBy xs s o != (s.audOut o).heard || moved.contains o

/-- One output channel takes up what it hears, with a crossfade. -/
def takesUp (xs : List Nat) (s : State) (o : Nat) : State := crossfade o (s.modAudOut o fun a => { a with heard := heardBy xs s o })

/-- One step of `audioFollow`. -/
def followOne (xs moved : List Nat) (s : State) (o : Nat) : State :=
  if heardBy xs s o = (s.audOut o).heard ∧ !moved.contains o then s else takesUp xs s o

theorem audioFollow_eq (moved : List Nat) (s : State) :
    audioFollow moved s = s.each (List.range 512) (followOne (xpoints (s.force Reg.audXpointTable)) moved) := rfl

theorem followOne_eq (xs moved : List Nat) (s : State) (o : Nat) :
    followOne xs moved s o = if hearsAnew xs moved s o then takesUp xs s o else s := by
  unfold followOne hearsAnew
  by_cases same : heardBy xs s o = (s.audOut o).heard <;> cases moved.contains o <;> simp [same]

/-- x is a with a crossfade begun on exactly the channels of l that hear anew, each counted. -/
def Follows (xs moved l : List Nat) (a x : State) : Prop :=
  (∀ o, x.audOut o = if o ∈ l.filter (hearsAnew xs moved a) then { a.audOut o with heard := heardBy xs a o, xfade := some a.dt }
    else a.audOut o) ∧
  x.reg Reg.audXfadeCount = a.reg Reg.audXfadeCount + (l.filter (hearsAnew xs moved a)).length ∧
  (∀ k, k ≠ Reg.audXfadeCount → x.reg k = a.reg k) ∧
  x = { a with regs := x.regs, aud := { a.aud with outs := x.aud.outs } }

section
variable (xs : List Nat) (s : State) (o : Nat)

theorem heardBy_takesUp (j : Nat) : heardBy xs (takesUp xs s o) j = heardBy xs s j := rfl

/-- The count is no default after a crossfade, so that it is read back from any table. -/
theorem reg_takesUp_count : (takesUp xs s o).reg Reg.audXfadeCount = s.reg Reg.audXfadeCount + 1 := by
  have default : entryDefault Reg.audXfadeCount = 0 := by decide
  exact tget_tset_set _ _ _ _ (by rw [default]; exact Nat.succ_ne_zero _)

theorem reg_takesUp_other {k : Nat} (other : k ≠ Reg.audXfadeCount) : (takesUp xs s o).reg k = s.reg k :=
  reg_setReg_other _ _ _ _ other

theorem canonical_takesUp (canonical : twf (fun _ => ({} : AudOut)) s.aud.outs = true) :
    twf (fun _ => ({} : AudOut)) (takesUp xs s o).aud.outs = true := twf_tset _ _ _ _ (twf_tset _ _ _ _ canonical)

theorem audOut_takesUp (canonical : twf (fun _ => ({} : AudOut)) s.aud.outs = true) (j : Nat) : (takesUp xs s o).audOut j =
    if j = o then { s.audOut o with heard := heardBy xs s o, xfade := some s.dt } else s.audOut j := by
  have first := audOut_setAudOut canonical o
  have second := audOut_setAudOut (s := s.modAudOut o fun a => { a with heard := heardBy xs s o }) (twf_tset _ _ _ _ canonical) o
  refine (second j _).trans ?_
  simp only [State.modAudOut, first, if_true]
  split <;> rfl

theorem hearsAnew_takesUp (moved : List Nat) (canonical : twf (fun _ => ({} : AudOut)) s.aud.outs = true) {j : Nat} (other : j ≠ o) :
    hearsAnew xs moved (takesUp xs s o) j = hearsAnew xs moved s j := by
  simp only [hearsAnew, heardBy_takesUp, audOut_takesUp xs s o canonical, if_neg other]

end

/-- A walk over channels, each met once, changes those that hear anew when it begins: a crossfade of one is not heard on another. -/
theorem follows_each (xs moved : List Nat) {l : List Nat} (once : l.Nodup) {a : State}
    (canonical : twf (fun _ => ({} : AudOut)) a.aud.outs = true) : Follows xs moved l a (a.each l (followOne xs moved)) := by
  induction l generalizing a with
  | nil => exact ⟨fun o => rfl, rfl, fun k _ => rfl, rfl⟩
  | cons o l ih =>
    obtain ⟨fresh, once⟩ := List.nodup_cons.mp once
    have step : a.each (o :: l) (followOne xs moved) = (followOne xs moved a o).each l (followOne xs moved) := rfl
    rw [step, followOne_eq]
    cases anew : hearsAnew xs moved a o with
    | false =>
      have same : (o :: l).filter (hearsAnew xs moved a) = l.filter (hearsAnew xs moved a) := List.filter_cons_of_neg (by simp [anew])
      unfold Follows
      rw [same]
      exact ih once canonical
    | true =>
      obtain ⟨outs, count, regs, rest⟩ := ih once (canonical_takesUp xs a o canonical)
      have later : l.filter (hearsAnew xs moved (takesUp xs a o)) = l.filter (hearsAnew xs moved a) :=
        List.filter_congr fun j mem => hearsAnew_takesUp xs a o moved canonical (ne_of_mem_of_not_mem mem fresh)
      have first : (o :: l).filter (hearsAnew xs moved a) = o :: l.filter (hearsAnew xs moved a) := List.filter_cons_of_pos anew
      have unmet : o ∉ l.filter (hearsAnew xs moved a) := fun mem => fresh (List.mem_filter.mp mem).1
      rw [later] at outs count
      refine ⟨fun j => ?_, ?_, fun k other => (regs k other).trans (reg_takesUp_other xs a o other), ?_⟩
      · rw [first]
        refine (outs j).trans ?_
        rw [audOut_takesUp xs a o canonical, heardBy_takesUp]
        by_cases same : j = o
        · subst same
          simp [unmet]
        · simp only [List.mem_cons, same, false_or, if_false]
          rfl
      · rw [first, List.length_cons]
        refine count.trans ?_
        rw [reg_takesUp_count]
        omega
      · exact rest

/-- The crosspoints in force decide what `audioFollow` does. -/
theorem follows_audioFollow (moved : List Nat) {s : State} (canonical : twf (fun _ => ({} : AudOut)) s.aud.outs = true) :
    Follows (xpoints (s.force Reg.audXpointTable)) moved (List.range 512) s (audioFollow moved s) := by
  rw [audioFollow_eq]
  exact follows_each _ moved List.nodup_range canonical

/-! AUD_COMMIT (R328). -/

/-- The shadows of the eight port setups. -/
def tdmShadows (s : State) : List Nat := (List.range 8).map fun p => s.reg (Reg.tdmSetup p)

/-- The code of AUD_COMMIT. -/
def commitCode (s : State) : Nat := audCheck s (s.reg Reg.audXpointTable) (s.reg Reg.audOutTable) (tdmShadows s)

theorem audCommitOp_of_refused {s : State} (code : commitCode s ≠ 0) : ∃ u, audCommitOp s = (u, stValue) ∧
    Raises [Ev.audCommitRefused] (s.setReg Reg.audCommitResult (commitCode s)) u := by
  unfold commitCode tdmShadows at *
  unfold audCommitOp
  dsimp only
  rw [if_pos code]
  exact ⟨_, rfl, raises_raise _ _ _⟩

theorem audCommitOp_of_admitted {s : State} (code : commitCode s = 0) : audCommitOp s =
    (({ s with aud := { s.aud with
      waiting := some ⟨s.dt, s.reg Reg.audXpointTable, s.reg Reg.audOutTable, tdmShadows s⟩ } } : State).setReg Reg.audCommitResult 1,
      stDone) := by
  unfold commitCode tdmShadows at *
  unfold audCommitOp
  dsimp only
  rw [if_neg (Classical.not_not.mpr code)]

/-! Block boundaries (R322, R323, R328). -/

theorem tdmApply_dt (p v : Nat) (s : State) : (tdmApply p v s).dt = s.dt := by
  unfold tdmApply
  dsimp only
  split
  · rfl
  · split <;> rfl

theorem tdmApply_outs (p v : Nat) (s : State) : (tdmApply p v s).aud.outs = s.aud.outs := by
  unfold tdmApply
  dsimp only
  split
  · rfl
  · split <;> rfl

/-- The tables of a commit in force, and the ports that follow their setups. -/
def tablesApplied (c : AudCommit) (s : State) : State :=
  ((s.setForce Reg.audXpointTable c.xpoints).setForce Reg.audOutTable c.outs).each (List.range 8) fun a p => tdmApply p (nth c.tdm p 0) a

theorem tablesApplied_dt (c : AudCommit) (s : State) : (tablesApplied c s).dt = s.dt :=
  each_field (field := State.dt) (fun s p => tdmApply_dt p (nth c.tdm p 0) s) (List.range 8) _

theorem tablesApplied_outs (c : AudCommit) (s : State) : (tablesApplied c s).aud.outs = s.aud.outs :=
  each_field (field := fun s => s.aud.outs) (fun s p => tdmApply_outs p (nth c.tdm p 0) s) (List.range 8) _

/-- The commit is made known and waits no longer. -/
def commitShown (c : AudCommit) (s : State) : State :=
  let b : State := ((tablesApplied c s).setReg Reg.audCommitResult 0).setReg Reg.audCommitDt s.dt
  { b with aud := { b.aud with waiting := none } }

/-- The channels in use whose delay a commit changes. -/
def delaysMoved (c : AudCommit) (s : State) : List Nat :=
  (List.range 512).filter fun o => aoDelay (record c.outs 0 96 o) != aoDelay (s.audOutRec o) && aoValid (record c.outs 0 96 o)

theorem audApply_eq (c : AudCommit) (s : State) :
    audApply c s = (audioFollow (delaysMoved c s) (commitShown c s)).each (List.range 512) duckChannel := by
  unfold commitShown
  rw [← tablesApplied_dt c s]
  rfl

/-- What the output channels do at a block boundary: they follow the tables that waited, or those in force. -/
def tablesFollow (s : State) : State :=
  match s.aud.waiting with
  | some c => audApply c s
  | none => audioFollow [] s

/-- Samples of an output channel that have clipped are counted. -/
def clipCounted (o n : Nat) (s : State) : State := (s.modAudOut o fun a => { a with clips := a.clips + n }).count Reg.audClips n

/-- The clips of one output channel are counted and reported. -/
def clipTold (s : State) (x : Nat × Nat) : State :=
  if x.2 = 0 then clipCounted x.1 x.2 s else (clipCounted x.1 x.2 s).raiseLimited sec Ev.audioClip [x.1]

section
variable {t : Nat} {s : State}

theorem exec_audioBlockBoundary (clipped readings : List (Nat × Nat)) : exec (.audioBlockBoundary t clipped readings) s =
    .next (if !(s.begin t).aud.running then s.begin t else
      ((tablesFollow (s.begin t)).each clipped clipTold).each readings takeReading) := rfl

theorem exec_audioBlockBoundary_stopped (clipped readings : List (Nat × Nat)) (stopped : s.aud.running = false) :
    exec (.audioBlockBoundary t clipped readings) s = .next (s.begin t) := by
  rw [exec_audioBlockBoundary, if_pos (by simp [stopped])]

theorem exec_audioBlockBoundary_runs (clipped readings : List (Nat × Nat)) (runs : s.aud.running = true) :
    exec (.audioBlockBoundary t clipped readings) s =
      .next (((tablesFollow (s.begin t)).each clipped clipTold).each readings takeReading) := by
  rw [exec_audioBlockBoundary, if_neg (by simp [runs])]

theorem tablesFollow_of_waiting {c : AudCommit} (waits : s.aud.waiting = some c) : tablesFollow s = audApply c s := by
  rw [tablesFollow, waits]

theorem tablesFollow_of_none (noCommit : s.aud.waiting = none) : tablesFollow s = audioFollow [] s := by
  rw [tablesFollow, noCommit]

theorem raises_clipTold (o : Nat) {n : Nat} (clips : n ≠ 0) (due : reportDue sec Ev.audioClip s.dt s) :
    Raises [Ev.audioClip] (clipCounted o n s) (clipTold s (o, n)) := by
  rw [clipTold, if_neg clips]
  exact raises_raiseLimited_of_due [o] due

end

/-- A crossfade is no report: one that was due is still due. -/
theorem reportDue_follows {xs moved l : List Nat} {a x : State} (h : Follows xs moved l a x) {period id : Nat}
    (due : reportDue period id a.dt a) : reportDue period id x.dt x := by
  obtain ⟨-, -, -, rest⟩ := h
  rw [rest]
  exact due

/-! Chimes (R330 to R332). -/

section
variable {g latency : Nat} {s : State}

theorem chimeEnable_of_usable (usable : s.chimeUsable g = true) : chimeEnable (s.chimeRec g) = true := by
  simp only [State.chimeUsable, Bool.and_eq_true] at usable
  exact usable.1.1.2

theorem chimeStartOp_of_disabled (latency : Nat) (off : chimeEnable (s.chimeRec g) = false) : chimeStartOp g latency s = (s, stValue) :=
  if_pos (by rw [off]; rfl)

theorem chimeStartOp_of_unusable (latency : Nat) (on : chimeEnable (s.chimeRec g) = true) (unusable : s.chimeUsable g = false) :
    chimeStartOp g latency s = (s, stDone) :=
  (if_neg (by simp [on])).trans (if_pos (by simp [unusable]))

/-- A generator that begins, with the longest latency kept. -/
def chimeBegun (g latency : Nat) (s : State) : State := (chimeBegin g s).setReg Reg.chimeWorst (max latency (s.reg Reg.chimeWorst))

/-- CHIME_PLAYED, and CHIME_LATE above 1 ms. -/
def chimeTold (g latency : Nat) (s : State) : State :=
  if 1000 < latency then (s.raise (Ev.chimePlayed g) [g]).raiseAs Ev.chimeLate [g, latency] .tied else s.raise (Ev.chimePlayed g) [g]

theorem raises_chimeTold (g latency : Nat) (s : State) :
    Raises (if 1000 < latency then [Ev.chimePlayed g, Ev.chimeLate] else [Ev.chimePlayed g]) s (chimeTold g latency s) := by
  unfold chimeTold
  split
  · exact (raises_raise s _ _).trans (raises_raiseAs _ _ _ _)
  · exact raises_raise s _ _

theorem chimeStartOp_of_usable (latency : Nat) (usable : s.chimeUsable g = true) :
    chimeStartOp g latency s = (chimeTold g latency (chimeBegun g latency s), stDone) :=
  (if_neg (by simp [chimeEnable_of_usable usable])).trans (if_neg (by simp [usable]))

theorem chimeStop_of_playing (plays : (s.chime g).playing = true) : chimeStop g s = chimeEnd g s := if_pos plays

theorem chimeStop_of_silent (silent : (s.chime g).playing = false) : chimeStop g s = s := if_neg (by simp [silent])

/-- Ducking changes output channels alone. -/
theorem duckEach_eq (l : List Nat) (s : State) : ∃ outs, s.each l duckChannel = { s with aud := { s.aud with outs := outs } } := by
  induction l generalizing s with
  | nil => exact ⟨_, rfl⟩
  | cons o l ih =>
    have one : ∃ outs, duckChannel s o = { s with aud := { s.aud with outs := outs } } := by
      unfold duckChannel
      dsimp only
      split
      · exact ⟨_, rfl⟩
      · exact ⟨_, rfl⟩
    obtain ⟨outs, one⟩ := one
    have step : s.each (o :: l) duckChannel = (duckChannel s o).each l duckChannel := rfl
    rw [step, one]
    obtain ⟨outs, later⟩ := ih { s with aud := { s.aud with outs := outs } }
    exact ⟨outs, later⟩

/-- A generator that has stopped. -/
def chimeEnded (c : Chime) : Chime := { c with playing := false, on := false, left := 0 }

theorem chimeEnd_eq (g : Nat) (s : State) : ∃ outs, chimeEnd g s =
    { s.setChime g (chimeEnded (s.chime g)) with aud := { (s.setChime g (chimeEnded (s.chime g))).aud with outs := outs } } := by
  unfold chimeEnd duckAll
  exact duckEach_eq _ _

/-- From a to u every generator of l has stopped; one that did not play is as it was. -/
structure ChimesStopped (l : List Nat) (a u : State) : Prop where
  stopped : ∀ n ∈ l, (u.chime n).playing = false
  silent : ∀ n, (a.chime n).playing = false → u.chime n = a.chime n
  rest : ∃ chimes outs, u = { a with aud := { a.aud with chimes := chimes, outs := outs } }

theorem chimesStopped_chimeStop (canonical : twf (fun _ => ({} : Chime)) s.aud.chimes = true) (g : Nat) :
    ChimesStopped [g] s (chimeStop g s) ∧ twf (fun _ => ({} : Chime)) (chimeStop g s).aud.chimes = true := by
  cases plays : (s.chime g).playing with
  | false =>
    rw [chimeStop_of_silent plays]
    exact ⟨⟨fun n mem => List.mem_singleton.mp mem ▸ plays, fun _ _ => rfl, _, _, rfl⟩, canonical⟩
  | true =>
    obtain ⟨outs, ended⟩ := chimeEnd_eq g s
    have at_ (n : Nat) : (chimeEnd g s).chime n = if n = g then chimeEnded (s.chime g) else s.chime n := by
      rw [ended]
      exact chime_setChime canonical g n _
    rw [chimeStop_of_playing plays]
    refine ⟨⟨fun n mem => ?_, fun n silent => ?_, _, outs, ended⟩, ?_⟩
    · rw [at_, if_pos (List.mem_singleton.mp mem)]
      rfl
    · have other : n ≠ g := by
        rintro rfl
        rw [plays] at silent
        cases silent
      rw [at_, if_neg other]
    · rw [ended]
      exact twf_tset _ _ _ _ canonical

theorem chimesStopped_each (l : List Nat) {s : State} (canonical : twf (fun _ => ({} : Chime)) s.aud.chimes = true) :
    ChimesStopped l s (s.each l fun s g => chimeStop g s) := by
  induction l generalizing s with
  | nil => exact ⟨fun n mem => (List.not_mem_nil mem).elim, fun _ _ => rfl, _, _, rfl⟩
  | cons g l ih =>
    have step : (s.each (g :: l) fun s g => chimeStop g s) = (chimeStop g s).each l fun s g => chimeStop g s := rfl
    rw [step]
    obtain ⟨first, canonical⟩ := chimesStopped_chimeStop canonical g
    obtain ⟨stopped, silent, chimes, outs, rest⟩ := ih canonical
    refine ⟨fun n mem => ?_, fun n still => ?_, chimes, outs, ?_⟩
    · rcases List.mem_cons.mp mem with rfl | mem
      · have still := first.stopped n (List.mem_singleton_self n)
        rw [silent n still, still]
      · exact stopped n mem
    · have same := first.silent n still
      rw [silent n (by rw [same, still]), same]
    · obtain ⟨_, _, before⟩ := first.rest
      rw [rest, before]

/-- The end of an ON period or a gap of a generator that plays. -/
def periodEnds (g : Nat) (s : State) : State :=
  let c := s.chime g
  if c.on then
    if c.left ≤ 1 then chimeEnd g s
    else s.setChime g { c with on := false, until_ := c.until_ + chimeOff (s.chimeRec g) * (10 * ms) }
  else s.setChime g { c with on := true, left := if c.left = 255 then 255 else c.left - 1, until_ := c.until_ + s.chimeOnTime g }

theorem chimeStep_early (early : (s.chime g).playing = false ∨ s.dt < (s.chime g).until_) : chimeStep g s = s :=
  if_pos (by simpa using early)

theorem chimeStep_due (plays : (s.chime g).playing = true) (due : (s.chime g).until_ ≤ s.dt) : chimeStep g s = periodEnds g s :=
  if_neg (by simpa [plays] using due)

end

/-! TDM ports (R319, R320). -/

/-- A frame of a port counted and its rate kept. -/
def frameCounted (rate : Nat) (v : TdmPort) : TdmPort := { v with frames := v.frames + 1, rate := rate }

/-- A port that enters a fault. -/
def portFaulted (mode : TdmMode) (v : TdmPort) : TdmPort := { v with mode := mode, errors := v.errors + 1, good := 0 }

/-- The frame rate measured is off by more than 1,000 ppm. -/
def RateOff (p rate : Nat) (s : State) : Prop :=
  (tsRate (s.tdmSetup p) : Int) < 1000 * ((rate : Int) - tsRate (s.tdmSetup p)).natAbs

theorem begin_tdm (s : State) (t p : Nat) : (s.begin t).tdm p = s.tdm p := rfl

theorem begin_tdmSetup (s : State) (t p : Nat) : (s.begin t).tdmSetup p = s.tdmSetup p := rfl

theorem frameCounted_frames (rate : Nat) (v : TdmPort) : (frameCounted rate v).frames ≠ 0 := Nat.succ_ne_zero _

section
variable {p : Nat} {s : State}

theorem tdmFault_same {mode : TdmMode} (event : Nat) (same : (s.tdm p).mode = mode) :
    tdmFault p mode event s = s.setTdm p { s.tdm p with good := 0 } := if_pos same

theorem tdmFault_new {mode : TdmMode} (event : Nat) (new : (s.tdm p).mode ≠ mode) :
    tdmFault p mode event s = (audioFollow [] (s.setTdm p (portFaulted mode (s.tdm p)))).raise event [p] := if_neg new

section
variable {v : TdmPort} (framed : v.frames ≠ 0)
include framed

theorem tdmFault_counted_same {mode : TdmMode} (event : Nat) (same : v.mode = mode) :
    tdmFault p mode event (s.setTdm p v) = s.setTdm p { v with good := 0 } := by
  have port := tdm_setTdm s p framed
  rw [tdmFault_same event (by rw [port, same]), port, setTdm_setTdm _ s p framed]

theorem tdmFault_counted_new {mode : TdmMode} (event : Nat) (new : v.mode ≠ mode) :
    tdmFault p mode event (s.setTdm p v) = (audioFollow [] (s.setTdm p (portFaulted mode v))).raise event [p] := by
  have port := tdm_setTdm s p framed
  rw [tdmFault_new event (by rwa [port]), port, setTdm_setTdm _ s p framed]

end

section
variable {t rate : Nat}

theorem exec_tdmFrame_off (off : (s.tdm p).mode = .off ∨ s.aud.running = false) :
    exec (.tdmFrame t p rate) s = .next (s.begin t) := congrArg Host.Outcome.next (if_pos off)

section
variable (on : (s.tdm p).mode ≠ .off) (runs : s.aud.running = true)
include on runs

/-- A frame of a port that is on. -/
theorem exec_tdmFrame_on : exec (.tdmFrame t p rate) s = .next (
    let v := s.tdm p
    let a := (s.begin t).setTdm p (frameCounted rate v)
    if !tsSlave (s.tdmSetup p) then a
    else if (tsRate (s.tdmSetup p) : Int) < 1000 * ((rate : Int) - tsRate (s.tdmSetup p)).natAbs then
      tdmFault p .rateError (Ev.tdmRateError p) a
    else if v.mode = .running then a
    else if 64 ≤ v.good + 1 then audioFollow [] (a.setTdm p { a.tdm p with mode := .running, good := 0 })
    else a.setTdm p { a.tdm p with good := v.good + 1 }) :=
  congrArg Host.Outcome.next (if_neg (by simp [begin_tdm, on, runs]))

theorem exec_tdmFrame_master (master : ¬ tsSlave (s.tdmSetup p) = true) :
    exec (.tdmFrame t p rate) s = .next ((s.begin t).setTdm p (frameCounted rate (s.tdm p))) := by
  simp [exec_tdmFrame_on on runs, master]

section
variable (slave : tsSlave (s.tdmSetup p) = true)
include slave

theorem exec_tdmFrame_rateOff (off : RateOff p rate s) : exec (.tdmFrame t p rate) s =
    .next (tdmFault p .rateError (Ev.tdmRateError p) ((s.begin t).setTdm p (frameCounted rate (s.tdm p)))) := by
  unfold RateOff at off
  simp only [exec_tdmFrame_on on runs, slave, Bool.not_true, Bool.false_eq_true, if_false, if_pos off]

variable (within : ¬ RateOff p rate s)
include within

theorem exec_tdmFrame_running (running : (s.tdm p).mode = .running) :
    exec (.tdmFrame t p rate) s = .next ((s.begin t).setTdm p (frameCounted rate (s.tdm p))) := by
  unfold RateOff at within
  simp only [exec_tdmFrame_on on runs, slave, Bool.not_true, Bool.false_eq_true, if_false, if_neg within, if_pos running]

variable (faulted : (s.tdm p).mode ≠ .running)
include faulted

theorem exec_tdmFrame_good (few : (s.tdm p).good < 63) : exec (.tdmFrame t p rate) s =
    .next ((s.begin t).setTdm p { frameCounted rate (s.tdm p) with good := (s.tdm p).good + 1 }) := by
  have few : ¬ 64 ≤ (s.tdm p).good + 1 := by omega
  have framed := frameCounted_frames rate (s.tdm p)
  unfold RateOff at within
  simp only [exec_tdmFrame_on on runs, slave, Bool.not_true, Bool.false_eq_true, if_false, if_neg within, if_neg faulted, if_neg few,
    tdm_setTdm _ _ framed, setTdm_setTdm _ _ _ framed]

theorem exec_tdmFrame_back (enough : 63 ≤ (s.tdm p).good) : exec (.tdmFrame t p rate) s =
    .next (audioFollow [] ((s.begin t).setTdm p { frameCounted rate (s.tdm p) with mode := .running, good := 0 })) := by
  have enough : 64 ≤ (s.tdm p).good + 1 := by omega
  have framed := frameCounted_frames rate (s.tdm p)
  unfold RateOff at within
  simp only [exec_tdmFrame_on on runs, slave, Bool.not_true, Bool.false_eq_true, if_false, if_neg within, if_neg faulted, if_pos enough,
    tdm_setTdm _ _ framed, setTdm_setTdm _ _ _ framed]

end

theorem exec_tdmClockTimeout_slave (slave : tsSlave (s.tdmSetup p) = true) :
    exec (.tdmClockTimeout t p) s = .next (tdmFault p .clockLost (Ev.tdmClockLost p) (s.begin t)) :=
  congrArg Host.Outcome.next (if_neg (by simp [begin_tdm, begin_tdmSetup, on, runs, slave]))

end

theorem exec_tdmClockTimeout_idle (idle : (s.tdm p).mode = .off ∨ s.aud.running = false ∨ ¬ tsSlave (s.tdmSetup p) = true) :
    exec (.tdmClockTimeout t p) s = .next (s.begin t) :=
  congrArg Host.Outcome.next (if_pos (by simpa [begin_tdm, begin_tdmSetup] using idle))

end
end

/-! AUD_MUTE_ALL (R335), and ratio errors (R321). -/

/-- The mute of all program set. -/
def muteSet (value : Nat) (s : State) : State :=
  { s.setReg Reg.audMuteAll value with aud := { s.aud with
      muted := value == 1, muteSince := if (value == 1) = s.aud.muted then s.aud.muteSince else s.dt } }

theorem audMuteOp_of_range {value : Nat} {s : State} (beyond : 1 < value) : audMuteOp value s = (s, stValue) := if_pos beyond

theorem audMuteOp_of_value {value : Nat} {s : State} (within : value ≤ 1) :
    audMuteOp value s = (audioFollow [] (muteSet value s), stDone) := if_neg (Nat.not_lt.mpr within)

section
variable {t input out ratio : Nat} {s : State}

theorem exec_asrcUnlock_stopped (stopped : s.aud.running = false) : exec (.asrcUnlock t input out ratio) s = .next (s.begin t) :=
  congrArg Host.Outcome.next (if_pos (by simp [stopped]))

/-- A ratio measured while the engine runs. -/
theorem exec_asrcUnlock_runs (runs : s.aud.running = true) : exec (.asrcUnlock t input out ratio) s = .next (
    let z := s.begin t
    let a := s.audIn input
    if 100000 < (toInt 32 ratio).natAbs then
      if a.unlocked.contains out then z.setAudIn input { a with ratio := ratio }
      else (audioFollow [] (z.setAudIn input { a with unlocked := a.unlocked ++ [out], unlocks := a.unlocks + 1, ratio := ratio })).raise
        Ev.asrcUnlock [input, out]
    else audioFollow [] (z.setAudIn input { a with unlocked := a.unlocked.filter (· != out), ratio := ratio })) :=
  congrArg Host.Outcome.next (if_neg (by simp [runs]))

end

/-! AUD_STATS_CLEAR (R335). -/

theorem clear_eq (ks : List Nat) (s : State) : s.clear ks = { s with regs := (s.clear ks).regs } := by
  induction ks generalizing s with
  | nil => rfl
  | cons k ks ih => exact ih (s.setReg k 0)

theorem each_modAudOut (g : AudOut → AudOut) (l : List Nat) (s : State) : (s.each l fun s o => s.modAudOut o g) =
    { s with aud := { s.aud with outs := tmapAt (fun _ => {}) g s.aud.outs l } } := by
  induction l generalizing s with
  | nil => rfl
  | cons o l ih => exact ih (s.modAudOut o g)

theorem each_setAudIn (g : AudIn → AudIn) (l : List Nat) (s : State) : (s.each l fun s c => s.setAudIn c (g (s.audIn c))) =
    { s with aud := { s.aud with ins := tmapAt (fun _ => {}) g s.aud.ins l } } := by
  induction l generalizing s with
  | nil => rfl
  | cons c l ih => exact ih (s.setAudIn c (g (s.audIn c)))

theorem each_setTdm (g : TdmPort → TdmPort) (l : List Nat) (s : State) : (s.each l fun s p => s.setTdm p (g (s.tdm p))) =
    { s with aud := { s.aud with tdm := tmapAt (fun _ => {}) g s.aud.tdm l } } := by
  induction l generalizing s with
  | nil => rfl
  | cons p l ih => exact ih (s.setTdm p (g (s.tdm p)))

/-! What of a channel or a port AUD_STATS_CLEAR sets to 0. -/

def clipsCleared (v : AudOut) : AudOut := { v with clips := 0 }
def unlocksCleared (v : AudIn) : AudIn := { v with unlocks := 0 }
def portCleared (v : TdmPort) : TdmPort := { v with frames := 0, errors := 0 }

/-- What AUD_STATS_CLEAR leaves. -/
def statsCleared (s : State) : State :=
  { s with
    regs := (s.clear [Reg.audClips, Reg.audCrcMutes, Reg.audXfadeCount, Reg.chimeCount]).regs
    aud := { s.aud with
      outs := tmapAt (fun _ => {}) clipsCleared s.aud.outs (s.aud.outs.map (·.1))
      ins := tmapAt (fun _ => {}) unlocksCleared s.aud.ins (s.aud.ins.map (·.1))
      tdm := tmapAt (fun _ => {}) portCleared s.aud.tdm (List.range 8) } }

theorem audStatsClearOp_eq (s : State) : audStatsClearOp s = (statsCleared s, stDone) := by
  have walks : audStatsClearOp s = (
      let a := s.clear [Reg.audClips, Reg.audCrcMutes, Reg.audXfadeCount, Reg.chimeCount]
      let b := a.each (a.aud.outs.map (·.1)) fun s o => s.modAudOut o clipsCleared
      let c := b.each (b.aud.ins.map (·.1)) fun s c => s.setAudIn c (unlocksCleared (s.audIn c))
      c.each (List.range 8) fun s p => s.setTdm p (portCleared (s.tdm p)), stDone) := rfl
  rw [walks, clear_eq]
  simp only [each_modAudOut, each_setAudIn, each_setTdm]
  rfl

/-! Sounds (R333). -/

section
variable {data : List Nat} {ok : Bool} {s : State}

/-- The ID that the header of a sound names. -/
def soundId (data : List Nat) : Nat := leNat (data.take 2)

/-- The length that the header of a sound names. -/
def soundLength (data : List Nat) : Nat := leNat ((data.drop 8).take 4)

/-- A sound has its header, and the length that the header names. -/
def SoundSized (data : List Nat) : Prop := 16 ≤ data.length ∧ soundLength data = data.length - 16

/-- The header of a sound is in range, and its CRC is that of the sound. -/
def SoundFormed (data : List Nat) : Prop :=
  0 < soundId data ∧ soundId data ≤ 0xFFF ∧ soundLength data % 3 = 0 ∧ soundLength data ≤ 1440000 ∧
    crc32c (data.take 12 ++ data.drop 16) = leNat ((data.drop 12).take 4)

theorem not_soundSized_iff : ¬ SoundSized data ↔ data.length < 16 ∨ leNat ((data.drop 8).take 4) ≠ data.length - 16 := by
  unfold SoundSized soundLength
  omega

theorem not_soundFormed_iff : ¬ SoundFormed data ↔
    leNat (data.take 2) = 0 ∨ 0xFFF < leNat (data.take 2) ∨ leNat ((data.drop 8).take 4) % 3 ≠ 0 ∨
      1440000 < leNat ((data.drop 8).take 4) ∨ crc32c (data.take 12 ++ data.drop 16) ≠ leNat ((data.drop 12).take 4) := by
  unfold SoundFormed soundId soundLength
  omega

/-- Bytes in the store of the sound that a new one takes the place of. -/
def soundOld (data : List Nat) (s : State) : Nat :=
  match oget s.nvm.sounds (soundId data) with
  | some x => soundBytes x
  | none => 0

theorem soundWriteOp_of_unsized (unsized : ¬ SoundSized data) : soundWriteOp data ok s = (s, stLength) :=
  if_pos (not_soundSized_iff.mp unsized)

section
variable (sized : SoundSized data)
include sized

theorem soundWriteOp_of_malformed (malformed : ¬ SoundFormed data) : soundWriteOp data ok s = (s, stValue) :=
  (if_neg (mt not_soundSized_iff.mpr (Classical.not_not.mpr sized))).trans (if_pos (not_soundFormed_iff.mp malformed))

variable (formed : SoundFormed data)
include formed

theorem soundWriteOp_of_full (full : 33554432 < s.soundsUsed - soundOld data s + data.length) :
    soundWriteOp data ok s = (s, stResources) :=
  (if_neg (mt not_soundSized_iff.mpr (Classical.not_not.mpr sized))).trans <|
    (if_neg (mt not_soundFormed_iff.mpr (Classical.not_not.mpr formed))).trans (if_pos full)

/-- A sound that has room is stored where the NVM takes it. -/
theorem soundWriteOp_of_room (room : s.soundsUsed - soundOld data s + data.length ≤ 33554432) : soundWriteOp data ok s =
    if ok then ({ s with nvm := { s.nvm with
      sounds := oset s.nvm.sounds (soundId data) (some ⟨data, leNat ((data.drop 12).take 4)⟩) } }, stDone) else (s, stNvm) := by
  refine (if_neg (mt not_soundSized_iff.mpr (Classical.not_not.mpr sized))).trans <|
    (if_neg (mt not_soundFormed_iff.mpr (Classical.not_not.mpr formed))).trans <| (if_neg (Nat.not_lt.mpr room)).trans ?_
  cases ok <;> rfl

end

/-- A sound that a deletion does not find, or that the stored safe image names. -/
def SoundKept (id : Nat) (s : State) : Prop := oget s.nvm.sounds id = none ∨ id ∈ tableSounds (leNat s.safeChimes)

theorem soundKept_iff (id : Nat) (s : State) : SoundKept id s ↔
    ((oget s.nvm.sounds id).isNone || (tableSounds (leNat s.safeChimes)).contains id) = true := by
  simp [SoundKept]

theorem soundDeleteOp_of_kept {id : Nat} (kept : SoundKept id s) : soundDeleteOp id s = (s, stValue) :=
  if_pos ((soundKept_iff id s).mp kept)

theorem soundDeleteOp_of_free {id : Nat} (free : ¬ SoundKept id s) : soundDeleteOp id s =
    ({ s with nvm := { s.nvm with sounds := oset s.nvm.sounds id none } }, stDone) := if_neg (mt (soundKept_iff id s).mpr free)

end

/-- Settles O49: a walk over the output channels begins a crossfade on exactly those that hear anew when it begins, since none hears
another; whatever else a command of the engine does comes before that walk, or is told after it. -/
theorem audioEngine : Obligations.AudioEngine := by
  intro t src s canonical z now replied follows
  refine ⟨fun done => ?commit, fun clipped readings => ⟨?stopped, ?boundary, fun c runs waits => ?applied⟩,
    fun g done => ?chime, fun g => ?pattern, fun p => ?port, fun value done => ?mute, fun input out ratio => ?ratio,
    fun done ins tdm => ?stats, fun data ok done => ?write, fun id done => ?delete⟩
  case commit =>
    exact ⟨fun code => answered_of_exists done (audCommitOp_of_refused (s := z) code),
      fun code => answered_of_run done (audCommitOp_of_admitted (s := z) code)⟩
  case stopped => exact exec_audioBlockBoundary_stopped clipped readings
  case boundary =>
    intro runs noCommit
    have tables := tablesFollow_of_none (s := z) noCommit
    have heard := follows_audioFollow [] (s := z) canonical
    refine ⟨audioFollow [] z, heard, ?_, fun o n clips due => ⟨_, ?_, raises_clipTold o clips (reportDue_follows heard due)⟩⟩
    · rw [exec_audioBlockBoundary_runs _ _ runs, tables, each_nil]
    · rw [exec_audioBlockBoundary_runs _ _ runs, tables, each_nil]
      rfl
  case applied =>
    refine ⟨_, follows_audioFollow (delaysMoved c z) (s := commitShown c z) ?_, ?_⟩
    · exact (congrArg (twf _) (tablesApplied_outs c z)).trans canonical
    · rw [exec_audioBlockBoundary_runs _ _ runs, tablesFollow_of_waiting (s := z) waits, audApply_eq, each_nil, each_nil]
  case chime =>
    refine ⟨fun latency => ⟨fun off => answered_of_run done (chimeStartOp_of_disabled latency off),
        fun on unusable => answered_of_run done (chimeStartOp_of_unusable latency on unusable),
        fun usable => answered_of_exists done ⟨_, chimeStartOp_of_usable latency usable, raises_chimeTold g latency _⟩⟩,
      fun plays => answered_of_run done (congrArg (·, stDone) (chimeStop_of_playing (s := z) plays)),
      fun silent => answered_of_run done (congrArg (·, stDone) (chimeStop_of_silent (s := z) silent)), fun chimes => ?_⟩
    obtain ⟨stopped, silent, _, _, rest⟩ := chimesStopped_each (List.range 32) (s := z) chimes
    refine ⟨_, answered_of_run done rfl, fun n inside => stopped n (List.mem_range.mpr inside), silent, ?_⟩
    rw [rest]
    rfl
  case pattern =>
    refine ⟨fun early => congrArg Host.Outcome.next (chimeStep_early (s := z) early), fun plays due => ?_⟩
    have run : exec (.chimePatternStep t g) s = .next (periodEnds g z) :=
      congrArg Host.Outcome.next (chimeStep_due (s := z) plays due)
    refine ⟨fun on last => ?_, fun on more => ?_, fun gap => ?_⟩
    · exact run.trans (congrArg Host.Outcome.next ((if_pos on).trans (if_pos last)))
    · exact run.trans (congrArg Host.Outcome.next ((if_pos on).trans (if_neg (Nat.not_le.mpr more))))
    · exact run.trans (congrArg Host.Outcome.next (if_neg (ne_true_of_eq_false gap)))
  case port =>
    intro v slave faulted
    refine ⟨fun rate => ⟨exec_tdmFrame_off, fun on runs => ?frame⟩, exec_tdmClockTimeout_idle, fun lost runs slave => ?again,
      fun on new runs slave => ?lost, fun done => ⟨answered_of_run done rfl, answered_of_run done rfl⟩⟩
    case frame =>
      have framed := frameCounted_frames rate v
      refine ⟨exec_tdmFrame_master on runs, fun slave off known => ?_, fun slave off new => ?_,
        fun slave within => exec_tdmFrame_running on runs slave within,
        fun slave within fault few => exec_tdmFrame_good on runs slave within fault few, fun slave within fault enough => ?_⟩
      · exact (exec_tdmFrame_rateOff on runs slave off).trans
          (congrArg Host.Outcome.next (tdmFault_counted_same (s := z) framed _ known))
      · exact ⟨_, _, (exec_tdmFrame_rateOff on runs slave off).trans
            (congrArg Host.Outcome.next (tdmFault_counted_new (s := z) framed _ new)),
          follows_audioFollow [] canonical, raises_raise _ _ _⟩
      · exact ⟨_, exec_tdmFrame_back on runs slave within fault enough, follows_audioFollow [] canonical⟩
    case again =>
      have on : v.mode ≠ .off := by simp [lost]
      exact (exec_tdmClockTimeout_slave on runs slave).trans (congrArg Host.Outcome.next (tdmFault_same (s := z) _ lost))
    case lost =>
      exact ⟨_, _, (exec_tdmClockTimeout_slave on runs slave).trans (congrArg Host.Outcome.next (tdmFault_new (s := z) _ new)),
        follows_audioFollow [] canonical, raises_raise _ _ _⟩
  case mute =>
    exact ⟨fun beyond => answered_of_run done (audMuteOp_of_range beyond),
      fun within => ⟨_, answered_of_run done (audMuteOp_of_value within), follows_audioFollow [] canonical⟩⟩
  case ratio =>
    refine ⟨exec_asrcUnlock_stopped, fun runs wrong known => ?_, fun runs wrong new => ?_, fun runs right => ?_⟩
    · exact (exec_asrcUnlock_runs runs).trans
        (congrArg Host.Outcome.next ((if_pos wrong).trans (if_pos (List.contains_iff_mem.mpr known))))
    · exact ⟨_, _, (exec_asrcUnlock_runs runs).trans
          (congrArg Host.Outcome.next ((if_pos wrong).trans (if_neg (mt List.contains_iff_mem.mp new)))),
        follows_audioFollow [] canonical, raises_raise _ _ _⟩
    · exact ⟨_, (exec_asrcUnlock_runs runs).trans (congrArg Host.Outcome.next (if_neg right)), follows_audioFollow [] canonical⟩
  case stats =>
    refine ⟨_, answered_of_run done (audStatsClearOp_eq z), ?_, ?_, fun p => ?_, rfl, rfl⟩
    · exact tget_tmapAt_listed (g := clipsCleared) (fun _ => rfl) (fun _ => rfl) canonical
    · exact tget_tmapAt_listed (g := unlocksCleared) (fun _ => rfl) (fun _ => rfl) ins
    · refine (tget_tmapAt (g := portCleared) (fun _ => rfl) (List.range 8) tdm p).trans ?_
      simp only [List.mem_range]
      rfl
  case write =>
    refine ⟨fun unsized => answered_of_run done (soundWriteOp_of_unsized unsized),
      fun sized malformed => answered_of_run done (soundWriteOp_of_malformed sized malformed),
      fun sized formed full => answered_of_run done (soundWriteOp_of_full (s := z) sized formed full), fun sized formed room => ?_⟩
    have stored := soundWriteOp_of_room (s := z) (ok := ok) sized formed room
    cases ok with
    | false => exact answered_of_run done stored
    | true => exact answered_of_run done stored
  case delete =>
    exact ⟨fun kept => answered_of_run done (soundDeleteOp_of_kept (s := z) kept),
      fun free => answered_of_run done (soundDeleteOp_of_free (s := z) free)⟩

end Sys2Proof.Proofs
end
